-- ==== Sys2Proof/Word.lean ====
section
/-!
DEFINITION. The plain word types of the CM-9216 model (R12: bits are numbered from 0 at the least significant bit,
multi-byte values are little-endian), and the two container shapes used for everything that is large and mostly at
its reset value: a byte memory and a table of records, both lists of pairs with strictly rising keys.
-/

namespace Sys2Proof

/-- One byte. -/
abbrev Byte := BitVec 8

/-- A table of records by number: pairs with strictly rising numbers. What a number that is not listed reads as is
said by whoever reads the table. -/
abbrev Tab (α : Type) := List (Nat × α)

/-- A SHA-384 value, read as a number with the first byte of the digest most significant. -/
abbrev Hash := BitVec 384

/-- A long sum (R53): 96 bits, two's complement, read together with an anchor the value does not carry. -/
abbrev LongSum := BitVec 96

/-- The bits of an IEEE 754 binary32 value (Table 2.2). -/
abbrev F32 := BitVec 32

/-- A P-384 public key, its two coordinates (Table 16.1). -/
structure PubKey where
  x : Hash
  y : Hash
  deriving DecidableEq, Repr

end Sys2Proof
end

