-- ==== Sys2Proof/Syntax.lean ====
section
/-!
DEFINITION. The commands of the CM-9216 block: the ONE inductive `Instr`, one constructor for each row of
spec/opcode_table.json, in the table's order, with the row's operands. A unit's number is a `Fin`, so that no command
names a unit the module does not have; where the module measures or meets something physical (a temperature, a
received cell, a self-test finding), the operand is that observation. A row that runs a mailbox command takes the
mailbox: its code and payload stand in that mailbox's REQUEST area.
-/

namespace Sys2Proof

/-- The register spaces that commands read and write: BAR 0, and the spaces the MP reaches. Offsets count from the start of
the space. -/
inductive Space where
  /-- BAR 0 (Table 15.2). -/
  | bar0
  /-- The register space of a tile (R112). -/
  | tile (t : Fin 2304)
  /-- The register space of a moon (R183): Tables 5.10, 6.7, 7.4, 7.6, 9.5, 11.13, 12.9 and 13.9. -/
  | moon (m : Fin 45)
  /-- The command memory of a tile (R76, R107). -/
  | commandMemory (t : Fin 2304)
  /-- The scratchpad of a tile (R143). -/
  | scratchpad (t : Fin 2304)
  /-- The context page table (R235): entry i at offset 8i. -/
  | contextTable
  /-- The weight page table (R235): entry i at offset 8i. -/
  | weightTable
  /-- PCI configuration space (R11, R371, R374). -/
  | config
  /-- The registers of the one HDM decoder (R370), at their offsets in CXL's HDM decoder capability. -/
  | hdmDecoder
  deriving DecidableEq, Repr

/-- Who waits for a GDDR7 read that fails (R197). -/
inductive Reader where
  /-- A tile's LOAD, through memory queue q. -/
  | tile (t : Fin 2304) (q : Fin 4)
  /-- A DMA channel. -/
  | dma (c : Fin 32)
  /-- The write of an element of a memory moon's write buffer, by its place (R197: a write CRC is handled as a read's). -/
  | write (q : Fin 4) (idx : Nat)
  /-- Any other reader. -/
  | other
  deriving DecidableEq, Repr

/-- What is wrong with a GDDR7 read that fails (R197). -/
structure ReadErr where
  /-- The granule of the page. -/
  granule : BitVec 11 := 0
  /-- The read is uncorrectable, and is not tried again. -/
  uncorr : Bool := false
  deriving DecidableEq, Repr

/-- A mailbox command that releases a copy slot (R224, R228). -/
structure Release where
  /-- Mailbox. -/
  mbx : Fin 64
  /-- With FORCE. -/
  force : Bool := false
  deriving DecidableEq, Repr

/-- A supply droop (R172). -/
structure Sag where
  /-- Its depth in mV. -/
  mv : Nat
  /-- How long it lasts, in ps. -/
  ps : Nat
  deriving DecidableEq, Repr

/-- What a receiver has from a lane (R305, Table 11.13 RX_POWER). -/
structure LaneRx where
  /-- The lane. -/
  lane : Fin 5
  /-- SYNC and flag halfwords of its latest segments, oldest first; none without clock recovery. -/
  segs : List (BitVec 16)
  /-- Its optical power. -/
  power : BitVec 16
  deriving DecidableEq, Repr

/-- An IEEE 1149.1 instruction (R457). -/
inductive JtagOp where
  | bypass | idcode | samplePreload | extest
  deriving DecidableEq, Repr

/-- What self-test, training and locking found, by unit number (R428, R177, R182, R195). -/
structure Findings where
  /-- Failing physical tiles, q * 600 + r * 25 + c. -/
  tiles : List Nat := []
  /-- Failing crossing boundaries, q * 12 + boundary. -/
  crossings : List Nat := []
  /-- Failing channels. -/
  channels : List Nat := []
  /-- Failing memory moons. -/
  memMoons : List Nat := []
  /-- Failing lanes, port * 5 + lane. -/
  lanes : List Nat := []
  /-- Failing link moons. -/
  linkMoons : List Nat := []
  /-- Failing seam channels, s * 16 + d * 8 + channel. -/
  seams : List Nat := []
  /-- Failing DMA channels. -/
  dma : List Nat := []
  /-- The store controller or a store channel fails. -/
  store : Bool := false
  /-- The shadow of the fault logic fails. -/
  faultLogic : Bool := false
  /-- Channels that did not train at start-up. -/
  untrained : List Nat := []
  /-- REF_A gives no lock at start-up. -/
  noRefA : Bool := false
  /-- REF_B gives no lock at start-up. -/
  noRefB : Bool := false
  /-- Start-up step 8 did not end in its time. -/
  zeroFail : Bool := false
  /-- Start-up step 5 did not end in its time (Table 18.7). -/
  bootLate : Bool := false
  /-- Start-up step 10 did not end in its time (Table 18.7). -/
  mapLate : Bool := false
  deriving DecidableEq, Repr

/-- A command: one constructor for each row of spec/opcode_table.json. -/
inductive Instr where
  /-- NOP (R79): Tile command that occupies its issue slot and does nothing. -/
  | nop (tile : Fin 2304)
  /-- ILL_OPC (R79): Fetch of a command word whose opcode is not listed; nothing issues and the tile halts with cause ILL_OPC. -/
  | illOpc (tile : Fin 2304)
  /-- MATQ (R118): Matrix command that pops stationary and streamed operands and adds exact product terms into the long-sum accumulator. -/
  | matq (tile : Fin 2304)
  /-- MATQ_DRAIN (R123): After the last product lands, the accumulator columns are converted with CONV and pushed to the drain queue. -/
  | matqDrain (tile : Fin 2304)
  /-- VECQ (R125): Vector command that applies the elementwise, long-sum, reduction or quantising operation selected by OP. -/
  | vecq (tile : Fin 2304)
  /-- FUNQ (R131): Function command that computes EXP2, RECIP, RSQRT, LOG2, SIGMOID, TANH, SILU, GELU or SMEXP on popped vectors. -/
  | funq (tile : Fin 2304)
  /-- SEND (R100): Movement command that pops plan-queue elements and sends one per tick to a tile, a multicast group or an outbound link stream. -/
  | send (tile : Fin 2304)
  /-- RECV (R101): Movement command that pops elements from a decoupling queue into a plan queue. -/
  | recv (tile : Fin 2304)
  /-- LOAD (R104): Movement command that hands a memory read request to the memory moon for delivery into a memory queue. -/
  | load (tile : Fin 2304)
  /-- STORE (R104): Movement command that pops elements and hands them to the memory moon's write buffer. -/
  | store (tile : Fin 2304)
  /-- WAIT (R103): Movement command that watches a decoupling queue for a count, with a release tick at issue plus budget. -/
  | wait (tile : Fin 2304)
  /-- WAIT_RELEASE (R35): At the release tick t0 + b the WAIT releases when the queue holds its count. -/
  | waitRelease (tile : Fin 2304)
  /-- HOLD_END (R36): When the held queue's count is met, the clocks resume and the WAIT releases at its release tick. -/
  | holdEnd (tile : Fin 2304)
  /-- HOLD_LIMIT_EXPIRY (R37): A hold that outlasts the partition's hold limit raises a HALT naming the queue. -/
  | holdLimitExpiry (tile : Fin 2304)
  /-- CNT (R89): Control command that sets, adds to or copies a counter. -/
  | cnt (tile : Fin 2304)
  /-- CMP (R90): Control command that writes a predicate bit from a counter comparison. -/
  | cmp (tile : Fin 2304)
  /-- SKIP (R87): Control command that skips the next N commands in issue order. -/
  | skip (tile : Fin 2304)
  /-- REPT (R91): Control command that issues a fixed body of commands COUNT times. -/
  | rept (tile : Fin 2304)
  /-- SPLD (R95): Control command that copies SLOT_STAGE into SLOT_PRED. -/
  | spld (tile : Fin 2304)
  /-- MARK (R93): Control command that ends the orbit's stream (END) or writes a stamp into MARK_LOG (STAMP). -/
  | mark (tile : Fin 2304)
  /-- BRK (R109): Control command that fires a break while CMD_EN is set and otherwise acts as NOP. -/
  | brk (tile : Fin 2304)
  /-- BREAK_PARK (R110): At the end of tick T + 15 after a break, every tile of the partition parks with RESUMABLE set. -/
  | breakPark (part : Fin 16)
  /-- ORBIT_BOUNDARY (R33): At tick 0 of an orbit, the prepared boundary set takes effect together and index 0 issues. -/
  | orbitBoundary (part : Fin 16)
  /-- PACING_END (R317): When MT reaches the paced start, the orbit begins. -/
  | pacingEnd (part : Fin 16)
  /-- SLOT_STAGE_WRITE (R95): At tick 128 the distributor writes each tile's slot predicate bits into SLOT_STAGE. -/
  | slotStageWrite (part : Fin 16)
  /-- MESH_ARRIVAL (R155): An element arriving at a router's local output is pushed into its destination plan queue, or discarded. -/
  | meshArrival (tile : Fin 2304)
  /-- MEMORY_DELIVERY (R191): The memory moon pushes LOAD elements into the memory queue, in order, as the queue has room. -/
  | memoryDelivery (tile : Fin 2304) (q : Fin 4)
  /-- FENCE_RECEIVE (R244): A slot fence sent on the ring reaches another memory moon, which fences the slot from then on. -/
  | fenceReceive (q : Fin 4)
  /-- STORE_WRITE (R192): A controller writes STORE data from the write buffer to GDDR7 and frees the buffer. -/
  | storeWrite (q : Fin 4) (idx : Nat)
  /-- REFRESH (R195): A channel performs a per-bank refresh that falls due. -/
  | refresh (ch : Fin 48) (ns : Nat)
  /-- ROUTINE_RETRAINING (R196): Retraining falls due on a temperature change or after 10 ms, and is deferred to a boundary window. -/
  | routineRetraining (ch : Fin 48)
  /-- CRC_RETRAINING (R195): More than 16 CRC retries within 1 ms put the channel into RETRAINING. -/
  | crcRetraining (ch : Fin 48)
  /-- TRAINING_PASS (R195): Channel training passes and the channel returns to UP. -/
  | trainingPass (ch : Fin 48)
  /-- TRAINING_FAIL (R195): Training that fails three times in succession puts the channel DOWN and raises a HALT. -/
  | trainingFail (ch : Fin 48)
  /-- READ_CRC_FAIL (R197): A GDDR7 read whose CRC fails is repeated up to three times, then the read fails with a HALT. -/
  | readCrcFail (ch : Fin 48) (who : Reader) (err : ReadErr)
  /-- ECC_READ (R197): Every 1 ms the controller reads the on-die ECC correction counts and raises a NOTE on corrections. -/
  | eccRead (ch : Fin 48) (count : Nat)
  /-- DEVICE_TEMPERATURE_READ (R196): Every 1 ms the controller reads the device temperature, which drives routine retraining. -/
  | deviceTemperatureRead (ch : Fin 48) (temp : BitVec 8)
  /-- TIERED_READ (R233): The store controller serves a LOAD piece from the store tier or a LOC 1 page. -/
  | tieredRead (tile : Fin 2304) (q : Fin 4) (corrected : Bool)
  /-- PAGE_MAP (R239): Mailbox command that maps free context pages to zeroed frames or to store units. -/
  | pageMap (m : Fin 64)
  /-- PAGE_UNMAP (R239): Mailbox command that unmaps context pages and releases their frames. -/
  | pageUnmap (m : Fin 64)
  /-- PAGE_READ (R239): Mailbox command that returns context page table entries. -/
  | pageRead (m : Fin 64)
  /-- DMA_EN (R255): A write of DMA_CTRL.EN starts or stops a DMA channel, or is refused with CFG_ERR. -/
  | dmaEn (c : Fin 32) (v : Bool)
  /-- ABORT (R254): A write of DMA_CTRL.ABORT asks the channel to stop after the current burst. -/
  | abort (c : Fin 32)
  /-- RESUME (R255): A write of DMA_CTRL.RESUME moves a STOPPED channel back to RUN at HEAD. -/
  | resume (c : Fin 32)
  /-- TAIL (R250): The runtime's write of TAIL advances the ring, or is discarded with CFG_ERR when out of range. -/
  | tail (c : Fin 32) (v : BitVec 16)
  /-- DESCRIPTOR_READ (R249): A running channel reads the descriptor at HEAD while HEAD differs from TAIL and begins its range. -/
  | descriptorRead (c : Fin 32)
  /-- DESCRIPTOR_READ_FAIL (R462): A failed or timed-out read of the descriptor at HEAD stops the channel with no write-back. -/
  | descriptorReadFail (c : Fin 32)
  /-- LOCK_WAIT_END (R252): A channel waiting on a page lock takes the lock once it is released. -/
  | lockWaitEnd (c : Fin 32)
  /-- BURST (R251): A DMA burst completes and its bytes count as moved. -/
  | burst (c : Fin 32)
  /-- HOST_COMPLETION_TIMEOUT (R253): No host completion within 50 ms ends the descriptor with TIMEOUT. -/
  | hostCompletionTimeout (c : Fin 32)
  /-- WRITE_BACK (R250): The channel writes a descriptor's status and residue back, clearing OWN. -/
  | writeBack (c : Fin 32)
  /-- ABORT_WRITE_BACK (R254): After the current burst of an aborted descriptor finishes, the channel writes it back ABORTED and stops. -/
  | abortWriteBack (c : Fin 32)
  /-- SUBMIT (R262): The MP takes a request descriptor from the submission ring and accepts or refuses it. -/
  | submit (part : Fin 16)
  /-- ADMIT (R264): A write of SRV_CTRL.ADMIT starts or stops the reading of request descriptors. -/
  | admitWrite (part : Fin 16) (v : Bool)
  /-- PLACEMENT (R273): During orbit n the leader settles budgets and forms the placement of orbit n + 1. -/
  | placement (part : Fin 16)
  /-- STALE (R265): A leader that has not formed the placement by tick ORBIT_LEN ÷ 2 sends STALE in its place. -/
  | stale (part : Fin 16)
  /-- PLACEMENT_RECEIVE (R338): A module receives the parts of a PLACEMENT message. -/
  | placementReceive (part : Fin 16)
  /-- SLOT_TABLE_BUILD (R266): A module builds the next slot table from the placement, pins its pages and marks the table ready. -/
  | slotTableBuild (part : Fin 16)
  /-- TOKEN_DELIVERY (R277): Once the orbit's marks are held and unfenced, the leader writes the TOKEN record and advances EPH_HEAD. -/
  | tokenDelivery (part : Fin 16)
  /-- GAP (R283): When ring space returns after lost records, a GAP record carries the count. -/
  | gap (part : Fin 16)
  /-- WEIGHT_LOAD (R222): Mailbox command that loads a base-model copy into a copy slot from a store or host source. -/
  | weightLoad (m : Fin 64)
  /-- SHARD_FETCH_DONE (R223): A shard's last byte arrives and its hash is checked, which verifies it or triggers a refetch or failure. -/
  | shardFetchDone (part : Fin 16) (m : Fin 64) (shard : Nat)
  /-- SHARD_TIMEOUT (R223): A shard whose last byte has not arrived within 10 s ends the load with TIMEOUT. -/
  | shardTimeout (part : Fin 16) (m : Fin 64) (shard : Nat)
  /-- WEIGHT_FLIP (R225): Mailbox command that arranges activation of the other copy slot. -/
  | weightFlip (m : Fin 64)
  /-- WEIGHT_RELEASE (R224): Mailbox command that releases a copy slot, with FORCE (R228) or without. -/
  | weightRelease (m : Release)
  /-- ADAPTER_LOAD (R229): Mailbox command that loads a new adapter generation into a free area. -/
  | adapterLoad (m : Fin 64)
  /-- ADAPTER_DELETE (R231): Mailbox command that deletes an adapter handle. -/
  | adapterDelete (m : Fin 64)
  /-- INSTALL_OPEN (R208): Mailbox command that opens installation mode. -/
  | installOpen (m : Fin 64)
  /-- IMAGE_BEGIN (R212): Mailbox command that starts or continues an image in a directory slot. -/
  | imageBegin (m : Fin 64)
  /-- BLOCK_WRITE (R210): Mailbox command that programs and verifies one 64 MiB image position under the journal. -/
  | blockWrite (m : Fin 64)
  /-- IMAGE_COMMIT (R211): Mailbox command that checks an image read back from the store and commits it. -/
  | imageCommit (m : Fin 64)
  /-- IMAGE_DELETE (R212): Mailbox command that deletes an image and erases its blocks. -/
  | imageDelete (m : Fin 64)
  /-- INSTALL_CLOSE (R208): Mailbox command that closes installation mode. -/
  | installClose (m : Fin 64)
  /-- JOURNAL_REPLAY (R212): At start-up the store controller replays the journal and repairs blocks and images. -/
  | journalReplay
  /-- STORE_READY (R451): The end of journal replay sets STORE_READY. -/
  | storeReady
  /-- POST (R382): A doorbell write posts the mailbox's request to the MP. -/
  | post (m : Fin 64)
  /-- MP_ACCEPT (R382): The MP takes a posted command, or finishes or refuses it at once. -/
  | mpAccept (m : Fin 64)
  /-- AUTO (R382): A command unanswered 18 µs after POST gets a BUSY answer from the hardware. -/
  | auto (m : Fin 64)
  /-- SHED (R380): SHED sets when FAULT or SERVING work has waited over 10 µs for a core. -/
  | shed
  /-- SHED_CLEAR (R380): SHED clears after 100 µs with no such wait. -/
  | shedClear
  /-- PART_CREATE (R385): Mailbox command that creates a partition over a set of blocks and clears its tiles. -/
  | partCreate (m : Fin 64)
  /-- PART_DESTROY (R385): Mailbox command that destroys an empty partition and clears its state. -/
  | partDestroy (m : Fin 64)
  /-- TIME_ROOT (R331): Mailbox command that starts or ends the module's role as time root. -/
  | timeRoot (m : Fin 64)
  /-- STEP_LIMIT (R171): Mailbox command that sets the operator limit on the tile step. -/
  | stepLimit (m : Fin 64)
  /-- TRANSIT_READ (R159): Mailbox command that writes the module's transit table to the host. -/
  | transitRead (m : Fin 64)
  /-- DIR_READ (R386): Mailbox command that writes the weight-store directory to the host. -/
  | dirRead (m : Fin 64)
  /-- PLAN_LOAD (R22): Mailbox command that checks, relocates and loads a plan into a partition. -/
  | planLoad (m : Fin 64)
  /-- PLAN_UNLOAD (R26): Mailbox command that unloads a partition's plan. -/
  | planUnload (m : Fin 64)
  /-- PART_STOP (R26): Mailbox command that stops a running plan. -/
  | partStop (m : Fin 64)
  /-- PART_RESTART (R26): Mailbox command that returns a stopped plan to LOADED or EMPTY. -/
  | partRestart (m : Fin 64)
  /-- PART_RESUME (R105): Mailbox command that resumes a partition parked by a break. -/
  | partResume (m : Fin 64)
  /-- LEVEL_REPORT (R163): Mailbox command that returns the partition's level report. -/
  | levelReport (m : Fin 64)
  /-- HOLD_LIMIT (R37): Mailbox command that sets or reads the partition's hold limit. -/
  | holdLimit (m : Fin 64)
  /-- SELECTOR_LOAD (R271): Mailbox command that loads the slot selector table. -/
  | selectorLoad (m : Fin 64)
  /-- REQ_CANCEL (R263): Mailbox command that ends a request at the next placement. -/
  | reqCancel (m : Fin 64)
  /-- REQ_ECLIPSE (R275): Mailbox command that eclipses a request until REQ_RESUME. -/
  | reqEclipse (m : Fin 64)
  /-- REQ_RESUME (R275): Mailbox command that makes an eclipsed request eligible again. -/
  | reqResume (m : Fin 64)
  /-- REQ_REMAP (R276): Mailbox command that replaces an eclipsed request's page list. -/
  | reqRemap (m : Fin 64)
  /-- BUDGET_SET (R278): Mailbox command that writes budget entries. -/
  | budgetSet (m : Fin 64)
  /-- RANK_WRITE (R345): Mailbox command that writes rank table entries. -/
  | rankWrite (m : Fin 64)
  /-- JOB_PREPARE (R348): Mailbox command that checks the partition, brings up declared ports and starts discovery. -/
  | jobPrepare (m : Fin 64)
  /-- JOB_GO (R351): Mailbox command that arms the job to start at START_MT and START_ORBIT. -/
  | jobGo (m : Fin 64)
  /-- JOB_STOP (R353): Mailbox command that stops the job, clears port tags and releases retained copies. -/
  | jobStop (m : Fin 64)
  /-- CKPT_TAKE (R355): Mailbox command that schedules a checkpoint of orbit k. -/
  | ckptTake (m : Fin 64)
  /-- CKPT_RESTORE (R359): Mailbox command that restores budgets and pending restarts from a checkpoint. -/
  | ckptRestore (m : Fin 64)
  /-- ROUTE_SWITCH (R334): Mailbox command at rank 0 that floods EPOCH_SWITCH for a route-epoch change. -/
  | routeSwitch (m : Fin 64)
  /-- PORT_READ (R313): Mailbox command that returns a logical port's registers. -/
  | portRead (m : Fin 64)
  /-- PORT_CTRL (R384): Mailbox command that retrains a logical port or forces it DOWN. -/
  | portCtrl (m : Fin 64)
  /-- BIST_RUN (R427): Mailbox command that runs built-in self-test on the selected groups. -/
  | bistRun (m : Fin 64)
  /-- BIST_RUN_END (R429): When every selected group has finished, the findings are merged into the crater map and the reply is written. -/
  | bistRunEnd (find : Findings)
  /-- CRATER_READ (R434): Mailbox command that writes the crater map in force and the pending map to the host. -/
  | craterRead (m : Fin 64)
  /-- ESCALATION_SET (R415): Mailbox command that sets escalation limits and windows for a range of sources. -/
  | escalationSet (m : Fin 64)
  /-- FAULT_HOLD_CLEAR (R421): Mailbox command that clears HOLD when the runtime has read past the latest HALT. -/
  | faultHoldClear (m : Fin 64)
  /-- TOKEN_APPLY (R402): Mailbox command that issues a nonce or checks and applies a life-cycle token. -/
  | tokenApply (m : Fin 64)
  /-- GO (R169): A write of CLK_CTRL.GO starts a tile step change, or is refused with STEP_ERR. -/
  | go (tgt : BitVec 3)
  /-- STEP_CHANGE_RESUME (R169): The generators take the new frequency and all tile moons resume together. -/
  | stepChangeResume (ns : Nat)
  /-- REF_PREF (R182): A write of CLK_CTRL.REF_PREF selects the preferred reference. -/
  | refPref (v : Bool)
  /-- DROOP (R172): A supply droop below threshold stretches the moon's next period and those of its seam group. -/
  | droop (moon : Fin 45) (sag : Sag)
  /-- TIDE_EXCURSION (R173): A run of 1,024 periods holding more than TIDE_THR stretched periods counts a tide excursion and raises a NOTE. -/
  | tideExcursion (moon : Fin 45)
  /-- TIDE_CEILING_RAISE (R171): After 1 s without a tide excursion the tide ceiling rises by one step. -/
  | tideCeilingRaise
  /-- COUPLING_PAUSE (R175): A tile moon that may not begin its next tick rests, and resumes on the first edge at which the coupling rules are met. It has rested so many ns. -/
  | couplingPause (moon : Fin 36) (ns : Nat)
  /-- REFERENCE_BAD (R182): A reference with no edge for 1 µs or drift over 200 ppm is judged bad, and switchover or holdover follows. -/
  | referenceBad (b : Bool)
  /-- REFERENCE_GOOD (R182): A bad reference that stays good for 1 ms becomes standby. -/
  | referenceGood (b : Bool)
  /-- HOLDOVER_EXPIRY (R182): After 10 ms of holdover with both references bad, the PLLs free-run on the internal oscillator. -/
  | holdoverExpiry
  /-- PLL_LOCK_LOSS (R182): A tile, memory or link moon PLL loses lock and starts to relock. -/
  | pllLockLoss (pll : Fin 12)
  /-- PLL_RELOCK (R182): A PLL relocks and its moons resume. -/
  | pllRelock (pll : Fin 12)
  /-- PLL_FAIL (R182): A tile PLL that has not relocked within 100 µs raises a HALT in every running partition. -/
  | pllFail (pll : Fin 12)
  /-- SEAM_PHASE_ERROR (R179): A seam group's phase error above a quarter period pauses the tile moons for realignment. -/
  | seamPhaseError (g : Fin 9)
  /-- SEAM_REALIGN (R179): Realignment completes, the moons resume and a NOTE is raised. -/
  | seamRealign (g : Fin 9)
  /-- SEAM_FAIL (R179): Realignment that has not succeeded within 100 µs raises a HALT in every running partition. -/
  | seamFail (g : Fin 9)
  /-- PORT_EN (R307): A write of PORT_CTRL.EN lights the port and starts training, or turns it OFF. -/
  | portEn (port : Fin 32) (v : Bool)
  /-- RETRAIN (R307): A write of PORT_CTRL.RETRAIN returns the port to TRAINING. -/
  | retrain (port : Fin 32)
  /-- DARK (R307): A write of PORT_CTRL.DARK holds the port DARK or returns it to TRAINING. -/
  | dark (port : Fin 32) (v : Bool)
  /-- FORCE_DOWN (R307): A write of PORT_CTRL.FORCE_DOWN declares the port DOWN. -/
  | forceDown (port : Fin 32)
  /-- JOB_ID_WRITE (R307): A write of a port's JOB_ID sets its tag and epoch and starts training. -/
  | jobIdWrite (port : Fin 32) (v : BitVec 32)
  /-- LANE_ACQUISITION_TIMEOUT (R308): A lane without lock and alignment 20 ms into training is failed. -/
  | laneAcquisitionTimeout (port : Fin 32) (lane : Fin 5)
  /-- TRAINING_CELL (R308): A received training cell is compared with the port's tag, epoch and READY. -/
  | trainingCell (port : Fin 32) (cell : List Byte)
  /-- TRAIN_TIMEOUT (R308): A port not UP 50 ms after training began sets TRAIN_TIMEOUT. -/
  | trainTimeout (port : Fin 32)
  /-- PACKET_RECEIVED (R303): A received packet is checked and dropped, relayed, handed to fabric logic or staged for delivery. -/
  | packetReceived (port : Fin 32) (cells : List Byte)
  /-- DELIVERY_PUSH (R304): Once the link queue has room for the whole packet, the link moon pushes its elements. -/
  | deliveryPush (port : Fin 32)
  /-- STREAM_APPEND (R297): Bytes popped by a link SEND enter the port's outbound stream buffer, or overflow with a HALT. -/
  | streamAppend (port : Fin 32)
  /-- SLOT_START (R300): At an outbound slot whose COND holds, the port sends a SOURCE or FORWARD packet. -/
  | slotStart (port : Fin 32)
  /-- COMET_SLOT (R314): In a comet slot the port sends the oldest pending packet of the reserved kind or the fallback order. -/
  | cometSlot (port : Fin 32)
  /-- LOCK_LOSS (R305): A lane loses symbol lock. -/
  | lockLoss (port : Fin 32) (rx : LaneRx)
  /-- LOCK_REGAIN (R305): A lane regains lock after 64 consecutive correct segments. -/
  | lockRegain (port : Fin 32) (rx : LaneRx)
  /-- LANE_FAILED (R305): After 4 µs without lock, the lane is declared failed, and halo substitution or DOWN follows. -/
  | laneFailed (port : Fin 32) (lane : Fin 5)
  /-- PORT_OUTAGE_EXPIRY (R305): All lanes still without lock after the 110 µs suspension declare the port DOWN. -/
  | portOutageExpiry (port : Fin 32)
  /-- HALO_REQ (R306): A far transmitter that sees HALO_REQ moves the failed stripe onto LANE[4] and sets HALO_ACK. -/
  | haloReq (port : Fin 32) (lane : Fin 5)
  /-- HALO_ACK (R306): A receiver that sees HALO_ACK starts deskewing LANE[4]. -/
  | haloAck (port : Fin 32) (lane : Fin 5)
  /-- DESKEW_DONE (R306): The deskew completes and the port leaves substitution for UP with HALO_USED. -/
  | deskewDone (port : Fin 32)
  /-- SUBST_TIMEOUT (R306): Substitution not completed 120 µs after declaration takes the port DOWN. -/
  | substTimeout (port : Fin 32)
  /-- FAR_DOWN_SEEN (R307): A segment with DOWN set from the far end takes the port DOWN. -/
  | farDownSeen (port : Fin 32)
  /-- LASER_OFF (R307): A port that declared itself DOWN turns off its lasers after sending DOWN for 10 µs. -/
  | laserOff (port : Fin 32)
  /-- DUE_SLOT_END (R320): An inbound entry still open at the end of its DUE_SLOT is missing, and round-1 receipts are sent. -/
  | dueSlotEnd (port : Fin 32) (pos : Nat)
  /-- RECEIPT (R321): A received RECEIPT makes the source re-send held copies or answer GONE, or makes the receiver abandon listed entries. -/
  | receipt (part : Fin 16)
  /-- FAB_SECOND (R322): An entry still open LATE_INC_NS after its round-2 request raises a HALT. -/
  | fabSecond (part : Fin 16)
  /-- ORBIT_MARK (R327): A received orbit mark is merged into the next round, and the marks complete at MARK_ROUNDS. -/
  | orbitMark (part : Fin 16)
  /-- CHECKPOINT_WRITE_DONE (R357): The checkpoint write ends with COMMIT, and CKPT_STATUS is set. -/
  | checkpointWriteDone (part : Fin 16)
  /-- MARK_TIMEOUT (R328): Marks not complete by tick ORBIT_LEN ÷ 2 of the next orbit raise a HALT. -/
  | markTimeout (part : Fin 16)
  /-- TIME (R330): A received TIME packet from the parent adjusts machine time. -/
  | time (part : Fin 16)
  /-- TIME_PARENT_LOSS (R330): After 10 ms without a parent the module sets STRATUM 0xFF and runs MT free. -/
  | timeParentLoss
  /-- MGMT (R337): A received MGMT packet is acted on and flooded onward once. -/
  | mgmt (part : Fin 16)
  /-- DISC_TIMEOUT (R350): At DISC_TIMEOUT with a declared port not good, the job state goes to FAILED. -/
  | discTimeout (part : Fin 16)
  /-- JOB_START (R350): When MT reaches START_MT, an ARMED job's plan enters RUNNING at START_ORBIT. -/
  | jobStart (part : Fin 16)
  /-- FAULT_EVENT (R417): A fault event reaches the fault logic, is counted and entered in the history, and acts by its class. -/
  | faultEvent (cls : BitVec 2) (src : BitVec 12) (cause : BitVec 16) (part : BitVec 8) (detail : BitVec 64)
  /-- PULSE_END (R420): The 10 µs FAULT_N pulse ends. -/
  | pulseEnd
  /-- WATCHDOG (R423): An MP watchdog expiry sets MP_FAILED and raises a HALT in every running partition. -/
  | watchdog
  /-- SE_FAIL (R422): A security engine that misses its liveness check sets SE_FAILED and raises SEAL. -/
  | seFail
  /-- ALIVE_TOGGLE (R422): At the end of each 500 µs interval ALIVE changes level while the MP and the security engine are live. -/
  | aliveToggle
  /-- RECOVERY_GO (R397): A write of RCV_CTRL.GO in recovery wait loads, checks and starts an image from the host. -/
  | recoveryGo (find : Findings)
  /-- IDE_INTEGRITY (R407): An IDE integrity failure puts the stream insecure and raises a DEGRADE. -/
  | ideIntegrity (stream : Fin 3)
  /-- GET_VERSION (R404): SPDM request for the supported versions. -/
  | getVersion
  /-- GET_CAPABILITIES (R404): SPDM request for capabilities. -/
  | getCapabilities
  /-- NEGOTIATE_ALGORITHMS (R404): SPDM request that negotiates algorithms. -/
  | negotiateAlgorithms (asym : BitVec 32) (hash : BitVec 32) (dhe : BitVec 16) (aead : BitVec 16)
  /-- GET_DIGESTS (R404): SPDM request for certificate digests. -/
  | getDigests
  /-- GET_CERTIFICATE (R404): SPDM request for the certificate chain of slot 0. -/
  | getCertificate (slot : BitVec 8) (off : BitVec 16) (len : BitVec 16)
  /-- CHALLENGE (R404): SPDM challenge signed with the device key. -/
  | challenge (slot : BitVec 8) (nonce : BitVec 256)
  /-- GET_MEASUREMENTS (R405): SPDM request for the measurement blocks. -/
  | getMeasurements (index : BitVec 8) (sign : Bool) (nonce : BitVec 256)
  /-- KEY_EXCHANGE (R404): SPDM request that opens a secured session, refused as busy at a fifth. -/
  | keyExchange (slot : BitVec 8) (id : BitVec 16) (share : BitVec 768)
  /-- FINISH (R404): SPDM request that completes session establishment. -/
  | finish (id : BitVec 32) (ok : Bool)
  /-- KEY_UPDATE (R404): SPDM request that updates session keys. -/
  | keyUpdate (id : BitVec 32)
  /-- HEARTBEAT (R404): SPDM session heartbeat request. -/
  | heartbeat (id : BitVec 32)
  /-- END_SESSION (R404): SPDM request that ends a secured session. -/
  | endSession (id : BitVec 32)
  /-- SET_ENDPOINT_ID (R388): MCTP control command that sets the endpoint ID. -/
  | setEndpointId (eid : BitVec 8)
  /-- GET_ENDPOINT_ID (R388): MCTP control command that returns the endpoint ID. -/
  | getEndpointId
  /-- GET_MCTP_VERSION_SUPPORT (R388): MCTP control command that returns the supported MCTP versions. -/
  | getMctpVersionSupport (ty : BitVec 8)
  /-- GET_MESSAGE_TYPE_SUPPORT (R388): MCTP control command that returns the supported message types. -/
  | getMessageTypeSupport
  /-- IDENT_READ (R389): Sideband command that returns the identity register. -/
  | identRead
  /-- SENSOR_READ (R389): Sideband command that returns input and temperature readings. -/
  | sensorRead
  /-- POWER_LIMIT (R389): Sideband command that sets the input power limit. -/
  | powerLimit (watts : BitVec 16)
  /-- FAULT_SUMMARY (R389): Sideband command that returns the last HALT or SEAL. -/
  | faultSummary
  /-- QUIESCE (R389): Sideband command that stops running partitions and replies when power may be removed. -/
  | quiesce
  /-- INPUT_RISE (R438): The 48 V input rising through the turn-on threshold starts the first stage and the start-up sequence. -/
  | inputRise
  /-- INTERNAL_RESET_RELEASE (R450): Internal reset is released once the rails have been in range for 1 ms with RST_N high, and boot and start-up steps 5 to 11 follow. -/
  | internalResetRelease (find : Findings)
  /-- INPUT_RANGE (R438): An input outside 40 to 60 V for 1 ms raises INPUT_RANGE and throttles the tile step. -/
  | inputRange (out : Bool)
  /-- INPUT_FALL (R438): The input falling through the turn-off threshold lets a store program finish and abandons an erase. -/
  | inputFall
  /-- HOLD_UP_END (R438): At the end of the hold-up every rail turns off. -/
  | holdUpEnd
  /-- OVERVOLTAGE (R438): An input above the overvoltage cut-off turns off the first stage within 10 µs. -/
  | overvoltage
  /-- RAIL_FAIL (R440): A rail that misses its range within its ramp time turns later rails off and raises SEAL. -/
  | railFail (k : Fin 8)
  /-- POWER_MEASUREMENT (R443): Every 100 µs input power is measured, and the power ceiling is lowered after ten measurements over the limit. -/
  | powerMeasurement (mv : BitVec 16) (ca : BitVec 16) (watts : BitVec 16) (core : BitVec 16)
  /-- POWER_CEILING_RAISE (R443): After 100 ms below 90% of the limit the power ceiling rises by one step. -/
  | powerCeilingRaise
  /-- THERMAL_READ (R444): Every 1 ms the MP reads the temperature sensors and adjusts or trips the thermal ceiling. -/
  | thermalRead (t : BitVec 40) (ok : BitVec 5)
  /-- SENSOR_FAIL (R444): A sensor unreadable for 10 ms raises SENSOR_FAIL and holds its ceiling at step 4. -/
  | sensorFail (sensor : Fin 5)
  /-- VCORE_UV (R446): VCORE more than 50 mV low for 10 µs raises a HALT in every running partition. -/
  | vcoreUv
  /-- VCORE_OV (R446): VCORE above 0.800 V for 1 µs raises SEAL. -/
  | vcoreOv
  /-- VCORE_OCP (R446): VCORE overcurrent for 2 µs raises SEAL. -/
  | vcoreOcp
  /-- PHASE_FAIL (R446): A VCORE phase that stops regulating raises a DEGRADE and drops the ceiling to step 5. -/
  | phaseFail
  /-- RST_N (R447): RST_N held low for at least 10 µs resets the module. -/
  | rstN (ns : Nat)
  /-- PERST_N (R449): PERST_N, a CXL hot reset or a link-down resets the host interface only. -/
  | perstN
  /-- WINDOW_READ (R377): A CXL.mem read of the BAR 2 window is served, or completed with poisoned data, by the page entry. -/
  | windowRead (off : BitVec 36) (len : Nat)
  /-- WINDOW_WRITE (R377): A CXL.mem write of the BAR 2 window is served or discarded by the page entry. -/
  | windowWrite (off : BitVec 36) (bytes : List Byte)
  /-- WINDOW_TIMEOUT (R378): A window read that cannot complete in 20 µs completes with poisoned data. -/
  | windowTimeout (off : BitVec 36) (len : Nat)
  /-- SNOOP (R373): A CXL.cache snoop is answered as a miss. -/
  | snoop
  /-- BIAS_FLIP (R376): A bias-flip request for the window is refused. -/
  | biasFlip
  /-- COMMAND_MEMORY_WRITE (R107): An MP write of command memory is accepted only while the tile is PARKED, and is otherwise discarded and counted. -/
  | commandMemoryWrite (tile : Fin 2304) (off : BitVec 16) (v : BitVec 64)
  /-- SCRATCHPAD_WRITE (R143): An MP write of scratchpad is accepted only while the tile is PARKED. -/
  | scratchpadWrite (tile : Fin 2304) (off : BitVec 18) (v : BitVec 64)
  /-- CLEAR (R105): A write of SEQ_CTRL.CLEAR moves a HALTED tile to PARKED. -/
  | clear (tile : Fin 2304)
  /-- DBG_EN (R111): A write of BRK_CTRL.DBG_EN takes effect only while the diagnostic window is open. -/
  | dbgEn (tile : Fin 2304) (v : Bool)
  /-- READ_CLEAR (R13): A read of an RC register returns its value and then clears it. -/
  | readClear (sp : Space) (off : BitVec 26) (wide : Bool)
  /-- REGISTER_WRITE (R13): A write to any register without a row of its own follows its access code, or is discarded. -/
  | registerWrite (sp : Space) (off : BitVec 26) (bytes : Nat) (v : BitVec 64)
  /-- HOST_LINK_TRAINED (R372): The host link finishes training, or retrains, at some width and rate; below x16 or 32 GT/s this raises LINK_REDUCED, updates GLB_STATUS and raises vector 1. -/
  | hostLinkTrained (cxl : Bool) (width : BitVec 3) (rate : BitVec 3)
  /-- MANIFEST_READ_DONE (R223): A weight or adapter load's manifest read from its source ends, and the manifest is checked or the alternate source is tried. -/
  | manifestReadDone (part : Fin 16) (m : Fin 64)
  /-- MANIFEST_READ_TIMEOUT (R223): A manifest read that has not ended within 10 s fails with TIMEOUT. -/
  | manifestReadTimeout (part : Fin 16) (m : Fin 64)
  /-- RETRAINING_DEFERRAL_EXPIRY (R196): A routine retraining deferred for a running partition starts once 5 ms have passed, even though no boundary window has begun. -/
  | retrainingDeferralExpiry (ch : Fin 48)
  /-- RUNNING_ENTRY_CLEAN_UP_DONE (R97): The clean-up of LOADs, delivery stages and queue counts before entry into RUNNING ends, and the entry waiting on it proceeds. -/
  | runningEntryCleanUpDone (part : Fin 16)
  /-- IDE_KEY_MANAGEMENT (R406): A key-management message inside a secured SPDM session sets or refreshes IDE stream keys, and a stream left insecure carries traffic again. -/
  | ideKeyManagement (id : BitVec 32) (stream : Fin 3)
  /-- DOE_DISCOVERY (R370): A DOE discovery request is answered with the supported DOE protocols. -/
  | doeDiscovery (index : BitVec 8)
  /-- IEEE_1149_1_INSTRUCTION (R457): A BYPASS, IDCODE, SAMPLE/PRELOAD or EXTEST instruction on the IEEE 1149.1 port takes effect, and EXTEST is refused while any partition exists. -/
  | ieee11491Instruction (ins : JtagOp)
  /-- BAR0_ERR_READ (R375): A BAR 0 read that is not an aligned 32-bit or 64-bit access returns all ones and counts in BAR0_ERR. -/
  | bar0ErrRead (off : BitVec 26) (bytes : Nat)
  /-- HEARTBEAT_INCREMENT (R375): Every 1 ms while the MP runs, HEARTBEAT increments and MP_LOAD is updated. -/
  | heartbeatIncrement (busy : BitVec 10)
  deriving DecidableEq, Repr

end Sys2Proof
end

