-- ==== Sys2Proof/Config.lean ====
section
/-!
DEFINITION. What the spec leaves open: opaque constants without a body, so that nothing can be proved of their values.
Each is applied to the counter of free values in the state, or to the operands the value depends on.
-/

namespace Sys2Proof.Config

open Sys2Proof

/-- A fresh value that no rule fixes: a nonce, a session identifier, random data (drawn with the state's counter). -/
opaque freeBits (w : Nat) : Nat → BitVec w

/-- The device seed that a PROVISION token makes the security engine write (Table 16.6), by the state's counter. -/
opaque newSeed : Nat → Hash

/-- The public half of the device key (x, then y) derived from the device seed (Table 16.1): the spec gives no derivation. -/
opaque deviceKey : Hash → BitVec 768

/-- An ECDSA P-384 signature under the device key of a seed, by message hash and the state's counter (the standard's
random nonce): r, then s. -/
opaque sign : Hash → Hash → Nat → BitVec 768

/-- Relaxed function variants (R133): which of the FP32 values within the relative error 2^-10 a variant gives, by FN,
STEP_METAL, the input and m. -/
opaque relaxed : Nat → Nat → F32 → F32 → BitVec 32

/-- The slot tag an element carries in slot-tagging mode (R40), by plan hash, tile, queue and push index: the command that
the plan expects to pop it. No section of a plan holds it. -/
opaque slotTag : Hash → Nat → Nat → Nat → BitVec 16

/-- The expected signature of a test unit (R428) in this module's boot ROM, by group, unit code and depth. -/
opaque bistExpected : Nat → Nat → Bool → BitVec 64

/-- In which bits the signature of a failing test unit differs from the expected one, by group, unit code and the state's counter. -/
opaque bistFound : Nat → Nat → Nat → BitVec 64

/-- Measured margin of a crossing boundary in ps (R177), by boundary. -/
opaque xcalMargin : Nat → BitVec 12

/-- Bytes of an SPDM or MCTP response whose contents the published standard lays out and the spec does not repeat, by
request kind and the state's counter. -/
opaque response : Nat → Nat → List Byte

/-- The physical column that TILE_LOC (Table 3.11) reads for a virtual tile that no physical tile serves (R18), by tile. -/
opaque noColumn : Nat → BitVec 5

/-- Takawell's IEEE 1149.1 manufacturer code (R457 names it and gives no number). -/
opaque manufacturer : BitVec 11

/-- The PCI vendor identifier TKW_VID (R11). -/
opaque vendor : BitVec 16

/-- The PCI subsystem ID, which R11 leaves open. -/
opaque subsystem : BitVec 16

/-- What configuration space reads at the offsets that the spec leaves to the PCI Express and CXL standards, by dword. -/
opaque configSpace : Nat → BitVec 32

end Sys2Proof.Config
end

