-- ==== Sys2Proof/Machine/StateTile.lean ====
section
/-!
DEFINITION. The state of one tile: its sequencer, its 32 queues, its compute units and movement engines, its router,
its command memory and scratchpad, and the requests it has in the memory moon (chapters 3, 4, 5 and 7). Every field's
docstring reads: width; the rules that name it; its reset value; what it holds.
-/

namespace Sys2Proof.Machine

open Sys2Proof

/-- A byte memory: (address, byte) pairs with strictly rising addresses, no entry equal to what an unlisted address
reads as (0). -/
abbrev Mem := List Host.Cell

/-- The four sequencer states of R105. -/
inductive SeqMode where
  | parked | run | halted | frozen
  deriving DecidableEq, Repr

/-- One open REPT block (R91, R92). -/
structure Loop where
  /-- 12 bits; R91; 0; index of the first command of the body. -/
  first : Nat := 0
  /-- 12 bits; R91, R92; 0; index of the last command of the body. -/
  last : Nat := 0
  /-- 17 bits; R91; 0; iterations still to run, the present one counted. -/
  left : Nat := 0
  deriving DecidableEq, Repr

/-- One of a tile's 32 queues (R96, R146): a ring in the scratchpad. The elements' bytes stand in the scratchpad. -/
structure Queue where
  /-- 16 bits; R146 Table 5.2; 0; first 16-byte scratchpad word of the ring. -/
  base : Nat := 0
  /-- 16 bits; R96, R146 Table 5.2; 0; elements the ring holds, 0 for an unused queue. -/
  depth : Nat := 0
  /-- 4 bits; R146 Table 5.3; 0; element width code. -/
  wcode : Nat := 0
  /-- unbounded; R146; 0; cumulative count of elements pushed since entry into RUNNING. -/
  pushed : Nat := 0
  /-- 16 bits; R97, Table 3.11; 0; elements in the queue (QUEUE_COUNT). -/
  count : Nat := 0
  /-- 16 bits each; R40; empty; the slot tags of the elements held, oldest first. -/
  tags : List (BitVec 16) := []
  deriving DecidableEq, Repr

/-- A vector that a compute unit will push at its own tick (R116, R117). -/
structure PipeItem where
  /-- tick count; R120, R127, R132; none; the partition tick at which the vector is pushed. -/
  at_ : Nat
  /-- 5 bits; R118, R125; none; the queue it is pushed to. -/
  q : Nat
  /-- up to 384 bytes; R114; none; the vector. -/
  bytes : List Byte
  /-- 12 bits; R66, Table 3.13; none; index of the command it comes from. -/
  idx : Nat
  deriving DecidableEq, Repr

/-- A MATQ the matrix unit is carrying out (R118 Table 4.2). -/
structure MatCmd where
  /-- tick count; R116; none; issue tick. -/
  start : Nat
  /-- 32 bits; R118; none; conversion word. -/
  conv : BitVec 32
  /-- 4 bits; R118; none; format of operand A. -/
  fa : Nat
  /-- 4 bits; R118; none; format of operand B. -/
  fb : Nat
  /-- 11 bits; R118; none; block steps KB. -/
  kb : Nat
  /-- 6 bits; R118; none; columns C. -/
  cols : Nat
  /-- 1 bit; R118; none; B comes from the latch. -/
  holdb : Bool
  /-- 5 bits; R118; none; stationary operand queue. -/
  qa : Nat
  /-- 5 bits; R118; none; streamed operand queue. -/
  qb : Nat
  /-- 12 bits; R66; none; command index. -/
  idx : Nat
  /-- count; R122; none; B vectors taken so far. -/
  bTaken : Nat
  deriving DecidableEq, Repr

/-- One vector with its MX scale (0x7F, that is 1, where the operand is not MX). -/
structure Scaled where
  /-- up to 32 bytes; R114, R121; none; the vector. -/
  bytes : List Byte
  /-- 8 bits; R48, R121; none; its E8M0 scale. -/
  scale : Byte
  deriving DecidableEq, Repr

/-- The products of one column and block step (or step pair), not yet landed in ACC (R120 Table 4.4). -/
structure MatFlight where
  /-- tick count; Table 4.4; none; tick at which they land. -/
  at_ : Nat
  /-- 5 bits; R118; none; column of ACC. -/
  col : Nat
  /-- 64 or 128 vectors; R121; none; the stationary array as it stood. -/
  rows : List Scaled
  /-- 1 or 2 vectors; R121; none; the column's B vectors. -/
  bs : List Scaled
  /-- 32 bits; R118; none; conversion word, whose anchor forms the terms. -/
  conv : BitVec 32
  /-- 4 bits; R118; none; format of A. -/
  fa : Nat
  /-- 4 bits; R118; none; format of B. -/
  fb : Nat
  /-- 12 bits; R66; none; command index. -/
  idx : Nat
  deriving DecidableEq, Repr

/-- A drain that is due (R118 DRN, R123). -/
structure MatDrain where
  /-- tick count; Table 4.4; none; tick of its first push. -/
  at_ : Nat
  /-- 32 bits; R118; none; conversion word. -/
  conv : BitVec 32
  /-- 6 bits; R118; none; columns drained. -/
  cols : Nat
  /-- 7 bits; R118; none; rows drained. -/
  rows : Nat
  /-- 5 bits; R118; none; destination queue. -/
  qd : Nat
  /-- 12 bits; R66; none; command index. -/
  idx : Nat
  deriving DecidableEq, Repr

/-- The matrix unit (R118 to R124). -/
structure MatUnit where
  /-- one command; R116; none held; the command in progress. -/
  cur : Option MatCmd := none
  /-- 2048 x 96 bits; R118, R124; every entry ordinary 0; ACC[row][column] at row * 32 + column. -/
  acc : Tab LongSum := []
  /-- 64 vectors with scales; R122, R124; empty; the B latch, entry 0 first. -/
  latch : List Scaled := []
  /-- up to 128 vectors; R118, R121; empty; the stationary array of the present step. -/
  stat : List Scaled := []
  /-- up to 128 vectors; R121; empty; the stationary array being filled for the next step. -/
  statNext : List Scaled := []
  /-- list; Table 4.4; empty; products on their way to ACC. -/
  flight : List MatFlight := []
  /-- one drain; R123; none; the drain that is due. -/
  drain : Option MatDrain := none
  deriving DecidableEq, Repr

/-- A VECQ the vector unit is carrying out (R125 Table 4.5). -/
structure VecCmd where
  /-- tick count; R116; none; issue tick. -/
  start : Nat
  /-- 6 bits; R125; none; operation. -/
  op : Nat
  /-- 1 bit; R125; none; one b vector serves every value. -/
  bs : Bool
  /-- 1 bit; R125; none; reductions forward their input. -/
  fwd : Bool
  /-- 4 bits; R125; none; input format. -/
  fi : Nat
  /-- 4 bits; R125; none; output format. -/
  fo : Nat
  /-- 16 bits; R125; none; input vectors. -/
  n : Nat
  /-- 32 bits; R125; none; immediate or conversion word. -/
  imm : BitVec 32
  /-- 5 bits; R125; none; source queue a. -/
  qa : Nat
  /-- 5 bits; R125; none; source queue b, or forward queue. -/
  qb : Nat
  /-- 5 bits; R125; none; destination queue. -/
  qd : Nat
  /-- 12 bits; R66; none; command index. -/
  idx : Nat
  /-- 16 bits; R127; none; vectors popped so far. -/
  popped : Nat
  /-- one vector; R125 BS; none; the b vector popped at the issue tick. -/
  bvec : Option (List Byte)
  /-- 96 bits; R127; none; the long sum a reduction has formed so far. -/
  sum : LongSum
  /-- 32-bit value and index; R127, R129; none; the greatest value so far and its index. -/
  best : Option (F32 × Nat)
  /-- 1 bit; R135; 0; RMAX or ARGMAX has met an infinite input. -/
  sawInf : Bool
  deriving DecidableEq, Repr

/-- The vector unit (R125 to R130). -/
structure VecUnit where
  /-- one command; R116; none held; the command in progress. -/
  cur : Option VecCmd := none
  deriving DecidableEq, Repr

/-- A FUNQ the function unit is carrying out (R131 Table 4.7). -/
structure FunCmd where
  /-- tick count; R116; none; issue tick. -/
  start : Nat
  /-- 6 bits; R131; none; function. -/
  fn : Nat
  /-- 1 bit; R133; none; relaxed variant. -/
  rel : Bool
  /-- 4 bits; R131; none; input format. -/
  fi : Nat
  /-- 4 bits; R131; none; output format. -/
  fo : Nat
  /-- 16 bits; R131; none; vectors. -/
  n : Nat
  /-- 5 bits; R131; none; source queue. -/
  qa : Nat
  /-- 5 bits; R132; none; queue of the m vector of SMEXP. -/
  qb : Nat
  /-- 5 bits; R131; none; destination queue. -/
  qd : Nat
  /-- 12 bits; R66; none; command index. -/
  idx : Nat
  /-- 16 bits; R132; none; vectors popped so far. -/
  popped : Nat
  /-- 32 bits; R132, R140; none; m of SMEXP. -/
  m : F32
  deriving DecidableEq, Repr

/-- The function unit (R131 to R140). -/
structure FunUnit where
  /-- one command; R116; none held; the command in progress. -/
  cur : Option FunCmd := none
  deriving DecidableEq, Repr

/-- A SEND its engine is carrying out (R100 Table 3.8). -/
structure SendCmd where
  /-- 16 bits; R100; none; elements still to send. -/
  left : Nat
  /-- 64 bits; R100; none; operand field. -/
  ops : BitVec 64
  /-- 5 bits; R100; none; source queue. -/
  qa : Nat
  /-- 12 bits; R66; none; command index. -/
  idx : Nat
  deriving DecidableEq, Repr

/-- A RECV its engine is carrying out (R101). -/
structure RecvCmd where
  /-- 16 bits; R101; none; elements still to pop. -/
  left : Nat
  /-- 5 bits; R101; none; decoupling queue, 24 to 31. -/
  q : Nat
  /-- 5 bits; R101; none; destination plan queue. -/
  qd : Nat
  /-- 12 bits; R66; none; command index. -/
  idx : Nat
  deriving DecidableEq, Repr

/-- A STORE its engine is carrying out (R104). -/
structure StoreCmd where
  /-- 16 bits; R104; none; elements still to pop. -/
  left : Nat
  /-- 5 bits; R104; none; source plan queue. -/
  qa : Nat
  /-- 12 bits; R66; none; command index. -/
  idx : Nat
  /-- count; R188; none; number of the request entry it feeds. -/
  req : Nat
  deriving DecidableEq, Repr

/-- An element between queues (RECV landing, R101). -/
structure Landing where
  /-- tick count; R101; none; landing tick. -/
  at_ : Nat
  /-- 5 bits; R101; none; destination queue. -/
  q : Nat
  /-- bytes; R101; none; the element. -/
  bytes : List Byte
  /-- 12 bits; R66; none; command index. -/
  idx : Nat
  deriving DecidableEq, Repr

/-- The three movement engines (R82). -/
structure Engines where
  /-- one command; R82; none; SEND in progress. -/
  send : Option SendCmd := none
  /-- one command; R82; none; RECV in progress. -/
  recv : Option RecvCmd := none
  /-- one command; R82; none; STORE in progress. -/
  store : Option StoreCmd := none
  /-- list; R101; empty; elements popped by RECV that land in the next tick. -/
  landing : List Landing := []
  deriving DecidableEq, Repr

/-- A WAIT that has issued and not released (R35, R103). -/
structure WaitSt where
  /-- 5 bits; R103; none; watched queue, 24 to 31. -/
  q : Nat
  /-- 16 bits; R103; none; count watched for. -/
  n : Nat
  /-- tick count; R35; none; issue tick. -/
  issue : Nat
  /-- tick count; R35; none; release tick. -/
  release : Nat
  /-- tick count; R161; none; met tick, once met. -/
  met : Option Nat
  /-- wall time; R36; none; wall time at which the hold began, while it holds. -/
  hold : Option Nat
  /-- 12 bits; R41; none; command index. -/
  idx : Nat
  deriving DecidableEq, Repr

/-- A mesh run entry (R153 Table 5.6). -/
structure Run where
  /-- 28 bits; R153; none; first tick of the first occurrence. -/
  start : Nat
  /-- 16 bits; R153; none; ticks per occurrence. -/
  len : Nat
  /-- 28 bits; R153; none; ticks between occurrence starts. -/
  period : Nat
  /-- 17 bits; R153; none; occurrences. -/
  reps : Nat
  /-- 3 bits; Table 5.7; none; input for output N. -/
  selN : Nat
  /-- 3 bits; Table 5.7; none; input for output E. -/
  selE : Nat
  /-- 3 bits; Table 5.7; none; input for output S. -/
  selS : Nat
  /-- 3 bits; Table 5.7; none; input for output W. -/
  selW : Nat
  /-- 3 bits; Table 5.7; none; input for the local output. -/
  selL : Nat
  deriving DecidableEq, Repr

/-- A mesh word (R150 Table 5.5). -/
structure MeshWord where
  /-- 3072 bits; R150; none; DATA, byte 0 first. -/
  data : List Byte
  /-- 384 bits; R150 Table 5.5; none; PAR, bit k the parity bit of DATA byte k as received. -/
  par : BitVec 384
  /-- 5 bits; R150; none; destination plan queue. -/
  dq : Nat
  /-- 1 bit; R150; none; multicast. -/
  mc : Bool
  /-- 12 bits; R150; none; destination field. -/
  dest : Nat
  /-- 16 bits; R150; none; slot tag. -/
  tag : BitVec 16
  /-- 1 bit; R150 Table 5.5; none; HPAR as received. -/
  hpar : Bool
  deriving DecidableEq, Repr

/-- What a mesh word rides between two routers (R157, R177, R178). -/
inductive Via where
  /-- A mesh link inside a moon. -/
  | link
  /-- The crossing buffer of 8 words of a link between two moons of one die (R177). -/
  | crossing
  /-- A channel of a seam bridge, 0 to 7 (R178). -/
  | seam (ch : Nat)
  deriving DecidableEq, Repr

/-- A mesh word on its way into one input of a tile's router. -/
structure MeshIn where
  /-- tick count; R152, R160; none; tick at which it stands at the input. -/
  at_ : Nat
  /-- 3 bits; Table 5.7; none; input, 1 N, 2 E, 3 S, 4 W, 5 local. -/
  dir : Nat
  /-- 3496 bits; R150; none; the word. -/
  word : MeshWord
  /-- link; R157, R177, R178; none; what it rides. -/
  via : Via := .link
  deriving DecidableEq, Repr

/-- A tile's router (R150 to R157). -/
structure Router where
  /-- up to 1024 entries; R152, R153; empty; run table. -/
  runs : List Run := []
  /-- 256 bits; R156; 0; multicast groups the tile is a member of. -/
  groups : BitVec 256 := 0
  /-- list; R152, R177, R178, R460; empty; words on the links, in the crossing buffers and in the seam bridge channels into this
  router. -/
  inputs : List MeshIn := []
  /-- list; R155; empty; words at the local output with the tick they arrive in the tile. -/
  arrivals : List MeshIn := []
  deriving DecidableEq, Repr

/-- Where the bytes of one piece of a request come from or go to (R190, R233, R244). -/
inductive PieceLoc where
  /-- GDDR7 byte address PFN * 65536 + offset. -/
  | gddr (addr : Nat)
  /-- Weight-store byte address; a tiered weight page or a LOC 1 context page. -/
  | tier (addr : Nat) (page : Nat) (context : Bool)
  /-- A tiered or LOC 1 piece whose bytes the store controller has delivered. -/
  | served (bytes : List Byte)
  /-- Reads as zeros, and swallows writes: a fenced slot's piece, no adapter, beyond an area. -/
  | void
  deriving DecidableEq, Repr

/-- One piece of a request: it lies within one 64 KiB page (R190). -/
structure Piece where
  /-- bytes; R190; none; length of the piece. -/
  len : Nat
  /-- location; R190; none; where it lies. -/
  loc : PieceLoc
  deriving DecidableEq, Repr

/-- One entry of a tile's request queue in its memory moon (R188). -/
structure MemReq where
  /-- count; R188; none; number of the entry. -/
  id : Nat
  /-- 1 bit; R104; none; a STORE. -/
  isStore : Bool
  /-- 2 bits; R104; none; memory queue of a LOAD, 0 to 3. -/
  q : Nat
  /-- 16 bits; R104; none; elements requested. -/
  len : Nat
  /-- bytes; R189; none; element width. -/
  width : Nat
  /-- 16 bits; R188, R191; none; elements pushed, or handed to the write buffer. -/
  done : Nat
  /-- list; R190; none; the pieces in address order. -/
  pieces : List Piece
  /-- 32 bits; R191; none; orbit in which it was issued. -/
  orbit : BitVec 32
  /-- 9 bits; R244; none; relative batch slot of a MODE 0b10 or adapter request. -/
  slot : Option Nat
  /-- 12 bits; R188; none; command index. -/
  idx : Nat
  /-- by channel: count; R197; none; failed tries of the next element's read. -/
  tries : Tab Nat := []
  deriving DecidableEq, Repr

/-- A tile (chapters 3 to 5). -/
structure Tile where
  /-- 2 bits; R105, Table 3.12; PARKED; sequencer state. -/
  mode : SeqMode := .parked
  /-- 1 bit; R105 Table 3.10; 0; the tile has raised a HALT: it enters HALTED at the end of the current tick. -/
  halting : Bool := false
  /-- 1 bit; R105, Table 3.12; 0; parked by a break. -/
  resumable : Bool := false
  /-- 1 bit; R110, Table 3.12; 0; a break fired in this tile. -/
  brkHit : Bool := false
  /-- 13 bits; R80, Table 3.12; 0; index of the command due to issue next, 4096 past the last. -/
  pc : Nat := 0
  /-- 8 bits; R105, Table 3.12; 0; HALT_CAUSE. -/
  haltCause : BitVec 8 := 0
  /-- up to 4 entries; R92, Table 3.12 LOOP_DEPTH; empty; open REPT blocks, innermost first. -/
  loops : List Loop := []
  /-- 8 bits; R87, Table 3.12; 0; commands left in the SKIP shadow. -/
  skipLeft : Nat := 0
  /-- tick count; R80; 0; partition tick at which the next command issues. -/
  nextIssue : Nat := 0
  /-- 1 bit; R93, R94; 0; MARK END has issued in this orbit. -/
  ended : Bool := false
  /-- 48 bits; R109, Table 3.11; 0; ISSUE_COUNT. -/
  issueCount : BitVec 48 := 0
  /-- 64 bits; R111, Table 3.14; 0; BRK_CTRL. -/
  brkCtrl : BitVec 64 := 0
  /-- 48 bits; R109, Table 3.11; 0; BRK_COUNT. -/
  brkCount : BitVec 48 := 0
  /-- 40 bits; R110, Table 3.11; 0; BRK_TICK. -/
  brkTick : BitVec 40 := 0
  /-- 32 bits; R88, Table 3.11; 0; CTR[0]. -/
  ctr0 : BitVec 32 := 0
  /-- 32 bits; R88, Table 3.11; 0; CTR[1]. -/
  ctr1 : BitVec 32 := 0
  /-- 32 bits; R88, Table 3.11; 0; CTR[2]. -/
  ctr2 : BitVec 32 := 0
  /-- 32 bits; R88, Table 3.11; 0; CTR[3]. -/
  ctr3 : BitVec 32 := 0
  /-- 4 bits; R88, Table 3.11; 0; P[3:0]. -/
  pred : BitVec 4 := 0
  /-- 64 bits; R95, Table 3.11; 0; SLOT_PRED. -/
  slotPred : BitVec 64 := 0
  /-- 64 bits; R95, Table 3.11; 0; SLOT_STAGE. -/
  slotStage : BitVec 64 := 0
  /-- 64 bits; R83, R95; 0; SLOT_STAGE as it stood before the write of tick 128, which SPLD copies up to that tick. -/
  slotOld : BitVec 64 := 0
  /-- 32 bits; R113, Table 3.13; 0xFFFF0000; SEQ_STATUS. -/
  seqStatus : BitVec 32 := 0xFFFF0000#32
  /-- 32 bits; R107, Table 3.11; 0; CMEM_DISCARD. -/
  cmemDiscard : BitVec 32 := 0
  /-- 64 bits; R93, Table 3.11; 0; MARK_LOG. -/
  markLog : BitVec 64 := 0
  /-- 32 bits; R66, Table 2.8; 0xFFFF0000; ARITH_STATUS. -/
  arithStatus : BitVec 32 := 0xFFFF0000#32
  /-- 16 bits; R67, R113; 0; SEQ_STATUS flags that commands have set in the present tick. -/
  seqNew : BitVec 16 := 0
  /-- 16 bits; R67; 0; ARITH_STATUS flags that commands have set in the present tick. -/
  arithNew : BitVec 16 := 0
  /-- one WAIT; R35, R103; none; the WAIT in force. -/
  wait : Option WaitSt := none
  /-- 32 queues; R96, R97; all unused and empty; by queue number. -/
  queues : Tab Queue := []
  /-- unit; R118; idle; the matrix unit. -/
  mat : MatUnit := {}
  /-- unit; R125; idle; the vector unit. -/
  vec : VecUnit := {}
  /-- unit; R131; idle; the function unit. -/
  fn : FunUnit := {}
  /-- list; R117; empty; results of the matrix unit on their way to a queue. -/
  matPipe : List PipeItem := []
  /-- list; R117; empty; results of the vector unit on their way. -/
  vecPipe : List PipeItem := []
  /-- list; R117; empty; results of the function unit on their way. -/
  fnPipe : List PipeItem := []
  /-- engines; R82; idle; the three movement engines. -/
  eng : Engines := {}
  /-- router; R150; no runs, no groups; the router. -/
  router : Router := {}
  /-- up to 32 entries; R188; empty; the tile's request queue in its memory moon, oldest first. -/
  reqs : List MemReq := []
  /-- count; R188; 0; number of the next request entry. -/
  reqNext : Nat := 0
  /-- 64 KiB; R76; 0 (the start-up sequence writes every word to 0); command memory. -/
  cmem : Mem := []
  /-- byte addresses; R77; none; command memory bytes with bad parity. -/
  cmemBad : List Nat := []
  /-- 192 KiB; R142; 0 (the start-up sequence writes every byte to 0); scratchpad. -/
  spad : Mem := []
  /-- byte addresses; R142, Table 3.7; none; scratchpad bytes with bad parity. -/
  spadBad : List Nat := []
  deriving DecidableEq, Repr

end Sys2Proof.Machine
end

