-- ==== Sys2Proof/Machine/StateMem.lean ====
section
/-!
DEFINITION. The state of the clock regions (chapter 6), of the GDDR7 channels and memory moons (chapter 7), and of the
DMA channels (chapter 9). Every field's docstring reads: width; the rules that name it; its reset value; what it holds.
-/

namespace Sys2Proof.Machine

open Sys2Proof

/-- CLK_STATUS.STATE (Table 6.8). -/
inductive MoonSt where
  | running | pausedCoupling | pausedSwitch | notStarted
  deriving DecidableEq, Repr

/-- The mesh and wait counters of one slice of a tile moon (R161, R162, Table 5.10). -/
structure MoonSlice where
  /-- 64 bits; R161; 0; MESH_BUSY. -/
  meshBusy : BitVec 64 := 0
  /-- 32 bits RC, wraps; R155, R161; 0; MESH_MISDELIVER. -/
  misdeliver : BitVec 32 := 0
  /-- 32 bits RC; R155, R161; 0; MESH_HPERR. -/
  hperr : BitVec 32 := 0
  /-- 32 bits RC; R161; 0; MESH_PERR. -/
  perr : BitVec 32 := 0
  /-- 64 bits; R161; 0; WAIT_COUNT[0], the memory queues. -/
  waitCount0 : BitVec 64 := 0
  /-- 64 bits; R161; 0; WAIT_COUNT[1], the link queues. -/
  waitCount1 : BitVec 64 := 0
  /-- 64 bits; R161; 0; WAIT_FILL[0]. -/
  waitFill0 : BitVec 64 := 0
  /-- 64 bits; R161; 0; WAIT_FILL[1]. -/
  waitFill1 : BitVec 64 := 0
  /-- 32 bits RC; R161; 0xFFFFFFFF; WAIT_MARGIN_MIN[0]. -/
  marginMin0 : BitVec 32 := 0xFFFFFFFF#32
  /-- 32 bits RC; R161; 0xFFFFFFFF; WAIT_MARGIN_MIN[1]. -/
  marginMin1 : BitVec 32 := 0xFFFFFFFF#32
  /-- 64 bits; R161; 0; HOLD_NS[0]. -/
  holdNs0 : BitVec 64 := 0
  /-- 64 bits; R161; 0; HOLD_NS[1]. -/
  holdNs1 : BitVec 64 := 0
  /-- 32 bits RC; R161; 0; HOLD_COUNT. -/
  holdCount : BitVec 32 := 0
  deriving DecidableEq, Repr

/-- A moon's clock registers (R183, Table 6.7). -/
structure Moon where
  /-- 2 bits; R183, Table 6.8; not started; CLK_STATUS.STATE. -/
  st : MoonSt := .notStarted
  /-- 1 bit; R172, Table 6.8; 0; STRETCHING. -/
  stretching : Bool := false
  /-- 1 bit; R182, Table 6.8; 0; PLL_LOCK. -/
  pllLock : Bool := false
  /-- 1 bit; Table 6.8; 0; SEAM_ALIGNED. -/
  seamAligned : Bool := false
  /-- 7 bits; R172, Table 6.9; 20; DROOP_THR. -/
  droopThr : BitVec 7 := 20#7
  /-- 1 bit; Table 6.9; 1; STRETCH_EN. -/
  stretchEn : Bool := true
  /-- 10 bits; R173, Table 6.9; 64; TIDE_THR. -/
  tideThr : BitVec 10 := 64#10
  /-- 64 bits; Table 6.7; 0; STRETCH_COUNT. -/
  stretchCount : BitVec 64 := 0
  /-- 32 bits RC; R173, Table 6.7; 0; TIDE_EXC. -/
  tideExc : BitVec 32 := 0
  /-- wall time; R175, Table 6.7; 0; wall time paused: PAUSE_NS is its whole nanoseconds. -/
  pauseG : Nat := 0
  /-- 32 bits RC; Table 6.7; 0; PAUSE_COUNT. -/
  pauseCount : BitVec 32 := 0
  /-- 32 bits RC; R174, Table 6.7; 0; LEAD_MAX. -/
  leadMax : BitVec 32 := 0
  /-- wall times, at most 5; R174; none; when the moon began its latest ticks, newest first. -/
  begins : List Nat := []
  /-- wall time; R172, R174; 0; length of the tick in hand. -/
  dur : Nat := 0
  /-- 1 bit; R172; 0; the next period is lengthened by a droop. -/
  stretchNext : Bool := false
  /-- wall time; R172; 0; moment up to which the droop lasts. -/
  droopTill : Nat := 0
  /-- wall time; R36, R175; 0; the next tick does not begin before: the hold of one of the moon's WAITs ended here. -/
  restTill : Nat := 0
  /-- wall time; R175; 0; how much of the pause before the next tick has been counted. -/
  restG : Nat := 0
  /-- 4 x 32 bits; R177, Table 6.7; 0; XCAL[0] to XCAL[3]. -/
  xcal : Tab (BitVec 32) := []
  /-- 48 bits; Table 6.7; 0; LATTICE_TICK. -/
  latticeTick : BitVec 48 := 0
  /-- 11 bits; R173; 0; periods of the present run of 1,024 periods. -/
  runPeriods : Nat := 0
  /-- 11 bits; R173; 0; stretched periods of the present run. -/
  runStretched : Nat := 0
  /-- count; R173; 0; tide excursions whose effects are still to come. -/
  excDue : Nat := 0
  /-- count by partition; R173; none; excursions each running partition's ephemeris has still to record. -/
  excPending : Tab Nat := []
  /-- 4 slices; R161, R162; every counter at its reset value; counter slices by slice number. -/
  slices : Tab MoonSlice := []
  deriving DecidableEq, Repr

/-- Module-wide clock control in MOON[44] and the generators (R167 to R182). -/
structure Clk where
  /-- wall time in units of 1/128520 ns; model; 0; time since the input was applied. -/
  wall : Nat := 0
  /-- wall time; R169, R179, R182, R317; 0; the tile moons, paused together, resume at this moment. -/
  resumeAt : Nat := 0
  /-- wall time; R169; 0; the tick boundary from which the tile moons pause for the step change in progress. -/
  goAt : Nat := 0
  /-- 3 bits; R168, Table 6.8; 0; the tile step in force. -/
  step : BitVec 3 := 0
  /-- 3 bits; R168, R445; 0; the MP's own target of R168. -/
  target : BitVec 3 := 0
  /-- 3 bits; R169, Table 6.10; 0; TILE_STEP_TGT. -/
  tgt : BitVec 3 := 0
  /-- 1 bit; R169, Table 6.10; 0; BUSY (and GO, which clears with it). -/
  busy : Bool := false
  /-- 1 bit; R445; 0; the change in progress is a throttle. -/
  throttle : Bool := false
  /-- 1 bit; R171, R445; 0; a ceiling that throttles has moved while BUSY. -/
  late : Bool := false
  /-- 1 bit; R169, R170, Table 6.10; 0; STEP_ERR. -/
  stepErr : Bool := false
  /-- 1 bit; R182, Table 6.10; 0; REF_PREF. -/
  refPref : Bool := false
  /-- 1 bit; R182, Table 6.10; 1; REF_AUTO. -/
  refAuto : Bool := true
  /-- 7 bits W1C; R182, Table 6.11; 0; CLK_EVENTS. -/
  events : BitVec 32 := 0
  /-- 1 bit; Table 6.8; 0; REF_SEL, the reference in use. -/
  refSel : Bool := false
  /-- by reference: wall time; R182; none; when each was last judged bad or good. -/
  refBadAt : Tab Nat := []
  /-- 1 bit; R182; 0; REF_A is judged bad. -/
  refABad : Bool := false
  /-- 1 bit; R182; 0; REF_B is judged bad. -/
  refBBad : Bool := false
  /-- 1 bit; R182, Table 6.8; 0; PLLs in holdover. -/
  holdover : Bool := false
  /-- 1 bit; R182, Table 6.8; 0; PLLs free-running. -/
  freeRun : Bool := false
  /-- wall time; R182; none; when holdover with both references bad began. -/
  holdoverAt : Option Nat := none
  /-- 12 bits; R182; none; PLLs without lock: 0 to 3 tile PLL of die q, 4 to 7 memory moon, 8 to 11 link moon. -/
  pllDown : List Nat := []
  /-- by PLL: wall time; R182; none; when each PLL without lock lost it. -/
  pllAt : Tab Nat := []
  /-- 9 bits; R179; none; seam groups being realigned. -/
  seamDown : List Nat := []
  /-- by seam group: wall time; R179; none; when its realignment began. -/
  seamAt : Tab Nat := []
  /-- wall time; R171; 0; since when no moon has recorded a tide excursion. -/
  tideQuiet : Nat := 0
  /-- 45 moons; R165, R183; every register at its reset value; by moon number. -/
  moons : Tab Moon := []
  deriving DecidableEq, Repr

/-- Machine time (R329 to R331, Table 12.9). -/
structure Mt where
  /-- 64 bits; R329, Table 12.9; 0; MT in ns. -/
  mt : BitVec 64 := 0
  /-- signed ns; R330; 0; offset still to be slewed. -/
  slew : Int := 0
  /-- ns below 10,000; R330; 0; time passed towards the next nanosecond of slew. -/
  slewNs : Nat := 0
  /-- 8 bits; R330, Table 12.9; 0xFF; STRATUM. -/
  stratum : BitVec 8 := 0xFF#8
  /-- 5 bits; R330, Table 12.9; none, reads 0; parent physical port. -/
  parent : Option Nat := none
  /-- 1 bit; R331, Table 12.9; 0; ROOT. -/
  root : Bool := false
  /-- 64 bits; R330, Table 12.9; 0; MT_OFFSET. -/
  offset : BitVec 64 := 0
  /-- wall time; R351; none; when the module took its time parent or became root. -/
  since : Option Nat := none
  /-- wall time; R330; none; since when the module has had no time parent. -/
  lostAt : Option Nat := none
  /-- 1 bit; R330; 0; the module has had its first job start. -/
  started : Bool := false
  deriving DecidableEq, Repr

/-- CH_STATUS.STATE (R195, Table 7.3). -/
inductive ChanSt where
  | notTrained | up | retraining | down | disabled
  deriving DecidableEq, Repr

/-- A GDDR7 channel (R184, R195 to R197, R202, Table 7.4). -/
structure Chan where
  /-- 3 bits; R195, Table 7.5; NOT_TRAINED; state. -/
  st : ChanSt := .notTrained
  /-- 1 bit; R196, Table 7.5; 0; DEFERRED. -/
  deferred : Bool := false
  /-- 8 bits; R196, Table 7.5; 0; TEMP. -/
  temp : BitVec 8 := 0
  /-- 32 bits RC; Table 7.4; 0; CH_RETRAIN. -/
  retrain : BitVec 32 := 0
  /-- 64 bits; Table 7.4; 0; CH_RD_BYTES. -/
  rdBytes : BitVec 64 := 0
  /-- 64 bits; Table 7.4; 0; CH_WR_BYTES. -/
  wrBytes : BitVec 64 := 0
  /-- count; R186, Table 7.4; 0; bytes on the pins, all traffic: CH_XFER_NS is this over 128 (128 bytes per ns). -/
  pinBytes : Nat := 0
  /-- 64 bits; Table 7.4; 0; CH_REFRESH_NS. -/
  refreshNs : BitVec 64 := 0
  /-- 32 bits RC; R197, Table 7.4; 0; CH_CRC_RETRY. -/
  crcRetry : BitVec 32 := 0
  /-- 32 bits RC; R197, Table 7.4; 0; CH_ECC_CORR. -/
  eccCorr : BitVec 32 := 0
  /-- 32 bits RC; R197, Table 7.4; 0; CH_READ_FAIL. -/
  readFail : BitVec 32 := 0
  /-- 32 bits RC; Table 7.4; 0; CH_QMAX. -/
  qmax : BitVec 32 := 0
  /-- 64 bits; Table 7.4; 0; CH_RETRAIN_NS. -/
  retrainNs : BitVec 64 := 0
  /-- 8 bits; R196; 0; device temperature at the last training. -/
  trainTemp : BitVec 8 := 0
  /-- wall time; R196; 0; when the last training ended. -/
  trainAt : Nat := 0
  /-- wall time; R195; 0; when RETRAINING was entered. -/
  retrainAt : Nat := 0
  /-- wall time; R196; 0; when the routine retraining was deferred. -/
  deferAt : Nat := 0
  /-- wall time; R196; 0; of the last reading of the device temperature. -/
  tempAt : Nat := 0
  /-- wall time; R197; 0; of the last reading of the correction counts. -/
  eccAt : Nat := 0
  /-- count; R195, Table 7.3; 0; trainings that failed in succession. -/
  trainFails : Nat := 0
  /-- count; R197; 0; failed tries of an access other than a tile's or a DMA channel's. -/
  crcTries : Nat := 0
  /-- wall times, at most 17; R195, R197; none; of the latest CRC retries, newest first. -/
  retries : List Nat := []
  deriving DecidableEq, Repr

/-- One store element in a memory moon's write buffer (R192). -/
structure WbEntry where
  /-- 12 bits; R192; none; tile it comes from. -/
  tile : Nat
  /-- count; R191; none; number of the request it belongs to. -/
  req : Nat
  /-- 4 bits; R192; none; lowest block of the issuing partition. -/
  part : Nat
  /-- location and length; R190; none; where its bytes go, piece by piece. -/
  pieces : List Piece
  /-- bytes; R189; none; the element. -/
  bytes : List Byte
  /-- 32 bits; R191; none; orbit in which its STORE was issued. -/
  orbit : BitVec 32
  /-- 1 bit; R192, R198; none; a byte of it has bad parity. -/
  badPar : Bool
  /-- by channel: count; R197; none; failed tries of its write. -/
  tries : Tab Nat := []
  deriving DecidableEq, Repr

/-- A memory moon (R188 to R192, R202, R247). -/
structure MemMoon where
  /-- 4 MiB; R192; empty; the write buffer, oldest first. -/
  wbuf : List WbEntry := []
  /-- 32 bits RC; Table 7.6; 0; WBUF_MAX. -/
  wbufMax : BitVec 32 := 0
  /-- 64 bits; Table 7.6; 0; OTHER_BYTES. -/
  otherBytes : BitVec 64 := 0
  /-- 64 bits; Table 7.6; 0; XQ_BYTES. -/
  xqBytes : BitVec 64 := 0
  /-- 32 bits RC; Table 7.6; 0; REQQ_MAX. -/
  reqqMax : BitVec 32 := 0
  /-- 32 bits RC; R188, Table 7.6; 0; REQQ_OVF. -/
  reqqOvf : BitVec 32 := 0
  /-- 512 bits W1C; R244, R247; 0; SLOT_FENCE[0] to SLOT_FENCE[7]. -/
  slotFence : BitVec 512 := 0
  /-- 64 bits; R247; 0; FENCE_FIRST. -/
  fenceFirst : BitVec 64 := 0
  /-- 32 bits RC; R247; 0; FENCE_COUNT. -/
  fenceCount : BitVec 32 := 0
  /-- list of absolute slots; R244; empty; fences on the ring on their way to this moon. -/
  ringIn : List Nat := []
  deriving DecidableEq, Repr

/-- DMA_STATUS.STATE (R255, Table 9.11). -/
inductive DmaSt where
  | idle | run | aborting | stopped
  deriving DecidableEq, Repr

/-- A descriptor in progress (R249 to R254). -/
structure DmaXfer where
  /-- 64 bits; R249; none; host address of the first byte. -/
  host : Nat
  /-- 20 bits; R249; none; first context page index. -/
  page : Nat
  /-- 16 bits; R249; none; byte offset in the first page. -/
  off : Nat
  /-- 24 bits; R249; none; LENGTH. -/
  len : Nat
  /-- 1 bit; R249; none; DIR, device to host. -/
  toHost : Bool
  /-- 1 bit; R249; none; interrupt on completion. -/
  irq : Bool
  /-- 16 bits; R249; none; TAG. -/
  tag : BitVec 16
  /-- 24 bits; R251; none; bytes moved in completed bursts. -/
  moved : Nat
  /-- 20 bits; R252; none; page whose lock the channel holds. -/
  lock : Option Nat
  /-- 8 bits; R250; none; the status it ended with, before its write-back. -/
  ended : Option (BitVec 8)
  /-- count; R197; 0; failed tries of the burst's read. -/
  tries : Nat := 0
  deriving DecidableEq, Repr

/-- A DMA channel (R248 to R256, Tables 9.9 to 9.11). -/
structure Dma where
  /-- 64 bits; Table 9.9; 0; RING_BASE. -/
  ringBase : BitVec 64 := 0
  /-- 5 bits; Table 9.9; 0; RING_SIZE.k. -/
  ringSize : BitVec 5 := 0
  /-- 16 bits; Table 9.9; 0; TAIL. -/
  tail : BitVec 16 := 0
  /-- 16 bits; Table 9.9; 0; HEAD. -/
  head : BitVec 16 := 0
  /-- 1 bit; Table 9.10; 0; EN. -/
  en : Bool := false
  /-- 1 bit; Table 9.10; 0; ABORT. -/
  abort : Bool := false
  /-- 1 bit; Table 9.10; 1; STOP_ON_ERR. -/
  stopOnErr : Bool := true
  /-- 2 bits; R255, Table 9.11; IDLE; state. -/
  st : DmaSt := .idle
  /-- 1 bit; R250, Table 9.11; 0; STALL_OWN. -/
  stallOwn : Bool := false
  /-- 1 bit W1C; Table 9.11; 0; CFG_ERR. -/
  cfgErr : Bool := false
  /-- 1 bit W1C; Table 9.11; 0; IRQ_DONE. -/
  irqDone : Bool := false
  /-- 1 bit W1C; Table 9.11; 0; IRQ_ERR. -/
  irqErr : Bool := false
  /-- 1 bit W1C; Table 9.11; 0; IRQ_ABORT. -/
  irqAbort : Bool := false
  /-- wall time; R252, Table 9.11 LOCK_WAIT; none; since when the channel waits on a page lock. -/
  lockWait : Option Nat := none
  /-- 64 bits; Table 9.9; 0; BYTES_MOVED. -/
  bytesMoved : BitVec 64 := 0
  /-- 64 bits; Table 9.9; 0; DESC_DONE. -/
  descDone : BitVec 64 := 0
  /-- 64 bits; Table 9.9; 0; LAST_ERR. -/
  lastErr : BitVec 64 := 0
  /-- 64 bits; Table 9.9; 0; LOCK_WAIT_NS. -/
  lockWaitNs : BitVec 64 := 0
  /-- one descriptor; R249; none; the descriptor in progress. -/
  cur : Option DmaXfer := none
  deriving DecidableEq, Repr

end Sys2Proof.Machine
end

