-- ==== Sys2Proof/Machine/StateLink.lean ====
section
/-!
DEFINITION. The state of the optical ports (chapter 11) and of the packets that stand in them. Every field's docstring
reads: width; the rules that name it; its reset value; what it holds.
-/

namespace Sys2Proof.Machine

open Sys2Proof

/-- A packet (R292, R293): its 32 header bytes and its payload. -/
structure Packet where
  /-- 32 bytes; R293 Table 11.4; none; header. -/
  hdr : List Byte
  /-- 0 to 4096 bytes; R292; none; payload. -/
  payload : List Byte
  deriving DecidableEq, Repr

/-- PORT_STATUS.STATE (Table 11.9, Table 11.14). -/
inductive PortSt where
  | off | training | up | subst | down | dark
  deriving DecidableEq, Repr

/-- A packet in the delivery stage, with the inbound entry it satisfies (R302, R304). -/
structure Delivery where
  /-- packet; R302; none; the packet. -/
  pkt : Packet
  /-- 5 bits; R304; none; logical port whose list holds the entry. -/
  lport : Nat
  /-- 20 bits; R304; none; position of the entry in that list. -/
  pos : Nat
  deriving DecidableEq, Repr

/-- A copy kept for re-sending (R301). -/
structure HeldCopy where
  /-- packet; R301; none; the packet as sent. -/
  pkt : Packet
  /-- 32 bits; R321; none; its orbit. -/
  orbit : BitVec 32
  deriving DecidableEq, Repr

/-- The kind of a comet packet (R314). -/
inductive CometKind where
  | receipt | resend | mark | time | mgmt
  deriving DecidableEq, Repr

/-- A packet waiting for a comet slot (R314, R315). -/
structure CometPkt where
  /-- 3 bits; R314; none; kind. -/
  kind : CometKind
  /-- packet; R315; none; the packet. -/
  pkt : Packet
  /-- 1 bit; R320; 0; it is the second copy of a receipt, and lets the first comet slot that it may take pass. -/
  second : Bool := false
  deriving DecidableEq, Repr

/-- Bytes popped by a link SEND and on their way to an outbound stream (R297). -/
structure StreamMsg where
  /-- 3 bits; R297; none; stream. -/
  stream : Nat
  /-- bytes; R297; none; the element. -/
  bytes : List Byte
  /-- list; R297, R311; none; positions of its bytes with bad parity. -/
  bad : List Nat
  /-- 40 bits; R297; none; the partition's tick of the pop. -/
  at_ : Nat
  deriving DecidableEq, Repr

/-- An optical port (R286, R300 to R308, R313). -/
structure Port where
  /-- 3 bits; R307, Table 11.14; OFF; state. -/
  st : PortSt := .off
  /-- 1 bit; R308, Table 11.14; 0; FOREIGN. -/
  foreign : Bool := false
  /-- 1 bit; R308, Table 11.14; 0; TRAIN_TIMEOUT. -/
  trainTimeout : Bool := false
  /-- 1 bit; R306, Table 11.14; 0; HALO_USED. -/
  haloUsed : Bool := false
  /-- 1 bit; R305, Table 11.14; 0; HALO_FAIL. -/
  haloFail : Bool := false
  /-- 3 bits; R306, Table 11.14; 0b111; HALO_STRIPE. -/
  haloStripe : BitVec 3 := 0b111#3
  /-- 1 bit; R306, Table 11.14; 0; RX_SUBST. -/
  rxSubst : Bool := false
  /-- 1 bit; R306, Table 11.14; 0; TX_SUBST. -/
  txSubst : Bool := false
  /-- 3 bits; R307, Table 11.14; 0; DOWN_CAUSE. -/
  downCause : BitVec 3 := 0
  /-- 1 bit; Table 11.15; 0; EN. -/
  en : Bool := false
  /-- 1 bit; Table 11.15; 0; DARK. -/
  darkBit : Bool := false
  /-- 16 bits; R307, Table 11.13 JOB_ID; 0; JOB_TAG. -/
  jobTag : BitVec 16 := 0
  /-- 16 bits; R307, Table 11.13 JOB_ID; 0; JOB_EPOCH. -/
  jobEpoch : BitVec 16 := 0
  /-- 32 bits; Table 11.13; 0; FAR_ID. -/
  farId : BitVec 32 := 0
  /-- 64 bits; Table 11.13; 0; FAR_SERIAL. -/
  farSerial : BitVec 64 := 0
  /-- 5 bits; R305, Table 11.13 LANE_STATUS; 0; lanes with symbol lock. -/
  laneLock : BitVec 5 := 0
  /-- 5 bits; R305, Table 11.13 LANE_STATUS; 0; lanes declared failed. -/
  laneFailed : BitVec 5 := 0
  /-- 5 bits; R308, Table 11.13 LANE_STATUS; 0; lanes that carry a stripe. -/
  laneUse : BitVec 5 := 0
  /-- wall times; R305; none; when each unlocked lane lost lock, by lane. -/
  lostAt : Tab Nat := []
  /-- wall time; R305; none; when the whole port lost light and the 4 us rule was suspended. -/
  outageAt : Option Nat := none
  /-- 32 bits RC; R305, Table 11.13; 0; LANE_LOCKLOSS. -/
  laneLockloss : BitVec 32 := 0
  /-- 64 bits; Table 11.13; 0; PKT_TX. -/
  pktTx : BitVec 64 := 0
  /-- 64 bits; Table 11.13; 0; PKT_RX. -/
  pktRx : BitVec 64 := 0
  /-- 32 bits RC; Table 11.8; 0; DROP_CRC16. -/
  dropCrc16 : BitVec 32 := 0
  /-- 32 bits RC; Table 11.8; 0; DROP_E2E. -/
  dropE2e : BitVec 32 := 0
  /-- 32 bits RC; Table 11.8; 0; DROP_SEQ. -/
  dropSeq : BitVec 32 := 0
  /-- 32 bits RC; Table 11.8; 0; DROP_FORMAT. -/
  dropFormat : BitVec 32 := 0
  /-- 32 bits RC; Table 11.8; 0; DROP_FOREIGN. -/
  dropForeign : BitVec 32 := 0
  /-- 32 bits RC; Table 11.8; 0; DROP_UNEXP. -/
  dropUnexp : BitVec 32 := 0
  /-- 32 bits RC; R304; 0; DROP_QFULL. -/
  dropQfull : BitVec 32 := 0
  /-- 32 bits RC; R302; 0; DROP_RELAY. -/
  dropRelay : BitVec 32 := 0
  /-- 32 bits RC; R300; 0; SLOT_SHORT. -/
  slotShort : BitVec 32 := 0
  /-- 32 bits RC; R300; 0; RELAY_MISMATCH. -/
  relayMismatch : BitVec 32 := 0
  /-- 32 bits RC; Table 11.8; 0; CELL_ERR. -/
  cellErr : BitVec 32 := 0
  /-- 32 bits RC; R301; 0; HOLD_EVICT. -/
  holdEvict : BitVec 32 := 0
  /-- 32 bits RC; Table 11.13; 0; QDEPTH_MAX. -/
  qdepthMax : BitVec 32 := 0
  /-- 32 bits RC; R304, Table 11.13; 0; STALL_TICKS. -/
  stallTicks : BitVec 32 := 0
  /-- 64 bits; Table 11.13; 0; TX_BYTES. -/
  txBytes : BitVec 64 := 0
  /-- 64 bits; Table 11.13; 0; RX_BYTES. -/
  rxBytes : BitVec 64 := 0
  /-- 64 bits; Table 11.13; 0; DOWN_NS. -/
  downNs : BitVec 64 := 0
  /-- 5 x 16 bits; Table 11.13; 0; RX_POWER[0] to RX_POWER[4]. -/
  rxPower : Tab (BitVec 16) := []
  /-- 14 bits; R309, R349; 0; RANK in the port's own training cells. -/
  rank : BitVec 14 := 0
  /-- 1 bit; R307; 0; the lasers are lit. -/
  lasers : Bool := false
  /-- 1 bit; R307, Table 11.2 DOWN; 0; the port sends DOWN in every segment. -/
  sendDown : Bool := false
  /-- 1 bit; R306, Table 11.2 HALO_REQ; 0; the receiver asks for halo substitution. -/
  haloReq : Bool := false
  /-- 3 bits; R306, Table 11.2 REQ_LANE; 0; the lane that failed. -/
  reqLane : BitVec 3 := 0
  /-- 1 bit; R306, Table 11.2 HALO_ACK; 0; the transmitter carries a stripe on LANE[4]. -/
  haloAck : Bool := false
  /-- 3 bits; R306, Table 11.2 ACK_LANE; 0; the lane whose stripe LANE[4] carries. -/
  ackLane : BitVec 3 := 0
  /-- 1 bit; R306; 0; deskew of LANE[4] is in progress. -/
  deskew : Bool := false
  /-- wall time; R306, R307; none; when substitution began. -/
  substAt : Option Nat := none
  /-- wall time; R308; 0; when training began. -/
  trainAt : Nat := 0
  /-- wall time; Table 11.13 DOWN_NS; none; since when the port is in SUBST or DOWN. -/
  downAt : Option Nat := none
  /-- wall time; R307; none; when the port declared itself DOWN, until its lasers are off. -/
  downDecl : Option Nat := none
  /-- count; R308; 0; consecutive matching training cells received. -/
  matchCells : Nat := 0
  /-- 1 bit; R308, R309 MATCH; 0; the far end's tag and epoch seen equal. -/
  farMatch : Bool := false
  /-- 8 x 8 KiB; R297; empty; outbound stream buffers, bytes in order of arrival. -/
  streams : Tab (List Byte) := []
  /-- by stream; R297, R311; empty; positions of the stream buffers' bytes with bad parity. -/
  streamBad : Tab (List Nat) := []
  /-- list; R297; empty; elements on their way to a stream buffer. -/
  toStream : List StreamMsg := []
  /-- 128 KiB; R301; empty; re-send hold buffer, oldest first. -/
  hold : List HeldCopy := []
  /-- one packet; R302; none; delivery stage. -/
  deliv : Option Delivery := none
  /-- one packet and 1 bit; R302; none; relay stage, and whether a FORWARD entry has sent the packet. -/
  relay : Option (Packet × Bool) := none
  /-- up to 16 packets; R314, R315; empty; comet queue, oldest first. -/
  comet : List CometPkt := []
  /-- count; R295; 0; number of the next slot of the orbit. -/
  slot : Nat := 0
  /-- count; R314, R316; 0; number of the next comet slot. -/
  cometNo : Nat := 0
  /-- 260 bytes; R308, R309; none; the training cell the port sent last (output). -/
  trainSent : List Byte := []
  /-- 64 bits; R329 Table 12.6; 0; T_TX of the last TIME packet received on this port. -/
  echoTx : BitVec 64 := 0
  /-- 64 bits; R329 Table 12.6; 0; MT at that packet's last cell. -/
  echoRx : BitVec 64 := 0
  /-- 8 bits; R330; 0xFF; STRATUM of the far end's last TIME packet. -/
  farStratum : BitVec 8 := 0xFF#8
  /-- wall time; R330; none; when the last TIME packet arrived. -/
  timeAt : Option Nat := none
  /-- count per 1 ms; R310; 0; drops since the last DROPS event. -/
  drops : Nat := 0
  /-- wall time; R310; none; when the last DROPS event was raised. -/
  dropsAt : Option Nat := none
  /-- 1 bit; R307; 0; the port left UP while its partition was RUNNING: it counts as DOWN for the fabric until the job restarts. -/
  fabDown : Bool := false
  /-- wall time; R316; 0; when the last comet slot began. -/
  cometAt : Nat := 0
  /-- list; model; empty; packets the port has put on the fibre, newest first (output). -/
  sent : List Packet := []
  deriving DecidableEq, Repr

/-- A packet handed to the fabric logic (R303). -/
structure Received where
  /-- 5 bits; R303; none; logical port it came in on. -/
  lport : Nat
  /-- packet; R303; none; the packet. -/
  pkt : Packet
  /-- 64 bits; R329; none; MT at its last cell. -/
  rx : BitVec 64
  deriving DecidableEq, Repr

/-- An inbound entry of a running partition, from its opening until it closes (R319 to R324). -/
structure Inbound where
  /-- 5 bits; R298; none; logical port. -/
  lport : Nat
  /-- 20 bits; R298; none; position in the port's inbound list. -/
  pos : Nat
  /-- 32 bits; R319; none; orbit. -/
  orbit : BitVec 32
  /-- 14 bits; R298; none; SRC_RANK. -/
  src : Nat
  /-- 24 bits; R298; none; TRANSFER. -/
  transfer : Nat
  /-- 24 bits; R298; none; DUE_SLOT. -/
  due : Nat
  /-- 1 bit; R320; 0; missing. -/
  missing : Bool
  /-- 1 bit; R322; 0; round 2 has been requested. -/
  round2 : Bool
  /-- wall time; R322; none; when round-2 copy 0 was sent. -/
  round2At : Option Nat
  deriving DecidableEq, Repr

end Sys2Proof.Machine
end

