-- ==== Sys2Proof/Machine/StatePart.lean ====
section
/-!
DEFINITION. The state of a partition: its plan (chapter 1), its weights (chapter 8), its requests, slot tables and
ephemeris (chapter 10), its fabric state (chapter 12) and its job (chapter 13). Every field's docstring reads: width;
the rules that name it; its reset value; what it holds. A partition does not exist after module reset (R448); the
values given are those of a partition when PART_CREATE makes it.
-/

namespace Sys2Proof.Machine

open Sys2Proof

/-- Plan states (R26, Table 1.5). -/
inductive PlanSt where
  | empty | loaded | running | stopped
  deriving DecidableEq, Repr

/-- The weight manifest reference of a plan (R216, Table 8.7). -/
structure WeightRef where
  /-- 64 bits; R216; none; MODEL_ID. -/
  modelId : BitVec 64
  /-- 1 bit; R216; none; DOUBLE. -/
  double : Bool
  /-- 1 bit; R216; none; TIERED. -/
  tiered : Bool
  /-- 7 bits; R216; none; ADAPTER_AREAS. -/
  areas : Nat
  /-- 11 bits; R216; none; ADAPTER_PAGES. -/
  areaPages : Nat
  /-- 32 bits; R216; none; COPY_PAGES. -/
  copyPages : Nat
  /-- 32 bits; R216; none; RESIDENT_PAGES. -/
  resident : Nat
  /-- 384 bits; R216; none; LAYOUT_HASH. -/
  layoutHash : Hash
  /-- 384 bits; R216; none; PROFILE_HASH. -/
  profileHash : Hash
  deriving DecidableEq, Repr

/-- A detour tie (R346): a link named by its two ends. -/
structure CbitRec where
  /-- 14 bits; R346; none; RANK_A. -/
  rankA : Nat
  /-- 5 bits; R346; none; LPORT_A. -/
  lportA : Nat
  /-- 14 bits; R346; none; RANK_B. -/
  rankB : Nat
  /-- 5 bits; R346; none; LPORT_B. -/
  lportB : Nat
  deriving DecidableEq, Repr

/-- The topology declaration of a plan (R346, Table 13.2). -/
structure Topo where
  /-- 15 bits; R346; none; JOB_MODULES. -/
  modules : Nat
  /-- 7 bits; R346; none; MARK_ROUNDS. -/
  markRounds : Nat
  /-- 1 bit; R346; none; ROUTE_MODE EPOCH. -/
  epochMode : Bool
  /-- 20 bits; R346; none; PACE_NS. -/
  paceNs : Nat
  /-- 20 bits; R346; none; DRIFT_NS. -/
  driftNs : Nat
  /-- 18 bits; R346; none; LATE_INC_NS. -/
  lateIncNs : Nat
  /-- table by rank * 32 + logical port; R346; none; FAR_RANK of the declared ports. -/
  far : Tab Nat
  /-- up to 256 records; R346; none; CBIT records in order. -/
  cbits : List CbitRec
  deriving DecidableEq, Repr

/-- An outbound entry (R298, Table 11.6). -/
structure OutEntry where
  /-- 24 bits; R298; none; SLOT. -/
  slot : Nat
  /-- 1 bit; R298; none; KIND FORWARD. -/
  forward : Bool
  /-- 3 bits; R298; none; STREAM. -/
  stream : Nat
  /-- 5 bits; R298; none; IN_LPORT. -/
  inLport : Nat
  /-- 13 bits; R298; none; LENGTH. -/
  len : Nat
  /-- 14 bits; R298; none; DEST_RANK. -/
  dest : Nat
  /-- 12 bits; R298; none; DEST_TILE. -/
  tile : Nat
  /-- 2 bits; R298; none; LQ. -/
  lq : Nat
  /-- 4 bits; R298; none; WCODE. -/
  wcode : Nat
  /-- 1 bit; R298; none; MC. -/
  mc : Bool
  /-- 8 bits; R298; none; MASK_IDX. -/
  maskIdx : Nat
  /-- 24 bits; R298; none; TRANSFER. -/
  transfer : Nat
  /-- 2 bits; R298; none; COND. -/
  cond : Nat
  /-- 8 bits; R298; none; CBIT. -/
  cbit : Nat
  deriving DecidableEq, Repr

/-- An inbound entry of the plan (R298, Table 11.7). -/
structure InEntry where
  /-- 24 bits; R298; none; DUE_SLOT. -/
  due : Nat
  /-- 14 bits; R298; none; SRC_RANK. -/
  src : Nat
  /-- 24 bits; R298; none; TRANSFER. -/
  transfer : Nat
  /-- 2 bits; R298; none; COND. -/
  cond : Nat
  /-- 8 bits; R298; none; CBIT. -/
  cbit : Nat
  deriving DecidableEq, Repr

/-- One logical port's slot table (R298, Table 11.5). -/
structure PortTab where
  /-- 17 bits; R296; none; SLOT_TICKS. -/
  slotTicks : Nat
  /-- up to 256; R298; none; masks. -/
  masks : List (BitVec 64)
  /-- list; R298; none; outbound entries in ascending slot order. -/
  outs : List OutEntry
  /-- list; R298; none; inbound entries in ascending due slot order. -/
  ins : List InEntry
  deriving DecidableEq, Repr

/-- A run entry of a seam bridge's slot table (R180, Table 6.5). -/
structure SeamSlot where
  /-- 2 bits; R180 Table 6.4; none; the seam. -/
  seam : Nat
  /-- 1 bit; R180 Table 6.4; none; direction, 0 east or south, 1 west or north. -/
  dir : Nat
  /-- 28 bits; Table 6.5; none; START. -/
  start : Nat
  /-- 16 bits; Table 6.5; none; LEN. -/
  len : Nat
  /-- 28 bits; Table 6.5; none; PERIOD. -/
  period : Nat
  /-- 17 bits; Table 6.5; none; occurrences. -/
  reps : Nat
  /-- 5 bits; Table 6.5; none; LANE. -/
  lane : Nat
  /-- 3 bits; Table 6.5; none; CH. -/
  ch : Nat
  deriving DecidableEq, Repr

/-- A loaded plan (R19, R26). -/
structure PlanInfo where
  /-- 16 bits; R19; none; BLOCK_MASK. -/
  mask : BitVec 16
  /-- 1 bit; R19, R71; none; DET_MODE RELAXED. -/
  relaxed : Bool
  /-- 1 bit; R19, R40; none; TAGGED. -/
  tagged : Bool
  /-- 29 bits; R31; none; ORBIT_LEN. -/
  orbitLen : Nat
  /-- 17 bits; R32; none; BOUNDARY_LEN. -/
  boundaryLen : Nat
  /-- 3 bits; R19, R30; none; MAX_STEP. -/
  maxStep : BitVec 3
  /-- 384 bits; R21; none; PLAN_HASH. -/
  hash : Hash
  /-- record; R216; none; weight reference. -/
  wref : WeightRef
  /-- record; R346; none; topology declaration. -/
  topo : Topo
  /-- by logical port; R298; none; optical port slot tables. -/
  ports : Tab PortTab
  /-- by level: count and ticks; R148, R163; none; wait records of the GDDR7 level 0 and the link level 1, and their budgets summed. -/
  waits : Tab (Nat × Nat)
  /-- count; R26, R433; none; crater change count at load. -/
  craterGen : Nat
  /-- list; R178, R180, Table 6.5; none; the seam bridge slot tables. -/
  seams : List SeamSlot
  deriving DecidableEq, Repr

/-- A checked manifest (R213, Table 8.5) as the module keeps it. -/
structure ManInfo where
  /-- 8 bits; Table 8.5; none; KIND, 0 base model, 1 adapter. -/
  kind : Nat
  /-- 8 bits; Table 8.5; none; SIGNER. -/
  signer : Nat
  /-- 64 bits; Table 8.5; none; MODEL_ID. -/
  modelId : BitVec 64
  /-- 32 bits; Table 8.5; none; VERSION. -/
  version : BitVec 32
  /-- 64 bits; Table 8.5; none; COPY_BYTES. -/
  copyBytes : Nat
  /-- 64 bits; Table 8.5; none; BASE_ID. -/
  baseId : BitVec 64
  /-- 32 bits; Table 8.5; none; BASE_VERSION. -/
  baseVersion : BitVec 32
  /-- 32 bits; Table 8.5; none; RANK_LO. -/
  rankLo : Nat
  /-- 32 bits; Table 8.5; none; RANK_HI. -/
  rankHi : Nat
  /-- 384 bits; Table 8.5; none; PROFILE_HASH. -/
  profileHash : Hash
  /-- 384 bits; R214; none; MANIFEST_HASH. -/
  hash : Hash
  /-- 384 bits; R214; none; LAYOUT_HASH. -/
  layoutHash : Hash
  deriving DecidableEq, Repr

/-- A shard a load fetches (R223). -/
structure Shard where
  /-- 32 bits; R223; none; index in the manifest. -/
  idx : Nat
  /-- 64 bits; Table 8.6; none; OFFSET in the rank's copy. -/
  off : Nat
  /-- 30 bits; Table 8.6; none; LENGTH. -/
  len : Nat
  /-- 384 bits; Table 8.6; none; HASH. -/
  hash : Hash
  /-- 64 bits; R213; none; offset of its data in the image. -/
  imgOff : Nat
  /-- 1 bit; R223; 0; verified. -/
  done : Bool
  /-- 1 bit; R223; 0; being fetched from the alternate source. -/
  fromAlt : Bool
  /-- wall time; R223; none; when its fetch was requested. -/
  fetchAt : Option Nat
  deriving DecidableEq, Repr

/-- A source of a load (R222). -/
inductive Source where
  | none_ | store (slot : Nat) | host (addr : Nat)
  deriving DecidableEq, Repr

/-- What a load fills (R222). -/
inductive LoadTarget where
  | copy (slot : Nat) | adapter (handle : BitVec 32) (area : Nat)
  deriving DecidableEq, Repr

/-- A WEIGHT_LOAD or ADAPTER_LOAD in progress (R222, R223). -/
structure Load where
  /-- 6 bits; R384; none; mailbox that holds the command. -/
  mbx : Nat
  /-- target; R222; none; what it fills. -/
  target : LoadTarget
  /-- 14 bits; R222; none; rank. -/
  rank : Nat
  /-- source; R222; none; primary source. -/
  pri : Source
  /-- source; R222, R223; none; alternate source, none once it counts as none. -/
  alt : Source
  /-- 1 bit; R223; 0; the manifest in use is the alternate's. -/
  useAlt : Bool
  /-- wall time; R223; none; when the manifest read was requested, until it ends. -/
  manAt : Option Nat
  /-- 8 bits; R223; none; status of the primary's manifest, once it failed. -/
  priStatus : Option (BitVec 8)
  /-- record; R223; none; the manifest in use, once checked. -/
  man : Option ManInfo
  /-- 1 bit; R223; 0; the alternate's manifest has been read and is the same. -/
  altChecked : Bool
  /-- list; R223; none; the rank's shards in manifest order. -/
  shards : List Shard
  deriving DecidableEq, Repr

/-- Copy slot states (R224, Table 8.9). -/
inductive CopySt where
  | empty | loading | verified | active | retiring
  deriving DecidableEq, Repr

/-- A run of a tiered copy's bytes in its source image (R213, R232). -/
structure TierRun where
  /-- 64 bits; R213; none; offset of its first byte in the copy. -/
  off : Nat
  /-- 30 bits; R213; none; bytes. -/
  len : Nat
  /-- 41 bits; R210, R213; none; weight-store byte address of its first byte. -/
  addr : Nat
  deriving DecidableEq, Repr

/-- A copy slot (R219, R224). -/
structure CopySlot where
  /-- 3 bits; R224; EMPTY; state. -/
  st : CopySt := .empty
  /-- record; R224; none; the manifest of its copy. -/
  man : Option ManInfo := none
  /-- 17 bits; R219; 0; first entry of its pages in the partition's weight space. -/
  first : Nat := 0
  /-- 32 bits; R219; 0; weight pages it holds. -/
  pages : Nat := 0
  /-- list; R232, R234; empty; where the store tier's bytes of the copy lie, each run in the source its shard was verified from. -/
  tier : List TierRun := []
  deriving DecidableEq, Repr

/-- Adapter generation states (R230). -/
inductive AdpSt where
  | loading | verified | ready | superseded | freed
  deriving DecidableEq, Repr

/-- An adapter generation (R229, R230). -/
structure Adapter where
  /-- 32 bits; R229; none; handle. -/
  handle : BitVec 32
  /-- 32 bits; R229; none; generation. -/
  gen : BitVec 32
  /-- 2 bits; R230; none; state; VERIFIED is LOADING with every shard verified, READY at the next boundary. -/
  st : AdpSt
  /-- 6 bits; R229; none; adapter area. -/
  area : Nat
  /-- record; R229; none; its manifest. -/
  man : Option ManInfo
  /-- 1 bit; R231; 0; its handle is being deleted. -/
  deleting : Bool
  /-- 17 bits; R219; none; first entry of its area in the partition's weight space. -/
  first : Nat
  /-- 11 bits; R219; none; weight pages of its area. -/
  pages : Nat
  deriving DecidableEq, Repr

/-- A pending flip (R225). -/
structure Flip where
  /-- 32 bits; R225; none; AT_ORBIT. -/
  at_ : BitVec 32
  /-- 1 bit; R225; none; POLICY FORCE. -/
  force : Bool
  /-- 24 bits; R225; none; FLIP_WAIT. -/
  wait : Nat
  /-- 1 bit; R225; none; the slot it activates. -/
  slot : Nat
  deriving DecidableEq, Repr

/-- The weights of a partition (R218 to R231). -/
structure Weights where
  /-- slot; R219, R224; EMPTY; copy slot 0. -/
  copy0 : CopySlot := {}
  /-- slot; R219, R224; EMPTY; copy slot 1. -/
  copy1 : CopySlot := {}
  /-- 1 bit; R220, R225; 0; the copy-select bit ACTIVE. -/
  sel : Nat := 0
  /-- one flip; R225; none; the pending flip. -/
  flip : Option Flip := none
  /-- list; R229, R230; empty; adapter generations not yet freed. -/
  adapters : List Adapter := []
  /-- by handle; R229; none; the greatest generation each handle has held. -/
  maxGen : Tab (BitVec 32) := []
  /-- list; R222; empty; loads in progress. -/
  loads : List Load := []
  deriving DecidableEq, Repr

/-- Request states (R263, Table 10.3). -/
inductive ReqSt where
  | waiting | running | eclipsed
  deriving DecidableEq, Repr

/-- A live request (R260, R263). -/
structure Req where
  /-- 32 bits; Table 10.1; none; REQ_ID. -/
  id : BitVec 32
  /-- 14 bits; Table 10.1; none; CUSTOMER. -/
  customer : Nat
  /-- 3 bits; Table 10.1; none; PRIORITY. -/
  priority : Nat
  /-- 1 bit; Table 10.1; none; POLICY LATE_CONTINUE. -/
  lateCont : Bool
  /-- 32 bits; Table 10.1; none; ADAPTER. -/
  adapter : BitVec 32
  /-- 32 bits; R230; none; adapter generation it references, 0 none. -/
  gen : BitVec 32
  /-- 32 bits; Table 10.1, R227; none; prompt length, extended by delivered tokens at a restart. -/
  prompt : Nat
  /-- 32 bits; Table 10.1; none; tokens still to generate, counted from the last (re)start. -/
  maxNew : Nat
  /-- 32 bits; Table 10.1; none; STOP_TOKEN. -/
  stop : BitVec 32
  /-- 64 bits; Table 10.1; none; DEADLINE. -/
  deadline : BitVec 64
  /-- list of 20-bit indexes; R260, R276; none; CPT indexes of its slot pages on this module. -/
  pages : List Nat
  /-- 2 bits; R263; none; state. -/
  st : ReqSt
  /-- 1 bit; R275; 0; held by REQ_ECLIPSE. -/
  held : Bool
  /-- 1 bit; R263; 0; REQ_CANCEL takes effect at the next placement. -/
  cancel : Bool
  /-- 1 bit; R244, R268; 0; fenced: left out of the next placement. -/
  fenced : Bool
  /-- 32 bits; R246, R274; 0; tokens of the prompt prefilled in complete steps. -/
  prefilled : Nat
  /-- 32 bits; R246; 0; tokens delivered since the last (re)start. -/
  delivered : Nat
  /-- 32 bits; R227, R263; 0; tokens delivered before the last restart. -/
  before : Nat
  /-- 9 bits; R263; none; slot it rides in. -/
  slot : Option Nat
  /-- 1 bit; R224, R225; none; copy slot on which it started. -/
  copy : Option Nat
  /-- count; R273; none; submission order. -/
  order : Nat
  /-- 3 bits; R275, Table 10.8; 0; cause with which it was eclipsed. -/
  cause : Nat
  /-- 32 bits; R225, R227; none; orbit of its last restart: its steps up to that orbit are void. -/
  voidTo : Option (BitVec 32)
  deriving DecidableEq, Repr

/-- One slot of a placement (R265, R338, Table 12.11). -/
structure PlaceEntry where
  /-- 32 bits; Table 12.11; 0; REQ_ID. -/
  id : BitVec 32 := 0
  /-- 7 bits; Table 12.11, Table 10.6; 0; COND. -/
  cond : BitVec 8 := 0
  /-- 16 bits; Table 12.11; 0; CHUNK_LEN. -/
  chunk : Nat := 0
  /-- 32 bits; Table 12.11; 0; POS. -/
  pos : Nat := 0
  /-- 32 bits; Table 12.11; 0; GEN. -/
  gen : BitVec 32 := 0
  deriving DecidableEq, Repr

/-- A slot table entry (R270, Table 10.6). -/
structure SlotEntry where
  /-- record; Table 10.6; empty; REQ_ID, COND, CHUNK_LEN, POS, GEN. -/
  place : PlaceEntry := {}
  /-- 8 bits; Table 10.6; 0xFF; AREA. -/
  area : Nat := 0xFF
  /-- 16 bits; Table 10.6; 0; PAGE_COUNT. -/
  pageCount : Nat := 0
  /-- 20 bits; Table 10.6; 0; LIST_BASE. -/
  listBase : Nat := 0
  deriving DecidableEq, Repr

/-- A slot table bank (R266, R270). -/
structure SlotBank where
  /-- 32b entries; R270; all empty; by relative slot. -/
  slots : Tab SlotEntry := []
  /-- 65,536 x b entries of 20 bits; R270; empty; page list area, as far as it is filled. -/
  lists : List Nat := []
  /-- 32 bits; R266; 0; orbit the table was built for. -/
  orbit : BitVec 32 := 0
  deriving DecidableEq, Repr

/-- A step that ran and waits for its marks (R245, R277). -/
structure Step where
  /-- 32 bits; R277; none; orbit in which it ran. -/
  orbit : BitVec 32
  /-- 9 bits; R277; none; relative slot. -/
  slot : Nat
  /-- record; R277; none; the slot's entry. -/
  place : PlaceEntry
  /-- 64 bits; R277; none; E(n). -/
  endMt : BitVec 64
  /-- 40 bits; R280; none; TS of tick 0 of the next orbit. -/
  ts : BitVec 40
  /-- 2 bits; R263, Table 10.10 DISCARD; 0; 1 or 2 where its request has ended. -/
  ended : Nat
  deriving DecidableEq, Repr

/-- A slot selector table (R271). -/
structure Selector where
  /-- 17 bits; R271; none; TOKEN_CAP. -/
  tokenCap : Nat
  /-- 11 bits; R271; none; MAX_CHUNK. -/
  maxChunk : Nat
  /-- 16 bits; R271; none; BASE_PAGES. -/
  basePages : Nat
  /-- 16 bits; R271; none; PAGES_PER_1K. -/
  pagesPer1k : Nat
  /-- 21 bits; R271; none; MAX_CONTEXT. -/
  maxContext : Nat
  /-- by tile: 64 selectors of 16 bits; R271; none; the selectors. -/
  tiles : Tab (List (BitVec 16))
  /-- 384 bits; R271; none; SELECTOR_HASH. -/
  hash : Hash
  deriving DecidableEq, Repr

/-- A pending restart registered by CKPT_RESTORE (R359). -/
structure Restart where
  /-- 32 bits; R356; none; REQ_ID. -/
  id : BitVec 32
  /-- 32 bits; R356; none; GEN. -/
  gen : BitVec 32
  /-- 32 bits; R356; none; PROMPT_LEN. -/
  prompt : Nat
  /-- 32 bits; R356; none; MAX_NEW. -/
  maxNew : Nat
  /-- 32 bits; R356; none; DELIVERED. -/
  delivered : Nat
  deriving DecidableEq, Repr

/-- The leader's decision for the next orbit (R265). -/
inductive Placement where
  | none_ | stale | made (slots : Tab PlaceEntry)
  deriving DecidableEq, Repr

/-- The serving engine of a partition (R259 to R279, Table 10.4). -/
structure Serving where
  /-- 64 bits; Table 10.4; 0; SUB_BASE. -/
  subBase : BitVec 64 := 0
  /-- 5 bits; Table 10.4; 0; SUB_SIZE.k. -/
  subSize : BitVec 32 := 0
  /-- 16 bits; Table 10.4; 0; SUB_TAIL. -/
  subTail : BitVec 16 := 0
  /-- 16 bits; Table 10.4; 0; SUB_HEAD. -/
  subHead : BitVec 16 := 0
  /-- 1 bit; R264, Table 10.4; 0; ADMIT. -/
  admitOn : Bool := false
  /-- 1 bit; R266, Table 10.4; 0; BANK in force. -/
  bank : Bool := false
  /-- 1 bit; R267, Table 10.4; 0; the last orbit was stale. -/
  stale : Bool := false
  /-- 1 bit; R267; 0; the orbit in force is stale. -/
  staleNow : Bool := false
  /-- 32 bits RC; Table 10.4; 0; STALE_COUNT. -/
  staleCount : BitVec 32 := 0
  /-- list; R263; empty; live requests. -/
  reqs : List Req := []
  /-- list of (REQ_ID, 1 ended or 2 LATE_END); R263; empty; ended requests whose REQ_ID is not yet free. -/
  gone : List (BitVec 32 × Nat) := []
  /-- bank; R266; empty; bank 0. -/
  bank0 : SlotBank := {}
  /-- bank; R266; empty; bank 1. -/
  bank1 : SlotBank := {}
  /-- 1 bit; R266; 0; the bank not in force is ready. -/
  ready : Bool := false
  /-- placement; R265; none; P(n + 1), formed by the leader or received whole. -/
  next : Placement := .none_
  /-- 32 bits; R265; 0; orbit the last placement was formed for. -/
  nextFor : BitVec 32 := 0
  /-- 32 bits; R279; none; last orbit that has been settled. -/
  settledFor : Option (BitVec 32) := none
  /-- by part number; R338; empty; parts of P(n + 1) received. -/
  parts : Tab (List Byte) := []
  /-- by part number; R338; empty; parts of P(n + 2), from a leader that is already an orbit ahead. -/
  ahead : Tab (List Byte) := []
  /-- 1 bit; R267; 0; STALE received for orbit n + 2. -/
  aheadStale : Bool := false
  /-- list of (orbit, 512 bits); R325; empty; relative slots occupied in the orbits that ended lately. -/
  occupied : List (BitVec 32 × BitVec 512) := []
  /-- 9-bit slots; R268; empty; slots this module fences from tick 0 of the next orbit. -/
  fenceNext : List Nat := []
  /-- 9-bit slots; R244; empty; fenced slots whose request the table in force does not carry: their fence ends with this orbit. -/
  fenceEnds : List Nat := []
  /-- record; R271; none; the selector table. -/
  sel : Option Selector := none
  /-- list; R277; empty; steps whose tokens wait for the marks. -/
  steps : List Step := []
  /-- by customer: 64-bit credits; R279; none; settled credits that take effect at the next boundary. -/
  settled : Tab Int := []
  /-- by customer; R279; 0; charge of the orbit before the present one. -/
  charge : Tab Nat := []
  /-- count; R273; 0; requests submitted so far. -/
  order : Nat := 0
  /-- list; R359; empty; pending restarts from a checkpoint. -/
  restarts : List Restart := []
  deriving DecidableEq, Repr

/-- The ephemeris of a partition (R280 to R285, Table 10.11). -/
structure Eph where
  /-- 32 bits; Table 10.11; 0; EPH_CFG. -/
  cfg : BitVec 32 := 0
  /-- 64 bits; Table 10.11; 0; EPH_HEAD. -/
  head : BitVec 64 := 0
  /-- 64 bits; Table 10.11; 0; EPH_TAIL. -/
  tail : BitVec 64 := 0
  /-- 32 bits RC; R283, Table 10.11; 0; EPH_LOST. -/
  lost : BitVec 32 := 0
  /-- 64 bits; Table 10.11; 0; DIG_CFG. -/
  digCfg : BitVec 64 := 0
  /-- 64 bits; Table 10.11; 0; DIG_HEAD. -/
  digHead : BitVec 64 := 0
  /-- 64 bits; Table 10.11; 0; DIG_TAIL. -/
  digTail : BitVec 64 := 0
  /-- count; R283; 0; records lost since the last GAP record. -/
  gap : Nat := 0
  /-- 64 bits; R284; 0; index of the first record no digest covers. -/
  digFrom : BitVec 64 := 0
  /-- 32 bits; R284, R285; 0; orbits since the last digest. -/
  digOrbits : Nat := 0
  /-- 32 bits; R284; 0; first orbit the next digest covers. -/
  digFirstOrbit : BitVec 32 := 0
  /-- 384 bits; R284; 0; PREV_HASH of the next digest. -/
  prevHash : Hash := 0
  /-- 408 bytes; R283, R285; none; bytes 0x000 to 0x197 of a digest that has closed and that the full digest ring holds back. -/
  held : Option (List Byte) := none
  /-- bytes; R284; empty; the records that no digest covers yet, whose SHA-384 the next one carries. -/
  recs : List Byte := []
  /-- list of 56-byte entries; R284; empty; adapter generations READY or SUPERSEDED in the orbits covered. -/
  adapters : List (BitVec 32 × BitVec 32 × Hash) := []
  deriving DecidableEq, Repr

/-- The marks of one orbit (R326, R327). -/
structure MarkSet where
  /-- 32 bits; R326; none; orbit summarised. -/
  orbit : BitVec 32
  /-- 7 bits; R327; 0; rounds this module has formed. -/
  round : Nat
  /-- 1 bit; R326; none; ALL_FENCE. -/
  allFence : Bool
  /-- 1 bit; R326; none; LATE. -/
  late : Bool
  /-- 1 bit; R326; none; STALE. -/
  stale : Bool
  /-- 64 bits; R326; none; MT_START. -/
  mtStart : BitVec 64
  /-- 512 bits; R326; none; FENCE. -/
  fence : BitVec 512
  /-- 256 bits; R326; none; CBIT_REQ. -/
  cbitReq : BitVec 256
  /-- by logical port: round and payload; R327; empty; marks of this orbit received and not yet merged. -/
  got : List (Nat × Nat × List Byte)
  /-- 1 bit; R327; 0; complete. -/
  complete : Bool
  /-- 64 bits; R356; 0; MT at which it was complete. -/
  completeMt : BitVec 64
  deriving DecidableEq, Repr

/-- A receipt key a source has handled (R321). -/
structure RcptKey where
  /-- 14 bits; R321; none; requester rank. -/
  rank : Nat
  /-- 32 bits; R321; none; orbit. -/
  orbit : BitVec 32
  /-- 24 bits; R321; none; transfer. -/
  transfer : Nat
  /-- 2 bits; R321; none; attempt. -/
  attempt : Nat
  deriving DecidableEq, Repr

/-- The fabric state of a partition (R314 to R339, Table 12.9). -/
structure Fab where
  /-- 64 bits; Table 12.9; 0; FAB_TIMING. -/
  timing : BitVec 64 := 0
  /-- 32 bits; Table 12.9; 0; FAB_MODE, bit 9 EPOCH in force included. -/
  mode : BitVec 32 := 0
  /-- 256 bits; R332, Table 12.9; 0; DETOUR_COND. -/
  detour : BitVec 256 := 0
  /-- 32 bits RC; Table 12.9; 0; RESEND_TX. -/
  resendTx : BitVec 32 := 0
  /-- 32 bits RC; Table 12.9; 0; RECEIPT_TX. -/
  receiptTx : BitVec 32 := 0
  /-- 32 bits RC; Table 12.9; 0; ABANDONED. -/
  abandoned : BitVec 32 := 0
  /-- 32 bits RC; Table 12.9; 0; GONE_RX. -/
  goneRx : BitVec 32 := 0
  /-- 32 bits RC; Table 12.9; 0; COMET_DROP. -/
  cometDrop : BitVec 32 := 0
  /-- 32 bits RC; Table 12.9; 0; COMET_NOROUTE. -/
  cometNoroute : BitVec 32 := 0
  /-- 32 bits RC; Table 12.9; 0; MARK_LAG. -/
  markLag : BitVec 32 := 0
  /-- 64 bits; Table 12.9; 0; PACE_WAIT_NS. -/
  paceWaitNs : BitVec 64 := 0
  /-- list; R319; empty; open inbound entries. -/
  open_ : List Inbound := []
  /-- list; R321; empty; receipt keys already handled. -/
  handled : List RcptKey := []
  /-- list; R303; empty; packets handed to the fabric logic, oldest first. -/
  inbox : List Received := []
  /-- list of (orbit, TRANSFER); R321, Table 12.4; empty; what this module has sent as a source since the job started. -/
  sentKeys : List (BitVec 32 × Nat) := []
  /-- list; R326, R327; empty; marks of recent orbits. -/
  marks : List MarkSet := []
  /-- 1 bit; R324; 0; a transfer has been abandoned in this orbit, so link WAITs release. -/
  abandonNow : Bool := false
  /-- 1 bit; R324; 0; ALL_FENCE of this orbit's mark. -/
  allFence : Bool := false
  /-- 512 bits; R244, R327; 0; slots fenced in this orbit, for its mark. -/
  fenced : BitVec 512 := 0
  /-- 256 bits; R332; 0; CBIT_REQ. -/
  cbitReq : BitVec 256 := 0
  /-- list of (orbit, bits); R332; empty; detour bits to set at the boundary into that orbit. -/
  detourDue : List (BitVec 32 × BitVec 256) := []
  /-- 1 bit; R326; 0; this orbit is late. -/
  late : Bool := false
  /-- list of (KIND, ORBIT, PART); R337; empty; floods already seen. -/
  floods : List (Nat × BitVec 32 × Nat) := []
  /-- 32 bits; R334; none; orbit of the pending epoch switch. -/
  switchAt : Option (BitVec 32) := none
  /-- 32 bits; R334; none; orbit from which the half that left force accepts writes. -/
  halfFree : Option (BitVec 32) := none
  /-- wall time; R317; none; since when the partition is in a pacing pause. -/
  pace : Option Nat := none
  /-- 64 bits; R317; none; MT before which the next orbit does not begin. -/
  paceMt : Option (BitVec 64) := none
  deriving DecidableEq, Repr

/-- Job states (R350, Table 13.5). -/
inductive JobSt where
  | none_ | preparing | ready | armed | running | stopped | failed
  deriving DecidableEq, Repr

/-- A checkpoint in progress (R355 to R357). -/
structure Ckpt where
  /-- 32 bits; R355; none; orbit k. -/
  orbit : BitVec 32
  /-- 64 bits; R355; none; CKPT_SEQ. -/
  seq : BitVec 64
  /-- 64 bits; R355; none; host buffer. -/
  addr : Nat
  /-- 64 bits; R355; none; its size. -/
  size : Nat
  /-- bytes; R357; none; the header and body captured, COMMIT still 0. -/
  image : Option (List Byte)
  /-- 8 bits; R356; none; NOT_READY where the leader has too many requests. -/
  fail : Option (BitVec 8)
  deriving DecidableEq, Repr

/-- The job of a partition (R348 to R361, Table 13.9). -/
structure Job where
  /-- 3 bits; Table 13.9; NONE; STATE. -/
  st : JobSt := .none_
  /-- 8 bits; R361; 0; LAST_FAIL. -/
  lastFail : BitVec 8 := 0
  /-- 16 bits; Table 13.9; 0; JOB_TAG. -/
  tag : BitVec 16 := 0
  /-- 16 bits; Table 13.9; 0; JOB_EPOCH. -/
  epoch : BitVec 16 := 0
  /-- 14 bits; Table 13.9; 0; rank. -/
  rank : Nat := 0
  /-- 15 bits; Table 13.9; 1; JOB_MODULES. -/
  modules : Nat := 1
  /-- 32 bits; Table 13.9; 0; DISC_OK. -/
  discOk : BitVec 32 := 0
  /-- 32 bits; Table 13.9; 0; DISC_MISSING. -/
  discMissing : BitVec 32 := 0
  /-- 32 bits; Table 13.9; 0; DISC_MISWIRED. -/
  discMiswired : BitVec 32 := 0
  /-- 32 bits; Table 13.9; 0; DISC_FOREIGN. -/
  discForeign : BitVec 32 := 0
  /-- 32 bits; Table 13.9; 0; DISC_EXTRA. -/
  discExtra : BitVec 32 := 0
  /-- wall time; R348, R350; 0; when discovery began or restarted. -/
  discAt : Nat := 0
  /-- ms; R348; 0; DISC_TIMEOUT. -/
  discMs : Nat := 0
  /-- 64 bits; R351; 0; START_MT. -/
  startMt : BitVec 64 := 0
  /-- 32 bits; R351; 0; START_ORBIT. -/
  startOrbit : BitVec 32 := 0
  /-- record; R355, Table 13.9 CKPT_BUSY; none; checkpoint in progress. -/
  ckpt : Option Ckpt := none
  /-- 8 bits; Table 13.9; 0; CKPT_STATUS. -/
  ckptStatus : BitVec 8 := 0
  /-- 64 bits; Table 13.9; 0; CKPT_DONE_SEQ. -/
  ckptDone : BitVec 64 := 0
  /-- 64 bits; R355; 0; greatest CKPT_SEQ the partition has written. -/
  ckptMax : BitVec 64 := 0
  /-- 14 bits; R348, R359; none; RANK of the checkpoint restored. -/
  restoredRank : Option Nat := none
  deriving DecidableEq, Repr

/-- The last level report formed (R163, Table 15.11). -/
structure Level where
  /-- 32 bits; Table 15.11; 0; ORBIT. -/
  orbit : BitVec 32 := 0
  /-- bytes; Table 15.11; all 0; the report from byte 4 on, empty before the first boundary. -/
  body : List Byte := []
  /-- snapshot of counters by moon * 4 + slice; R163; none; at the previous boundary. -/
  base : Tab MoonSlice := []
  /-- snapshot of byte counts and transfer time by channel; R203; none; at the previous boundary. -/
  chans : Tab (Nat × Nat × Nat) := []
  /-- wall time; R203; 0; of the previous boundary. -/
  at_ : Nat := 0
  deriving DecidableEq, Repr

/-- A break that has fired in the partition (R110). -/
structure BreakSt where
  /-- tick count; R110; none; tick T at which it fired. -/
  at_ : Nat
  deriving DecidableEq, Repr

/-- A partition (R385, R408). -/
structure Part where
  /-- 4 bits; R385; none; its lowest block, its number. -/
  pid : Nat
  /-- 16 bits; R385; none; its blocks. -/
  mask : BitVec 16
  /-- 2 bits; R26; EMPTY; plan state. -/
  plan : PlanSt := .empty
  /-- record; R19, R26; none; the plan it holds. -/
  info : Option PlanInfo := none
  /-- 32 bits; R31, Table 10.4; 0; orbit number in force. -/
  orbit : BitVec 32 := 0
  /-- 28 bits; R28, Table 3.11; 0; tick in the orbit (TICK_IN_ORBIT). -/
  tick : Nat := 0
  /-- tick count; R29; 0; ticks since plan start; TS is its value modulo 2^40. -/
  now : Nat := 0
  /-- count; R33; 0; orbits begun since plan start. -/
  orbits : Nat := 0
  /-- 1 bit; R95; 0; the slot predicates of this orbit have been staged. -/
  staged : Bool := false
  /-- 1 bit; R97; 0; an entry into RUNNING waits for its clean-up. -/
  entering : Bool := false
  /-- 1 bit; R26 Table 1.5, R105; 0; the partition has stopped, and its tiles finish the tick in hand. -/
  stopping : Bool := false
  /-- 1 bit; R105, R110; 0; parked by a break. -/
  parked : Bool := false
  /-- record; R110; none; a break on its way. -/
  brk : Option BreakSt := none
  /-- 32 bits; R280; 0; orbit in force when it last left RUNNING. -/
  lastOrbit : BitVec 32 := 0
  /-- 40 bits; R280; 0; TS of the last tick begun when it last left RUNNING. -/
  lastTs : BitVec 40 := 0
  /-- us; R37; 2000; hold limit in force. -/
  holdUs : Nat := 2000
  /-- us; R37; none; hold limit that takes effect at the next boundary. -/
  holdNext : Option Nat := none
  /-- record; R218; all EMPTY; weights. -/
  w : Weights := {}
  /-- record; R259; empty; serving engine. -/
  srv : Serving := {}
  /-- record; R280; off; ephemeris. -/
  eph : Eph := {}
  /-- record; R314; empty; fabric. -/
  fab : Fab := {}
  /-- record; R350; NONE; job. -/
  job : Job := {}
  /-- record; R163; none formed; level report. -/
  level : Level := {}
  deriving DecidableEq, Repr

end Sys2Proof.Machine
end

