-- ==== Sys2Proof/Machine/StateSys.lean ====
section
/-!
DEFINITION. The state of the module outside the tiles, the memory path, the ports and the partitions: the host
interface and mailboxes (chapter 15), the keys, the life cycle and the recovery registers (chapter 16), the fault logic
and the crater map (chapter 17), power, reset and start-up (chapter 18), and the weight store (chapter 8). Every
field's docstring reads: width; the rules that name it; its reset value; what it holds.
-/

namespace Sys2Proof.Machine

open Sys2Proof

/-- MBX_STATUS.STATE (Table 15.6). -/
inductive MbxSt where
  | idle | posted | accepted | done
  deriving DecidableEq, Repr

/-- A mailbox (R381, R382, Table 15.6). -/
structure Mailbox where
  /-- 2 bits; Table 15.6; IDLE; STATE. -/
  st : MbxSt := .idle
  /-- 16 bits; Table 15.6; 0; SEQ of the command. -/
  seq : BitVec 16 := 0
  /-- 16 bits RC; Table 15.6; 0; MBX_ERR[15:0], request-area writes discarded. -/
  errReq : BitVec 16 := 0
  /-- 16 bits RC; Table 15.6; 0; MBX_ERR[31:16], doorbells discarded. -/
  errPost : BitVec 16 := 0
  /-- 1,984 bytes; Table 15.6, R382; 0; REQUEST, by offset from 0x040. -/
  req : Mem := []
  /-- 2,048 bytes; Table 15.6, R382; 0; REPLY, by offset from 0x800. -/
  reply : Mem := []
  /-- wall time; R382; 0; of the POST. -/
  postAt : Nat := 0
  /-- count; R383; 0; place of the command in POST order. -/
  order : Nat := 0
  /-- 1 bit; R383, R384; 0; the ACCEPTED command has begun and waits for its event. -/
  begun : Bool := false
  deriving DecidableEq, Repr

/-- Global control and status (Tables 15.3 and 15.4; LC stands in OTP). -/
structure Glb where
  /-- 1 bit; Table 15.4, R395; 0; MP_READY. -/
  mpReady : Bool := false
  /-- 1 bit; Table 15.4, R380; 0; SHED. -/
  shed : Bool := false
  /-- wall time; R380; none; since when SHED is set. -/
  shedAt : Option Nat := none
  /-- wall time; R380; none; when FAULT or SERVING work last waited more than 10 us while SHED is set. -/
  shedWait : Option Nat := none
  /-- 1 bit; Table 15.4, R208; 0; INSTALL. -/
  install : Bool := false
  /-- 1 bit; Table 15.4, R372; 0; CXL. -/
  cxl : Bool := false
  /-- 3 bits; Table 15.4, R372; 0; WIDTH. -/
  width : BitVec 3 := 0
  /-- 3 bits; Table 15.4, R372; 0; RATE. -/
  rate : BitVec 3 := 0
  /-- 10 bits; Table 15.3; 0; MP_LOAD[9:0], core busy share. -/
  mpBusy : BitVec 10 := 0
  /-- 64 bits; Table 15.3; 0; HEARTBEAT. -/
  heartbeat : BitVec 64 := 0
  /-- 64 bits; Table 15.3; 0; SHED_NS. -/
  shedNs : BitVec 64 := 0
  /-- 32 bits RC; R375; 0; BAR0_ERR. -/
  bar0Err : BitVec 32 := 0
  /-- 32 bits RC; R377, R378; 0; CXLM_POISON. -/
  cxlmPoison : BitVec 32 := 0
  /-- 32 bits RC; R377; 0; CXLM_WDROP. -/
  cxlmWdrop : BitVec 32 := 0
  /-- wall time; Table 15.3; 0; of the last HEARTBEAT increment. -/
  beatAt : Nat := 0
  /-- count; R383; 0; POSTs so far. -/
  posts : Nat := 0
  deriving DecidableEq, Repr

/-- The identity register's versions (R6, R8); its other words are fixed. -/
structure Ident where
  /-- 32 bits; Table 0.2; 0; FW_PATCH, FW_MINOR, FW_MAJOR and FW_VALID. -/
  fw : BitVec 32 := 0
  /-- 32 bits; Table 0.2; 0; LDR_PATCH, LDR_MINOR, LDR_MAJOR and LDR_VALID. -/
  ldr : BitVec 32 := 0
  deriving DecidableEq, Repr

/-- The recovery registers (R396, Table 16.4) and the image that runs. -/
structure Rcv where
  /-- 3 bits; Table 16.4; 0; STATE. -/
  st : BitVec 3 := 0
  /-- 8 bits; Table 16.4; 0; REASON. -/
  reason : BitVec 8 := 0
  /-- 1 bit; Table 16.4, R397; 0, kept through every reset except loss of the input; ARM. -/
  arm : Bool := false
  /-- 64 bits; Table 16.4; 0; RCV_ADDR. -/
  addr : BitVec 64 := 0
  /-- 32 bits; Table 16.4; 0; RCV_LEN. -/
  len : BitVec 32 := 0
  /-- 1 bit; Table 16.4; 0; COMMIT. -/
  commit : Bool := false
  /-- 1 bit; Table 16.4, R397; 0; GO has been written and the image is being loaded. -/
  go : Bool := false
  /-- 80 bytes and 1 bit; Table 16.9 block 2; none; header bytes 0x000 to 0x04F of the running image, and whether it came from the host. -/
  running : Option (List Byte × Bool) := none
  deriving DecidableEq, Repr

/-- Power, reset and start-up (chapter 18). -/
structure Pwr where
  /-- 1 bit; R438; 1 (the input has been applied); the first stage runs. -/
  inputOn : Bool := true
  /-- 1 bit; R438; 0; the input fell through the turn-off threshold and the hold-up runs. -/
  holdUp : Bool := false
  /-- wall time; R438; 0; when the input fell through the turn-off threshold. -/
  fallAt : Nat := 0
  /-- wall time; R438; none; when the input was last removed. -/
  offAt : Option Nat := none
  /-- 8 bits; R439, Table 18.2; all in range; rail k of the order at bit k - 1. -/
  rails : BitVec 8 := 0xFF#8
  /-- 1 bit; R450 step 4; 1; internal reset is held. -/
  resetHeld : Bool := true
  /-- 32 bits; Table 18.9, Table 18.6; bit 0, power-on; RST_CAUSE. -/
  rstCause : BitVec 32 := 1#32
  /-- 32 bits; Table 18.9, R450; steps 1 to 3 ended, 0x7 (the table's 0 is the value before step 1 ends); START_STATUS. -/
  startStatus : BitVec 32 := 7#32
  /-- 32 bits RC; R449; 0; HOST_RESETS. -/
  hostResets : BitVec 32 := 0
  /-- 64 bits; Table 18.9; 0; PWR_IN. -/
  pwrIn : BitVec 64 := 0
  /-- 64 bits; Table 18.9; 0; TEMPS. -/
  temps : BitVec 64 := 0
  /-- 3 bits; R443, Table 18.9 THROTTLE; DESIGN CHOICE 7, no ceiling; power ceiling. -/
  powerCeil : BitVec 3 := 7#3
  /-- 3 bits; R444, Table 18.9 THROTTLE; DESIGN CHOICE 7, no ceiling; thermal ceiling from the readings. -/
  thermCeil : BitVec 3 := 7#3
  /-- list of sensors 0 to 4; R444; empty; sensors that have failed. -/
  sensorBad : List Nat := []
  /-- by sensor 0 to 4 and 5 for the hottest GDDR7 device: wall time; Table 18.4; none; since when it stands above its lowering threshold. -/
  hotAt : Tab Nat := []
  /-- wall time; Table 18.4; none; since when every reading stands below its raising threshold. -/
  coolAt : Option Nat := none
  /-- 1 bit; R438, Table 18.9; 0; INPUT_RANGE ceiling active. -/
  rangeActive : Bool := false
  /-- 3 bits; R438; 7; INPUT_RANGE ceiling. -/
  rangeCeil : BitVec 3 := 7#3
  /-- 1 bit; R446, Table 18.9; 0; PHASE_FAIL ceiling active. -/
  phaseActive : Bool := false
  /-- 0 to 64; Table 18.9; 64; phases regulating. -/
  phases : Nat := 64
  /-- mV; R167 Table 6.3, R169; 560 (step 0); core voltage. -/
  vcore : Nat := 560
  /-- 3 bits; R171, Table 18.9; 7; tide ceiling. -/
  tideCeil : BitVec 3 := 7#3
  /-- 3 bits; R171, Table 18.9; 7; operator limit. -/
  opLimit : BitVec 3 := 7#3
  /-- 12 bits; R443, Table 18.9; 0xAF0; PWR_LIMIT, limit in force in W. -/
  limit : BitVec 12 := 0xAF0#12
  /-- 1 bit; R389; 0; the limit could not be met at step 0 and the fault has been raised. -/
  limitFault : Bool := false
  /-- wall time; R443; 0; of the last power measurement. -/
  measAt : Nat := 0
  /-- wall time; R444; 0; of the last reading of the temperatures. -/
  thermAt : Nat := 0
  /-- count; R443; 0; consecutive measurements over the limit. -/
  overRun : Nat := 0
  /-- wall time; R443; none; since when the measurements stay below 90% of the limit. -/
  belowAt : Option Nat := none
  /-- 8 bits; R443; 0; steps that have exceeded the limit in force since it was written. -/
  exceeded : BitVec 8 := 0
  deriving DecidableEq, Repr

/-- One-time-programmable fuses (R2, R390, R399). -/
structure Otp where
  /-- 3 bits; R399, Table 15.4 LC; DESIGN CHOICE PROVISIONED (the spec says "per module"); life-cycle state. -/
  lc : BitVec 3 := 1#3
  /-- 3 bits; R399; none; PENDING fuse word. -/
  pending : Option (BitVec 3) := none
  /-- 384 bits; Table 16.1; DESIGN CHOICE 0; device seed. -/
  seed : Hash := 0
  /-- 0 to 64; R398; DESIGN CHOICE 0; SVN fuses burned. -/
  svn : Nat := 0
  /-- 4 bits; Table 16.1; DESIGN CHOICE 0; FWK revocation bits. -/
  revoked : BitVec 4 := 0
  /-- by slot 0 to 7: 384 bits; Table 16.1; DESIGN CHOICE none used; SHA-384 of the owner key burned into the slot. -/
  owners : Tab Hash := []
  /-- 3 bits; Table 16.6; DESIGN CHOICE none; owner slot in force. -/
  owner : Option Nat := none
  /-- 64 bits; Table 16.7, Table 11.10; DESIGN CHOICE 0; module serial number. -/
  serial : BitVec 64 := 0
  deriving DecidableEq, Repr

/-- Boot ROM contents that the rules read (Table 16.1, R391, Table 16.9). -/
structure Rom where
  /-- by key 0 to 3: 384 bits; Table 16.1; DESIGN CHOICE 0; SHA-384 of FWK[k]. -/
  fwk : Tab Hash := []
  /-- 384 bits; Table 16.1; DESIGN CHOICE 0; SHA-384 of the factory key. -/
  factory : Hash := 0
  /-- 768 bits; R391; DESIGN CHOICE 0; the Takawell test key. -/
  testKey : PubKey := ⟨0, 0⟩
  /-- 32 bits; Table 16.9 block 1; DESIGN CHOICE 0; boot ROM version. -/
  version : BitVec 32 := 0
  /-- 384 bits; Table 16.9 block 1; DESIGN CHOICE 0; SHA-384 of the boot ROM. -/
  hash : Hash := 0
  deriving DecidableEq, Repr

/-- A crater map (R430, Table 17.8), as sorted lists of set bits. -/
structure CraterMap where
  /-- 2,400 bits; Table 17.8; DESIGN CHOICE 0; TILES, q * 600 + r * 25 + c. -/
  tiles : List Nat := []
  /-- 48 bits; Table 17.8; DESIGN CHOICE 0; CHANNELS. -/
  channels : List Nat := []
  /-- 160 bits; Table 17.8; DESIGN CHOICE 0; LANES, port * 5 + lane. -/
  lanes : List Nat := []
  /-- 32 bits; Table 17.8; DESIGN CHOICE 0; DMA. -/
  dma : List Nat := []
  /-- 64 bits; Table 17.8; DESIGN CHOICE 0; SEAM_CH. -/
  seamCh : List Nat := []
  /-- 16 bits; Table 17.8, R432; DESIGN CHOICE 0; BLOCKS. -/
  blocks : List Nat := []
  /-- 1 bit; Table 17.8; DESIGN CHOICE 0; STORE. -/
  store : Bool := false
  deriving DecidableEq, Repr

/-- A crater map slot of the boot flash (R431). -/
structure MapSlot where
  /-- 384 bytes; R431; none; the map in force. -/
  force : CraterMap
  /-- 384 bytes; R431; none; the pending map. -/
  pend : CraterMap
  /-- 64 bits; R431; none; SEQ. -/
  seq : BitVec 64
  /-- 1 bit; R431; none; UNCONFIRMED. -/
  unconfirmed : Bool
  /-- 32 bits; R431; none; the CRC-32C stored. -/
  crc : BitVec 32
  deriving DecidableEq, Repr

/-- The crater map as the MP holds it (R430 to R433). -/
structure Crater where
  /-- 384 bytes; R430; empty until start-up step 10; map in force. -/
  force : CraterMap := {}
  /-- 384 bytes; R433; empty; pending map. -/
  pend : CraterMap := {}
  /-- 64 bits; R431; 0; SEQ of the current slot. -/
  seq : BitVec 64 := 0
  /-- 1 bit; R431; 0; the map is unconfirmed. -/
  unconfirmed : Bool := false
  /-- count; R26, R433; 0; changes, pending entries counted, by block mask and order. -/
  changes : List (BitVec 16) := []
  /-- tiles with a failed crossing boundary, q * 12 + boundary; R177, R432; empty; failed crossing boundaries. -/
  crossings : List Nat := []
  deriving DecidableEq, Repr

/-- The boot flash (R2, R390, R393, R431). -/
structure Flash where
  /-- bytes; R393; DESIGN CHOICE none; the firmware image. -/
  image : List Byte := []
  /-- 1 bit; Table 16.3 FLASH; 0; unreadable, or uncorrectable ECC. -/
  bad : Bool := false
  /-- by slot 0 to 3; Table 16.1; DESIGN CHOICE none; enrolled model-signing keys. -/
  msk : Tab PubKey := []
  /-- 1 bit; R391; DESIGN CHOICE 1; the identity area's MAC checks. -/
  macOk : Bool := true
  /-- up to 4,096 bytes; Table 16.1, Table 16.7; DESIGN CHOICE none; the device certificate. -/
  cert : List Byte := []
  /-- slot; R431; DESIGN CHOICE a valid slot with SEQ 0 and no marks; crater map slot 0. -/
  map0 : Option MapSlot := some ⟨{}, {}, 0, false, 0xB9A49C8B⟩
  /-- slot; R431; DESIGN CHOICE none; crater map slot 1. -/
  map1 : Option MapSlot := none
  deriving DecidableEq, Repr

/-- A history entry (R416, Table 17.4). -/
structure HistEntry where
  /-- 64 bits; Table 17.4; none; MT. -/
  mt : BitVec 64
  /-- 32 bits; Table 17.4; none; ORBIT. -/
  orbit : BitVec 32
  /-- 40 bits; Table 17.4; none; TS. -/
  ts : BitVec 40
  /-- 2 bits; Table 17.4; none; CLASS. -/
  cls : BitVec 2
  /-- 12 bits; Table 17.4; none; SOURCE. -/
  source : BitVec 12
  /-- 16 bits; Table 17.4; none; CAUSE. -/
  cause : BitVec 16
  /-- 8 bits; Table 17.4; none; PART. -/
  part : BitVec 8
  /-- 8 bits; Table 17.4; none; SEQ_LO. -/
  seqLo : BitVec 8
  /-- 64 bits; Table 17.5; none; DETAIL. -/
  detail : BitVec 64
  deriving DecidableEq, Repr

/-- A source's escalation settings and counters (R414, R415). -/
structure Esc where
  /-- 16 bits; R414; 32; NOTE_LIMIT. -/
  noteLimit : Nat := 32
  /-- 16 bits, ms; R414; 100; NOTE_WINDOW. -/
  noteWindow : Nat := 100
  /-- 16 bits; R414; 0; DEG_LIMIT. -/
  degLimit : Nat := 0
  /-- 16 bits, ms; R414; 1000; DEG_WINDOW. -/
  degWindow : Nat := 1000
  /-- 64 bits, MT; R414; 0; start of the NOTE window. -/
  noteStart : Nat := 0
  /-- count; R414; 0; NOTE counter. -/
  noteCount : Nat := 0
  /-- 64 bits, MT; R414; 0; start of the DEGRADE window. -/
  degStart : Nat := 0
  /-- count; R414; 0; DEGRADE counter. -/
  degCount : Nat := 0
  deriving DecidableEq, Repr

/-- The fault logic (R410 to R424, Table 17.6). -/
structure Flt where
  /-- 1 bit; R420; 0; HOLD. -/
  hold : Bool := false
  /-- wall time; R420; none; when the FAULT_N pulse ends (PULSE is set while it runs). -/
  pulse : Option Nat := none
  /-- 1 bit; R424; 0; SEALED. -/
  sealed : Bool := false
  /-- 1 bit; R423; 0; MP_FAILED. -/
  mpFailed : Bool := false
  /-- 1 bit; R422; 0; SE_FAILED. -/
  seFailed : Bool := false
  /-- 1 bit; R422; 0; ALIVE_RUN. -/
  aliveRun : Bool := false
  /-- 1 bit; R422; 0, low; level of the ALIVE pin. -/
  alive : Bool := false
  /-- 1 bit; R422; 0; a condition has failed: ALIVE stops low at the next toggle. -/
  aliveStop : Bool := false
  /-- wall time; R422; 0; when the present interval of ALIVE began. -/
  aliveAt : Nat := 0
  /-- 64 bits; Table 17.6; 0; HIST_HEAD. -/
  head : BitVec 64 := 0
  /-- 64 bits; Table 17.6; 0; HIST_TAIL. -/
  tail : BitVec 64 := 0
  /-- 32 bits RC; Table 17.6; 0; HIST_LOST. -/
  lost : BitVec 32 := 0
  /-- 64 bits; Table 17.6; 0; COUNT_NOTE. -/
  notes : BitVec 64 := 0
  /-- 64 bits; Table 17.6; 0; COUNT_DEGRADE. -/
  degrades : BitVec 64 := 0
  /-- 64 bits; Table 17.6; 0; COUNT_HALT. -/
  halts : BitVec 64 := 0
  /-- 64 bits; Table 17.6; all ones; LAST_HALT_SEQ. -/
  lastHalt : BitVec 64 := 0xFFFFFFFFFFFFFFFF#64
  /-- 64 bits; Table 17.6; all ones; FIRST_SEAL_SEQ. -/
  firstSeal : BitVec 64 := 0xFFFFFFFFFFFFFFFF#64
  /-- 64 slots of 32 bytes; R416, R417; all 0; HIST, by slot. -/
  hist : Tab HistEntry := []
  /-- by source; R414, R415; defaults; escalation settings and counters. -/
  esc : Tab Esc := []
  /-- class, source and MT; Table 15.13 FAULT_SUMMARY; none; last HALT or SEAL. -/
  last : Option (BitVec 2 × BitVec 12 × BitVec 64) := none
  deriving DecidableEq, Repr

/-- A secured SPDM session (R404). -/
structure Session where
  /-- 32 bits; R404; none; session identifier. -/
  id : BitVec 32
  /-- 1 bit; R404; none; FINISH has completed it. -/
  established : Bool
  /-- count; R404; none; updates of its keys. -/
  updates : Nat
  deriving DecidableEq, Repr

/-- An IDE stream (R406, R407): 0 CXL.io, 1 CXL.cache, 2 CXL.mem. -/
structure IdeStream where
  /-- 1 bit; R406; 0; keys are set and the stream is secure. -/
  secure : Bool := false
  /-- 1 bit; R407; 0; the stream is in the insecure state after a failure and carries no traffic. -/
  insecure : Bool := false
  /-- count; R406; 0; times its keys have been set. -/
  keys : Nat := 0
  deriving DecidableEq, Repr

/-- The security engine and the sideband's addressing (chapter 16, R388). -/
structure Sec where
  /-- 128 bits; R402; none; the nonce outstanding. -/
  nonce : Option (BitVec 128) := none
  /-- 8 bits; R427; none; groups of the last BIST token accepted and not used. -/
  bistScope : Option (BitVec 8) := none
  /-- 1 bit; R400; 0; a DIAG token has opened the diagnostic window. -/
  diag : Bool := false
  /-- 2 bits; R404; 0; SPDM exchange: 1 after GET_VERSION, 2 after GET_CAPABILITIES, 3 after NEGOTIATE_ALGORITHMS. -/
  spdm : BitVec 2 := 0
  /-- up to 4; R404; empty; secured sessions. -/
  sessions : List Session := []
  /-- by stream 0 to 2; R406; no keys; IDE streams. -/
  ide : Tab IdeStream := []
  /-- 8 bits; R388; 0; MCTP endpoint ID. -/
  eid : BitVec 8 := 0
  deriving DecidableEq, Repr



/-- A journal record (R209, Table 8.3). -/
structure JrnRec where
  /-- 64 bits; Table 8.3; none; SEQ. -/
  seq : Nat
  /-- 32 bits; Table 8.3; none; SBLK. -/
  sblk : Nat
  /-- 6 bits; Table 8.3; none; IMAGE. -/
  image : Nat
  /-- 8 bits; Table 8.3; none; KIND. -/
  kind : Nat
  /-- 32 bits; Table 8.3; none; INDEX. -/
  index : Nat
  deriving DecidableEq, Repr

/-- An image slot of the directory (R211, R212, R386). -/
structure ImgSlot where
  /-- 32 bits; Table 15.10 IMAGE_BEGIN; none; POSITIONS. -/
  positions : Nat
  /-- by position: store block; R210; none; positions written. -/
  blocks : Tab Nat
  /-- 1 bit; R211; none; committed. -/
  committed : Bool
  /-- record; R386; none; its manifest, once committed. -/
  man : Option ManInfo
  deriving DecidableEq, Repr

/-- The weight store (R204 to R212). -/
structure Store where
  /-- 1,999,978,364,928 bytes; R204; DESIGN CHOICE erased, 0; contents by byte address (block * 2^26 + offset). -/
  bytes : Mem := []
  /-- records of 32 bytes; R204, R209; DESIGN CHOICE empty; the journal's copy A (SBLK 0 to 3), in the order written. -/
  jrnA : List (List Byte) := []
  /-- records of 32 bytes; R204, R209; DESIGN CHOICE empty; the journal's copy B (SBLK 4 to 7), in the order written. -/
  jrnB : List (List Byte) := []
  /-- list of store blocks; R206, Table 8.3; DESIGN CHOICE empty; retired blocks. -/
  retired : List Nat := []
  /-- list of store blocks; R206, R210; none; blocks whose programming fails. -/
  failing : List Nat := []
  /-- codewords by byte address div 4096; R206; none; codewords that cannot be corrected. -/
  uncorr : List Nat := []
  /-- codewords by byte address div 4096; R206; none; codewords with 1 to 72 bit errors, which every read of them corrects. -/
  soft : List Nat := []
  /-- by store channel 0 to 23, a count; R206; DESIGN CHOICE 0; corrections. -/
  corrected : Tab Nat := []
  /-- number of a millisecond of wall time; R206; none; the last one for which corrections raised their NOTE. -/
  corrMs : Option Nat := none
  /-- by slot 0 to 63; R204, R386; empty until the journal replay; directory. -/
  imgs : Tab ImgSlot := []
  /-- 1 bit; R212, R451; 0; the journal replay has run since the last start-up. -/
  replayed : Bool := false
  /-- 1 bit; R438; 0; no further program or erase starts. -/
  stopping : Bool := false
  deriving DecidableEq, Repr

/-- An MSI-X vector's table entry (R387). -/
structure MsixVec where
  /-- 64 bits; R387 (PCIe MSI-X); 0; message address. -/
  addr : BitVec 64 := 0
  /-- 32 bits; R387 (PCIe MSI-X); 0; message data. -/
  data : BitVec 32 := 0
  /-- 1 bit; R387 (PCIe MSI-X); PRESUMED 1 (MSI-X of PCI Express); mask. -/
  mask : Bool := true
  /-- 1 bit; R387; 0; pending. -/
  pending : Bool := false
  deriving DecidableEq, Repr

/-- What the host's enumeration writes into the function (R370, R374). -/
structure HostCfg where
  /-- 64 bits; R374, R449; PRESUMED 0 (PCI Express); address of BAR 0. -/
  bar0 : BitVec 64 := 0
  /-- 64 bits; R374, R449; PRESUMED 0 (PCI Express); address of BAR 2. -/
  bar2 : BitVec 64 := 0
  /-- 64 bits; R370; PRESUMED 0 (CXL 2.0); base of the HDM decoder. -/
  hdmBase : BitVec 64 := 0
  /-- 64 bits; R370; PRESUMED 0 (CXL 2.0); size of the HDM decoder. -/
  hdmSize : BitVec 64 := 0
  /-- 32 bits; R370; PRESUMED 0 (CXL 2.0); control of the HDM decoder. -/
  hdmCtrl : BitVec 32 := 0
  deriving DecidableEq, Repr

/-- A BIST_RUN in progress (R427). -/
structure BistRun where
  /-- 6 bits; R427; none; its mailbox. -/
  mbx : Nat
  /-- 8 bits; R427; none; GROUPS. -/
  groups : BitVec 8
  /-- 1 bit; R427; none; DEPTH FULL. -/
  full : Bool
  /-- 1 bit; R427; none; REBUILD. -/
  rebuild : Bool
  deriving DecidableEq, Repr

/-- What the module last answered outside its own registers: the data of a register or window read, and the responses
of the sideband, DOE and MCTP responders. -/
structure Out where
  /-- 64 bits; R13, R375, R377; DESIGN CHOICE 0 (nothing has been answered); data of the last read. -/
  data : BitVec 64 := 0
  /-- bytes; R377; DESIGN CHOICE none; bytes of the last window read. -/
  bytes : List Byte := []
  /-- 1 bit; R377, R378; DESIGN CHOICE 0; the last window read completed with poisoned data. -/
  poison : Bool := false
  /-- 1 bit; R143, R238; DESIGN CHOICE 0; the MP's last read reported a parity error. -/
  parity : Bool := false
  /-- bytes; R388, R389, R404; DESIGN CHOICE none; last sideband, SPDM or MCTP response; empty when none was given. -/
  resp : List Byte := []
  /-- 16 bits; R11, R388; DESIGN CHOICE none; vendor field of the last response, where it was a vendor-defined MCTP message. -/
  vendor : Option (BitVec 16) := none
  /-- 1 bit; R373; DESIGN CHOICE 0; the last snoop was answered as a miss. -/
  miss : Bool := false
  /-- 1 bit; R376; DESIGN CHOICE 0; the last bias-flip request was refused. -/
  refused : Bool := false
  /-- 32 bits; R457; DESIGN CHOICE 0; the last value the IEEE 1149.1 port gave. -/
  jtag : BitVec 32 := 0
  /-- list of (vector, address, data), newest first; R387; empty; MSI-X messages sent. -/
  msgs : List (Nat × BitVec 64 × BitVec 32) := []
  deriving DecidableEq, Repr

end Sys2Proof.Machine
end

