-- ==== Sys2Proof/Machine/State.lean ====
section
/-!
DEFINITION. The state of the module as plain data, the reasons a step can stop, and the module right after reset. The
parts of the state are laid out in the StateTile, StateMem, StateLink, StatePart and StateSys files. A record that a
table does not list is at its reset value.
-/

namespace Sys2Proof.Machine

/-- Everything the spec gives the module, apart from the queue of commands that wait. -/
structure Dev where
  /-- by tile y * 48 + x; R142, R105; every field at its reset value; the tiles. -/
  tiles : Tab Tile := []
  /-- record; R165, R183; reset values of its fields; clock regions. -/
  clk : Clk := {}
  /-- record; R329; reset values of its fields; machine time. -/
  mt : Mt := {}
  /-- by channel 0 to 47; R184; every field at its reset value; GDDR7 channels. -/
  chans : Tab Chan := []
  /-- by quadrant 0 to 3; R188; every field at its reset value; memory moons 36 to 39. -/
  mm : Tab MemMoon := []
  /-- by channel 0 to 31; R248; every field at its reset value; DMA channels. -/
  dma : Tab Dma := []
  /-- by port 0 to 31; R286; every field at its reset value; optical ports. -/
  ports : Tab Port := []
  /-- by lowest block 0 to 15; R385, R448; none; partitions. -/
  parts : Tab Part := []
  /-- by mailbox 0 to 63; R381; every field at its reset value; mailboxes. -/
  mbx : Tab Mailbox := []
  /-- record; Table 15.3; reset values of its fields; global control and status. -/
  glb : Glb := {}
  /-- record; R6; 0; version words of the identity register. -/
  ident : Ident := {}
  /-- record; R396; reset values of its fields; recovery. -/
  rcv : Rcv := {}
  /-- record; R437 to R453; reset values of its fields; power and reset. -/
  pwr : Pwr := {}
  /-- record; R2, R399; as its fields say; fuses. -/
  otp : Otp := {}
  /-- record; Table 16.1; as its fields say; boot ROM. -/
  rom : Rom := {}
  /-- record; R2; as its fields say; boot flash. -/
  flash : Flash := {}
  /-- record; R430; empty; crater map. -/
  crater : Crater := {}
  /-- record; Table 17.6; reset values of its fields; fault logic. -/
  flt : Flt := {}
  /-- record; R390, R404; reset values of its fields; security engine. -/
  sec : Sec := {}
  /-- 2 bits; R457; PRESUMED IDCODE (IEEE 1149.1 for a part with an IDCODE); IEEE 1149.1 instruction. -/
  jtag : JtagOp := .idcode
  /-- record; R204; as its fields say; weight store. -/
  store : Store := {}
  /-- record; R370, R374, R449; reset values of its fields; what the host's enumeration wrote. -/
  cfg : HostCfg := {}
  /-- by vector 0 to 129; R387; every vector masked and not pending; MSI-X table and pending bits. -/
  msix : Tab MsixVec := []
  /-- host memory by byte address; R373; DESIGN CHOICE 0; what the module's host reads return. -/
  host : Mem := []
  /-- ranges (first, length); R253, R397; DESIGN CHOICE empty; host addresses whose reads and writes fail. -/
  hostBad : List (Nat × Nat) := []
  /-- 192 GB by byte address PFN * 65536 + offset; R186; DESIGN CHOICE 0 (the spec gives no contents); GDDR7. -/
  gddr : Mem := []
  /-- by page index, 64 bits; R236, Table 9.1; 0; context page table. -/
  cpt : Tab (BitVec 64) := []
  /-- by weight page index, 64 bits; R218, Table 9.2; 0; weight page table. -/
  wpt : Tab (BitVec 64) := []
  /-- page indexes; R238; none; context page entries with bad parity. -/
  cptBad : List Nat := []
  /-- weight page indexes; R238; none; weight page entries with bad parity. -/
  wptBad : List Nat := []
  /-- by lowest block; R185; 0; channel after the last one frames were taken from, in rotation. -/
  rot : Tab Nat := []
  /-- by half * 16384 + destination rank, 32 bits; R344, Table 13.1; 0; the rank table. -/
  ranks : Tab (BitVec 32) := []
  /-- by block * 2^16 + entry, 128 bits; R278; 0; budget tables. -/
  budgets : Tab (BitVec 128) := []
  /-- one run; R427; none; BIST_RUN in progress. -/
  bist : Option BistRun := none
  /-- record; R13, R377, R388; none given; what the module last answered. -/
  out : Out := {}
  /-- count; model; 0 (DESIGN CHOICE); free values drawn so far. -/
  free : Nat := 0
  deriving DecidableEq, Repr

/-- The state: the commands that wait, first in first out, and the module. -/
structure State where
  /-- list of commands; model; empty; commands waiting, the next one first. -/
  pending : List Instr := []
  /-- record; every rule of the state; reset values of its fields; the module. -/
  dev : Dev := {}
  deriving DecidableEq, Repr

/-- Why a step stops with a fault: nothing does. Every event the spec calls a fault has an effect on the module (R410
to R424), and every value it leaves undefined is a free value, so no meaning raises a fault. -/
inductive Fault where
  deriving DecidableEq, Repr

/-- Why a command has no meaning. -/
inductive Refusal where
  /-- An instruction whose meaning is not written. Raised by a dispatch arm alone. Safe. -/
  | notModelled (mnemonic : String)
  /-- An access inside the open diagnostic window, whose layout the spec does not give (R375, R400). Raised by
  `execReadClear` and `execRegisterWrite`. Safe. -/
  | diagWindow
  deriving DecidableEq, Repr

/-- The module right after module reset: the 48 V input has been applied, the rails are in range and internal reset is
still held (R450 step 4), so that the next thing that happens to it is INTERNAL_RESET_RELEASE. -/
def State.reset : State := {}

end Sys2Proof.Machine
end

