-- ==== Sys2Proof/Machine/Ops.lean ====
section
/-!
DEFINITION. The named operations over tables, byte memories, the module's records, wall time and free values, that
every meaning is written with.
-/

namespace Sys2Proof.Machine

open Sys2Proof

/-! ### Tables of records -/

/-- The record under a number, if the table lists it. -/
def tget {α : Type} : Tab α → Nat → Option α
  | [], _ => none
  | (j, v) :: r, k => if j = k then some v else tget r k

/-- Write a record, keeping the numbers rising. -/
def tput {α : Type} : Tab α → Nat → α → Tab α
  | [], k, v => [(k, v)]
  | (j, w) :: r, k, v => if k < j then (k, v) :: (j, w) :: r else if j = k then (k, v) :: r else (j, w) :: tput r k v

/-- Take a record out of a table. -/
def tdel {α : Type} (t : Tab α) (k : Nat) : Tab α := t.filter (fun e => e.1 != k)

/-- Insert a number into a sorted list without repeats. -/
def insertNat : List Nat → Nat → List Nat
  | [], k => [k]
  | j :: r, k => if k < j then k :: j :: r else if j = k then j :: r else j :: insertNat r k

/-- The union of two sorted lists of numbers. -/
def unionNat (a b : List Nat) : List Nat := b.foldl insertNat a

/-! ### Bytes and fields -/

/-- The number that little-endian bytes spell (R12). -/
def leNat : List Byte → Nat
  | [] => 0
  | b :: r => b.toNat + 256 * leNat r

/-- The n little-endian bytes of a number (R12). -/
def toLe : Nat → Nat → List Byte
  | 0, _ => []
  | n + 1, v => BitVec.ofNat 8 v :: toLe n (v / 256)

/-- The number that big-endian bytes spell (hashes, keys and signatures). -/
def beNat (l : List Byte) : Nat := leNat l.reverse

/-- The n big-endian bytes of a number. -/
def toBe (n v : Nat) : List Byte := (toLe n v).reverse

/-- Field of n bits from bit lo of a number. -/
def fld (v lo n : Nat) : Nat := v / 2 ^ lo % 2 ^ n

/-- A bit of a number. -/
def bit (v i : Nat) : Bool := v / 2 ^ i % 2 == 1

/-- A Bool as a number. -/
def b2n (b : Bool) : Nat := if b then 1 else 0

/-- The little-endian field of n bytes at offset o of a byte list (zero bytes beyond its end). -/
def lf (l : List Byte) (o n : Nat) : Nat := leNat ((l.drop o).take n)

/-- Every byte of a list is 0. -/
def allZero (l : List Byte) : Bool := l.all (· == 0)

/-- n bytes at offset o of a byte list. -/
def sl (l : List Byte) (o n : Nat) : List Byte := (l.drop o).take n

/-- Bytes padded with zero bytes, or cut, to a length. -/
def padTo (n : Nat) (l : List Byte) : List Byte := (l ++ List.replicate (n - l.length) 0).take n

/-- A 32-bit counter that saturates. -/
def satAdd (c : BitVec 32) (n : Nat) : BitVec 32 := BitVec.ofNat 32 (min (c.toNat + n) 0xFFFFFFFF)

/-- A 16-bit counter that saturates. -/
def satAdd16 (c : BitVec 16) (n : Nat) : BitVec 16 := BitVec.ofNat 16 (min (c.toNat + n) 0xFFFF)

/-! ### Byte memories -/

/-- The byte at an address; an address that is not listed reads as 0. -/
def rdB : Mem → Nat → Byte
  | [], _ => 0
  | (j, b) :: r, a => if j = a then b else rdB r a

/-- n bytes from an address. -/
def rdBs (m : Mem) (a : Nat) : Nat → List Byte
  | 0 => []
  | n + 1 => rdB m a :: rdBs m (a + 1) n

/-- The entries that bytes from an address make, zero bytes left out. -/
def cells : Nat → List Byte → Mem
  | _, [] => []
  | a, b :: r => if b = 0 then cells (a + 1) r else (a, b) :: cells (a + 1) r

/-- Write bytes from an address. -/
def wrBs (m : Mem) (a : Nat) (bs : List Byte) : Mem :=
  m.filter (fun c => decide (c.1 < a)) ++ (cells a bs ++ m.filter (fun c => decide (a + bs.length ≤ c.1)))

/-- Write 0 to n bytes from an address. -/
def zeroBs (m : Mem) (a n : Nat) : Mem := m.filter (fun c => decide (c.1 < a) || decide (a + n ≤ c.1))

/-- The little-endian number in n bytes from an address. -/
def rdN (m : Mem) (a n : Nat) : Nat := leNat (rdBs m a n)

/-- Write a little-endian number into n bytes from an address. -/
def wrN (m : Mem) (a n v : Nat) : Mem := wrBs m a (toLe n v)

/-- The canonical form: addresses strictly rising, no entry that reads as an unlisted address does. -/
def Mem.wf (m : Mem) : Bool :=
  decide (m.Pairwise (fun a b => a.1 < b.1)) && m.all (fun c => c.2 != 0)

/-! ### The module's records -/

def getTile (d : Dev) (t : Nat) : Tile := (tget d.tiles t).getD {}
def setTile (d : Dev) (t : Nat) (x : Tile) : Dev := { d with tiles := tput d.tiles t x }
def modTile (t : Nat) (f : Tile → Tile) (d : Dev) : Dev := setTile d t (f (getTile d t))
def getMoon (d : Dev) (m : Nat) : Moon := (tget d.clk.moons m).getD {}
def setMoon (d : Dev) (m : Nat) (x : Moon) : Dev := { d with clk := { d.clk with moons := tput d.clk.moons m x } }
def modMoon (m : Nat) (f : Moon → Moon) (d : Dev) : Dev := setMoon d m (f (getMoon d m))
def getSlice (d : Dev) (m s : Nat) : MoonSlice := (tget (getMoon d m).slices s).getD {}
def modSlice (m s : Nat) (f : MoonSlice → MoonSlice) : Dev → Dev :=
  modMoon m (fun x => { x with slices := tput x.slices s (f ((tget x.slices s).getD {})) })
def getChan (d : Dev) (c : Nat) : Chan := (tget d.chans c).getD {}
def modChan (c : Nat) (f : Chan → Chan) (d : Dev) : Dev := { d with chans := tput d.chans c (f (getChan d c)) }
def getMm (d : Dev) (q : Nat) : MemMoon := (tget d.mm q).getD {}
def modMm (q : Nat) (f : MemMoon → MemMoon) (d : Dev) : Dev := { d with mm := tput d.mm q (f (getMm d q)) }
def getDma (d : Dev) (c : Nat) : Dma := (tget d.dma c).getD {}
def modDma (c : Nat) (f : Dma → Dma) (d : Dev) : Dev := { d with dma := tput d.dma c (f (getDma d c)) }
/-- A DMA channel's wait on a page lock ends, and is counted (Table 9.9 LOCK_WAIT_NS). -/
def endLockWait (w : Nat) (x : Dma) : Dma :=
  { x with lockWait := none, lockWaitNs := x.lockWaitNs + BitVec.ofNat 64 ((x.lockWait.map (fun t => (w - t) / 128520)).getD 0) }
def getPort (d : Dev) (p : Nat) : Port := (tget d.ports p).getD {}
def modPort (p : Nat) (f : Port → Port) (d : Dev) : Dev := { d with ports := tput d.ports p (f (getPort d p)) }
def getMbx (d : Dev) (m : Nat) : Mailbox := (tget d.mbx m).getD {}
def modMbx (m : Nat) (f : Mailbox → Mailbox) (d : Dev) : Dev := { d with mbx := tput d.mbx m (f (getMbx d m)) }
def getPart (d : Dev) (p : Nat) : Option Part := tget d.parts p
def setPart (p : Nat) (x : Part) (d : Dev) : Dev := { d with parts := tput d.parts p x }
def modPart (p : Nat) (f : Part → Part) (d : Dev) : Dev :=
  match tget d.parts p with
  | some x => setPart p (f x) d
  | none => d

/-- One of a tile's queues. -/
def getQ (t : Tile) (q : Nat) : Queue := (tget t.queues q).getD {}
def setQ (q : Nat) (x : Queue) (t : Tile) : Tile := { t with queues := tput t.queues q x }

/-- Apply a partition's update where the partition exists, with the partition in hand. -/
def withPart (p : Nat) (f : Part → Dev → Dev) (d : Dev) : Dev :=
  match tget d.parts p with
  | some x => f x d
  | none => d

/-- Run an update for each element of a list, in order. -/
def forEach {α : Type} (l : List α) (f : α → Dev → Dev) (d : Dev) : Dev := l.foldl (fun e a => f a e) d

/-- The answer of a command that has its effect on the module and leaves the waiting commands alone. -/
def on (f : Dev → Dev) (s : State) : Host.Outcome State Fault Refusal := .next { s with dev := f s.dev }

/-! ### Blocks, tiles and partitions -/

/-- The block of a virtual tile (R432): BLOCK[4q + 2r + c]. -/
def blockOfTile (t : Nat) : Nat :=
  let x := t % 48
  let y := t / 48
  4 * (2 * (y / 24) + x / 24) + 2 * (y % 24 / 12) + x % 24 / 12

/-- The tile moon of a virtual tile (Table 6.1). -/
def moonOfTile (t : Nat) : Nat := 6 * (t / 48 / 8) + t % 48 / 8

/-- The blocks that a tile moon's tiles lie in, ascending: block i of the list has slice i (R162). -/
def moonBlocks (m : Nat) : List Nat :=
  ((List.range 64).map (fun i => blockOfTile ((8 * (m / 6) + i / 8) * 48 + 8 * (m % 6) + i % 8))).foldl insertNat []

/-- The slice of a moon's counters that a tile counts in (R162). -/
def sliceOf (no : Nat) : Nat := (moonBlocks (moonOfTile no)).findIdx (· == blockOfTile no)

/-- The quadrant of a tile moon (R165). -/
def quadOfMoon (m : Nat) : Nat := m / 18 * 2 + m % 6 / 3

/-- The block numbers of a mask, ascending. -/
def blocksOf (mask : BitVec 16) : List Nat := (List.range 16).filter (fun n => mask.getLsbD n)

/-- The virtual tiles of one block, in ascending tile index. -/
def tilesOfBlock (n : Nat) : List Nat :=
  let x0 := 24 * (n / 4 % 2) + 12 * (n % 2)
  let y0 := 24 * (n / 8) + 12 * (n % 4 / 2)
  (List.range 12).flatMap (fun j => (List.range 12).map (fun i => (y0 + j) * 48 + x0 + i))

/-- The virtual tiles of a partition. -/
def partTiles (x : Part) : List Nat := (blocksOf x.mask).flatMap tilesOfBlock

/-- The tiles of the partition that the state lists: every other tile is at its reset value. -/
def listedTiles (d : Dev) (x : Part) : List Nat :=
  (d.tiles.map (·.1)).filter (fun t => x.mask.getLsbD (blockOfTile t))

/-- The partition that holds a block. -/
def partOfBlock (d : Dev) (n : Nat) : Option Part := (d.parts.find? (fun e => e.2.mask.getLsbD n)).map (·.2)

/-- The partition that holds a tile. -/
def partOfTile (d : Dev) (t : Nat) : Option Part := partOfBlock d (blockOfTile t)

/-- Blocks of a partition. -/
def nBlocks (x : Part) : Nat := (blocksOf x.mask).length

/-- The serving leader of a partition (R265): a single-module job's module, or rank 0. -/
def isLeader (x : Part) : Bool := x.job.modules ≤ 1 || x.job.rank == 0

/-- Physical port of a logical port (R287): PORT[2n + i] belongs to BLOCK[n], numbered in block order. -/
def physPort (x : Part) (l : Nat) : Option Nat := ((blocksOf x.mask)[l / 2]?).map (fun n => 2 * n + l % 2)

/-- Logical port of a physical port in its partition. -/
def logPort (x : Part) (p : Nat) : Nat := 2 * ((blocksOf x.mask).findIdx (· == p / 2)) + p % 2

/-- Physical ports of a partition. -/
def partPorts (x : Part) : List Nat := (blocksOf x.mask).flatMap (fun n => [2 * n, 2 * n + 1])

/-! ### Wall time, machine time and free values -/

/-- Wall time grains in 1 ns: the period of every clock of Tables 6.1 and 6.3 is a whole number of grains. -/
def grain : Nat := 128520

def nsG (n : Nat) : Nat := n * 128520
def usG (n : Nat) : Nat := n * 128520000
def msG (n : Nat) : Nat := n * 128520000000

/-- The tick period of a tile step, in grains (Table 6.3). -/
def period (step : BitVec 3) : Nat :=
  match step.toNat with
  | 0 => 214200
  | 1 => 171360
  | 2 => 142800
  | 3 => 122400
  | 4 => 107100
  | 5 => 95200
  | 6 => 85680
  | _ => 80325

/-- The core voltage of a tile step, in mV (Table 6.3). -/
def stepMv (step : Nat) : Nat :=
  match step with
  | 0 => 560
  | 1 => 585
  | 2 => 610
  | 3 => 635
  | 4 => 660
  | 5 => 685
  | 6 => 705
  | _ => 720

/-- The offset that MT slews away once a number of units of 10 us have passed: at most 1 ns each, 100 ppm (R330). -/
def slewBy (slew : Int) (units : Nat) : Int :=
  if slew ≥ 0 then min slew units else max slew (-units)

/-- Let wall time pass, and machine time with it (R329, R330). -/
def advance (g : Nat) (d : Dev) : Dev :=
  let ns := (d.clk.wall + g) / grain - d.clk.wall / grain
  let due := d.mt.slewNs + ns
  let s := slewBy d.mt.slew (due / 10000)
  { d with
    clk := { d.clk with wall := d.clk.wall + g }
    mt := { d.mt with
      mt := BitVec.ofInt 64 (d.mt.mt.toNat + ns + s), slew := d.mt.slew - s
      slewNs := if d.mt.slew - s = 0 then 0 else due % 10000 } }

/-- Let wall time pass up to a moment, if it has not come yet. -/
def advanceTo (w : Nat) (d : Dev) : Dev := advance (w - d.clk.wall) d

/-- A free value of w bits: an opaque constant at the state's counter, which moves on. -/
def draw (w : Nat) (d : Dev) : BitVec w × Dev := (Config.freeBits w d.free, { d with free := d.free + 1 })

/-! ### Who is running -/

/-- The module's units run: the input is on, internal reset is released, and the module is not SEALED (R424, R450). -/
def awake (d : Dev) : Bool := d.pwr.inputOn && !d.pwr.resetHeld && !d.flt.sealed

/-- The hardware that VFIX feeds runs (R440, R441): the input is on and VFIX is in range. -/
def fixedUp (d : Dev) : Bool := d.pwr.inputOn && d.pwr.rails.getLsbD 2

/-- As `fixedUp`, with internal reset released: registers take writes, SEALED or not. -/
def hwUp (d : Dev) : Bool := fixedUp d && !d.pwr.resetHeld

/-- An event at hardware that goes on while the module is SEALED. -/
def whenHw (f : Dev → Dev) (d : Dev) : Dev := if hwUp d then f d else d

/-- The link IDE stream of CXL.io carries traffic (R407). -/
def ioSecure (d : Dev) : Bool := !((tget d.sec.ide 0).getD {}).insecure

/-- An access by the host over CXL.io: it does not arrive while that protocol carries no traffic (R407). -/
def whenHost (f : Dev → Dev) (d : Dev) : Dev := if hwUp d && ioSecure d then f d else d

/-- A host's doorbell at a unit that rests while the module is SEALED. -/
def whenBell (f : Dev → Dev) (d : Dev) : Dev := if awake d && ioSecure d then f d else d

/-- The MP runs its image (R395, R423, R424). -/
def mpUp (d : Dev) : Bool := awake d && d.glb.mpReady && !d.flt.mpFailed

/-- An event of a running unit: nothing happens while the module is off, in reset or SEALED. -/
def whenAwake (f : Dev → Dev) (d : Dev) : Dev := if awake d then f d else d

/-- Work of the MP: nothing happens while it does not run. -/
def whenMp (f : Dev → Dev) (d : Dev) : Dev := if mpUp d then f d else d

/-- The diagnostic window is open (R400, Table 16.5). -/
def diagOpen (d : Dev) : Bool :=
  match d.otp.lc.toNat with
  | 2 => d.sec.diag
  | 4 => false
  | _ => true

/-- The tile step limit of R168: the lowest MAX_STEP of every plan that is LOADED, RUNNING or STOPPED. -/
def maxStep (d : Dev) : Nat :=
  d.parts.foldl (fun a e => match e.2.info with
    | some i => min a i.maxStep.toNat
    | none => a) 7

/-- Thermal ceiling in force (R444): a failed sensor's ceiling is held at step 4. -/
def thermCeil (d : Dev) : Nat := if d.pwr.sensorBad.isEmpty then d.pwr.thermCeil.toNat else min 4 d.pwr.thermCeil.toNat

/-- The ceilings on the tile step (R445) other than the MP's target. -/
def ceilings (d : Dev) : Nat :=
  min (min d.pwr.opLimit.toNat d.pwr.tideCeil.toNat) (min (min d.pwr.powerCeil.toNat (thermCeil d))
    (min (if d.pwr.rangeActive then d.pwr.rangeCeil.toNat else 7) (if d.pwr.phaseActive then 5 else 7)))

/-- The tile step in force is the lowest of the target and the ceilings (R445, R168). -/
def wantStep (d : Dev) : Nat := min (min d.clk.target.toNat (ceilings d)) (maxStep d)

/-- The latest moment at which a tile moon's present tick ends. -/
def latestEnd (d : Dev) : Nat := (d.clk.moons.filter (fun e => e.1 < 36)).foldl (fun a e => max a (e.2.begins.headD 0 + e.2.dur)) 0

/-- Start a step change (R169): the core voltage is brought up where the step rises, then GO with a target; every tile moon pauses
at its next tick boundary until STEP_CHANGE_RESUME. -/
def startStep (tgt : Nat) (throttle : Bool) (d : Dev) : Dev :=
  { d with
    pwr := { d.pwr with vcore := max d.pwr.vcore (stepMv tgt) }
    clk := { d.clk with tgt := BitVec.ofNat 3 tgt, busy := true, throttle := throttle, goAt := max d.clk.wall (latestEnd d) } }

/-- The step falls to a ceiling of R445 that throttles, and not to a target, the operator limit or a plan's MAX_STEP (R171, R445). -/
def throttled (d : Dev) : Bool := decide (wantStep d < min (min d.clk.target.toNat d.pwr.opLimit.toNat) (maxStep d))

/-- The MP brings the tile step to where R445 puts it, as a throttle or as a step change; during one, it does so after it. -/
def settleStep (throttle : Bool) (d : Dev) : Dev :=
  if d.clk.busy then { d with clk := { d.clk with late := d.clk.late || throttle } }
  else if wantStep d ≠ d.clk.step.toNat then startStep (wantStep d) throttle d else d

/-- Lower the tide ceiling by one step, where it is above 0 (R171, R173). -/
def lowerTide (d : Dev) : Dev :=
  settleStep true { d with pwr := { d.pwr with tideCeil := if d.pwr.tideCeil = 0 then 0 else d.pwr.tideCeil - 1 } }

end Sys2Proof.Machine
end

