-- ==== Sys2Proof/Machine/Coupling.lean ====
section
/-!
DEFINITION. The clocks of the 45 moons (R29, R40, R165 to R183): seam groups, periods and stretches, the coupling rules that say
when a tile moon begins its next tick, the pauses of the lattice, and how wall time passes while no plan's tick does.
-/

namespace Sys2Proof.Machine

open Sys2Proof

/-! ### Moons and seam groups -/

/-- Apply an update to the moons of a list. -/
def modMoons (l : List Nat) (f : Moon → Moon) (d : Dev) : Dev := forEach l (fun m => modMoon m f) d

/-- The tile moons. -/
def tileMoons : List Nat := List.range 36

/-- The moons that run free (R166): memory, link and control. -/
def freeMoons : List Nat := (List.range 9).map (36 + ·)

/-- The seam group of a tile moon (Table 6.2). -/
def seamGroup (m : Nat) : Option Nat :=
  match m with
  | 2 | 3 => some 0
  | 8 | 9 => some 1
  | 12 | 18 => some 2
  | 13 | 19 => some 3
  | 14 | 15 | 20 | 21 => some 4
  | 16 | 22 => some 5
  | 17 | 23 => some 6
  | 26 | 27 => some 7
  | 32 | 33 => some 8
  | _ => none

/-- The members of a seam group. -/
def groupMoons (g : Nat) : List Nat := tileMoons.filter (fun m => seamGroup m == some g)

/-- The moons a stretch in a moon lengthens, and that begin every tick with it (R172, R174). -/
def stretchSet (m : Nat) : List Nat :=
  match seamGroup m with
  | some g => groupMoons g
  | none => [m]

/-- The tile moons that share a crossing with a tile moon (R174): its neighbours inside its die. -/
def crossingMoons (m : Nat) : List Nat :=
  (if m % 3 = 0 then [] else [m - 1]) ++ (if m % 3 = 2 then [] else [m + 1]) ++
    (if m / 6 % 3 = 0 then [] else [m - 6]) ++ (if m / 6 % 3 = 2 then [] else [m + 6])

/-- The nominal period of a moon, in grains (Tables 6.1 and 6.3). -/
def moonPeriod (d : Dev) (m : Nat) : Nat :=
  if m < 36 then period d.clk.step else if m < 40 then 128520 else if m < 44 then 96768 else 107100

/-! ### Whose ticks pass -/

/-- A partition parks for a break in its present tick (R110). -/
def breakDue (x : Part) : Bool := (x.brk.map (fun b => decide (b.at_ + 16 ≤ x.now))).getD false

/-- The ticks of a partition pass (R26, R97, R110, R317): it runs, or finishes the tick in which it stopped. -/
def active (x : Part) : Bool :=
  (x.plan = .running || x.stopping) && !x.entering && !x.parked && x.fab.pace.isNone && !breakDue x

/-- The partitions whose ticks pass. -/
def ticking (d : Dev) : List Part := (d.parts.map (·.2)).filter active

/-- A PLL of a die's tile moons is without lock (R182). -/
def tilePllDown (d : Dev) : Bool := d.clk.pllDown.any (fun p => decide (p < 4))

/-- Some tile clock stands still: a hold, a step change, a PLL, a seam or a pacing pause (R36, R169, R179, R182, R317). -/
def latticePaused (d : Dev) : Bool :=
  d.clk.busy || d.parts.any (fun e => e.2.fab.pace.isSome) || tilePllDown d || !d.clk.seamDown.isEmpty ||
    d.tiles.any (fun e => e.2.mode = .run && (e.2.wait.bind (·.hold)).isSome)

/-- Clock periods in a tick: four while a tagged plan runs in any partition (R40). -/
def tickPeriods (d : Dev) : Nat :=
  if d.parts.any (fun e => e.2.plan = .running && (e.2.info.map (·.tagged)).getD false) then 4 else 1

/-- The nominal length of a tick, in grains. -/
def tickPeriod (d : Dev) : Nat := period d.clk.step * tickPeriods d

/-! ### Periods counted in runs (R173) -/

/-- Count n periods of a moon, all stretched or none, in runs of 1,024. A run that ends with more than TIDE_THR stretched periods is
an excursion, whose effects follow. -/
def countPeriods (n : Nat) (stretched : Bool) (x : Moon) : Moon :=
  let total := x.runPeriods + n
  let k := total / 1024
  let s1 := x.runStretched + (if stretched then min n (1024 - x.runPeriods) else 0)
  { x with
    runPeriods := total % 1024
    runStretched := if k = 0 then s1 else if stretched then total % 1024 else 0
    stretchCount := x.stretchCount + BitVec.ofNat 64 (if stretched then n else 0)
    excDue := x.excDue + (if k = 0 then 0 else b2n (decide (x.tideThr.toNat < s1)) + (if stretched then k - 1 else 0)) }

/-- Length of k periods that begin at a moment, and the moon after them: the first is stretched where a droop was detected before
it, and each one that begins while the droop lasts (R172). -/
def runPeriods (p till : Nat) : Nat → Nat → Bool → Moon → Nat × Moon
  | 0, _, _, x => (0, x)
  | k + 1, b, first, x =>
    let s := first || decide (b < till)
    let len := if s then 2 * p else p
    let r := runPeriods p till k (b + len) false (countPeriods 1 s { x with stretching := s })
    (len + r.1, r.2)

/-! ### The coupling rules (R174, R175) -/

/-- When a moon began the tick k before its present one. -/
def begun (x : Moon) (k : Nat) : Nat := (x.begins[k]?).getD 0

/-- When a moon's present tick ends. -/
def tickEnd (x : Moon) : Nat := begun x 0 + x.dur

/-- The moment from which the crossing rule, the spread rule and the moon's own hold let a tile moon begin its next tick. -/
def coupledFrom (d : Dev) (m : Nat) : Nat :=
  let p := period d.clk.step
  let cross := (crossingMoons m).foldl (fun a k => max a (begun (getMoon d k) 1 + p)) (getMoon d m).restTill
  tileMoons.foldl (fun a k => max a (begun (getMoon d k) 3 + 2 * p)) cross

/-- The first nominal period edge of a clock at rest at or after a moment. -/
def edgeFrom (p rest from_ : Nat) : Nat := rest + (from_ - rest + p - 1) / p * p

/-- When a tile moon begins its next tick: with the other members of its seam group, and no earlier than a common resume. -/
def nextBegin (d : Dev) (m : Nat) : Nat :=
  let p := period d.clk.step
  (stretchSet m).foldl (fun a k => max a (edgeFrom p (tickEnd (getMoon d k)) (coupledFrom d k))) d.clk.resumeAt

/-- The lead of a moon that began its latest tick at a moment over another: how many ticks that one has still to begin. -/
def leadOver (at_ : Nat) (y : Moon) : Nat := (y.begins.filter (fun b => decide (at_ < b))).length

/-- A moon's greatest leads (Table 6.7 LEAD_MAX). -/
def noteLead (d : Dev) (m : Nat) (x : Moon) : Moon :=
  let most (l : List Nat) : Nat := l.foldl (fun a k => max a (leadOver (begun x 0) (getMoon d k))) 0
  let cross := max (fld x.leadMax.toNat 0 4) (most (crossingMoons m))
  let any := max (fld x.leadMax.toNat 4 4) (most tileMoons)
  { x with leadMax := BitVec.ofNat 32 (cross + 16 * any) }

/-- A pause of so much wall time is counted, as far as it has not been (Table 6.7). -/
def countPause (g : Nat) (x : Moon) : Moon :=
  if g ≤ x.restG then x
  else { x with pauseG := x.pauseG + (g - x.restG), pauseCount := if x.restG = 0 then satAdd x.pauseCount 1 else x.pauseCount, restG := g }

/-- A tile moon begins its next tick at a moment: the pause before it is over, and its periods are counted. -/
def moonTick (p k at_ : Nat) (x : Moon) : Moon :=
  let x := countPause (at_ - tickEnd x) x
  let r := runPeriods p x.droopTill k at_ x.stretchNext x
  { r.2 with
    begins := (at_ :: x.begins).take 5, dur := r.1, stretchNext := false, restG := 0, restTill := 0
    latticeTick := x.latticeTick + 1 }

/-- The tile clocks have started. -/
def clocksRun (d : Dev) : Bool := (getMoon d 0).st = .running

/-- Every tile moon begins its next tick (R174); wall time stands where the last of them begins it. -/
def beginTick (d : Dev) : Dev :=
  let p := period d.clk.step
  let k := tickPeriods d
  let at_ := tileMoons.map (fun m => (m, nextBegin d m))
  let d := forEach at_ (fun e => modMoon e.1 (moonTick p k e.2)) d
  let d := forEach tileMoons (fun m d => modMoon m (noteLead d m) d) d
  advanceTo (at_.foldl (fun a e => max a e.2) 0) d

/-! ### Clocks that run free -/

/-- A free-running moon's periods up to a moment (R166, R173): those a droop stretches, then plain ones. -/
def catchUp (p w : Nat) (x : Moon) : Moon :=
  let e := tickEnd x
  if x.st ≠ .running || w < e then x
  else
    let s := min (max (b2n x.stretchNext) ((x.droopTill - e + 2 * p - 1) / (2 * p))) ((w - e) / (2 * p) + 1)
    let e2 := e + s * (2 * p)
    let n := if w < e2 then 0 else (w - e2) / p + 1
    { countPeriods n false (countPeriods s true x) with
      begins := [if n = 0 then e2 - 2 * p else e2 + (n - 1) * p], dur := if n = 0 then 2 * p else p
      stretching := n = 0, stretchNext := x.stretchNext && s = 0, latticeTick := x.latticeTick + BitVec.ofNat 48 (s + n) }

/-- The free-running moons are brought up to the present moment. -/
def freeTicks (d : Dev) : Dev := forEach freeMoons (fun m => modMoon m (catchUp (moonPeriod d m) d.clk.wall)) d

/-! ### Wall time while no plan's tick passes -/

/-- So many plain ticks of a tile moon, none of them stretched. -/
def plainTicks (p k n : Nat) (x : Moon) : Moon :=
  { countPeriods (k * n) false x with
    begins := x.begins.map (· + k * n * p), latticeTick := x.latticeTick + BitVec.ofNat 48 n }

/-- Ticks that begin by a moment, one at a time while fuel lasts. -/
def stepTicks (w : Nat) : Nat → Dev → Dev
  | 0, d => d
  | fuel + 1, d => if latestEnd d ≤ w then stepTicks w fuel (beginTick d) else d

/-- The tile moons' ticks up to a moment while no plan runs in them: one at a time while droops last and leads settle, then plain
ones together. -/
def coast (w : Nat) (d : Dev) : Dev :=
  if latticePaused d || !clocksRun d then d
  else
    let p := period d.clk.step
    let k := tickPeriods d
    let droop := tileMoons.foldl (fun a m => max a (getMoon d m).droopTill) 0
    let d := stepTicks w ((droop - d.clk.wall) / p + 8) d
    let e := latestEnd d
    if w < e then d else modMoons tileMoons (plainTicks p k ((w - e) / (k * p) + 1)) d

/-- No plan's tick passes: wall time may pass by itself. -/
def quiet (d : Dev) : Bool := latticePaused d || (ticking d).isEmpty

/-- The count a WAIT watches for is there, or needs no check (R35, R103). -/
def waitMet (t : Tile) (w : WaitSt) : Bool := w.n = 0 || decide (w.n ≤ (getQ t w.q).count)

/-- An abandoned transfer lets link WAITs release without their count (R324). -/
def abandonFrees (x : Part) (w : WaitSt) : Bool := x.fab.abandonNow && 28 ≤ w.q

/-- The moment by which a tile's hold ends or its limit expires (R36, R37): now, where its count is met. -/
def holdBound (d : Dev) (no : Nat) (t : Tile) : Option Nat :=
  match t.wait, partOfTile d no with
  | some w, some x => w.hold.map (fun s => if waitMet t w || abandonFrees x w then d.clk.wall else s + usG x.holdUs)
  | _, _ => none

/-- The moments by which the pauses of the lattice end at the latest, or are met by what ends them (R37, R169, R179, R182, R317):
while they last, wall time does not pass beyond. -/
def pauseBounds (d : Dev) : List Nat :=
  (if d.clk.busy then [d.clk.goAt + usG 2] else []) ++
    (d.clk.pllAt.filter (fun e => e.1 < 4)).map (fun e => e.2 + usG 100) ++ d.clk.seamAt.map (fun e => e.2 + usG 20) ++
    d.parts.filterMap (fun e => e.2.fab.paceMt.map (fun t => d.clk.wall + nsG (t.toNat - d.mt.mt.toNat))) ++
    d.tiles.filterMap (fun e => holdBound d e.1 e.2)

/-- Wall time may pass up to a moment. -/
def mayPass (w : Nat) (d : Dev) : Bool := quiet d && (pauseBounds d).all (fun b => decide (w ≤ b))

/-- Wall time passes up to a moment, with the ticks of the moons. -/
def passTo (w : Nat) (d : Dev) : Dev := freeTicks (advanceTo w (coast w d))

/-- An event that comes at a moment: it happens once that moment has come, and where it has not, wall time passes to it if no
plan's tick does. Until then the event changes nothing. -/
def whenDue (w : Nat) (f : Dev → Dev) (d : Dev) : Dev :=
  if w ≤ d.clk.wall then f d else if mayPass w d then f (passTo w d) else d

/-- Wall time that passes by itself, where no plan's tick does, up to the end of a pause. -/
def letPass (g : Nat) (d : Dev) : Dev := if quiet d then passTo ((pauseBounds d).foldl min (d.clk.wall + g)) d else d

end Sys2Proof.Machine
end

