-- ==== Sys2Proof/Machine/Crypto.lean ====
section
/-!
DEFINITION. The published algorithms that the rules name: SHA-384 (R21, R214, R284, R430), CRC-32C (R209, R294, R311,
R356, R431) and ECDSA P-384 verification (R214, R393, R401). The texts of their standards apply as published (R13).
-/

namespace Sys2Proof.Machine

open Sys2Proof

/-! ### SHA-384 -/

/-- Rotate a 64-bit number right. -/
def rotr (x n : Nat) : Nat := (x >>> n ||| x <<< (64 - n)) % 2 ^ 64

/-- The first half of the round constants of SHA-384. -/
def shaK0 : List Nat :=
  [0x428A2F98D728AE22, 0x7137449123EF65CD, 0xB5C0FBCFEC4D3B2F, 0xE9B5DBA58189DBBC,
   0x3956C25BF348B538, 0x59F111F1B605D019, 0x923F82A4AF194F9B, 0xAB1C5ED5DA6D8118,
   0xD807AA98A3030242, 0x12835B0145706FBE, 0x243185BE4EE4B28C, 0x550C7DC3D5FFB4E2,
   0x72BE5D74F27B896F, 0x80DEB1FE3B1696B1, 0x9BDC06A725C71235, 0xC19BF174CF692694,
   0xE49B69C19EF14AD2, 0xEFBE4786384F25E3, 0x0FC19DC68B8CD5B5, 0x240CA1CC77AC9C65,
   0x2DE92C6F592B0275, 0x4A7484AA6EA6E483, 0x5CB0A9DCBD41FBD4, 0x76F988DA831153B5,
   0x983E5152EE66DFAB, 0xA831C66D2DB43210, 0xB00327C898FB213F, 0xBF597FC7BEEF0EE4,
   0xC6E00BF33DA88FC2, 0xD5A79147930AA725, 0x06CA6351E003826F, 0x142929670A0E6E70,
   0x27B70A8546D22FFC, 0x2E1B21385C26C926, 0x4D2C6DFC5AC42AED, 0x53380D139D95B3DF,
   0x650A73548BAF63DE, 0x766A0ABB3C77B2A8, 0x81C2C92E47EDAEE6, 0x92722C851482353B]

/-- The second half of the round constants of SHA-384. -/
def shaK1 : List Nat :=
  [0xA2BFE8A14CF10364, 0xA81A664BBC423001, 0xC24B8B70D0F89791, 0xC76C51A30654BE30,
   0xD192E819D6EF5218, 0xD69906245565A910, 0xF40E35855771202A, 0x106AA07032BBD1B8,
   0x19A4C116B8D2D0C8, 0x1E376C085141AB53, 0x2748774CDF8EEB99, 0x34B0BCB5E19B48A8,
   0x391C0CB3C5C95A63, 0x4ED8AA4AE3418ACB, 0x5B9CCA4F7763E373, 0x682E6FF3D6B2B8A3,
   0x748F82EE5DEFB2FC, 0x78A5636F43172F60, 0x84C87814A1F0AB72, 0x8CC702081A6439EC,
   0x90BEFFFA23631E28, 0xA4506CEBDE82BDE9, 0xBEF9A3F7B2C67915, 0xC67178F2E372532B,
   0xCA273ECEEA26619C, 0xD186B8C721C0C207, 0xEADA7DD6CDE0EB1E, 0xF57D4F7FEE6ED178,
   0x06F067AA72176FBA, 0x0A637DC5A2C898A6, 0x113F9804BEF90DAE, 0x1B710B35131C471B,
   0x28DB77F523047D84, 0x32CAAB7B40C72493, 0x3C9EBE0A15C9BEBC, 0x431D67C49C100D4C,
   0x4CC5D4BECB3E42B6, 0x597F299CFC657E2A, 0x5FCB6FAB3AD6FAEC, 0x6C44198C4A475817]

/-- The round constants of SHA-384. -/
def shaK : List Nat := shaK0 ++ shaK1

/-- The initial value of SHA-384. -/
def shaH0 : List Nat :=
  [0xCBBB9D5DC1059ED8, 0x629A292A367CD507, 0x9159015A3070DD17, 0x152FECD8F70E5939,
   0x67332667FFC00B31, 0x8EB44A8768581511, 0xDB0C2E0D64F98FA7, 0x47B5481DBEFA4FA4]

/-- More words of the message schedule; the window of sixteen and the words made are held newest first. -/
def shaSchedule : Nat → List Nat → List Nat → List Nat
  | 0, _, acc => acc
  | n + 1, w, acc =>
    let a := w.getD 1 0
    let b := w.getD 14 0
    let s1 := rotr a 19 ^^^ rotr a 61 ^^^ a >>> 6
    let s0 := rotr b 1 ^^^ rotr b 8 ^^^ b >>> 7
    let x := (s1 + w.getD 6 0 + s0 + w.getD 15 0) % 2 ^ 64
    shaSchedule n (x :: w.take 15) (x :: acc)

/-- The eight working variables. -/
structure ShaSt where
  a : Nat
  b : Nat
  c : Nat
  d : Nat
  e : Nat
  f : Nat
  g : Nat
  h : Nat

/-- One round of SHA-384. -/
def shaRound (s : ShaSt) (kw : Nat) : ShaSt :=
  let s1 := rotr s.e 14 ^^^ rotr s.e 18 ^^^ rotr s.e 41
  let ch := (s.e &&& s.f) ^^^ ((2 ^ 64 - 1 - s.e) &&& s.g)
  let t1 := s.h + s1 + ch + kw
  let s0 := rotr s.a 28 ^^^ rotr s.a 34 ^^^ rotr s.a 39
  let mj := (s.a &&& s.b) ^^^ (s.a &&& s.c) ^^^ (s.b &&& s.c)
  ⟨(t1 + s0 + mj) % 2 ^ 64, s.a, s.b, s.c, (s.d + t1) % 2 ^ 64, s.e, s.f, s.g⟩

/-- The rounds of one block. -/
def shaRounds : ShaSt → List Nat → List Nat → ShaSt
  | s, k :: ks, w :: ws => shaRounds (shaRound s (k + w)) ks ws
  | s, _, _ => s

/-- Big-endian 64-bit words of bytes. -/
def shaWords : Nat → List Byte → List Nat
  | 0, _ => []
  | n + 1, l => beNat (l.take 8) :: shaWords n (l.drop 8)

/-- One block of 128 bytes. -/
def shaBlock (h : List Nat) (blk : List Byte) : List Nat :=
  let w := shaWords 16 blk
  let ws := (shaSchedule 64 w.reverse w.reverse).reverse
  let s := shaRounds ⟨h.getD 0 0, h.getD 1 0, h.getD 2 0, h.getD 3 0, h.getD 4 0, h.getD 5 0, h.getD 6 0, h.getD 7 0⟩
    shaK ws
  [s.a, s.b, s.c, s.d, s.e, s.f, s.g, s.h].zipWith (fun x y => (x + y) % 2 ^ 64) h

/-- The blocks of a padded message. -/
def shaBlocks : Nat → List Nat → List Byte → List Nat
  | 0, h, _ => h
  | n + 1, h, l => shaBlocks n (shaBlock h (l.take 128)) (l.drop 128)

/-- The SHA-384 of bytes. -/
def sha384 (l : List Byte) : Hash :=
  let n := l.length
  let blocks := (n + 17 + 127) / 128
  let m := l ++ (0x80 :: List.replicate (blocks * 128 - n - 17) 0) ++ toBe 16 (8 * n)
  let h := (shaBlocks blocks shaH0 m).take 6
  BitVec.ofNat 384 (h.foldl (fun a x => a * 2 ^ 64 + x) 0)

/-- The 48 bytes of a hash as it stands in memory. -/
def hashBytes (h : Hash) : List Byte := toBe 48 h.toNat

/-- The hash that 48 bytes spell. -/
def hashOf (l : List Byte) : Hash := BitVec.ofNat 384 (beNat l)

/-! ### CRC -/

/-- Steps of a reflected CRC on a number, one for each bit. -/
def crcSteps (poly : Nat) : Nat → Nat → Nat
  | 0, c => c
  | n + 1, c => crcSteps poly n (if c % 2 = 1 then c / 2 ^^^ poly else c / 2)

/-- CRC-32C (Castagnoli) of bytes. -/
def crc32c (l : List Byte) : BitVec 32 :=
  BitVec.ofNat 32 (l.foldl (fun c b => crcSteps 0x82F63B78 8 (c ^^^ b.toNat)) 0xFFFFFFFF ^^^ 0xFFFFFFFF)

/-! ### ECDSA P-384 -/

def pP : Nat := 2 ^ 384 - 2 ^ 128 - 2 ^ 96 + 2 ^ 32 - 1
def pN : Nat := 0xffffffffffffffffffffffffffffffffffffffffffffffffc7634d81f4372ddf581a0db248b0a77aecec196accc52973
def pB : Nat := 0xb3312fa7e23ee7e4988e056be3f82d19181d9c6efe8141120314088f5013875ac656398d8a2ed19d2a85c8edd3ec2aef
def pGx : Nat := 0xaa87ca22be8b05378eb1c71ef320ad746e1d3b628ba79b9859f741e082542a385502f25dbf55296c3a545e3872760ab7
def pGy : Nat := 0x3617de4a96262c6f5d9e98bf9292dc29f8f41dbd289a147ce9da3113b5f0b8c00a60b1ce1d7e819d7a431d7c90ea0e5f

/-- A point of the curve in Jacobian coordinates; z = 0 is the point at infinity. -/
structure Pt where
  x : Nat
  y : Nat
  z : Nat

/-- Power by squaring, over the bits of the exponent. -/
def powMod (m : Nat) : Nat → Nat → Nat → Nat → Nat
  | 0, _, _, acc => acc
  | n + 1, b, e, acc => powMod m n (b * b % m) (e / 2) (if e % 2 = 1 then acc * b % m else acc)

/-- Inverse modulo a prime of 384 bits. -/
def invMod (m a : Nat) : Nat := powMod m 384 a (m - 2) 1

/-- a - b modulo p. -/
def subP (a b : Nat) : Nat := (a + (pP - b % pP)) % pP

/-- Double a point (a = -3). -/
def dblPt (q : Pt) : Pt :=
  let d := q.z * q.z % pP
  let g := q.y * q.y % pP
  let b := q.x * g % pP
  let al := 3 * (subP q.x d * ((q.x + d) % pP) % pP) % pP
  let x := subP (al * al % pP) (8 * b)
  let z := subP (subP ((q.y + q.z) * (q.y + q.z) % pP) g) d
  ⟨x, subP (al * subP (4 * b) x % pP) (8 * (g * g % pP)), z⟩

/-- Add two points. -/
def addPt (p q : Pt) : Pt :=
  if p.z = 0 then q else if q.z = 0 then p else
  let z1 := p.z * p.z % pP
  let z2 := q.z * q.z % pP
  let u1 := p.x * z2 % pP
  let u2 := q.x * z1 % pP
  let s1 := p.y * (q.z * z2 % pP) % pP
  let s2 := q.y * (p.z * z1 % pP) % pP
  if u1 = u2 then (if s1 = s2 then dblPt p else ⟨1, 1, 0⟩) else
  let h := subP u2 u1
  let r := subP s2 s1
  let hh := h * h % pP
  let hhh := h * hh % pP
  let v := u1 * hh % pP
  let x := subP (subP (r * r % pP) hhh) (2 * v)
  ⟨x, subP (r * subP v x % pP) (s1 * hhh % pP), p.z * q.z % pP * h % pP⟩

/-- A multiple of a point, over the bits of the factor. -/
def mulPt : Nat → Nat → Pt → Pt → Pt
  | 0, _, _, acc => acc
  | n + 1, k, b, acc => mulPt n (k / 2) (dblPt b) (if k % 2 = 1 then addPt acc b else acc)

/-- ECDSA P-384: the signature r, s verifies for the hash under the key. -/
def ecdsaVerify (key : PubKey) (h : Hash) (r s : Nat) : Bool :=
  let x := key.x.toNat
  let y := key.y.toNat
  if r = 0 || r ≥ pN || s = 0 || s ≥ pN || x ≥ pP || y ≥ pP then false else
  if y * y % pP ≠ (x * x % pP * x + subP 0 (3 * x) + pB) % pP then false else
  let w := invMod pN s
  let o : Pt := ⟨1, 1, 0⟩
  let q := addPt (mulPt 384 (h.toNat * w % pN) ⟨pGx, pGy, 1⟩ o) (mulPt 384 (r * w % pN) ⟨x, y, 1⟩ o)
  if q.z = 0 then false else
  let zi := invMod pP q.z
  q.x * (zi * zi % pP) % pP % pN == r

/-- The signature in 96 bytes (r, then s) verifies over bytes under a key. -/
def verifyBytes (key : PubKey) (msg sig : List Byte) : Bool :=
  ecdsaVerify key (sha384 msg) (beNat (sl sig 0 48)) (beNat (sl sig 48 48))

/-- The key that 96 bytes spell: x, then y. -/
def keyOf (l : List Byte) : PubKey := ⟨hashOf (sl l 0 48), hashOf (sl l 48 48)⟩

/-- The SHA-384 of a public key (x, then y). -/
def keyHash (k : PubKey) : Hash := sha384 (hashBytes k.x ++ hashBytes k.y)

/-- The 96 bytes of a signature or a key. -/
def sigBytes (v : BitVec 768) : List Byte := toBe 96 v.toNat

end Sys2Proof.Machine
end

