-- ==== Sys2Proof/Machine/Report.lean ====
section
/-!
DEFINITION. What the module reports and what a report sets in motion: MSI-X vectors (R387), ephemeris records and
treatment digests (R280 to R285), fault events with their history, escalation, FAULT_N and SEAL (R410 to R424, R441),
and a partition's leaving RUNNING (R26, R105, R239, R263, R350).
-/

namespace Sys2Proof.Machine

open Sys2Proof

/-! ### Interrupts -/

/-- Raise an MSI-X vector (R387): a masked vector becomes pending, another one sends its message. -/
def raiseVec (v : Nat) (d : Dev) : Dev :=
  let e := (tget d.msix v).getD {}
  if e.mask then { d with msix := tput d.msix v { e with pending := true } }
  else { d with out := { d.out with msgs := (v, e.addr, e.data) :: d.out.msgs } }

/-! ### Context pages and ephemeris records -/

/-- An entry of the context page table. -/
def cptE (d : Dev) (i : Nat) : Nat := ((tget d.cpt i).getD 0).toNat

def setCpt (i : Nat) (v : Nat) (d : Dev) : Dev := { d with cpt := tput d.cpt i (BitVec.ofNat 64 v) }

/-- Fields of a context page table entry (Table 9.1). -/
def eValid (e : Nat) : Bool := bit e 0
def ePinned (e : Nat) : Bool := bit e 1
def eStatic (e : Nat) : Bool := bit e 2
def eWrite (e : Nat) : Bool := bit e 3
def eLoc (e : Nat) : Bool := bit e 4
def eLock (e : Nat) : Bool := bit e 5
def eIncomplete (e : Nat) : Bool := bit e 6
def ePoison (e : Nat) : Bool := bit e 7
def eLocator (e : Nat) : Nat := fld e 8 32
def eResume (e : Nat) : Nat := fld e 40 16

/-- Set or clear one bit of a number. -/
def setBit (v i : Nat) (b : Bool) : Nat := v - b2n (bit v i) * 2 ^ i + b2n b * 2 ^ i

/-- GDDR7 byte address of a byte of a mapped context page. -/
def cptAddr (d : Dev) (page off : Nat) : Option Nat :=
  let e := cptE d page
  if eValid e && !eLoc e then some (eLocator e * 65536 + off) else none

/-- Write bytes into a run of context pages that a ring names by its first index: an unmapped page swallows them. -/
def ringWrite (first off : Nat) (bs : List Byte) (d : Dev) : Dev :=
  match cptAddr d (first + off / 65536) (off % 65536) with
  | some a => { d with gddr := wrBs d.gddr a bs }
  | none => d

def ringRead (d : Dev) (first off n : Nat) : List Byte :=
  match cptAddr d (first + off / 65536) (off % 65536) with
  | some a => rdBs d.gddr a n
  | none => List.replicate n 0

def ephEn (x : Part) : Bool := x.eph.cfg.getLsbD 31
def ephFirst (x : Part) : Nat := fld x.eph.cfg.toNat 0 20
def ephSize (x : Part) : Nat := 2 ^ fld x.eph.cfg.toNat 24 5

/-- Orbit and tick stamp that a record or history entry carries (R280, Table 17.4). -/
def stampOrbit (x : Part) : Nat := if x.plan = .running then x.orbit.toNat else x.lastOrbit.toNat
def stampTs (x : Part) : Nat := if x.plan = .running then x.now % 2 ^ 40 else x.lastTs.toNat

/-- Free records in the ring. -/
def ephFree (x : Part) : Nat := ephSize x - (x.eph.head - x.eph.tail).toNat

/-- The 32 bytes of a record (Table 10.9). -/
def recBytes (mt orbit ts kind slot req data seq : Nat) : List Byte :=
  toLe 8 mt ++ toLe 4 orbit ++ toLe 5 ts ++ toLe 1 kind ++ toLe 2 slot ++ toLe 4 req ++ toLe 6 data ++ toLe 2 seq

/-- Write a record whole at the head, then advance the head (R282). -/
def ephWrite (x : Part) (mt orbit ts kind slot req data : Nat) (d : Dev) : Dev :=
  let i := x.eph.head.toNat
  let b := recBytes mt orbit ts kind slot req data (i % 65536)
  let d := ringWrite (ephFirst x) (32 * (i % ephSize x)) b d
  setPart x.pid { x with eph := { x.eph with head := x.eph.head + 1, recs := x.eph.recs ++ b } } d

/-- Count a record that finds no room (R283). -/
def ephLose (x : Part) (d : Dev) : Dev :=
  let d := setPart x.pid { x with eph := { x.eph with lost := satAdd x.eph.lost 1, gap := x.eph.gap + 1 } } d
  if x.eph.lost = 0 then raiseVec (114 + x.pid) d else d

/-- The ring takes records: none is held back by a digest, and there is room (R283). -/
def ephOpen (x : Part) : Bool := ephEn x && x.eph.held.isNone && decide (0 < ephFree x)

/-- Write the GAP record that carries the count of lost records, once the ring has room (R283). -/
def ephGap (p : Nat) : Dev → Dev :=
  withPart p fun x d =>
    if x.eph.gap ≠ 0 && ephOpen x then
      let d := ephWrite x d.mt.mt.toNat (stampOrbit x) (stampTs x) 0x31 0xFFFF 0 (x.eph.gap % 2 ^ 32) d
      modPart p (fun y => { y with eph := { y.eph with gap := 0 } }) d
    else d

/-- Write a record with its own times (R280, R281). A full ring, or a digest that is held back, loses it (R283). -/
def ephRecAt (p mt orbit ts kind slot req data : Nat) (d : Dev) : Dev :=
  withPart p (fun x d =>
    if !ephEn x then d
    else if x.eph.gap ≠ 0 || !ephOpen x then ephLose x d
    else ephWrite x mt orbit ts kind slot req data d) (ephGap p d)

/-- Write a record of an event that happens now. -/
def ephRec (p kind slot req data : Nat) (d : Dev) : Dev :=
  withPart p (fun x d => ephRecAt p d.mt.mt.toNat (stampOrbit x) (stampTs x) kind slot req data d) d

/-- Write a module event to the ephemeris of every partition, or of every running one. -/
def ephAll (runningOnly : Bool) (kind data : Nat) (d : Dev) : Dev :=
  forEach d.parts (fun e d => if runningOnly && e.2.plan ≠ .running then d else ephRec e.1 kind 0xFFFF 0 data d) d

/-! ### Digests -/

/-- The manifest of the copy slot that is ACTIVE (R224). -/
def activeMan (x : Part) : Option ManInfo :=
  if x.w.copy0.st = .active then x.w.copy0.man else if x.w.copy1.st = .active then x.w.copy1.man else none

/-- Bytes of a bitmap of n bytes with the listed bits set. -/
def bitmap (n : Nat) (l : List Nat) : List Byte := toLe n (l.foldl (fun a k => a + 2 ^ k) 0)

/-- The 384 bytes of a crater map (Table 17.8). -/
def craterBytes (m : CraterMap) : List Byte :=
  toLe 4 0x52545243 ++ toLe 2 1 ++ toLe 2 0 ++ bitmap 300 m.tiles ++ bitmap 6 m.channels ++ toLe 2 0 ++
    bitmap 20 m.lanes ++ bitmap 4 m.dma ++ bitmap 8 m.seamCh ++ bitmap 2 m.blocks ++ toLe 1 (b2n m.store) ++
    List.replicate 33 0

/-- CRATER_HASH (R430). -/
def craterHash (d : Dev) : Hash := sha384 (craterBytes d.crater.force)

/-- The 56-byte entry of an adapter generation (Table 10.12). -/
def adpEntry (a : BitVec 32 × BitVec 32 × Hash) : List Byte :=
  toLe 4 a.1.toNat ++ toLe 4 a.2.1.toNat ++ hashBytes a.2.2

/-- Insert an adapter generation into an ascending list without repeats. -/
def insertAdp : List (BitVec 32 × BitVec 32 × Hash) → BitVec 32 × BitVec 32 × Hash →
    List (BitVec 32 × BitVec 32 × Hash)
  | [], a => [a]
  | b :: r, a =>
    let ka := a.1.toNat * 2 ^ 32 + a.2.1.toNat
    let kb := b.1.toNat * 2 ^ 32 + b.2.1.toNat
    if ka < kb then a :: b :: r else if ka = kb then b :: r else b :: insertAdp r a

/-- Generations of a partition in the states given, with their manifest hashes. -/
def adpIn (x : Part) (f : AdpSt → Bool) : List (BitVec 32 × BitVec 32 × Hash) :=
  ((x.w.adapters.filter (fun a => f a.st)).map (fun a => (a.handle, a.gen, (a.man.map (·.hash)).getD 0))).foldl
    insertAdp []

/-- ADAPTER_HASH over generations (Table 10.12). -/
def adapterHash (l : List (BitVec 32 × BitVec 32 × Hash)) : Hash := sha384 (l.flatMap adpEntry)

/-- Digests the digest ring holds. -/
def digCap (x : Part) : Nat := 128 * fld x.eph.digCfg.toNat 20 6

/-- Bytes 0x000 to 0x197 of a digest (Table 10.12). -/
def digestBody (d : Dev) (x : Part) (last : BitVec 32) : List Byte :=
  let e := x.eph
  let first := e.digFrom.toNat
  let recs := e.recs
  let adp := (adpIn x (fun s => s = .ready || s = .superseded)).foldl insertAdp e.adapters
  toLe 4 0x44485045 ++ toLe 2 1 ++ toLe 1 x.pid ++
    toLe 1 (b2n ((x.info.map (·.relaxed)).getD false) + 2 * b2n ((x.info.map (·.tagged)).getD false) +
      4 * b2n (isLeader x)) ++
    toLe 8 e.digHead.toNat ++ toLe 8 first ++ toLe 8 (e.head - 1).toNat ++ padTo 8 (sl recs 0 8) ++
    padTo 8 (sl recs (recs.length - 32) 8) ++ toLe 4 e.digFirstOrbit.toNat ++ toLe 4 last.toNat ++
    toLe 4 (fld d.ident.fw.toNat 0 24) ++ toLe 4 (fld d.ident.ldr.toNat 0 24) ++ toLe 2 x.job.rank ++
    List.replicate 6 0 ++ hashBytes ((activeMan x).map (·.hash) |>.getD 0) ++
    hashBytes ((x.info.map (·.hash)).getD 0) ++ hashBytes (craterHash d) ++
    hashBytes ((x.srv.sel.map (·.hash)).getD 0) ++ hashBytes (adapterHash adp) ++ hashBytes (sha384 recs) ++
    hashBytes e.prevHash

/-- Sign and write the digest that has closed, and its DIGEST record; a full digest ring holds it back (R283, R285, R392). -/
def writeDigest (p : Nat) : Dev → Dev :=
  withPart p fun x d =>
    match x.eph.held with
    | none => d
    | some body =>
      if digCap x ≤ (x.eph.digHead - x.eph.digTail).toNat then d
      else
        let all := body ++ sigBytes (Config.sign d.otp.seed (sha384 body) d.free) ++ List.replicate 8 0
        let d := ringWrite (fld x.eph.digCfg.toNat 0 20) (512 * (x.eph.digHead.toNat % digCap x)) all
          { d with free := d.free + 1 }
        let d := setPart p { x with eph := { x.eph with
          digHead := x.eph.digHead + 1, prevHash := sha384 (all.take 0x1F8), digFrom := x.eph.head, held := none } } d
        raiseVec (114 + p) (ephRec p 0x30 0xFFFF 0 x.eph.digHead.toNat d)

/-- Close the digest that is due, as far as the orbit given (R285). While an earlier one is held back no record is written, and none
closes. -/
def closeDigest (p : Nat) (last : BitVec 32) : Dev → Dev :=
  withPart p fun x d =>
    if !ephEn x || digCap x = 0 then d
    else if x.eph.held.isSome then writeDigest p d
    else writeDigest p (setPart p { x with eph := { x.eph with
      held := some (digestBody d x last), digOrbits := 0, digFirstOrbit := last + 1, adapters := [], recs := [] } } d)

/-! ### The crater map -/

/-- The column of the u-th enabled tile among columns c, c + 1, ... (R16, R18). -/
def enabledCol (dis : Nat → Bool) : Nat → Nat → Nat → Option Nat
  | 0, _, _ => none
  | fuel + 1, c, u =>
    if dis c then enabledCol dis fuel (c + 1) u else if u = 0 then some c else enabledCol dis fuel (c + 1) (u - 1)

/-- Quadrant, row and virtual local column of a virtual tile (R16). -/
def tileQ (t : Nat) : Nat := 2 * (t / 48 / 24) + t % 48 / 24
def tileR (t : Nat) : Nat := t / 48 % 24
def tileU (t : Nat) : Nat := if t % 48 < 24 then 23 - t % 48 else t % 48 - 24

/-- Physical column of a virtual tile under a crater map; none where it has no physical tile. -/
def physCol (m : CraterMap) (t : Nat) : Option Nat :=
  enabledCol (fun c => m.tiles.contains (tileQ t * 600 + tileR t * 25 + c)) 25 0 (tileU t)

/-- Physical tile number of a virtual tile (R428). -/
def physTile (m : CraterMap) (t : Nat) : Option Nat := (physCol m t).map (fun c => tileQ t * 600 + tileR t * 25 + c)

/-- Add a pending entry for a unit (R433), and the block it lies in to the changes since load. -/
def addPending (sub unit block : Nat) (d : Dev) : Dev :=
  let m := d.crater.pend
  let m := match sub with
    | 1 => { m with tiles := insertNat m.tiles unit }
    | 3 => { m with channels := insertNat m.channels unit }
    | 5 => { m with lanes := insertNat m.lanes unit }
    | _ => { m with dma := insertNat m.dma unit }
  { d with crater := { d.crater with pend := m, changes := d.crater.changes ++ [BitVec.ofNat 16 (2 ^ block)] } }

/-- The unit that an event names for a crater entry: subsystem, unit and block (R414). -/
def eventUnit (d : Dev) (src detail : Nat) : Option (Nat × Nat × Nat) :=
  let inst := src % 256
  match src / 256 with
  | 1 => (physTile d.crater.force (detail % 4096)).map (fun u => (1, u, blockOfTile (detail % 4096)))
  | 3 => if inst < 48 then some (3, inst, inst / 3)
    else if fld detail 49 2 = 0 && fld detail 16 6 < 48 then some (3, fld detail 16 6, fld detail 16 6 / 3) else none
  | 5 => if inst < 32 && fld detail 41 3 < 5 then some (5, inst * 5 + fld detail 41 3, inst / 2) else none
  | 6 => if inst < 32 then some (6, inst, inst / 2) else none
  | _ => none

/-! ### Leaving RUNNING -/

/-- Release the pins of a partition that does not run, once every STORE handed to its memory moons is written
(Table 9.3). -/
def releasePins (p : Nat) : Dev → Dev :=
  withPart p fun x d =>
    if x.plan = .running || x.stopping || d.mm.any (fun m => m.2.wbuf.any (fun w => w.part = p)) then d
    else { d with cpt := d.cpt.map (fun e =>
      if x.mask.getLsbD (e.1 / 65536) then (e.1, BitVec.ofNat 64 (setBit e.2.toNat 1 false)) else e) }

/-- Eclipse every live request, cause STOP, with the leader's records (Table 10.3). -/
def eclipseAll (p : Nat) : Dev → Dev :=
  withPart p fun x d =>
    let d := if isLeader x then
        forEach x.srv.reqs (fun r => ephRec p 0x06 (r.slot.getD 0xFFFF) r.id.toNat 7) d
      else d
    modPart p (fun y => { y with srv := { y.srv with reqs := y.srv.reqs.map (fun r =>
      { r with st := .eclipsed, slot := none, cause := 7 }) } }) d

/-- Count a hold's wall time in its moon's slice (R161). -/
def countHold (no : Nat) (w : WaitSt) (ns : Nat) : Dev → Dev :=
  modSlice (moonOfTile no) (sliceOf no) fun s =>
    if w.q < 28 then { s with holdNs0 := s.holdNs0 + BitVec.ofNat 64 ns, holdCount := s.holdCount + 1 }
    else { s with holdNs1 := s.holdNs1 + BitVec.ofNat 64 ns, holdCount := s.holdCount + 1 }

/-- The hold of a tile's WAIT ends (R36): its wall time is counted, its moon's clock rests up to now, the orbit of every running
partition is late, and every partition's ephemeris records it. -/
def endHold (no : Nat) (w : WaitSt) (start : Nat) (d : Dev) : Dev :=
  let ns := (d.clk.wall - start) / grain
  let d := countHold no w ns (modTile no (fun t => { t with wait := none }) d)
  let d := modMoon (moonOfTile no) (fun m => { m with restTill := max m.restTill d.clk.wall }) d
  let d := { d with parts := d.parts.map (fun e =>
    if e.2.plan = .running then (e.1, { e.2 with fab := { e.2.fab with late := true } }) else e) }
  if mpUp d then ephAll false 0x10 (no + w.q * 2 ^ 12 + ns % 2 ^ 31 * 2 ^ 17) d else d

/-- A stop or a HALT ends the holds of a partition's own WAITs, which do not release (R36). -/
def endHolds (x : Part) (d : Dev) : Dev :=
  forEach (listedTiles d x) (fun no d =>
    match (getTile d no).wait with
    | some w => (match w.hold with
      | some s => endHold no w s d
      | none => d)
    | none => d) d

/-- A tile leaves RUN as its partition's tick ends (Table 3.10): HALTED where it raised a HALT, else PARKED. -/
def parkTile (t : Tile) : Tile :=
  { t with
    mode := if t.mode = .run then (if t.halting then .halted else .parked) else t.mode, halting := false, resumable := false
    wait := none, seqNew := 0, arithNew := 0 }

/-- The tick in which a partition stopped has ended (Table 1.5): its tiles park, and its pins are released. -/
def parkTiles (p : Nat) : Dev → Dev := withPart p fun x d =>
  releasePins p (modPart p (fun y => { y with stopping := false })
    (forEach (listedTiles d x) (fun t => modTile t parkTile) d))

/-- A partition leaves RUNNING (R26): its tiles park at the end of the current tick, its requests are eclipsed, its job stops, a
digest closes and its pins are released. -/
def leaveRunning (p : Nat) (d : Dev) : Dev :=
  withPart p (fun x d =>
    if x.plan ≠ .running then d else
    let ticks := active x && decide (x.tick < (x.info.map (·.orbitLen)).getD 0)
    let d := modPart p (fun y => { y with
      plan := .stopped, lastOrbit := y.orbit, lastTs := BitVec.ofNat 40 (y.now % 2 ^ 40), brk := none, parked := false
      entering := false, stopping := ticks, fab := { y.fab with pace := none, paceMt := none }
      job := if y.job.st = .running then { y.job with st := .stopped } else y.job }) (endHolds x d)
    let d := if ticks then d else parkTiles p d
    if mpUp d then closeDigest p x.orbit (eclipseAll p d) else d) d

/-! ### Fault events -/

/-- Append a history entry (R416, R417), counting an overwritten one that has not been read. -/
def history (cls src cause part detail : Nat) (d : Dev) : Dev :=
  let h := d.flt.head
  let who := if part = 0xFF then none else tget d.parts part
  let e : HistEntry := {
    mt := d.mt.mt, orbit := BitVec.ofNat 32 ((who.map stampOrbit).getD 0), ts := BitVec.ofNat 40 ((who.map stampTs).getD 0)
    cls := BitVec.ofNat 2 cls, source := BitVec.ofNat 12 src, cause := BitVec.ofNat 16 cause, part := BitVec.ofNat 8 part
    seqLo := BitVec.ofNat 8 h.toNat, detail := BitVec.ofNat 64 detail }
  let loses := 64 ≤ (h - d.flt.tail).toNat
  let d := { d with flt := { d.flt with
    hist := tput d.flt.hist (h.toNat % 64) e, head := h + 1, lost := if loses then satAdd d.flt.lost 1 else d.flt.lost
    notes := if cls = 0 then d.flt.notes + 1 else d.flt.notes
    degrades := if cls = 1 then d.flt.degrades + 1 else d.flt.degrades
    halts := if cls = 2 then d.flt.halts + 1 else d.flt.halts
    lastHalt := if cls = 2 then h else d.flt.lastHalt
    firstSeal := if cls = 3 && d.flt.firstSeal = 0xFFFFFFFFFFFFFFFF#64 then h else d.flt.firstSeal
    last := if 2 ≤ cls then some (e.cls, e.source, e.mt) else d.flt.last } }
  if loses && d.flt.lost = 1 then raiseVec 0 d else d

/-- HALT and SEAL entries drive FAULT_N: HOLD is set and the 10 us pulse starts again (R420). -/
def driveFault (d : Dev) : Dev :=
  { d with flt := { d.flt with hold := true, pulse := some (d.clk.wall + usG 10) } }

/-- A HALT stops the partition named, or every running partition (R413). -/
def haltParts (part : Nat) (d : Dev) : Dev :=
  if part = 0xFF then forEach d.parts (fun e d => leaveRunning e.1 d) d else leaveRunning part d

/-- What a SEAL entry sets in motion at once (R424, R441, Table 3.10): every sequencer is FROZEN. -/
def sealModule (d : Dev) : Dev :=
  { d with
    tiles := d.tiles.map (fun e => (e.1, { e.2 with mode := .frozen }))
    flt := { d.flt with sealed := true, aliveStop := true }
    dma := d.dma.map (fun e => (e.1, { endLockWait d.clk.wall e.2 with st := .idle, en := false, abort := false, cur := none }))
    cpt := d.cpt.map (fun e => (e.1, BitVec.ofNat 64 (setBit e.2.toNat 5 false)))
    ports := d.ports.map (fun e => (e.1, { e.2 with st := .off, lasers := false }))
    parts := d.parts.map (fun e => (e.1, { e.2 with job := { e.2.job with st := .none_ } }))
    glb := { d.glb with install := false, mpReady := false }
    sec := { d.sec with sessions := [], ide := [], spdm := 0 }
    pwr := { d.pwr with rails := d.pwr.rails &&& 7#8 } }

/-- An event enters the history, raises vector 0, is written to the ephemeris and drives FAULT_N by its class (R410, R417,
R419, R420). -/
def recordEvent (cls src cause part detail : Nat) (d : Dev) : Dev :=
  let d := history cls src cause part detail d
  let d := if 1 ≤ cls then raiseVec 0 d else d
  let d := if (cls = 1 || cls = 2) && mpUp d then
      let data := src + cls * 2 ^ 12 + cause * 2 ^ 14
      if part = 0xFF then ephAll false 0x22 data d else ephRec part 0x22 0xFFFF 0 data d
    else d
  if 2 ≤ cls then driveFault d else d

/-- An event is recorded, and acts by its class: a HALT stops its partitions, a SEAL seals the module. -/
def enterEvent (cls src cause part detail : Nat) (d : Dev) : Dev :=
  let d := recordEvent cls src cause part detail d
  let d := if cls = 2 then haltParts part d else d
  if cls = 3 then sealModule d else d

/-- A source's escalation record. -/
def getEsc (d : Dev) (src : Nat) : Esc := (tget d.flt.esc src).getD {}
def setEsc (src : Nat) (e : Esc) (d : Dev) : Dev := { d with flt := { d.flt with esc := tput d.flt.esc src e } }

/-- Count a NOTE (R414): the record after it, and whether it completes the count. -/
def countNote (t : Nat) (e : Esc) : Esc × Bool :=
  let e := if t ≥ e.noteStart + e.noteWindow * 1000000 || e.noteCount = 0 then { e with noteStart := t, noteCount := 0 }
    else e
  let n := e.noteCount + 1
  if e.noteLimit ≠ 0 && n = e.noteLimit then ({ e with noteCount := 0 }, true) else ({ e with noteCount := n }, false)

/-- Count a DEGRADE in the same way. -/
def countDegrade (t : Nat) (e : Esc) : Esc × Bool :=
  let e := if t ≥ e.degStart + e.degWindow * 1000000 || e.degCount = 0 then { e with degStart := t, degCount := 0 }
    else e
  let n := e.degCount + 1
  if e.degLimit ≠ 0 && n = e.degLimit then ({ e with degCount := 0 }, true) else ({ e with degCount := n }, false)

/-- DETAIL of an escalated event (R414): the cause that completed the count, and the unit code it names. -/
def escDetail (u : Option (Nat × Nat × Nat)) (cause : Nat) : Nat :=
  cause % 65536 + 65536 * (match u with
    | some (s, n, _) => s * 2 ^ 28 + n
    | none => 0xFFFFFFFF)

/-- A DEGRADE event: entered, counted, and escalated to HALT where its count completes. -/
def raiseDegrade (src cause part detail : Nat) (u : Option (Nat × Nat × Nat)) (d : Dev) : Dev :=
  let d := enterEvent 1 src cause part detail d
  let c := countDegrade d.mt.mt.toNat (getEsc d src)
  let d := setEsc src c.1 d
  if c.2 then enterEvent 2 src 1 part (escDetail u cause) d else d

/-- Raise a fault event (R410 to R415): a NOTE may escalate to a DEGRADE with cause ESCALATED, which marks the unit it
names in the pending crater map, or lowers the tide ceiling where its source is a moon. -/
def raise (cls src cause part detail : Nat) (d : Dev) : Dev :=
  match cls with
  | 0 =>
    let d := enterEvent 0 src cause part detail d
    let c := countNote d.mt.mt.toNat (getEsc d src)
    let d := setEsc src c.1 d
    if c.2 then
      let u := eventUnit d src detail
      let d := raiseDegrade src 1 part (escDetail u cause) u d
      let d := match u with
        | some (s, n, b) => addPending s n b d
        | none => d
      if src / 256 = 2 && src % 256 < 45 then lowerTide d else d
    else d
  | 1 => raiseDegrade src cause part detail (eventUnit d src detail) d
  | n => enterEvent n src cause part detail d

end Sys2Proof.Machine
end

