-- ==== Sys2Proof/Machine/Mailbox.lean ====
section
/-!
DEFINITION. Mailboxes (R380 to R384): posting, taking and answering a command, the shape of every command's request,
and the order of commands that name one object. With them the host's memory (R373) as the module reaches it.
-/

namespace Sys2Proof.Machine

open Sys2Proof

/-! ### Status codes (Table 0.5) -/

def stOk : Nat := 0
def stBusy : Nat := 1
def stBadArg : Nat := 2
def stDenied : Nat := 3
def stNotReady : Nat := 4
def stAborted : Nat := 5
def stIntegrity : Nat := 6
def stTimeout : Nat := 7
def stLate : Nat := 8

/-! ### Host memory -/

/-- The host link is trained, so host memory answers (R372, R449). -/
def linkUp (d : Dev) : Bool := d.glb.width ≠ 0

/-- Host accesses to n bytes from an address complete without an error (R253), on a protocol that carries traffic. -/
def hostOk (d : Dev) (a n : Nat) : Bool :=
  linkUp d && ioSecure d && d.hostBad.all (fun r => decide (a + n ≤ r.1) || decide (r.1 + r.2 ≤ a))

/-- Reads of a HOST source over CXL.cache complete without an error (R223, R407): in PCIe fallback there is no CXL.cache (R372). -/
def cacheOk (d : Dev) (a n : Nat) : Bool :=
  linkUp d && d.glb.cxl && !((tget d.sec.ide 1).getD {}).insecure &&
    d.hostBad.all (fun r => decide (a + n ≤ r.1) || decide (r.1 + r.2 ≤ a))

def hostRd (d : Dev) (a n : Nat) : List Byte := rdBs d.host a n
def hostWr (a : Nat) (bs : List Byte) (d : Dev) : Dev := { d with host := wrBs d.host a bs }

/-! ### Requests -/

/-- Header fields of a mailbox's request (Table 15.7). -/
def rqOpcode (x : Mailbox) : Nat := rdN x.req 0 2
def rqSeq (x : Mailbox) : Nat := rdN x.req 2 2
def rqLen (x : Mailbox) : Nat := rdN x.req 4 2
def rqRes (x : Mailbox) : Nat := rdN x.req 6 2
def rqTag (x : Mailbox) : Nat := rdN x.req 8 8
def rqPayload (x : Mailbox) : List Byte := rdBs x.req 16 (rqLen x)

/-- Scope, payload length and reserved bytes of a command (Table 15.10): `(partition scope, length, reserved)`; none
for an OPCODE that is not listed. BUDGET_SET's length depends on its COUNT. -/
def cmdShape (code count : Nat) : Option (Bool × Nat × List (Nat × Nat)) :=
  match code with
  | 0x0101 => some (false, 2, [])
  | 0x0102 => some (false, 1, [])
  | 0x0103 => some (false, 16, [(1, 7)])
  | 0x0104 => some (false, 1, [])
  | 0x0105 => some (false, 8, [])
  | 0x0106 => some (false, 8, [])
  | 0x0201 => some (true, 16, [])
  | 0x0202 => some (true, 0, [])
  | 0x0203 => some (true, 0, [])
  | 0x0204 => some (true, 0, [])
  | 0x0205 => some (true, 0, [])
  | 0x0206 => some (true, 0, [])
  | 0x0207 => some (true, 4, [])
  | 0x0301 => some (false, 12, [])
  | 0x0302 => some (false, 8, [(1, 3)])
  | 0x0303 => some (false, 24, [(1, 3), (12, 4)])
  | 0x0304 => some (false, 1, [])
  | 0x0305 => some (false, 1, [])
  | 0x0306 => some (false, 0, [])
  | 0x0310 => some (true, 24, [(1, 1), (6, 2)])
  | 0x0311 => some (true, 12, [(5, 3)])
  | 0x0312 => some (true, 1, [])
  | 0x0313 => some (true, 24, [])
  | 0x0314 => some (true, 4, [])
  | 0x0401 => some (true, 12, [(7, 1)])
  | 0x0402 => some (true, 6, [])
  | 0x0403 => some (true, 6, [])
  | 0x0501 => some (true, 12, [])
  | 0x0502 => some (true, 4, [])
  | 0x0503 => some (true, 4, [])
  | 0x0504 => some (true, 4, [])
  | 0x0505 => some (true, 16, [])
  | 0x0506 => some (true, 8 + 16 * count, [(4, 4)])
  | 0x0601 => some (true, 16, [(1, 1), (6, 2)])
  | 0x0602 => some (true, 56, [])
  | 0x0603 => some (true, 16, [(4, 4)])
  | 0x0604 => some (true, 0, [])
  | 0x0605 => some (true, 32, [(4, 4)])
  | 0x0606 => some (true, 16, [])
  | 0x0607 => some (true, 4, [])
  | 0x0608 => some (true, 1, [])
  | 0x0609 => some (true, 2, [])
  | 0x0701 => some (false, 4, [])
  | 0x0702 => some (false, 8, [])
  | 0x0703 => some (false, 12, [])
  | 0x0704 => some (false, 8, [])
  | 0x0705 => some (false, 16, [(1, 7)])
  | _ => none

/-- The shape of a mailbox's command. -/
def rqShape (x : Mailbox) : Option (Bool × Nat × List (Nat × Nat)) := cmdShape (rqOpcode x) (lf (rqPayload x) 2 2)

/-- Put a reply into the reply area and enter DONE, then raise the mailbox's vector (R382). -/
def answer (m st reason : Nat) (pl : List Byte) (d : Dev) : Dev :=
  let x := getMbx d m
  let r := toLe 2 (rqOpcode x) ++ toLe 2 (rqSeq x) ++ toLe 2 pl.length ++ toLe 1 st ++ toLe 1 reason ++
    toLe 8 (rqTag x) ++ pl
  raiseVec (2 + m) (modMbx m (fun x => { x with st := .done, begun := false, reply := wrBs x.reply 0 r }) d)

/-- The command has begun and stays ACCEPTED until its event (R384). -/
def beginCmd (m : Nat) (d : Dev) : Dev := modMbx m (fun x => { x with st := .accepted, begun := true }) d

/-- ACCEPTED commands that count against the limit of a mailbox's command (R383). -/
def acceptedLike (d : Dev) (isPart : Bool) (pid : Nat) : Nat :=
  (d.mbx.filter (fun e => e.2.st = .accepted && (match rqShape e.2 with
    | some (b, _, _) => b = isPart && (!b || (partOfBlock d (e.1 / 4)).map (·.pid) = some pid)
    | none => false))).length

/-- The mailbox-level refusals (Table 15.9), in the order OPCODE, LENGTH, NO_PART: status and reason. -/
def rqRefusal (d : Dev) (m : Nat) : Option (Nat × Nat) :=
  let x := getMbx d m
  match rqShape x with
  | none => some (stBadArg, 0xF3)
  | some (isPart, len, res) =>
    if rqLen x ≠ len || 1968 < rqLen x || rqRes x ≠ 0 ||
        res.any (fun r => !allZero (sl (rqPayload x) r.1 r.2)) then some (stBadArg, 0xF4)
    else if isPart && (partOfBlock d (m / 4)).isNone then some (stDenied, 0xF5)
    else none

/-- The objects a command names, as (kind, scope, first, last) ranges (R383). -/
def rqObjects (d : Dev) (m : Nat) : List (Nat × Nat × Nat × Nat) :=
  let x := getMbx d m
  let p := ((partOfBlock d (m / 4)).map (·.pid)).getD 16
  let pl := rqPayload x
  match rqOpcode x with
  | 0x0201 | 0x0202 | 0x0203 | 0x0204 | 0x0205 => [(0, p, 0, 0)]
  | 0x0310 | 0x0312 => [(1, p, lf pl 0 1, lf pl 0 1)]
  | 0x0311 => [(1, p, 0, 1)]
  | 0x0313 | 0x0314 => [(2, p, lf pl 0 4, lf pl 0 4)]
  | 0x0401 | 0x0402 | 0x0403 => [(3, 0, lf pl 0 4, lf pl 0 4 + lf pl 4 2)]
  | 0x0502 | 0x0503 | 0x0504 | 0x0505 => [(4, p, lf pl 0 4, lf pl 0 4)]
  | 0x0608 | 0x0609 => [(5, p, lf pl 0 1, lf pl 0 1)]
  | 0x0602 | 0x0603 | 0x0604 | 0x0605 | 0x0606 | 0x0607 => [(6, p, 0, 0)]
  | 0x0301 | 0x0302 | 0x0303 | 0x0304 | 0x0305 | 0x0306 | 0x0705 => [(7, 0, 0, 0)]
  | _ => []

/-- Two object ranges meet. -/
def meets (a b : Nat × Nat × Nat × Nat) : Bool :=
  a.1 = b.1 && a.2.1 = b.2.1 && decide (a.2.2.1 ≤ b.2.2.2) && decide (b.2.2.1 ≤ a.2.2.2)

/-- An earlier POST names one of this command's objects and has not begun: this one waits (R383). -/
def mustWait (d : Dev) (m : Nat) : Bool :=
  let x := getMbx d m
  let os := rqObjects d m
  d.mbx.any (fun e => (e.2.st = .posted || e.2.st = .accepted) && !e.2.begun && decide (e.2.order < x.order) &&
    (rqObjects d e.1).any (fun o => os.any (meets o)))

/-- A mailbox holds this command and it is its turn: POSTED, or ACCEPTED and not begun, with the MP at work and no work
shed (R380, R383). -/
def isTurn (d : Dev) (code m : Nat) : Bool :=
  let x := getMbx d m
  mpUp d && !d.glb.shed && (x.st = .posted || (x.st = .accepted && !x.begun)) && rqOpcode x = code && !mustWait d m

/-- A posted command finds the MP's ACCEPTED commands at their limit (R383). -/
def isFull (d : Dev) (m : Nat) : Bool :=
  (getMbx d m).st = .posted && decide (8 ≤ acceptedLike d (((rqShape (getMbx d m)).map (·.1)).getD false)
    (((partOfBlock d (m / 4)).map (·.pid)).getD 16))

/-- Run a mailbox command of module scope: its effect gets the payload. -/
def command (code m : Nat) (f : List Byte → Dev → Dev) (d : Dev) : Dev :=
  if isTurn d code m then
    match rqRefusal d m with
    | some (st, reason) => answer m st reason [] d
    | none => if isFull d m then answer m stBusy 0xF2 [] d else f (rqPayload (getMbx d m)) d
  else d

/-- Run a mailbox command of partition scope: its effect gets the partition that holds the mailbox's block (R381). -/
def partCommand (code m : Nat) (f : Part → List Byte → Dev → Dev) : Dev → Dev :=
  command code m fun pl d =>
    match partOfBlock d (m / 4) with
    | some x => f x pl d
    | none => d

/-- Answer every mailbox that holds a begun command with this code, as the command's event has come. -/
def answerBegun (code st reason : Nat) (pl : List Byte) (d : Dev) : Dev :=
  forEach d.mbx (fun e d =>
    if e.2.st = .accepted && e.2.begun && rqOpcode e.2 = code then answer e.1 st reason pl d else d) d

/-! ### Posting and taking a command -/

/-- A doorbell write (Table 15.8): POSTED, or discarded and counted; while SHED is set it is answered at once. -/
def post (m : Nat) (d : Dev) : Dev :=
  let x := getMbx d m
  match x.st with
  | .posted | .accepted => modMbx m (fun x => { x with errPost := satAdd16 x.errPost 1 }) d
  | _ =>
    let d := modMbx m (fun x => { x with
      st := .posted, seq := BitVec.ofNat 16 (rqSeq x), postAt := d.clk.wall, order := d.glb.posts, begun := false }) d
    let d := { d with glb := { d.glb with posts := d.glb.posts + 1 } }
    if d.glb.shed then answer m stBusy 0xF6 [] d else d

/-- POST (R382). -/
def execPost (m : Fin 64) : State → Host.Outcome State Fault Refusal := on (whenHost (post m))

/-- The MP takes a posted command, or refuses it at once (R381 to R383). -/
def mpAccept (m : Nat) (d : Dev) : Dev :=
  let x := getMbx d m
  if x.st = .posted && mpUp d && !d.glb.shed then
    match rqRefusal d m with
    | some (st, reason) => answer m st reason [] d
    | none =>
      if isFull d m then answer m stBusy 0xF2 [] d
      else modMbx m (fun x => { x with st := .accepted }) d
  else d

/-- MP_ACCEPT (R382). -/
def execMpAccept (m : Fin 64) : State → Host.Outcome State Fault Refusal := on (mpAccept m)

/-- The hardware answers a command that has stood POSTED for 18 us (R382). -/
def auto (m : Nat) (d : Dev) : Dev :=
  if (getMbx d m).st = .posted then whenDue ((getMbx d m).postAt + usG 18) (answer m stBusy 0xF1 []) d else d

/-- AUTO (R382). -/
def execAuto (m : Fin 64) : State → Host.Outcome State Fault Refusal := on (whenHw (auto m))

/-- A wait of more than 10 us for a core. SHED sets: every POSTED mailbox is answered BUSY, and vector 1 is raised (R380, R382). While
SHED is set the 100 us without such a wait start again. -/
def shed (d : Dev) : Dev :=
  if d.glb.shed then { d with glb := { d.glb with shedWait := some d.clk.wall } } else
    let d := { d with glb := { d.glb with shed := true, shedAt := some d.clk.wall, shedWait := some d.clk.wall } }
    raiseVec 1 (forEach d.mbx (fun e d => if e.2.st = .posted then answer e.1 stBusy 0xF6 [] d else d) d)

/-- SHED (R380). -/
def execShed : State → Host.Outcome State Fault Refusal := on (whenMp shed)

/-- SHED clears after 100 us without a wait (R380). -/
def shedClear (d : Dev) : Dev :=
  match d.glb.shedAt, d.glb.shedWait with
  | some t, some w =>
    whenDue (w + usG 100) (fun d => { d with glb := { d.glb with
      shed := false, shedAt := none, shedWait := none
      shedNs := d.glb.shedNs + BitVec.ofNat 64 ((d.clk.wall - t) / grain) } }) d
  | _, _ => d

/-- SHED_CLEAR (R380). -/
def execShedClear : State → Host.Outcome State Fault Refusal := on (whenMp shedClear)

end Sys2Proof.Machine
end

