-- ==== Sys2Proof/Machine/Faults.lean ====
section
/-!
DEFINITION. The fault logic's commands (R414 to R424), self-test (R425 to R429) and the crater map (R430 to R434).
-/

namespace Sys2Proof.Machine

open Sys2Proof

/-! ### Events at the fault logic -/

/-- FAULT_EVENT (R410, R417): the event is counted, entered and acts by its class. -/
def execFaultEvent (cls : BitVec 2) (src : BitVec 12) (cause : BitVec 16) (part : BitVec 8) (detail : BitVec 64) :
    State → Host.Outcome State Fault Refusal :=
  on (whenHw (raise cls.toNat src.toNat cause.toNat part.toNat detail.toNat))

/-- PULSE_END (R420): the FAULT_N pulse ends 10 us after the latest HALT or SEAL entry. -/
def execPulseEnd : State → Host.Outcome State Fault Refusal := on fun d =>
  match d.flt.pulse with
  | some t => whenDue t (fun d => { d with flt := { d.flt with pulse := none } }) d
  | none => d

/-- WATCHDOG (R423): MP_FAILED sets, then a HALT from source 0x701 stops every RUNNING partition. -/
def execWatchdog : State → Host.Outcome State Fault Refusal := on <| whenAwake fun d =>
  if d.flt.mpFailed then d
  else raise 2 0x701 0x0701 0xFF 0 { d with flt := { d.flt with mpFailed := true, aliveStop := true } }

/-- SE_FAIL (R422): SE_FAILED sets, and SEAL is raised. -/
def execSeFail : State → Host.Outcome State Fault Refusal := on <| whenAwake fun d =>
  raise 3 0x800 0x0801 0xFF 0 { d with flt := { d.flt with seFailed := true, aliveStop := true } }

/-- The length in ns of an ALIVE interval: 500 us within 1%, which the module does not fix (R422). -/
def aliveInterval (v : BitVec 16) : Nat := 495000 + v.toNat % 10001

/-- ALIVE_TOGGLE (R422): at the end of the interval ALIVE changes level, or stops low where a condition has failed. -/
def execAliveToggle : State → Host.Outcome State Fault Refusal := on fun d =>
  if !d.pwr.inputOn || !d.flt.aliveRun then d else
  let at_ := d.flt.aliveAt + nsG (aliveInterval (Config.freeBits 16 d.free))
  whenDue at_ (fun d =>
    let d := { d with free := d.free + 1 }
    if d.flt.aliveStop then { d with flt := { d.flt with alive := false, aliveRun := false } }
    else { d with flt := { d.flt with alive := !d.flt.alive, aliveAt := at_ } }) d

/-- FAULT_HOLD_CLEAR (R421): the fault logic compares; it refuses the command while SEALED is set. -/
def execFaultHoldClear (m : Fin 64) : State → Host.Outcome State Fault Refusal := on fun d =>
  let last := d.flt.lastHalt
  if hwUp d && d.flt.sealed && (getMbx d m).st = .posted && rqOpcode (getMbx d m) = 0x0704 then
    answer m stDenied 0 (toLe 8 last.toNat) d
  else d |> command 0x0704 m fun pl d =>
  let ok := last = 0xFFFFFFFFFFFFFFFF#64 || decide (last.toNat < lf pl 0 8)
  if ok then answer m stOk 0 (toLe 8 last.toNat) { d with flt := { d.flt with hold := false } }
  else answer m stNotReady 0 (toLe 8 last.toNat) d

/-- A source ID names a subsystem of Table 17.2. -/
def srcOk (s : Nat) : Bool := 1 ≤ s / 256 && s / 256 ≤ 9

/-- ESCALATION_SET (R415). -/
def execEscalationSet (m : Fin 64) : State → Host.Outcome State Fault Refusal := on <| command 0x0703 m fun pl d =>
  let first := lf pl 0 2
  let n := lf pl 2 2
  let e : Esc := { noteLimit := lf pl 4 2, noteWindow := lf pl 6 2, degLimit := lf pl 8 2, degWindow := lf pl 10 2 }
  let bad (w : Nat) : Bool := w = 0 || decide (60000 < w)
  if n = 0 || decide (0xFFF < first + n - 1) || !((List.range n).all (fun i => srcOk (first + i))) || bad e.noteWindow ||
      bad e.degWindow then answer m stBadArg 0 [] d
  else answer m stOk 0 [] (forEach (List.range n) (fun i => setEsc (first + i) e) d)

/-! ### The crater map -/

/-- The blocks on either side of a moon boundary of a die (R177, R432). -/
def crossingBlocks (k : Nat) : List Nat :=
  let q := k / 12
  let b := k % 12
  if b < 6 then
    let c := b / 3
    (if b % 3 = 0 then [0] else if b % 3 = 1 then [0, 1] else [1]).map (fun r => 4 * q + 2 * r + c)
  else
    let r := (b - 6) / 3
    (if b % 3 = 0 then [0] else if b % 3 = 1 then [0, 1] else [1]).map (fun c => 4 * q + 2 * r + c)

/-- The blocks that meet a seam over the lanes of a seam channel (R178, R432). -/
def seamBlocks (k : Nat) : List Nat :=
  let h := k % 8 / 4
  match k / 16 with
  | 0 => [2 * h + 1, 4 + 2 * h]
  | 1 => [8 + 2 * h + 1, 12 + 2 * h]
  | 2 => [2 + h, 8 + h]
  | _ => [6 + h, 12 + h]

/-- The block that holds the virtual tile at u = 23 of a physical row (R18, R432). -/
def rowBlock (q r : Nat) : Nat := 4 * q + 2 * (r / 12) + (if q % 2 = 0 then 0 else 1)

/-- BLOCKS (R432). -/
def deriveBlocks (m : CraterMap) (crossings : List Nat) : List Nat :=
  let rows := (List.range 96).filter (fun i =>
    2 ≤ (m.tiles.filter (fun t => t / 600 * 24 + t % 600 / 25 = i)).length)
  unionNat (unionNat ((rows.map (fun i => rowBlock (i / 24) (i % 24))).foldl insertNat [])
    (crossings.flatMap crossingBlocks)) (m.seamCh.flatMap seamBlocks)

/-- OR of two maps' unit bits. -/
def orMap (a b : CraterMap) : CraterMap :=
  { a with tiles := unionNat a.tiles b.tiles, channels := unionNat a.channels b.channels, lanes := unionNat a.lanes b.lanes
           dma := unionNat a.dma b.dma, seamCh := unionNat a.seamCh b.seamCh, store := a.store || b.store }

/-- The marks that findings make (R432): a failed memory moon marks its 12 channels, a failed link moon the 40 lanes of
its ports. -/
def findMap (f : Findings) : CraterMap :=
  { tiles := unionNat [] f.tiles
    channels := unionNat (unionNat [] f.channels) (f.memMoons.flatMap (fun q => (List.range 12).map (12 * q + ·)))
    lanes := unionNat (unionNat [] f.lanes) (f.linkMoons.flatMap (fun q => (List.range 40).map (40 * q + ·)))
    dma := unionNat [] f.dma, seamCh := unionNat [] f.seams, store := f.store }

/-- Bytes 0x000 to 0x30B of a map slot (R431). -/
def mapSlotBytes (s : MapSlot) : List Byte :=
  craterBytes s.force ++ craterBytes s.pend ++ toLe 8 s.seq.toNat ++ toLe 4 (b2n s.unconfirmed)

/-- A slot's CRC is valid (R431). -/
def mapSlotOk (s : MapSlot) : Bool := s.crc = crc32c (mapSlotBytes s)

/-- The map slot of these contents, with its CRC (R431). -/
def mapSlot (force pend : CraterMap) (seq : BitVec 64) (unconfirmed : Bool) : MapSlot :=
  ⟨force, pend, seq, unconfirmed, crc32c (mapSlotBytes ⟨force, pend, seq, unconfirmed, 0⟩)⟩

/-- The current map slot of the boot flash (R431): valid, with the higher SEQ; true for slot 1. -/
def currentSlot (f : Flash) : Option (MapSlot × Bool) :=
  let ok (s : Option MapSlot) : Option MapSlot := s.filter mapSlotOk
  match ok f.map0, ok f.map1 with
  | some a, some b => if a.seq.toNat < b.seq.toNat then some (b, true) else some (a, false)
  | some a, none => some (a, false)
  | none, some b => some (b, true)
  | none, none => none

/-- Write a new slot over the one that is not current, with SEQ + 1 (R431). -/
def writeSlot (d : Dev) : Dev :=
  let seq := match currentSlot d.flash with
    | some (s, _) => s.seq + 1
    | none => 1
  let s := mapSlot d.crater.force d.crater.pend seq d.crater.unconfirmed
  let one := match currentSlot d.flash with
    | some (_, b) => !b
    | none => false
  let f := if one then { d.flash with map1 := some s } else { d.flash with map0 := some s }
  { d with flash := f, crater := { d.crater with seq := seq } }

/-- The tile moon of the virtual tile a physical tile serves while no tile of its row is disabled (R16, R165). -/
def moonOfPhys (t : Nat) : Nat :=
  let q := t / 600
  let u := min (t % 25) 23
  moonOfTile ((24 * (q / 2) + t % 600 / 25) * 48 + (if q % 2 = 0 then 23 - u else 24 + u))

/-- The moon on the west or north side of a moon boundary (R177). -/
def crossingMoon (k : Nat) : Nat :=
  let q := k / 12
  let b := k % 12
  let x := if b < 6 then 8 * (b / 3) + 7 else 8 * (b % 3)
  let y := if b < 6 then 8 * (b % 3) else 8 * ((b - 6) / 3) + 7
  moonOfTile ((24 * (q / 2) + y) * 48 + 24 * (q % 2) + x)

/-- The bits of a map that belong to units of groups not selected (R425, R429). -/
def keepBits (m : CraterMap) (groups : BitVec 8) : CraterMap :=
  let g (i : Nat) := groups.getLsbD i
  { m with
    tiles := m.tiles.filter (fun t => !g (t / 600)), channels := if g 4 then [] else m.channels
    lanes := if g 5 then [] else m.lanes, seamCh := if g 6 then [] else m.seamCh
    dma := if g 7 then [] else m.dma, store := !g 7 && m.store }

/-- A set of failing units with the subsystem of their unit code and the source that raises each (R428, Table 17.2). -/
def failUnits (f : Findings) (groups : BitVec 8) : List (Nat × Nat × Nat) :=
  let g (i : Nat) := groups.getLsbD i
  (f.tiles.filter (fun t => g (t / 600))).map (fun t => (t / 600, 0x10000000 + t, 0x100 + moonOfPhys t)) ++
  (f.crossings.filter (fun k => g (k / 12))).map (fun k => (k / 12, 0x20000000 + k, 0x200 + crossingMoon k)) ++
  (if g 4 then f.channels.map (fun k => (4, 0x30000000 + k, 0x300 + k)) ++
    f.memMoons.map (fun q => (4, 0x30000040 + q, 0x340 + q)) else []) ++
  (if g 5 then f.lanes.map (fun l => (5, 0x50000000 + l, 0x500 + l / 5)) ++
    f.linkMoons.map (fun q => (5, 0x50000060 + q, 0x540 + q)) else []) ++
  (if g 6 then f.seams.map (fun k => (6, 0x20000000 + k, 0x240 + k / 16)) else []) ++
  (if g 7 then f.dma.map (fun c => (7, 0x60000000 + c, 0x600 + c)) ++
    (if f.store then [(7, 0x40000040, 0x440)] else []) else [])

/-- The findings of the groups selected. -/
def selectFind (f : Findings) (groups : BitVec 8) : Findings :=
  let g (i : Nat) := groups.getLsbD i
  { f with
    tiles := f.tiles.filter (fun t => g (t / 600)), crossings := f.crossings.filter (fun k => g (k / 12))
    channels := if g 4 then f.channels else [], memMoons := if g 4 then f.memMoons else []
    lanes := if g 5 then f.lanes else [], linkMoons := if g 5 then f.linkMoons else []
    seams := if g 6 then f.seams else [], dma := if g 7 then f.dma else [], store := g 7 && f.store
    faultLogic := g 7 && f.faultLogic }

/-- Each failing unit raises a DEGRADE with cause BIST_FAIL, its unit code in DETAIL; a failure of the fault logic's
shadow raises SEAL (R428). -/
def reportFind (f : Findings) (groups : BitVec 8) (d : Dev) : Dev :=
  let d := forEach (failUnits f groups) (fun u =>
    raiseDegrade u.2.2 2 0xFF u.2.1 (some (u.2.1 / 2 ^ 28, u.2.1 % 2 ^ 28, 0))) d
  if f.faultLogic && groups.getLsbD 7 then raise 3 0x730 2 0xFF 0 d else d

/-- CRATER_READ (R434). -/
def execCraterRead (m : Fin 64) : State → Host.Outcome State Fault Refusal := on <| command 0x0702 m fun pl d =>
  let a := lf pl 0 8
  if hostOk d a 768 then
    answer m stOk 0 (toLe 8 d.crater.seq.toNat ++ hashBytes (craterHash d))
      (hostWr a (craterBytes d.crater.force ++ craterBytes d.crater.pend) d)
  else answer m stIntegrity 0 [] d

/-! ### Self-test -/

/-- The groups a FULL run may take in the life-cycle state (Table 16.5, R427). -/
def fullAllowed (d : Dev) : BitVec 8 :=
  match d.otp.lc.toNat with
  | 0 | 3 => 0xFF
  | 2 => d.sec.bistScope.getD 0
  | _ => 0

/-- BIST_RUN (R427): checked in order, then ACCEPTED until BIST_RUN_END. Tile moons run at step 3 during BIST. -/
def execBistRun (m : Fin 64) : State → Host.Outcome State Fault Refusal := on <| command 0x0701 m fun pl d =>
  let groups := BitVec.ofNat 8 (lf pl 0 1)
  let depth := lf pl 1 1
  let flags := lf pl 2 1
  let full := depth = 1
  if groups = 0 || 1 < depth || 1 < flags || lf pl 3 1 ≠ 0 then answer m stBadArg 0 [] d
  else if !d.parts.isEmpty || d.glb.install then answer m stNotReady 0 [] d
  else if (full && groups &&& ~~~ (fullAllowed d) ≠ 0) || d.otp.lc = 4#3 then answer m stDenied 0 [] d
  else if flags = 1 && d.otp.lc ≠ 0#3 && d.otp.lc ≠ 3#3 then answer m stDenied 0 [] d
  else if d.bist.isSome then answer m stBusy 0 [] d
  else
    beginCmd m { d with
      bist := some ⟨m.val, groups, full, flags = 1⟩
      sec := if full && d.otp.lc = 2#3 then { d.sec with bistScope := none } else d.sec
      clk := { d.clk with step := 3#3 }
      pwr := { d.pwr with vcore := stepMv 3 } }

/-- The unit codes of a group's test units (Table 17.7, R428). -/
def groupUnits (g : Nat) : List Nat :=
  match g with
  | 4 => (List.range 48).map (0x30000000 + ·) ++ (List.range 4).map (0x30000040 + ·)
  | 5 => (List.range 160).map (0x50000000 + ·) ++ (List.range 4).map (0x50000060 + ·)
  | 6 => (List.range 64).map (0x20000000 + ·)
  | 7 => (List.range 32).map (0x60000000 + ·) ++ [0x40000040, 0x70000030]
  | q => (List.range 600).map (0x10000000 + 600 * q + ·) ++ (List.range 12).map (0x20000000 + 12 * q + ·)

/-- EXPECTED of a group (R428): the XOR of its units' expected signatures. -/
def groupExpected (g : Nat) (full : Bool) : BitVec 64 := (groupUnits g).foldl (fun a u => a ^^^ Config.bistExpected g u full) 0

/-- How a failing unit's signature differs from the expected one: in some bit. -/
def unitDiffers (g u n : Nat) : BitVec 64 := if Config.bistFound g u n = 0 then 1 else Config.bistFound g u n

/-- A group record of BIST_RUN's reply (R427): SIGNATURE is the XOR of its units' signatures (R428). -/
def groupRecord (d : Dev) (r : BistRun) (us : List (Nat × Nat × Nat)) (g : Nat) : List Byte :=
  if !r.groups.getLsbD g then toLe 1 stNotReady ++ List.replicate 23 0 else
  let mine := us.filter (fun u => u.1 = g)
  let exp := groupExpected g r.full
  toLe 1 (if mine.isEmpty then stOk else stIntegrity) ++ toLe 1 0 ++ toLe 2 mine.length ++
    toLe 4 ((mine.head?.map (·.2.1)).getD 0) ++
    toLe 8 (mine.foldl (fun a u => a ^^^ unitDiffers g u.2.1 d.free) exp).toNat ++ toLe 8 exp.toNat

/-- BIST_RUN_END (R427 to R429, R431): the findings are merged into the map in force with the pending map, a new slot is
written and the reply is given. -/
def execBistRunEnd (find : Findings) : State → Host.Outcome State Fault Refusal := on <| whenMp fun d =>
  match d.bist with
  | none => d
  | some r =>
    let d := reportFind find r.groups d
    if d.flt.sealed then { d with bist := none } else
    let f := selectFind find r.groups
    let c := d.crater
    let old := orMap c.force c.pend
    let fm := findMap f
    let force := orMap (if r.rebuild then keepBits old r.groups else old) fm
    let crossings := unionNat (if r.rebuild then c.crossings.filter (fun k => !r.groups.getLsbD (k / 12))
      else c.crossings) f.crossings
    let force := { force with blocks := deriveBlocks force crossings }
    let confirm := r.full && r.groups = 0xFF
    let d2 := { d with
      crater := { c with force := force, pend := {}, crossings := crossings
                         unconfirmed := c.unconfirmed && !confirm, changes := [] }
      bist := none, gddr := if r.full && r.groups.getLsbD 4 then [] else d.gddr }
    let us := failUnits find r.groups
    let reply := toLe 1 r.groups.toNat ++ toLe 1 (b2n (force ≠ c.force)) ++ List.replicate 6 0 ++
      (List.range 8).flatMap (groupRecord d r us)
    let d2 := settleStep false (writeSlot { d2 with free := d2.free + 1 })
    if (getMbx d2 r.mbx).begun then answer r.mbx stOk 0 reply d2 else d2

end Sys2Proof.Machine
end

