-- ==== Sys2Proof/Machine/Power.lean ====
section
/-!
DEFINITION. Power and temperature in service (R438, R443 to R446), the sideband's vendor-defined and MCTP control
commands (R388, R389), and the host link's own events (R370 to R376, R449).
-/

namespace Sys2Proof.Machine

open Sys2Proof

/-- The MP, if it runs, brings the tile step to where R445 puts it, as a throttle. -/
def throttle (d : Dev) : Dev := if mpUp d then settleStep true d else d

/-- Lower a ceiling by one step, where it is above 0. -/
def lower3 (c : BitVec 3) : BitVec 3 := if c = 0 then 0 else c - 1

/-! ### Input power -/

/-- A measurement over the limit (R443): the tenth in a row lowers the power ceiling by one step and raises POWER_OVER;
at step 0 a limit that cannot be met raises the fault of R389. Nothing is counted during a step change. -/
def powerOver (d : Dev) : Dev :=
  let p := d.pwr
  let p := { p with exceeded := p.exceeded ||| BitVec.ofNat 8 (2 ^ d.clk.step.toNat), belowAt := none }
  if d.clk.busy then { d with pwr := p }
  else if p.overRun + 1 < 10 then { d with pwr := { p with overRun := p.overRun + 1 } }
  else if d.clk.step = 0 then
    let d := { d with pwr := { p with overRun := 0, limitFault := true } }
    if p.limitFault then d else raise 1 0x700 0x0704 0xFF p.limit.toNat d
  else throttle (raise 0 0x900 0x0902 0xFF 0 { d with pwr := { p with overRun := 0, powerCeil := lower3 p.powerCeil } })

/-- What a measurement of the input power brings (R438, R443): the mean over 100 us, in mV, 10 mA, W and A of VCORE. -/
def measured (mv ca watts core : BitVec 16) (d : Dev) : Dev :=
  let d := { d with pwr := { d.pwr with measAt := d.clk.wall, pwrIn := core ++ watts ++ ca ++ mv } }
  let d := if d.pwr.rangeActive && decide (2000 < watts.toNat) && !d.clk.busy then
      throttle { d with pwr := { d.pwr with rangeCeil := lower3 d.pwr.rangeCeil } }
    else d
  if d.pwr.limit.toNat < watts.toNat then powerOver d
  else
    let below := watts.toNat * 10 < d.pwr.limit.toNat * 9
    { d with pwr := { d.pwr with
      overRun := 0, belowAt := if below then some (d.pwr.belowAt.getD d.clk.wall) else none } }

/-- POWER_MEASUREMENT (R443): every 100 us. -/
def execPowerMeasurement (mv ca watts core : BitVec 16) : State → Host.Outcome State Fault Refusal :=
  on <| whenAwake fun d => whenDue (d.pwr.measAt + usG 100) (measured mv ca watts core) d

/-- POWER_CEILING_RAISE (R443): after 100 ms below 90% of the limit, unless the next step has exceeded the limit. -/
def execPowerCeilingRaise : State → Host.Outcome State Fault Refusal := on <| whenMp fun d =>
  match d.pwr.belowAt with
  | none => d
  | some t =>
    whenDue (t + msG 100) (fun d =>
      let d := { d with pwr := { d.pwr with belowAt := some d.clk.wall } }
      if d.pwr.powerCeil = 7 || d.pwr.exceeded.getLsbD (d.pwr.powerCeil.toNat + 1) then d
      else throttle { d with pwr := { d.pwr with powerCeil := d.pwr.powerCeil + 1 } }) d

/-- INPUT_RANGE (R438): the input outside 40.0 to 60.0 V for 1 ms raises the fault and lowers the step until the input
power falls to 2,000 W; an input back in the range ends the ceiling. -/
def execInputRange (out : Bool) : State → Host.Outcome State Fault Refusal := on <| whenAwake fun d =>
  if out then
    throttle (raise 1 0x900 0x0901 0xFF 0 { d with pwr := { d.pwr with
      rangeActive := true
      rangeCeil := if 2000 < fld d.pwr.pwrIn.toNat 32 16 then lower3 d.clk.step else d.clk.step } })
  else throttle { d with pwr := { d.pwr with rangeActive := false, rangeCeil := 7 } }

/-! ### Temperatures -/

/-- Thresholds of a reading (Table 18.4): lowering above, raising below, trip above. -/
def hotT (k : Nat) : Nat := if k = 5 then 95 else 100
def coolT (k : Nat) : Nat := if k = 5 then 90 else 95
def tripT (k : Nat) : Nat := if k = 5 then 105 else 115

/-- The channel whose device read hottest last (R187), and that reading. -/
def hottest (d : Dev) : Nat × Nat :=
  d.chans.foldl (fun (a : Nat × Nat) e => if a.2 < e.2.temp.toNat then (e.1, e.2.temp.toNat) else a) (0, 0)

/-- The source of a temperature event (R411, R444): a sensor, or the memory channel of the hottest device. -/
def thermSrc (d : Dev) (k : Nat) : Nat := if k = 5 then 0x300 + (hottest d).1 else 0x910 + k

/-- One reading against Table 18.4: a trip raises SEAL; each 10 ms above lowers the ceiling by one step. -/
def thermCheck (k : Nat) (d : Dev) : Dev :=
  let t := fld d.pwr.temps.toNat (8 * k) 8
  if tripT k < t then raise 3 (thermSrc d k) 0x090A 0xFF t d
  else if hotT k < t then
    match tget d.pwr.hotAt k with
    | none => { d with pwr := { d.pwr with hotAt := tput d.pwr.hotAt k d.clk.wall } }
    | some w =>
      if d.clk.wall < w + msG 10 then d
      else throttle (raise 0 (thermSrc d k) 0x0909 0xFF t { d with pwr := { d.pwr with
        hotAt := tput d.pwr.hotAt k d.clk.wall, thermCeil := lower3 d.pwr.thermCeil } })
  else { d with pwr := { d.pwr with hotAt := tdel d.pwr.hotAt k } }

/-- Each 100 ms with every reading below its raising threshold raises the ceiling by one step (Table 18.4). -/
def thermCool (d : Dev) : Dev :=
  if (List.range 6).all (fun k => fld d.pwr.temps.toNat (8 * k) 8 < coolT k) then
    match d.pwr.coolAt with
    | none => { d with pwr := { d.pwr with coolAt := some d.clk.wall } }
    | some w =>
      if d.clk.wall < w + msG 100 then d
      else throttle { d with pwr := { d.pwr with
        coolAt := some d.clk.wall, thermCeil := if d.pwr.thermCeil = 7 then 7 else d.pwr.thermCeil + 1 } }
  else { d with pwr := { d.pwr with coolAt := none } }

/-- What a reading of the temperature sensors brings (R444): of those that could be read; byte 5 is the hottest GDDR7 device's last
reading (Table 18.9). A sensor that reads again ends its SENSOR_FAIL ceiling. -/
def thermRead (t : BitVec 40) (ok : BitVec 5) (d : Dev) : Dev :=
  let read (k : Nat) : Bool := k = 5 || ok.getLsbD k
  let v := (List.range 5).foldl (fun a k =>
    a + (if read k then fld t.toNat (8 * k) 8 else fld d.pwr.temps.toNat (8 * k) 8) * 2 ^ (8 * k)) ((hottest d).2 * 2 ^ 40)
  let d := { d with pwr := { d.pwr with
    temps := BitVec.ofNat 64 v, thermAt := d.clk.wall, sensorBad := d.pwr.sensorBad.filter (fun s => !ok.getLsbD s) } }
  let d := throttle (forEach ((List.range 6).filter read) thermCheck d)
  if d.flt.sealed then d else thermCool d

/-- THERMAL_READ (R444): every 1 ms. -/
def execThermalRead (t : BitVec 40) (ok : BitVec 5) : State → Host.Outcome State Fault Refusal :=
  on <| whenMp fun d => whenDue (d.pwr.thermAt + msG 1) (thermRead t ok) d

/-- SENSOR_FAIL (R444): a sensor unreadable for 10 ms; its ceiling is held at step 4. -/
def execSensorFail (s : Fin 5) : State → Host.Outcome State Fault Refusal := on <| whenMp fun d =>
  throttle (raise 1 (0x910 + s) 0x0908 0xFF 0 { d with pwr := { d.pwr with sensorBad := insertNat d.pwr.sensorBad s } })

/-! ### VCORE (Table 18.5) -/

/-- VCORE_UV (R446): a HALT in every running partition. -/
def execVcoreUv : State → Host.Outcome State Fault Refusal := on (whenAwake (raise 2 0x901 0x0904 0xFF 0))

/-- VCORE_OV (R446): SEAL. -/
def execVcoreOv : State → Host.Outcome State Fault Refusal := on (whenAwake (raise 3 0x901 0x0905 0xFF 0))

/-- VCORE_OCP (R446): SEAL. -/
def execVcoreOcp : State → Host.Outcome State Fault Refusal := on (whenAwake (raise 3 0x901 0x0906 0xFF 0))

/-- PHASE_FAIL (R446): the stage runs on the other phases, and the ceiling falls to step 5. -/
def execPhaseFail : State → Host.Outcome State Fault Refusal := on <| whenAwake fun d =>
  throttle (raise 1 0x901 0x0907 0xFF 0 { d with pwr := { d.pwr with phaseActive := true, phases := d.pwr.phases - 1 } })

/-! ### Sideband -/

/-- A response that is no vendor-defined message; none where the list is empty. -/
def respond (l : List Byte) (d : Dev) : Dev := { d with out := { d.out with resp := l, vendor := none } }

/-- The last response was a vendor-defined MCTP message, which carries TKW_VID in its vendor field (R11, R388). -/
def fromVendor (d : Dev) : Dev := { d with out := { d.out with vendor := some Config.vendor } }

/-- Answer on the sideband (R388): nothing while the endpoint does not acknowledge, BUSY while SHED is set (R389). -/
def sideband (f : Dev → Dev) (d : Dev) : Dev :=
  if !mpUp d then respond [] d
  else fromVendor (if d.glb.shed then respond (toLe 1 stBusy) d else f d)

/-- The 16 bytes of the identity register (Table 0.2). -/
def identBytes (d : Dev) : List Byte :=
  toLe 4 0x01429216 ++ toLe 4 d.ident.fw.toNat ++ toLe 4 d.ident.ldr.toNat ++ toLe 4 0x00C03030

/-- IDENT_READ (Table 15.13). -/
def execIdentRead : State → Host.Outcome State Fault Refusal :=
  on (sideband fun d => respond (toLe 1 stOk ++ identBytes d) d)

/-- SENSOR_READ (Table 15.13). -/
def execSensorRead : State → Host.Outcome State Fault Refusal := on <| sideband fun d =>
  let t (k : Nat) : Nat := fld d.pwr.temps.toNat (8 * k) 8
  respond (toLe 1 stOk ++ toLe 6 d.pwr.pwrIn.toNat ++ toLe 1 (max (max (max (t 0) (t 1)) (max (t 2) (t 3))) (t 4)) ++
    toLe 1 (t 5)) d

/-- POWER_LIMIT (R389, R443): 500 to 2,800 W replaces the limit in force. -/
def execPowerLimit (watts : BitVec 16) : State → Host.Outcome State Fault Refusal := on <| sideband fun d =>
  if watts.toNat < 500 || 2800 < watts.toNat then respond (toLe 1 stBadArg) d
  else respond (toLe 1 stOk) { d with pwr := { d.pwr with
    limit := BitVec.ofNat 12 watts.toNat, overRun := 0, belowAt := none, exceeded := 0, limitFault := false } }

/-- FAULT_SUMMARY (Table 15.13): class, source and MT of the last HALT or SEAL. -/
def execFaultSummary : State → Host.Outcome State Fault Refusal := on <| sideband fun d =>
  let v := d.flt.last.getD (0, 0, 0)
  respond (toLe 1 stOk ++ toLe 1 v.1.toNat ++ toLe 2 v.2.1.toNat ++ toLe 8 v.2.2.toNat) d

/-- QUIESCE (R389): every RUNNING partition stops; OK once no journaled store operation is left unreplayed. -/
def execQuiesce : State → Host.Outcome State Fault Refusal := on <| sideband fun d =>
  let d := forEach d.parts (fun e d => leaveRunning e.1 d) d
  respond (toLe 1 (if d.pwr.startStatus.getLsbD 16 then stOk else stNotReady)) d

/-- Answer an MCTP control command (R388): nothing while the endpoint does not acknowledge its address. -/
def mctp (f : Dev → Dev) (d : Dev) : Dev := if mpUp d then f d else respond [] d

/-- SET_ENDPOINT_ID (R388). EIDs 0x00 and 0xFF are no endpoint's (MCTP). -/
def execSetEndpointId (eid : BitVec 8) : State → Host.Outcome State Fault Refusal := on <| mctp fun d =>
  if eid = 0 || eid = 0xFF then respond [1, 2] d
  else respond [1, 0, 0, eid, 0] { d with sec := { d.sec with eid := eid } }

/-- GET_ENDPOINT_ID (R388). -/
def execGetEndpointId : State → Host.Outcome State Fault Refusal := on (mctp fun d => respond [2, 0, d.sec.eid, 0, 0] d)

/-- GET_MCTP_VERSION_SUPPORT (R388): the version numbers are the standard's, which the spec does not repeat. -/
def execGetMctpVersionSupport (ty : BitVec 8) : State → Host.Outcome State Fault Refusal := on <| mctp fun d =>
  if ty = 0 || ty = 5 || ty = 0x7E || ty = 0xFF then
    respond ([4, 0] ++ Config.response 4 ty.toNat) d
  else respond [4, 0x80] d

/-- GET_MESSAGE_TYPE_SUPPORT (R388): control, SPDM and vendor-defined PCI. -/
def execGetMessageTypeSupport : State → Host.Outcome State Fault Refusal :=
  on (mctp fun d => respond [5, 0, 3, 0x00, 0x05, 0x7E] d)

/-! ### The host link -/

/-- SNOOP (R373): every snoop is answered as a miss. -/
def execSnoop : State → Host.Outcome State Fault Refusal :=
  on (whenAwake fun d => { d with out := { d.out with miss := true } })

/-- BIAS_FLIP (R376): refused. -/
def execBiasFlip : State → Host.Outcome State Fault Refusal :=
  on (whenAwake fun d => { d with out := { d.out with refused := true } })

/-- Codes of the widths x4, x8 and x16, and of the rates 8, 16 and 32 GT/s (Tables 15.1, 15.4). -/
def linkWidth (w : BitVec 3) : Bool := w = 2 || w = 3 || w = 4
def linkRate (r : BitVec 3) : Bool := r = 1 || r = 2 || r = 3

/-- HOST_LINK_TRAINED (R370, R372): the width and rate are reported; below x16 or 32 GT/s raises LINK_REDUCED and vector 1. The link
trains at no width and rate but those of Table 15.1. -/
def execHostLinkTrained (cxl : Bool) (width rate : BitVec 3) : State → Host.Outcome State Fault Refusal :=
  on <| whenAwake fun d =>
    if !linkWidth width || !linkRate rate then d else
    let d := { d with glb := { d.glb with cxl := cxl, width := width, rate := rate } }
    if width = 4 && rate = 3 then d else raiseVec 1 (raise 0 0x720 0x0702 0xFF 0 d)

/-- PERST_N, a CXL hot reset or a link-down (R449): the host interface alone resets. -/
def execPerstN : State → Host.Outcome State Fault Refusal := on fun d =>
  if !d.pwr.inputOn || d.pwr.resetHeld then d else
  { d with
    glb := { d.glb with cxl := false, width := 0, rate := 0 }
    cfg := {}, msix := [], sec := { d.sec with sessions := [], ide := [], spdm := 0 }
    pwr := { d.pwr with hostResets := satAdd d.pwr.hostResets 1 } }

/-- HEARTBEAT_INCREMENT (Table 15.3): every 1 ms while the MP runs. -/
def execHeartbeatIncrement (busy : BitVec 10) : State → Host.Outcome State Fault Refusal := on <| whenMp fun d =>
  let at_ := d.glb.beatAt + msG 1
  whenDue at_ (fun d => { d with glb := { d.glb with heartbeat := d.glb.heartbeat + 1, mpBusy := busy, beatAt := at_ } }) d

/-- BAR0_ERR_READ (R375): a read that is no aligned 32-bit or 64-bit access returns all ones and counts. -/
def execBar0ErrRead (off : BitVec 26) (bytes : Nat) : State → Host.Outcome State Fault Refusal := on fun d =>
  if !d.pwr.inputOn || d.pwr.resetHeld || !ioSecure d || ((bytes = 4 || bytes = 8) && off.toNat % bytes = 0) then d
  else { d with out := { d.out with data := 0xFFFFFFFFFFFFFFFF#64 }
                glb := { d.glb with bar0Err := satAdd d.glb.bar0Err 1 } }

end Sys2Proof.Machine
end

