-- ==== Sys2Proof/Machine/Store.lean ====
section
/-!
DEFINITION. The weight store (R204 to R212), images and manifests (R213 to R215), tokens' checks (R401, R402) and the
installation commands (Table 15.10, 0x0301 to 0x0306), with DIR_READ (R386).
-/

namespace Sys2Proof.Machine

open Sys2Proof

/-! ### Journal and blocks -/

/-- STORE_READY (R451). -/
def storeReady (d : Dev) : Bool := d.pwr.startStatus.getLsbD 16

def getImg (d : Dev) (slot : Nat) : Option ImgSlot := tget d.store.imgs slot
def setImg (slot : Nat) (i : ImgSlot) (d : Dev) : Dev := { d with store := { d.store with imgs := tput d.store.imgs slot i } }

/-- A journal record as its 32 bytes, CRC-32C included (Table 8.3). -/
def jrnBytes (r : JrnRec) : List Byte :=
  let b := toLe 8 r.seq ++ toLe 4 r.sblk ++ toLe 2 r.image ++ toLe 1 r.kind ++ toLe 1 0 ++ toLe 4 r.index ++ List.replicate 8 0
  b ++ toLe 4 (crc32c b).toNat

/-- The record that 32 bytes hold, where their CRC-32C matches (R209). -/
def jrnRead (b : List Byte) : Option JrnRec :=
  if crc32c (sl b 0 28) = BitVec.ofNat 32 (lf b 28 4) then some ⟨lf b 0 8, lf b 8 4, lf b 12 2, lf b 14 1, lf b 16 4⟩ else none

/-- Record n of the journal: valid in either copy (R209). -/
def jrnAt (s : Store) (n : Nat) : Option JrnRec :=
  match (s.jrnA[n]?).bind jrnRead with
  | some r => some r
  | none => (s.jrnB[n]?).bind jrnRead

/-- The valid records of the journal, in ascending SEQ order; one with a bad CRC in both copies is absent (R209, Table 8.4). -/
def validRecs (s : Store) : List JrnRec := (List.range (max s.jrnA.length s.jrnB.length)).filterMap (jrnAt s)

/-- The SEQ of the next record (R209). -/
def nextSeq (s : Store) : Nat := (((validRecs s).getLast?).map (·.seq)).getD 0 + 1

/-- Write a record to copy A of the journal. -/
def writeJrnA (r : JrnRec) (d : Dev) : Dev := { d with store := { d.store with jrnA := d.store.jrnA ++ [jrnBytes r] } }

/-- Write a record to copy B of the journal. -/
def writeJrnB (r : JrnRec) (d : Dev) : Dev := { d with store := { d.store with jrnB := d.store.jrnB ++ [jrnBytes r] } }

/-- Write a journal record with the next SEQ, copy A before copy B (R209). -/
def journal (kind slot sblk index : Nat) (d : Dev) : Dev :=
  let r : JrnRec := ⟨nextSeq d.store, sblk, slot, kind, index⟩
  writeJrnB r (writeJrnA r d)

/-- Write 0 to a store block: an erase. -/
def eraseBlock (b : Nat) (d : Dev) : Dev :=
  let other (l : List Nat) : List Nat := l.filter (fun c => c / 16384 != b)
  { d with store := { d.store with bytes := zeroBs d.store.bytes (b * 2 ^ 26) (2 ^ 26)
                                   uncorr := other d.store.uncorr, soft := other d.store.soft } }

/-- Store blocks that hold image data. -/
def usedBlocks (d : Dev) : List Nat := d.store.imgs.flatMap (fun e => e.2.blocks.map (·.2))

/-- The first number from n on that a list does not hold. -/
def firstFree (l : List Nat) : Nat → Nat → Nat
  | 0, n => n
  | fuel + 1, n => if l.contains n then firstFree l fuel (n + 1) else n

/-- The next free store block (R204, R206). -/
def freeBlock (d : Dev) : Option Nat :=
  let used := usedBlocks d ++ d.store.retired
  let b := firstFree used (used.length + 1) 8
  if b < 29802 then some b else none

/-- The lowest position of an image without a written block. -/
def firstUnwritten (i : ImgSlot) : Nat := firstFree (i.blocks.map (·.1)) (i.blocks.length + 1) 0

/-- Erase every block of an image and free its slot, writing IMAGE_DELETED and a BLOCK_ERASED for each (R212). -/
def deleteImage (slot : Nat) (d : Dev) : Dev :=
  match getImg d slot with
  | none => d
  | some i =>
    let d := journal 0x05 slot 0 0 d
    let d := forEach i.blocks (fun e d => journal 0x07 slot e.2 e.1 (eraseBlock e.2 d)) d
    { d with store := { d.store with imgs := tdel d.store.imgs slot } }

/-! ### Reading an image -/

/-- n bytes of the store from a byte address; none where a codeword is uncorrectable (R206). -/
def storeRd (d : Dev) (a n : Nat) : Option (List Byte) :=
  if d.store.uncorr.any (fun c => decide (c * 4096 < a + n) && decide (a < c * 4096 + 4096)) then none
  else some (rdBs d.store.bytes a n)

/-- The store channel on which a byte of the store lies: within a store block, consecutive units of 64 KiB lie on SCH[0] to SCH[23]
in rotation (R204). -/
def schOf (a : Nat) : Nat := a % 2 ^ 26 / 65536 % 24

/-- Corrections are counted on their store channels, and raise one NOTE for each millisecond in which some occurred (R206). -/
def countSoft (cs : List Nat) (d : Dev) : Dev :=
  if cs.isEmpty then d
  else
    let ms := d.clk.wall / msG 1
    let n := cs.foldl (fun t c => tput t (schOf (c * 4096)) ((tget t (schOf (c * 4096))).getD 0 + 1)) d.store.corrected
    let e := { d with store := { d.store with corrected := n, corrMs := some ms } }
    if d.store.corrMs = some ms then e else raise 0 0x440 0x0401 0xFF 0 e

/-- n bytes of the store from a byte address have been read: what ECC corrected in them (R206). -/
def storeNote (a n : Nat) (d : Dev) : Dev :=
  countSoft (d.store.soft.filter (fun c => decide (c * 4096 < a + n) && decide (a < c * 4096 + 4096))) d

/-- Parts of an image range, position by position (R213): store address and length. -/
def imgParts (i : ImgSlot) : Nat → Nat → Nat → Option (List (Nat × Nat))
  | 0, _, _ => some []
  | fuel + 1, off, n =>
    if n = 0 then some [] else
    match tget i.blocks (off / 2 ^ 26) with
    | none => none
    | some b =>
      let k := min n (2 ^ 26 - off % 2 ^ 26)
      (imgParts i fuel (off + k) (n - k)).map (fun r => (b * 2 ^ 26 + off % 2 ^ 26, k) :: r)

/-- n bytes at an offset of an image. -/
def imgRd (d : Dev) (i : ImgSlot) (off n : Nat) : Option (List Byte) :=
  match imgParts i (n / 2 ^ 26 + 2) off n with
  | none => none
  | some ps => ps.foldr (fun p a => match storeRd d p.1 p.2, a with
    | some x, some y => some (x ++ y)
    | _, _ => none) (some [])

/-- A range of an image has been read (R206). -/
def imgNote (i : ImgSlot) (off n : Nat) : Dev → Dev :=
  forEach ((imgParts i (n / 2 ^ 26 + 2) off n).getD []) (fun p => storeNote p.1 p.2)

/-- Store unit (64 KiB) that holds an offset of an image. -/
def imgUnit (i : ImgSlot) (off : Nat) : Option Nat :=
  (tget i.blocks (off / 2 ^ 26)).map (fun b => b * 1024 + off % 2 ^ 26 / 65536)

/-- A store unit lies inside a committed image (R239). -/
def unitCommitted (d : Dev) (u : Nat) : Bool :=
  d.store.imgs.any (fun e => e.2.committed && e.2.blocks.any (fun b => b.2 = u / 1024))

/-! ### Manifests -/

/-- The enrolled model-signing key that SIGNER names (R391, Table 16.5). -/
def signerKey (d : Dev) (s : Nat) : Option PubKey :=
  match d.otp.lc.toNat with
  | 2 => if d.flash.macOk then tget d.flash.msk s else none
  | 4 => none
  | _ => if s = 0 then some d.rom.testKey else none

/-- Shard entries of a manifest (Table 8.6), with their ranks: `(rank, shard)`. -/
def shardEntries (man : List Byte) : Nat → Nat → List (Nat × Shard)
  | 0, _ => []
  | n + 1, k =>
    let e := sl man (256 + 64 * k) 64
    (lf e 12 2 % 16384,
      ⟨k, lf e 0 8, lf e 8 4, hashOf (sl e 16 48), 0, false, false, none⟩) :: shardEntries man n (k + 1)

/-- Round up to a multiple of 65,536. -/
def up64k (n : Nat) : Nat := (n + 65535) / 65536 * 65536

/-- Place the shards an image holds (R213): each begins at the first multiple of 65,536 at or after the one before. -/
def placeShards (lo hi : Nat) : Nat → List (Nat × Shard) → List (Nat × Shard)
  | _, [] => []
  | at_, (r, s) :: l =>
    if lo ≤ r && r ≤ hi then (r, { s with imgOff := up64k at_ }) :: placeShards lo hi (up64k at_ + s.len) l
    else (r, s) :: placeShards lo hi at_ l

/-- Two entries of one rank overlap (R215). -/
def overlaps : List (Nat × Shard) → Bool
  | [] => false
  | (r, s) :: l => l.any (fun e => e.1 = r && decide (s.off < e.2.off + e.2.len) && decide (e.2.off < s.off + s.len)) ||
      overlaps l

/-- The shard entries with their HASH fields 0 (R214). -/
def blankEntries (man : List Byte) : Nat → Nat → List Byte
  | 0, _ => []
  | n + 1, k => sl man (256 + 64 * k) 16 ++ List.replicate 48 0 ++ blankEntries man n (k + 1)

/-- Bytes of a manifest that are read to check it: all of it, or its first 256 where these show none (R215). -/
def manLen (rd : Nat → Nat → Option (List Byte)) : Nat :=
  match rd 0 256 with
  | none => 256
  | some h =>
    let n := lf h 0x14 4
    if lf h 0 4 ≠ 0x54464E4D || lf h 4 2 ≠ 1 || n = 0 || 1048576 < n then 256 else 352 + 64 * n

/-- Read and check a manifest (R213 to R215): the status of the first failing stage, or what it says. -/
def readManifest (d : Dev) (rd : Nat → Nat → Option (List Byte)) : Except Nat (ManInfo × List (Nat × Shard)) :=
  match rd 0 256 with
  | none => .error stIntegrity
  | some h =>
    let n := lf h 0x14 4
    if lf h 0 4 ≠ 0x54464E4D || lf h 4 2 ≠ 1 || n = 0 || 1048576 < n then .error stBadArg else
    match rd 0 (256 + 64 * n), rd (256 + 64 * n) 96 with
    | some man, some sig =>
      match signerKey d (lf h 7 1) with
      | none => .error stIntegrity
      | some key =>
        if !verifyBytes key man sig then .error stIntegrity else
        let es := shardEntries man n 0
        let lo := lf h 0x34 4
        let hi := lf h 0x38 4
        let bad := lf h 0x3C 4 ≠ 0 || !allZero (sl h 0x70 0x90) ||
          (List.range n).any (fun k => !allZero (sl man (256 + 64 * k + 14) 2) || lf man (256 + 64 * k + 12) 2 / 16384 ≠ 0)
        if bad || overlaps es || es.any (fun e => lf h 0x18 8 < e.2.off + e.2.len) || hi < lo || 1 < lf h 6 1 then
          .error stBadArg
        else
          .ok ({ kind := lf h 6 1, signer := lf h 7 1, modelId := BitVec.ofNat 64 (lf h 8 8)
                 version := BitVec.ofNat 32 (lf h 0x10 4), copyBytes := lf h 0x18 8
                 baseId := BitVec.ofNat 64 (lf h 0x28 8), baseVersion := BitVec.ofNat 32 (lf h 0x30 4)
                 rankLo := lo, rankHi := hi, profileHash := hashOf (sl h 0x40 48), hash := sha384 man
                 layoutHash := sha384 (sl h 0x18 8 ++ blankEntries man n 0) },
            placeShards lo hi (256 + 64 * n + 96) es)
    | _, _ => .error stIntegrity

/-! ### Tokens -/

/-- A square root modulo p, where there is one (p = 3 modulo 4). -/
def sqrtP (a : Nat) : Option Nat :=
  let y := powMod pP 384 a ((pP + 1) / 4) 1
  if y * y % pP = a % pP then some y else none

/-- The keys under which a signature verifies a hash: recovered from the signature, as the module holds hashes of keys
only (Table 16.1). -/
def recoverKeys (h r s : Nat) : List PubKey :=
  if r = 0 || r ≥ pN || s = 0 || s ≥ pN then [] else
  let xs := if r + pN < pP then [r, r + pN] else [r]
  xs.flatMap fun x =>
    match sqrtP ((x * x % pP * x + subP 0 (3 * x) + pB) % pP) with
    | none => []
    | some y => [y, (pP - y) % pP].filterMap fun y =>
      let ri := invMod pN r
      let o : Pt := ⟨1, 1, 0⟩
      let q := addPt (mulPt 384 (s * ri % pN) ⟨x, y, 1⟩ o) (mulPt 384 ((pN - h % pN) * ri % pN) ⟨pGx, pGy, 1⟩ o)
      if q.z = 0 then none else
      let zi := invMod pP q.z
      let z2 := zi * zi % pP
      some ⟨BitVec.ofNat 384 (q.x * z2 % pP), BitVec.ofNat 384 (q.y * (z2 * zi % pP) % pP)⟩

/-- A signature verifies over bytes under the key with this SHA-384. -/
def verifyUnder (keySha : Hash) (msg sig : List Byte) : Bool :=
  (recoverKeys (sha384 msg).toNat (beNat (sl sig 0 48)) (beNat (sl sig 48 48))).any (fun k => keyHash k = keySha)

/-- A token's payload and SCOPE are as Table 16.7 has them for its KIND. -/
def tokenFields (t : List Byte) : Bool :=
  let kind := lf t 6 1
  let pay := sl t 0x30 128
  let scopeOk := if kind = 3 then lf t 0x20 4 < 256 else lf t 0x20 4 = 0
  let payOk := match kind with
    | 4 => lf pay 0 1 < 4 && lf pay 1 1 < 2 && allZero (sl pay 2 30)
    | 5 => allZero (sl pay 0 32)
    | _ => allZero pay
  lf t 0 4 = 0x4E4B4F54 && lf t 4 2 = 1 && lf t 7 1 = 0 && allZero (sl t 0x24 12) && scopeOk && payOk

/-- KIND is accepted in a life-cycle state (Table 16.6). -/
def tokenState (kind lc : Nat) : Bool :=
  match kind with
  | 1 | 2 | 3 | 4 | 6 => lc = 2
  | 5 => lc = 1
  | 7 => lc = 1 || lc = 2
  | 8 => lc = 1 || lc = 2 || lc = 3
  | 9 => lc = 0
  | _ => false

/-- Every partition is EMPTY (R208). -/
def allEmpty (d : Dev) : Bool := d.parts.all (fun e => e.2.plan = .empty)

/-- The SHA-384 of the owner key in force. -/
def ownerHash (d : Dev) : Hash := ((d.otp.owner.bind (tget d.otp.owners)).getD 0)

/-- A token's signature verifies under the signer of Table 16.6. -/
def tokenSigned (d : Dev) (t : List Byte) : Bool :=
  let msg := sl t 0 0xB0
  let sig := sl t 0xB0 96
  let lc := d.otp.lc.toNat
  match lf t 6 1 with
  | 5 => verifyBytes (keyOf (sl t 0x50 96)) msg sig
  | 9 => verifyUnder d.rom.factory msg sig
  | 7 | 8 => verifyUnder (if lc = 2 then ownerHash d else d.rom.factory) msg sig
  | _ => d.otp.owner.isSome && verifyUnder (ownerHash d) msg sig

/-- The checks of Table 16.8, in order: status and reason of the first failure, and whether the nonce was checked. -/
def checkToken (d : Dev) (len : Nat) (install : Bool) (t : List Byte) : Option (Nat × Nat) × Bool :=
  let kind := lf t 6 1
  if len ≠ 272 || !tokenFields t then (some (stBadArg, 1), false)
  else if lf t 8 8 ≠ d.otp.serial.toNat then (some (stDenied, 2), false)
  else if d.sec.nonce ≠ some (BitVec.ofNat 128 (lf t 0x10 16)) then (some (stDenied, 3), true)
  else if !tokenState kind d.otp.lc.toNat || (install != (kind = 1 : Bool)) then (some (stDenied, 4), true)
  else if 5 ≤ kind && (!allEmpty d || d.glb.install) then (some (stNotReady, 6), true)
  else if kind = 5 && 8 ≤ d.otp.owners.length then (some (stNotReady, 6), true)
  else if !tokenSigned d t then (some (stIntegrity, 5), true)
  else (none, true)

/-! ### Installation commands -/

/-- INSTALL_OPEN (R207, R208, R402). -/
def execInstallOpen (m : Fin 64) : State → Host.Outcome State Fault Refusal := on <| command 0x0301 m fun pl d =>
  let open_ (d : Dev) : Dev := answer m stOk 0 [] { d with glb := { d.glb with install := true } }
  if d.otp.lc = 4#3 then answer m stDenied 0 [] d
  else if !storeReady d then answer m stNotReady 0 [] d
  else if !allEmpty d then answer m stNotReady 0 [] d
  else if d.otp.lc ≠ 2#3 then open_ d
  else if !hostOk d (lf pl 0 8) 272 then answer m stIntegrity 0 [] d
  else
    let t := hostRd d (lf pl 0 8) 272
    let c := checkToken d (lf pl 8 4) true t
    let d := if c.2 then { d with sec := { d.sec with nonce := none } } else d
    match c.1 with
    | some (st, r) => answer m st r [] d
    | none => open_ (forEach d.parts (fun e d => ephRec e.1 0x22 0xFFFF 0 (0x700 + 0x0703 * 2 ^ 14 + 2 ^ 30) d)
        (raise 0 0x700 0x0703 0xFF 1 d))

/-- What an installation command needs before its own checks: STORE_READY and open installation mode (R207, R451). -/
def installReady (m : Nat) (f : Dev → Dev) (d : Dev) : Dev :=
  if !storeReady d || !d.glb.install then answer m stNotReady 0 [] d else f d

/-- IMAGE_BEGIN (R212): starts an image, or continues an incomplete one from its first unwritten position. -/
def execImageBegin (m : Fin 64) : State → Host.Outcome State Fault Refusal := on <| command 0x0302 m fun pl =>
  installReady m fun d =>
    let slot := lf pl 0 1
    let n := lf pl 4 4
    if 63 < slot || n = 0 || 29794 < n then answer m stBadArg 0 [] d else
    match getImg d slot with
    | some i =>
      if i.committed then answer m stDenied 0 [] d
      else if i.positions ≠ n then answer m stBadArg 0 [] d
      else answer m stOk 0 (toLe 4 (firstUnwritten i)) d
    | none => answer m stOk 0 (toLe 4 0) (setImg slot ⟨n, [], false, none⟩ (journal 0x03 slot 0 n d))

/-- Program a position on the next free block, retiring blocks whose programming fails (R206, R210). -/
def programBlock (slot index : Nat) (bytes : List Byte) : Nat → Dev → Option Nat × Dev
  | 0, d => (none, d)
  | fuel + 1, d =>
    match freeBlock d with
    | none => (none, d)
    | some b =>
      let d := journal 0x01 slot b index d
      if d.store.failing.contains b then
        let d := journal 0x06 slot b index d
        programBlock slot index bytes fuel { d with store := { d.store with retired := insertNat d.store.retired b } }
      else
        let d := eraseBlock b d
        let d := { d with store := { d.store with bytes := wrBs d.store.bytes (b * 2 ^ 26) bytes } }
        (some b, journal 0x02 slot b index d)

/-- BLOCK_WRITE (R210). -/
def execBlockWrite (m : Fin 64) : State → Host.Outcome State Fault Refusal := on <| command 0x0303 m fun pl =>
  installReady m fun d =>
    let slot := lf pl 0 1
    let index := lf pl 4 4
    let len := lf pl 8 4
    match getImg d slot with
    | none => answer m stBadArg 0 [] d
    | some i =>
      if i.committed then answer m stDenied 0 [] d
      else if i.positions ≤ index || (tget i.blocks index).isSome || len = 0 || 2 ^ 26 < len then answer m stBadArg 0 [] d
      else if d.store.stopping then answer m stNotReady 0 [] d
      else if !hostOk d (lf pl 16 8) len then answer m stIntegrity 0 [] d
      else
        match programBlock slot index (hostRd d (lf pl 16 8) len) (d.store.failing.length + 1) d with
        | (none, d) => answer m stNotReady 0 [] d
        | (some b, d) => answer m stOk 0 (toLe 4 b) (setImg slot { i with blocks := tput i.blocks index b } d)

/-- The first shard that an image holds whose bytes do not match their entry (R211). -/
def badShard (d : Dev) (i : ImgSlot) (man : ManInfo) (es : List (Nat × Shard)) : Option Nat :=
  (es.find? (fun e => man.rankLo ≤ e.1 && e.1 ≤ man.rankHi &&
    (match imgRd d i e.2.imgOff e.2.len with
      | some b => sha384 b != e.2.hash
      | none => true))).map (·.2.idx)

/-- Shards that an image holds have been read back (R206, R211). -/
def shardNotes (i : ImgSlot) (man : ManInfo) (es : List (Nat × Shard)) : Dev → Dev :=
  forEach (es.filter (fun e => man.rankLo ≤ e.1 && e.1 ≤ man.rankHi)) (fun e => imgNote i e.2.imgOff e.2.len)

/-- IMAGE_COMMIT (R211): every check on data read back, then IMAGE_COMMITTED. -/
def execImageCommit (m : Fin 64) : State → Host.Outcome State Fault Refusal := on <| command 0x0304 m fun pl =>
  installReady m fun d =>
    let slot := lf pl 0 1
    let fail (k : Nat) (d : Dev) : Dev := answer m stIntegrity 0 (toLe 4 k) d
    match getImg d slot with
    | none => answer m stBadArg 0 (toLe 4 0xFFFFFFFF) d
    | some i =>
      if i.committed then answer m stDenied 0 (toLe 4 0xFFFFFFFF) d
      else if firstUnwritten i < i.positions then fail 0xFFFFFFFF d
      else
        let e := imgNote i 0 (manLen (imgRd d i)) d
        match readManifest d (imgRd d i) with
        | .error _ => fail 0xFFFFFFFF e
        | .ok (man, es) =>
          match badShard d i man es with
          | some k => fail k (shardNotes i man (es.filter (fun s => s.2.idx ≤ k)) e)
          | none => answer m stOk 0 (toLe 4 0xFFFFFFFF)
              (setImg slot { i with committed := true, man := some man } (journal 0x04 slot 0 0 (shardNotes i man es e)))

/-- IMAGE_DELETE (R212). -/
def execImageDelete (m : Fin 64) : State → Host.Outcome State Fault Refusal := on <| command 0x0305 m fun pl =>
  installReady m fun d =>
    let slot := lf pl 0 1
    if (getImg d slot).isNone then answer m stBadArg 0 [] d
    else if d.store.stopping then answer m stNotReady 0 [] d
    else answer m stOk 0 [] (deleteImage slot d)

/-- INSTALL_CLOSE (R208). -/
def execInstallClose (m : Fin 64) : State → Host.Outcome State Fault Refusal := on <| command 0x0306 m fun _ =>
  installReady m fun d => answer m stOk 0 [] { d with glb := { d.glb with install := false } }

/-! ### Journal replay -/

/-- One record's effect on the directory (Table 8.4). -/
def replayRec (imgs : Tab ImgSlot) (r : JrnRec) : Tab ImgSlot :=
  let mod (f : ImgSlot → ImgSlot) : Tab ImgSlot := match tget imgs r.image with
    | some i => tput imgs r.image (f i)
    | none => imgs
  match r.kind with
  | 0x02 => mod (fun i => { i with blocks := tput i.blocks r.index r.sblk })
  | 0x03 => tput imgs r.image ⟨r.index, [], false, none⟩
  | 0x04 => mod (fun i => { i with committed := true })
  | 0x05 => tdel imgs r.image
  | 0x07 => mod (fun i => { i with blocks := i.blocks.filter (fun b => b.2 != r.sblk) })
  | _ => imgs

/-- The last record that names a block. -/
def lastFor (l : List JrnRec) (b : Nat) : Option JrnRec :=
  (l.filter (fun r => r.sblk = b && r.kind ≠ 0x03 && r.kind ≠ 0x04 && r.kind ≠ 0x05)).getLast?

/-- Blocks that the replay erases (Table 8.4): programming cut short, or left by a deleted image. -/
def toErase (l : List JrnRec) (imgs : Tab ImgSlot) : List JrnRec :=
  (l.filterMap (fun r => if r.kind = 0x01 || r.kind = 0x02 then lastFor l r.sblk else none)).eraseDups.filter (fun r =>
    r.kind = 0x01 || (r.kind = 0x02 && !imgs.any (fun e => e.2.blocks.any (fun b => b.2 = r.sblk))))

/-- The manifest of a committed image, as its IMAGE_COMMIT checked it: its signature is not checked again. -/
def committedMan (d : Dev) (i : ImgSlot) : Option ManInfo :=
  match imgRd d i 0 256 with
  | none => none
  | some h =>
    let n := lf h 0x14 4
    (imgRd d i 0 (256 + 64 * n)).map (fun man =>
      { kind := lf h 6 1, signer := lf h 7 1, modelId := BitVec.ofNat 64 (lf h 8 8)
        version := BitVec.ofNat 32 (lf h 0x10 4), copyBytes := lf h 0x18 8
        baseId := BitVec.ofNat 64 (lf h 0x28 8), baseVersion := BitVec.ofNat 32 (lf h 0x30 4)
        rankLo := lf h 0x34 4, rankHi := lf h 0x38 4, profileHash := hashOf (sl h 0x40 48), hash := sha384 man
        layoutHash := sha384 (sl h 0x18 8 ++ blankEntries man n 0) })

/-- JOURNAL_REPLAY (R212): the journal is replayed and blocks are repaired; replay is repeatable. -/
def execJournalReplay : State → Host.Outcome State Fault Refusal := on <| whenAwake fun d =>
  if !d.glb.mpReady || d.store.replayed then d else
  let l := validRecs d.store
  let imgs := l.foldl replayRec []
  let d := { d with store := { d.store with
    imgs := imgs, retired := (l.filter (fun r => r.kind = 0x06)).foldl (fun a r => insertNat a r.sblk) [] } }
  let d := forEach (toErase l imgs) (fun r d => journal 0x07 r.image r.sblk r.index (eraseBlock r.sblk d)) d
  let imgs := d.store.imgs.map (fun e => (e.1, if e.2.committed then { e.2 with man := committedMan d e.2 } else e.2))
  let d := forEach (d.store.imgs.filter (·.2.committed)) (fun e d => imgNote e.2 0 (manLen (imgRd d e.2)) d) d
  { d with store := { d.store with imgs := imgs, replayed := true } }

/-- STORE_READY (R451): the replay has ended. -/
def execStoreReady : State → Host.Outcome State Fault Refusal := on <| whenAwake fun d =>
  if d.store.replayed then { d with pwr := { d.pwr with startStatus := d.pwr.startStatus ||| 0x10000#32 } } else d

/-! ### The directory -/

/-- A directory entry of 96 bytes (R386). -/
def dirEntry (d : Dev) (slot : Nat) : List Byte :=
  match getImg d slot with
  | none => toLe 1 slot ++ List.replicate 95 0
  | some i =>
    let g (f : ManInfo → Nat) : Nat := (i.man.map f).getD 0
    toLe 1 slot ++ toLe 1 (if i.committed then 2 else 1) ++ toLe 1 (g (·.kind)) ++ [0] ++ toLe 4 (g (·.version.toNat)) ++
      toLe 8 (g (·.modelId.toNat)) ++ toLe 4 (g (·.rankLo)) ++ toLe 4 (g (·.rankHi)) ++ toLe 4 i.blocks.length ++
      List.replicate 4 0 ++ hashBytes (if i.committed then (i.man.map (·.hash)).getD 0 else 0) ++ List.replicate 16 0

/-- DIR_READ (R386). -/
def execDirRead (m : Fin 64) : State → Host.Outcome State Fault Refusal := on <| command 0x0106 m fun pl d =>
  if !storeReady d then answer m stNotReady 0 [] d
  else if !hostOk d (lf pl 0 8) 6144 then answer m stIntegrity 0 [] d
  else answer m stOk 0 (toLe 1 (d.store.imgs.filter (fun e => e.2.committed)).length)
    (hostWr (lf pl 0 8) ((List.range 64).flatMap (dirEntry d)) d)

end Sys2Proof.Machine
end

