-- ==== Sys2Proof/Machine/Security.lean ====
section
/-!
DEFINITION. Tokens and the life cycle (R399 to R403), attestation over SPDM (R404, R405), IDE (R406, R407), DOE
discovery (R370) and the IEEE 1149.1 port (R457). Codes and field positions of SPDM and DOE messages are their
standards' (R13); contents the spec gives are the model's own state.
-/

namespace Sys2Proof.Machine

open Sys2Proof

/-! ### Life-cycle transitions -/

/-- Every store image is erased (Table 16.6): the directory is taken from the journal where no replay has run. -/
def eraseImages (d : Dev) : Dev :=
  let d := if d.store.replayed then d
    else { d with store := { d.store with imgs := (validRecs d.store).foldl replayRec [] } }
  forEach d.store.imgs (fun e d => deleteImage e.1 d) d

/-- The erasures of a transition to a life-cycle state (Table 16.6, R399): PROVISIONED is reached from FIELD by OWNER_RELEASE,
which erases, and from BLANK by PROVISION, which does not. -/
def lcErase (target : BitVec 3) (d : Dev) : Dev :=
  let noOwner (d : Dev) : Dev := { d with otp := { d.otp with owner := none }, flash := { d.flash with msk := [] } }
  match target.toNat with
  | 4 => { d with
      store := { d.store with bytes := [], jrnA := [], jrnB := [], imgs := [], uncorr := [], soft := [] }
      flash := { d.flash with msk := [], cert := [] }
      otp := { d.otp with owner := none, seed := BitVec.allOnes 384 } }
  | 3 => eraseImages (noOwner d)
  | 1 => if d.otp.lc = 2#3 then eraseImages (noOwner d) else d
  | _ => d

/-- Burn PENDING, perform the erasures, burn the target state (R399). -/
def lcMove (target : BitVec 3) (d : Dev) : Dev :=
  let d := lcErase target { d with otp := { d.otp with pending := some target } }
  { d with otp := { d.otp with lc := target, pending := none } }

/-- The effect of an accepted token (Table 16.6). -/
def applyToken (host : Nat) (t : List Byte) (d : Dev) : Dev :=
  match lf t 6 1 with
  | 2 => { d with sec := { d.sec with diag := true } }
  | 3 => { d with sec := { d.sec with bistScope := some (BitVec.ofNat 8 (lf t 0x20 1)) } }
  | 4 =>
    let old := if d.flash.macOk then d.flash.msk else []
    let k := lf t 0x30 1
    { d with flash := { d.flash with
      macOk := true, msk := if lf t 0x31 1 = 0 then tput old k (keyOf (sl t 0x50 96)) else tdel old k } }
  | 5 =>
    let k := d.otp.owners.length
    lcMove 2 { d with otp := { d.otp with
      owners := tput d.otp.owners k (keyHash (keyOf (sl t 0x50 96))), owner := some k } }
  | 6 => lcMove 1 d
  | 7 => lcMove 3 d
  | 8 => lcMove 4 d
  | 9 => lcMove 1 { d with
      otp := { d.otp with seed := Config.newSeed d.free }, free := d.free + 1
      flash := { d.flash with cert := hostRd d (host + 272) 4096 } }
  | _ => d

/-- TOKEN_APPLY (R402): a fresh nonce, or a token checked in the order of Table 16.8 and applied. -/
def execTokenApply (m : Fin 64) : State → Host.Outcome State Fault Refusal := on <| command 0x0705 m fun pl d =>
  let a := lf pl 8 8
  match lf pl 0 1 with
  | 0 =>
    let (v, d) := draw 128 d
    answer m stOk 0 (toLe 16 v.toNat) { d with sec := { d.sec with nonce := some v } }
  | 1 =>
    if !hostOk d a 272 then answer m stIntegrity 0 [] d else
    let t := hostRd d a 272
    let c := checkToken d 272 false t
    let d := if c.2 then { d with sec := { d.sec with nonce := none } } else d
    match c.1 with
    | some (st, r) => answer m st r [] d
    | none =>
      let kind := lf t 6 1
      let d := raise 0 0x700 0x0703 0xFF kind (applyToken a t d)
      let d := ephAll false 0x22 (0x700 + 0x0703 * 2 ^ 14 + kind * 2 ^ 30) d
      answer m stOk 0 (toLe 1 d.otp.lc.toNat) d
  | _ => answer m stBadArg 0 [] d

/-! ### Attestation -/

/-- SPDM error responses. -/
def spdmError (code : Byte) : List Byte := [0x12, 0x7F, code, 0]

/-- An SPDM request that needs a completed negotiation (R404): none is answered in BLANK or VOID (Table 16.5), or while
the responder does not run; one out of order is an unexpected request. -/
def spdm (need : Nat) (f : Dev → Dev) (d : Dev) : Dev :=
  if !mpUp d || d.otp.lc = 0 || d.otp.lc = 4 then respond [] d
  else if d.sec.spdm.toNat < need then respond (spdmError 4) d
  else f d

/-- GET_VERSION (R404): answered in every state but VOID; the exchange starts again. -/
def execGetVersion : State → Host.Outcome State Fault Refusal := on fun d =>
  if !mpUp d || d.otp.lc = 4 then respond [] d
  else respond [0x10, 0x04, 0, 0, 0, 1, 0x00, 0x12] { d with sec := { d.sec with spdm := 1 } }

/-- GET_CAPABILITIES (R404). -/
def execGetCapabilities : State → Host.Outcome State Fault Refusal := on <| spdm 1 fun d =>
  respond ([0x12, 0x61, 0, 0] ++ Config.response 0x61 0) { d with sec := { d.sec with spdm := 2 } }

/-- NEGOTIATE_ALGORITHMS (R404): ECDSA P-384, SHA-384, ECDHE on P-384 and AES-256-GCM, and no others. -/
def execNegotiateAlgorithms (asym hash : BitVec 32) (dhe aead : BitVec 16) :
    State → Host.Outcome State Fault Refusal := on <| spdm 2 fun d =>
  if asym.getLsbD 7 && hash.getLsbD 1 && dhe.getLsbD 4 && aead.getLsbD 1 then
    respond ([0x12, 0x63, 0, 0] ++ toLe 4 0x80 ++ toLe 4 2 ++ toLe 2 0x10 ++ toLe 2 2)
      { d with sec := { d.sec with spdm := 3 } }
  else respond (spdmError 1) d

/-- GET_DIGESTS (R404): certificate slot 0 alone. -/
def execGetDigests : State → Host.Outcome State Fault Refusal := on <| spdm 3 fun d =>
  respond ([0x12, 0x01, 0, 1] ++ hashBytes (sha384 d.flash.cert)) d

/-- GET_CERTIFICATE (R404). -/
def execGetCertificate (slot : BitVec 8) (off len : BitVec 16) : State → Host.Outcome State Fault Refusal :=
  on <| spdm 3 fun d =>
    let c := sl d.flash.cert off.toNat len.toNat
    if slot ≠ 0 || d.flash.cert.length < off.toNat then respond (spdmError 1) d
    else respond ([0x12, 0x02, 0, 0] ++ toLe 2 c.length ++ toLe 2 (d.flash.cert.length - off.toNat - c.length) ++ c) d

/-- Append a signature under the device key (R392). -/
def signed (l : List Byte) (nonce : Nat) (d : Dev) : Dev :=
  respond (l ++ sigBytes (Config.sign d.otp.seed (sha384 (l ++ toLe 32 nonce)) d.free)) { d with free := d.free + 1 }

/-- CHALLENGE (R404, R392). -/
def execChallenge (slot : BitVec 8) (nonce : BitVec 256) : State → Host.Outcome State Fault Refusal := on <| spdm 3 fun d =>
  if slot ≠ 0 then respond (spdmError 1) d else
  let (v, d) := draw 256 d
  signed ([0x12, 0x03, 0, 1] ++ hashBytes (sha384 d.flash.cert) ++ toLe 32 v.toNat) nonce.toNat d

/-- A partition's measurement block (Table 16.9, 16 + p). -/
def partBlock (x : Part) : List Byte :=
  let ver := if x.w.copy0.st = .verified then x.w.copy0.man else if x.w.copy1.st = .verified then x.w.copy1.man else none
  hashBytes ((x.info.map (·.hash)).getD 0) ++ toLe 1 (b2n ((x.info.map (·.relaxed)).getD false)) ++
    toLe 1 (b2n ((x.info.map (·.tagged)).getD false)) ++ hashBytes (((activeMan x).map (·.hash)).getD 0) ++
    hashBytes ((ver.map (·.hash)).getD 0) ++ hashBytes (adapterHash (adpIn x (· = .ready)))

/-- IDE streams of the negotiated protocols are all secure (Table 15.4). -/
def ideActive (d : Dev) : Bool :=
  let s (k : Nat) : Bool := ((tget d.sec.ide k).getD {}).secure
  linkUp d && s 0 && (!d.glb.cxl || (s 1 && s 2))

/-- A measurement block (Table 16.9); none where there is none of that index. -/
def measBlock (d : Dev) (i : Nat) : Option (List Byte) :=
  match i with
  | 1 => some (toLe 4 d.rom.version.toNat ++ hashBytes d.rom.hash)
  | 2 => some (match d.rcv.running with
      | some (h, host) => padTo 80 h ++ toLe 1 (b2n host)
      | none => List.replicate 81 0)
  | 3 => some (toLe 1 d.otp.lc.toNat ++ toLe 1 d.otp.svn ++ toLe 1 d.otp.revoked.toNat ++ toLe 1 (b2n (diagOpen d)))
  | 4 => some (hashBytes (ownerHash d))
  | 5 => some ((List.range 4).flatMap (fun k => hashBytes (((signerKey d k).map keyHash).getD 0)))
  | 6 => some (hashBytes (craterHash d))
  | 7 => some ((List.range 3).flatMap (fun k => toLe 1 (b2n ((tget d.sec.ide k).getD {}).secure)))
  | i => if 16 ≤ i && i < 32 then (getPart d (i - 16)).map partBlock else none

/-- Indexes of the measurement blocks there are. -/
def measIndexes (d : Dev) : List Nat := (List.range 32).filter (fun i => (measBlock d i).isSome)

/-- One block in the standard's raw bit-stream form: index, specification, size, type, size, value. -/
def measRaw (d : Dev) (i : Nat) : List Byte :=
  let b := (measBlock d i).getD []
  toLe 1 i ++ [1] ++ toLe 2 (b.length + 3) ++ [0x80] ++ toLe 2 b.length ++ b

/-- GET_MEASUREMENTS (R405). -/
def execGetMeasurements (index : BitVec 8) (sign : Bool) (nonce : BitVec 256) :
    State → Host.Outcome State Fault Refusal := on <| spdm 3 fun d =>
  let l := measIndexes d
  let body : Option (List Byte) :=
    if index = 0 then some ([0x12, 0x60, BitVec.ofNat 8 l.length, 0, 0, 0, 0, 0])
    else if index = 0xFF then
      let r := l.flatMap (measRaw d)
      some ([0x12, 0x60, 0, 0] ++ toLe 1 l.length ++ toLe 3 r.length ++ r)
    else if l.contains index.toNat then
      let r := measRaw d index.toNat
      some ([0x12, 0x60, 0, 0, 1] ++ toLe 3 r.length ++ r)
    else none
  match body with
  | none => respond (spdmError 1) d
  | some b => if sign then signed b nonce.toNat d else respond b d

/-- KEY_EXCHANGE (R404): at most four secured sessions; a fifth is answered busy. -/
def execKeyExchange (slot : BitVec 8) (id : BitVec 16) (share : BitVec 768) : State → Host.Outcome State Fault Refusal :=
  on <| spdm 3 fun d =>
    if slot ≠ 0 then respond (spdmError 1) d
    else if 4 ≤ d.sec.sessions.length then respond (spdmError 3) d
    else
      let (v, d) := draw 16 d
      let (y, d) := draw 768 d
      let d := { d with sec := { d.sec with sessions := d.sec.sessions ++ [⟨v ++ id, false, 0⟩] } }
      signed ([0x12, 0x64, 0, 0] ++ toLe 2 v.toNat ++ sigBytes y) share.toNat d

/-- An SPDM request inside a session. -/
def inSession (id : BitVec 32) (f : Session → Dev → Dev) : Dev → Dev := spdm 3 fun d =>
  match d.sec.sessions.find? (fun s => s.id = id) with
  | some s => f s d
  | none => respond (spdmError 2) d

/-- Replace a session. -/
def modSession (id : BitVec 32) (f : Session → Session) (d : Dev) : Dev :=
  { d with sec := { d.sec with sessions := d.sec.sessions.map (fun s => if s.id = id then f s else s) } }

/-- End a session: its keys are erased (Table 16.1). -/
def dropSession (id : BitVec 32) (d : Dev) : Dev :=
  { d with sec := { d.sec with sessions := d.sec.sessions.filter (fun s => s.id ≠ id) } }

/-- FINISH (R404): `ok` says that the requester's proof verifies. -/
def execFinish (id : BitVec 32) (ok : Bool) : State → Host.Outcome State Fault Refusal := on <| inSession id fun s d =>
  if s.established then respond (spdmError 4) d
  else if ok then respond [0x12, 0x65, 0, 0] (modSession id (fun s => { s with established := true }) d)
  else respond (spdmError 6) (dropSession id d)

/-- KEY_UPDATE (R404). -/
def execKeyUpdate (id : BitVec 32) : State → Host.Outcome State Fault Refusal := on <| inSession id fun s d =>
  if s.established then respond [0x12, 0x69, 0, 0] (modSession id (fun s => { s with updates := s.updates + 1 }) d)
  else respond (spdmError 4) d

/-- HEARTBEAT (R404). -/
def execHeartbeat (id : BitVec 32) : State → Host.Outcome State Fault Refusal := on <| inSession id fun s d =>
  respond (if s.established then [0x12, 0x68, 0, 0] else spdmError 4) d

/-- END_SESSION (R404). -/
def execEndSession (id : BitVec 32) : State → Host.Outcome State Fault Refusal := on <| inSession id fun s d =>
  if s.established then respond [0x12, 0x6C, 0, 0] (dropSession id d) else respond (spdmError 4) d

/-! ### IDE and DOE -/

/-- IDE_KEY_MANAGEMENT (R406): keys are set or refreshed inside a secured session alone; an insecure stream carries
traffic again. -/
def execIdeKeyManagement (id : BitVec 32) (s : Fin 3) : State → Host.Outcome State Fault Refusal :=
  on <| inSession id fun x d =>
    if !x.established then respond (spdmError 4) d else
    let e := (tget d.sec.ide s).getD {}
    respond [0x12, 0x7E, 0, 0] { d with sec := { d.sec with
      ide := tput d.sec.ide s ⟨true, false, e.keys + 1⟩ } }

/-- IDE_INTEGRITY (R407): the stream enters the insecure state, and a DEGRADE is raised. -/
def execIdeIntegrity (s : Fin 3) : State → Host.Outcome State Fault Refusal := on <| whenAwake fun d =>
  let e := (tget d.sec.ide s).getD {}
  if !e.secure then d else
  raise 1 0x804 0x0803 0xFF 0 { d with sec := { d.sec with ide := tput d.sec.ide s { e with secure := false, insecure := true } } }

/-- DOE_DISCOVERY (Table 15.1): DOE discovery, CMA/SPDM and secured CMA/SPDM. -/
def execDoeDiscovery (index : BitVec 8) : State → Host.Outcome State Fault Refusal := on fun d =>
  if !mpUp d then respond [] d
  else if index.toNat < 3 then
    respond (toLe 2 1 ++ toLe 1 index.toNat ++ toLe 1 (if index = 2 then 0 else index.toNat + 1)) d
  else respond [0xFF, 0xFF, 0xFF, 0] d

/-! ### IEEE 1149.1 -/

/-- IEEE_1149_1_INSTRUCTION (R457): available whenever VAUX is in range; EXTEST is refused while any partition exists,
and the port then acts as BYPASS. -/
def execIeee11491Instruction (ins : JtagOp) : State → Host.Outcome State Fault Refusal := on fun d =>
  if !d.pwr.rails.getLsbD 1 then d else
  let i := if ins = .extest && !d.parts.isEmpty then .bypass else ins
  { d with
    jtag := i
    out := { d.out with jtag := if i = .idcode then
        0x1#4 ++ 0x9216#16 ++ Config.manufacturer ++ 1#1
      else d.out.jtag } }

end Sys2Proof.Machine
end

