-- ==== Sys2Proof/Machine/Boot.lean ====
section
/-!
DEFINITION. The input, the rails, module reset, the boot ROM, recovery and the start-up sequence (R393 to R399, R431,
R437 to R452).
-/

namespace Sys2Proof.Machine

open Sys2Proof

/-! ### Boot checks -/

/-- Header bytes that are reserved in an image (Table 16.2). -/
def imageReserved (h : List Byte) : Bool :=
  allZero (sl h 0x0A 2) && allZero (sl h 0x0F 1) && allZero (sl h 0x13 1) && allZero (sl h 0x1C 4) &&
    allZero (sl h 0xB0 0x50) && allZero (sl h 0x160 0xA0)

/-- The checks of Table 16.3 from FORMAT onward, in order: the code of the first that fails. -/
def checkImage (d : Dev) (img : List Byte) : Option Nat :=
  let h := padTo 512 img
  let n := lf h 0x18 4
  let k := lf h 0x09 1
  let key := keyOf (sl h 0x50 96)
  if lf h 0 4 ≠ 0x57464B54 || lf h 4 2 ≠ 1 || !imageReserved h then some 0x02
  else if lf h 6 2 ≠ 0x9216 || lf h 8 1 ≠ 0x42 then some 0x03
  else if n < 65536 || 3145728 < n || n % 64 ≠ 0 || img.length ≠ 512 + n then some 0x06
  else if 3 < k || keyHash key ≠ (tget d.rom.fwk k).getD 0 || d.otp.revoked.getLsbD k then some 0x04
  else if !verifyBytes key (sl h 0 0x100) (sl h 0x100 0x60) then some 0x05
  else if hashOf (sl h 0x20 48) ≠ sha384 (img.drop 512) then some 0x07
  else if lf h 0x14 4 < d.otp.svn || 63 < lf h 0x14 4 then some 0x08
  else none

/-- The flash holds its image in a region longer than the image: the bytes of the image proper. -/
def flashImage (d : Dev) : List Byte := d.flash.image.take (512 + lf d.flash.image 0x18 4)

/-- The first failing check of Table 16.3 at start-up. -/
def bootReason (d : Dev) : Option Nat :=
  if d.otp.lc = 4#3 then some 0x09 else if d.flash.bad then some 0x01 else checkImage d (flashImage d)

/-! ### What survives -/

/-- What no reset and no loss of the input takes away (R448): OTP, boot ROM, boot flash and the contents of the weight
store; with them the world outside (host memory, wall time) and the model's counter of free values. -/
def keepStored (d : Dev) : Dev :=
  { clk := { wall := d.clk.wall }, otp := d.otp, rom := d.rom, flash := d.flash
    store := { bytes := d.store.bytes, jrnA := d.store.jrnA, jrnB := d.store.jrnB, retired := d.store.retired,
               failing := d.store.failing, uncorr := d.store.uncorr, soft := d.store.soft }
    host := d.host, hostBad := d.hostBad, out := d.out, free := d.free }

/-- The fault logic across a module reset: the history, its counters and the SEAL latch stay; HOLD clears unless SEALED
is set (R417, R420, R424). -/
def fltAfterReset (f : Flt) : Flt :=
  { sealed := f.sealed, hold := f.sealed && f.hold, head := f.head, tail := f.tail, lost := f.lost, notes := f.notes
    degrades := f.degrades, halts := f.halts, lastHalt := f.lastHalt, firstSeal := f.firstSeal, hist := f.hist
    last := f.last }

/-- A recovered image's SVN is to be programmed: it exceeds the OTP SVN in PROVISIONED or FIELD (R397). -/
def svnRises (d : Dev) (img : List Byte) : Bool :=
  decide (d.otp.svn < lf img 0x14 4) && (d.otp.lc = 1#3 || d.otp.lc = 2#3)

/-- A reset or input loss while the boot ROM carries out GO with COMMIT (R398): the flash holds a first part of the image, of any length,
before the rest of the old contents; with the whole image written the OTP SVN is at its old or its new value. -/
def cutShort (d : Dev) : Dev :=
  let n := d.rcv.len.toNat
  if d.flt.sealed || !d.rcv.go || !d.rcv.commit || d.flash.bad || !hostOk d d.rcv.addr.toNat n then d else
  let img := hostRd d d.rcv.addr.toNat n
  if (checkImage d img).isSome then d else
  let (v, d) := draw 33 d
  let k := v.toNat / 2 % (img.length + 1)
  { d with flash := { d.flash with image := img.take k ++ d.flash.image.drop k }
           otp := if k = img.length && v.toNat % 2 = 1 && svnRises d img then { d.otp with svn := lf img 0x14 4 } else d.otp }

/-- A module reset (R448): every unit returns to its reset state; the rails stay as they are, and so do the scratchpads with their
parity (R142). -/
def moduleReset (d : Dev) : Dev :=
  let cause : Nat := 2 + (if d.rcv.arm then 4 else 0) + (if d.flt.sealed then 8 else 0)
  { keepStored (cutShort d) with
    tiles := d.tiles.map (fun e => (e.1, ({ spad := e.2.spad, spadBad := e.2.spadBad } : Tile)))
    jtag := d.jtag, flt := fltAfterReset d.flt, rcv := { arm := d.rcv.arm }
    pwr := { rails := d.pwr.rails, rstCause := BitVec.ofNat 32 cause
             startStatus := if d.pwr.rails = 0xFF#8 then 7#32 else 3#32 } }

/-- The module without its input (R438): every rail is off and nothing volatile is left. -/
def unpowered (d : Dev) : Dev :=
  { keepStored (cutShort d) with
    pwr := { inputOn := false, rails := 0, rstCause := 0, startStatus := 0, offAt := some d.clk.wall } }

/-! ### Pins and rails -/

/-- INPUT_RISE (R438): power-on. An input applied again before 1 s off is ignored until that time has passed. -/
def execInputRise : State → Host.Outcome State Fault Refusal := on fun d =>
  if d.pwr.inputOn then d else
  let d := match d.pwr.offAt with
    | some t => advanceTo (t + msG 1000) d
    | none => d
  keepStored d

/-- INPUT_FALL (R438): the page program in progress finishes within the hold-up; no further program or erase starts. -/
def execInputFall : State → Host.Outcome State Fault Refusal := on fun d =>
  if d.pwr.inputOn && !d.pwr.holdUp then { d with
    pwr := { d.pwr with holdUp := true, fallAt := d.clk.wall }
    store := { d.store with stopping := true } } else d

/-- HOLD_UP_END (R438): every rail turns off, 1.0 ms to 2.0 ms after the fall, and nothing is recorded. -/
def execHoldUpEnd : State → Host.Outcome State Fault Refusal := on fun d =>
  if d.pwr.holdUp then
    whenDue (d.pwr.fallAt + usG 1000 + nsG ((Config.freeBits 20 d.free).toNat % 1000001))
      (fun d => unpowered { d with free := d.free + 1 }) d
  else d

/-- OVERVOLTAGE (R438): the same effect as removing the input. -/
def execOvervoltage : State → Host.Outcome State Fault Refusal := on fun d =>
  if d.pwr.inputOn then unpowered d else d

/-- The start-up step that brings a rail up (Table 18.7), by its place in Table 18.2 counted from 0. -/
def railStep (k : Nat) : Nat := if k = 0 then 1 else if k < 3 then 2 else 3

/-- RAIL_FAIL (R440): a rail that does not come up. After VFIX, every rail after VFIX is turned off and SEAL is raised;
12V, VAUX and VFIX leave the module without a fault logic. -/
def execRailFail (k : Fin 8) : State → Host.Outcome State Fault Refusal := on fun d =>
  if !d.pwr.inputOn || !d.pwr.resetHeld || !d.pwr.rstCause.getLsbD 0 || d.pwr.rails ≠ 0xFF#8 then d else
  let n := railStep k.val
  let status : BitVec 32 := BitVec.ofNat 32 (2 ^ (n - 1) - 1 + n * 2 ^ 20)
  if k.val < 3 then { d with pwr := { d.pwr with rails := BitVec.ofNat 8 (2 ^ k.val - 1), startStatus := status } }
  else raise 3 (if k.val = 6 then 0x901 else 0x900) 0x0903 0xFF k.val
    { d with pwr := { d.pwr with rails := 7#8, startStatus := status } }

/-- RST_N (R447): low for a time in ns. Under 1 us it is ignored, from 10 us it resets the module, and between them it
does either. -/
def execRstN (ns : Nat) : State → Host.Outcome State Fault Refusal := on fun d =>
  if !d.pwr.inputOn || ns < 1000 then letPass (nsG ns) d else
  let d := letPass (nsG ns) d
  if 10000 ≤ ns then moduleReset d
  else
    let (v, d) := draw 1 d
    if v = 1#1 then moduleReset d else d

/-! ### Where a start-up may go -/

/-- Recovery wait (R397): reaching it clears ARM. -/
def recoveryWait (reason : Nat) (d : Dev) : Dev :=
  { d with
    rcv := { d.rcv with st := 1#3, reason := BitVec.ofNat 8 reason, arm := false }
    pwr := { d.pwr with startStatus := d.pwr.startStatus ||| 0x500000#32 } }

/-- The image starts: it is measured, and the versions stand in the identity register (R8, R395). -/
def startImage (st : BitVec 3) (host : Bool) (img : List Byte) (d : Dev) : Dev :=
  { d with
    ident := { fw := BitVec.ofNat 32 (lf img 0x0C 3 + 2 ^ 31), ldr := BitVec.ofNat 32 (lf img 0x10 3 + 2 ^ 31) }
    rcv := { d.rcv with st := st, reason := 0, running := some (img.take 0x50, host) }
    pwr := { d.pwr with startStatus := (d.pwr.startStatus &&& 0x000FFFFF#32) ||| 0x10#32 } }

/-! ### Start-up steps 6 to 11 -/

/-- START_STATUS: a step has ended. -/
def stepEnded (n : Nat) (d : Dev) : Dev :=
  { d with pwr := { d.pwr with startStatus := d.pwr.startStatus ||| BitVec.ofNat 32 (2 ^ (n - 1)) } }

/-- The boundary of a die on a side of a tile moon (R177), N, E, S, W; none at a seam or the grid's edge. -/
def moonBoundary (m side : Nat) : Option Nat :=
  let q := quadOfMoon m
  let a := m / 6 % 3
  let b := m % 3
  (match side with
    | 0 => if a = 0 then none else some (6 + 3 * (a - 1) + b)
    | 1 => if b = 2 then none else some (3 * b + a)
    | 2 => if a = 2 then none else some (6 + 3 * a + b)
    | _ => if b = 0 then none else some (3 * (b - 1) + a)).map (12 * q + ·)

/-- XCAL of a side (R177, Table 6.7): the margin is below 40 ps exactly where the boundary fails. -/
def xcalWord (bad : List Nat) (m side : Nat) : BitVec 32 :=
  match moonBoundary m side with
  | none => 0x40000000#32
  | some k =>
    let v := (Config.xcalMargin k).toNat
    if bad.contains k then BitVec.ofNat 32 (0x80000000 + v % 40) else BitVec.ofNat 32 (40 + v % 4056)

/-- Step 6 (Table 18.7): the PLLs lock to the preferred reference, or to the other, or run free with a DEGRADE; seam
phases are aligned; crossings are calibrated, and a boundary that fails raises a DEGRADE (R177). -/
def startClocks (find : Findings) (d : Dev) : Dev :=
  let free := find.noRefA && find.noRefB
  let d := { d with clk := { d.clk with
    refABad := find.noRefA, refBBad := find.noRefB, refSel := find.noRefA && !find.noRefB, freeRun := free
    events := d.clk.events ||| (if free then 0x10#32 else 0#32)
    refBadAt := [(0, d.clk.wall), (1, d.clk.wall)]
    moons := (List.range 45).map (fun m => (m, { (tget d.clk.moons m).getD {} with
      st := .running, pllLock := !free, seamAligned := true, begins := [d.clk.wall], dur := moonPeriod d m, latticeTick := 1
      runPeriods := 1
      xcal := if m < 36 then (List.range 4).map (fun k => (k, xcalWord find.crossings m k)) else [] })) } }
  let d := if free then raise 1 0x22C 0x0202 0xFF 0 d else d
  let d := forEach find.crossings (fun k d => raise 1 (0x200 + crossingMoon k) 0x0207 0xFF k d) d
  stepEnded 6 d

/-- Step 9: start-up training (Table 7.3): a channel that fails, or that the crater map marks, is DISABLED. -/
def trainChannels (find : Findings) (marked : List Nat) (d : Dev) : Dev :=
  let d := { d with chans := (List.range 48).map (fun c => (c, { (tget d.chans c).getD {} with
    st := if find.untrained.contains c || marked.contains c then .disabled else .up
    trainAt := d.clk.wall, tempAt := d.clk.wall, eccAt := d.clk.wall })) }
  stepEnded 9 (forEach (List.range 48) (fun c d =>
    if find.untrained.contains c || marked.contains c then raise 1 (0x300 + c) 0x0305 0xFF 0 d else d) d)

/-- Step 10 (R431): the current slot is read, the pending map and the subset's failures are ORed in, BLOCKS is derived,
and a new slot is written where anything changed. Channels that did not train stand in the map with the rest. -/
def mergeCrater (find : Findings) (d : Dev) : Dev :=
  let (cur, lost) := match currentSlot d.flash with
    | some (s, _) => if find.mapLate then (mapSlot {} {} s.seq true, true) else (s, false)
    | none => (mapSlot {} {} 0 true, true)
  let d := if lost then raise 1 0x700 0x0003 0xFF 0 d else d
  let force := orMap (orMap cur.force cur.pend) (findMap find)
  let force := { force with blocks := deriveBlocks force find.crossings }
  let changed := lost || force ≠ cur.force || cur.pend ≠ ({} : CraterMap)
  let d := { d with crater := { d.crater with
    force := force, pend := {}, seq := cur.seq, unconfirmed := cur.unconfirmed, crossings := find.crossings, changes := [] } }
  stepEnded 10 (if changed then writeSlot d else d)

/-- The channels a map slot marks, at step 9. -/
def markedChannels (find : Findings) (d : Dev) : List Nat :=
  unionNat (match currentSlot d.flash with
    | some (s, _) => unionNat s.force.channels s.pend.channels
    | none => []) (findMap find).channels

/-- Step 11: MP_READY, and MSI-X vector 1 (Table 15.12). Step periods are counted from here. -/
def mpReady (d : Dev) : Dev :=
  let w := d.clk.wall
  raiseVec 1 (stepEnded 11 { d with
    glb := { d.glb with mpReady := true, beatAt := w }
    pwr := { d.pwr with measAt := w, thermAt := w }
    clk := { d.clk with tideQuiet := w } })

/-- Step 8 writes every byte of every scratchpad to 0 with correct parity (R142). -/
def zeroSpads (d : Dev) : Dev := { d with tiles := d.tiles.map (fun e => (e.1, { e.2 with spad := [], spadBad := [] })) }

/-- Steps 6 to 11 (Table 18.7), once an image runs. Memories other than the scratchpads are 0 from module reset on. -/
def startUp (find : Findings) (d : Dev) : Dev :=
  let d := startClocks find d
  let d := reportFind find 0xFF#8 d
  if d.flt.sealed then { d with pwr := { d.pwr with startStatus := d.pwr.startStatus ||| 0x700000#32 } } else
  let d := stepEnded 7 d
  if find.zeroFail then
    raise 3 0x900 0x0903 0xFF 0 { d with pwr := { d.pwr with startStatus := d.pwr.startStatus ||| 0x800000#32 } }
  else
    let d := stepEnded 8 (zeroSpads d)
    let d := mergeCrater find (trainChannels find (markedChannels find d) d)
    let d := if d.flash.macOk then d else raise 1 0x802 0x0802 0xFF 0 d
    mpReady d

/-! ### Release of internal reset, and recovery -/

/-- INTERNAL_RESET_RELEASE (R450): life-cycle completion (R399), the boot checks (R394), then the image and the steps
that follow, or recovery wait. -/
def execInternalResetRelease (find : Findings) : State → Host.Outcome State Fault Refusal := on fun d =>
  if !d.pwr.inputOn || !d.pwr.resetHeld || d.pwr.rails ≠ 0xFF#8 || d.flt.sealed then d else
  let d := advance (msG 1) d
  let d := { d with
    pwr := { d.pwr with resetHeld := false, startStatus := d.pwr.startStatus ||| 0x8#32 }
    flt := { d.flt with aliveRun := true, alive := false, aliveAt := d.clk.wall } }
  let d := match d.otp.pending with
    | some t => lcMove t d
    | none => d
  if d.rcv.arm then recoveryWait 0 d else
  match bootReason d with
  | some r => recoveryWait r d
  | none => if find.bootLate then recoveryWait 0 d else startUp find (startImage 0#3 false (flashImage d) d)

/-- A write of 1 to RCV_CTRL.GO (R397, Table 16.4): taken in recovery wait, where the image is loaded from now on. VOID refuses GO, and
a SEALED module's boot ROM stands still. -/
def writeGo (d : Dev) : Dev :=
  if d.rcv.st ≠ 1#3 || d.otp.lc = 4#3 || d.flt.sealed then d else { d with rcv := { d.rcv with st := 2#3, go := true } }

/-- RECOVERY_GO (R397): GO is written, if it has not been, and an image from the host is read, checked, written to the flash where
COMMIT is set, and started. -/
def recoveryGo (find : Findings) (d : Dev) : Dev :=
  let d := writeGo d
  if !d.rcv.go then d else
  let d := { d with rcv := { d.rcv with go := false } }
  let n := d.rcv.len.toNat
  let back (r : Nat) (d : Dev) : Dev := { d with rcv := { d.rcv with st := 1#3, reason := BitVec.ofNat 8 r } }
  if !hostOk d d.rcv.addr.toNat n then back 0x0A d else
  let img := hostRd d d.rcv.addr.toNat n
  match checkImage d img with
  | some r => back r d
  | none =>
    if d.rcv.commit then
      if d.flash.bad then back 0x0B d else
      let d := { d with
        flash := { d.flash with image := img }, otp := if svnRises d img then { d.otp with svn := lf img 0x14 4 } else d.otp }
      startUp find (startImage 0#3 true img d)
    else startUp find (startImage 4#3 true img d)

/-- RECOVERY_GO (R397). -/
def execRecoveryGo (find : Findings) : State → Host.Outcome State Fault Refusal := on (whenAwake (recoveryGo find))

end Sys2Proof.Machine
end

