-- ==== Sys2Proof/Machine/Clock.lean ====
section
/-!
DEFINITION. Tile steps, tides, coupling pauses, clock references, PLLs and seam groups (R165 to R183).
-/

namespace Sys2Proof.Machine

open Sys2Proof

/-- CLK_EVENTS bits are set, and the MP writes them to the ephemeris of every running partition (R182). -/
def clkEvent (bits : Nat) (d : Dev) : Dev :=
  let d := { d with clk := { d.clk with events := d.clk.events ||| BitVec.ofNat 32 bits } }
  if mpUp d then ephAll true 0x14 bits d else d

/-- The tile moons, paused together, resume at a moment (R169, R179, R182): wall time comes to it, and the next tick does not begin
before. The pause is counted when that tick begins. -/
def resumeTiles (w : Nat) (d : Dev) : Dev :=
  let d := advanceTo w d
  { d with clk := { d.clk with resumeAt := max d.clk.resumeAt d.clk.wall } }

/-! ### Step changes -/

/-- A write of GO (R169, R170): refused with STEP_ERR while BUSY, or above the limit of R168. -/
def goStep (tgt : BitVec 3) (d : Dev) : Dev :=
  if d.clk.busy || maxStep d < tgt.toNat then { d with clk := { d.clk with stepErr := true } }
  else
    let d := { d with clk := { d.clk with target := tgt } }
    startStep (wantStep d) false d

/-- GO (R169). -/
def execGo (tgt : BitVec 3) : State → Host.Outcome State Fault Refusal := on (whenAwake (goStep tgt))

/-- Commands that wait for the tile step are answered: STEP_LIMIT with the step in force (R171), PLAN_LOAD with its OK
(R168). -/
def stepSettled (d : Dev) : Dev :=
  answerBegun 0x0201 stOk 0 [] (answerBegun 0x0104 stOk 0 (toLe 1 d.clk.step.toNat) d)

/-- The step in force and the core voltage are the target's, and BUSY clears (R169). -/
def takeStep (d : Dev) : Dev :=
  { d with
    clk := { d.clk with step := d.clk.tgt, busy := false, throttle := false }
    pwr := { d.pwr with overRun := 0, vcore := stepMv d.clk.tgt.toNat } }

/-- After a step change a ceiling that fell below the new step while BUSY is met, and one that throttles and rose is too (R445). -/
def nextStep (d : Dev) : Dev :=
  let late := d.clk.late
  let d := { d with clk := { d.clk with late := false } }
  if wantStep d < d.clk.step.toNat then startStep (wantStep d) (throttled d) d
  else if late && decide (d.clk.step.toNat < wantStep d) then startStep (wantStep d) true d
  else stepSettled d

/-- STEP_CHANGE_RESUME (R169): after a pause of 0.5 us to 2 us the new step is in force, the tile moons resume together,
and a STEP record is written for every partition. -/
def stepChangeResume (ns : Nat) (d : Dev) : Dev :=
  if !d.clk.busy || ns < 500 || 2000 < ns then d else
  let data := d.clk.step.toNat + 8 * d.clk.tgt.toNat + 64 * b2n d.clk.throttle
  let d := takeStep (resumeTiles (d.clk.goAt + nsG ns) d)
  nextStep (if mpUp d then ephAll false 0x13 data d else d)

/-- STEP_CHANGE_RESUME (R169). -/
def execStepChangeResume (ns : Nat) : State → Host.Outcome State Fault Refusal := on (whenAwake (stepChangeResume ns))

/-- The step in force, or the one a change in progress brings, stands above where R445 puts it. -/
def stepAbove (d : Dev) : Bool :=
  decide (wantStep d < d.clk.step.toNat) || (d.clk.busy && decide (wantStep d < d.clk.tgt.toNat))

/-- STEP_LIMIT (R171): a new operator limit below the step in force, or below one being taken, is met before the reply. -/
def execStepLimit (m : Fin 64) : State → Host.Outcome State Fault Refusal := on <| command 0x0104 m fun pl d =>
  let s := lf pl 0 1
  if 7 < s then answer m stBadArg 0 [] d else
  let d := { d with pwr := { d.pwr with opLimit := BitVec.ofNat 3 s } }
  if stepAbove d then beginCmd m (if d.clk.busy then d else startStep (wantStep d) false d)
  else answer m stOk 0 (toLe 1 d.clk.step.toNat) d

/-! ### Tides -/

/-- n free bytes. -/
def drawBytes (n : Nat) (d : Dev) : List Byte × Dev :=
  let (v, d) := draw (8 * n) d
  (toLe n v.toNat, d)

/-- Results on their way out of a pipeline become free values. -/
def freePipe : List PipeItem → Dev → List PipeItem × Dev
  | [], d => ([], d)
  | i :: r, d =>
    let (b, d) := drawBytes i.bytes.length d
    let (r, d) := freePipe r d
    ({ i with bytes := b } :: r, d)

/-- The results being formed in a tile become free values, and its long sums. -/
def freeTile (t : Nat) (d : Dev) : Dev :=
  let x := getTile d t
  let (a, d) := freePipe x.matPipe d
  let (b, d) := freePipe x.vecPipe d
  let (c, d) := freePipe x.fnPipe d
  let base := d.free
  let acc := (List.range 2048).map (fun i => (i, Config.freeBits 96 (base + i)))
  setTile { d with free := base + 2048 } t { x with
    matPipe := a, vecPipe := b, fnPipe := c, mat := { x.mat with acc := if x.mat.cur.isSome then acc else x.mat.acc } }

/-- The bytes in a memory moon's write buffer become free values. -/
def freeWbuf : List WbEntry → Dev → List WbEntry × Dev
  | [], d => ([], d)
  | w :: r, d =>
    let (b, d) := drawBytes w.bytes.length d
    let (r, d) := freeWbuf r d
    ({ w with bytes := b } :: r, d)

/-- A droop where STRETCH_EN is 0 (Table 6.9): the results being formed in the moon are undefined. -/
def droopUnstretched (m : Nat) (d : Dev) : Dev :=
  if m < 36 then forEach ((d.tiles.map (·.1)).filter (fun t => moonOfTile t = m)) freeTile d
  else if m < 40 then
    let (w, d) := freeWbuf (getMm d (m - 36)).wbuf d
    modMm (m - 36) (fun x => { x with wbuf := w }) d
  else d

/-- A droop is detected in a moon, so long past: the next period of every member of its seam group is stretched, and each that begins
while the droop lasts (R172). -/
def droopSet (m ps : Nat) (d : Dev) : Dev :=
  modMoons (stretchSet m) (fun x => { x with stretchNext := true, droopTill := max x.droopTill (d.clk.wall + ps * grain / 1000) }) d

/-- DROOP (R170, R172): the supply of a moon stands so many mV below the voltage of its step for so many picoseconds. Within
2 DROOP_THR mV it is no droop, and one during the switch pause stretches no period. -/
def droop (m mv ps : Nat) (d : Dev) : Dev :=
  let x := getMoon d m
  if (m < 36 && d.clk.busy) || mv ≤ 2 * x.droopThr.toNat then d
  else if x.stretchEn then droopSet m ps (freeTicks d)
  else droopUnstretched m d

/-- DROOP (R172). -/
def execDroop (moon : Fin 45) (sag : Sag) : State → Host.Outcome State Fault Refusal :=
  on (whenAwake (droop moon.val sag.mv sag.ps))

/-- The effects of a tide excursion (R173). -/
def tideExcursion (m : Nat) (d : Dev) : Dev :=
  let running := (d.parts.filter (fun e => e.2.plan = .running)).map (·.1)
  let d := modMoon m (fun x => { x with
    excDue := x.excDue - 1, tideExc := satAdd x.tideExc 1
    excPending := running.foldl (fun t p => tput t p ((tget t p).getD 0 + 1)) x.excPending }) d
  raise 0 (0x200 + m) 0x0201 0xFF 0 { d with clk := { d.clk with tideQuiet := d.clk.wall } }

/-- TIDE_EXCURSION (R173): a run of 1,024 periods of the moon has held more than TIDE_THR stretched ones. -/
def execTideExcursion (moon : Fin 45) : State → Host.Outcome State Fault Refusal := on <| whenAwake fun d =>
  let d := freeTicks d
  if (getMoon d moon.val).excDue = 0 then d else tideExcursion moon.val d

/-- TIDE_CEILING_RAISE (R171): after 1 s without a tide excursion the tide ceiling rises by one. -/
def execTideCeilingRaise : State → Host.Outcome State Fault Refusal := on <| whenMp fun d =>
  if d.pwr.tideCeil = 7 then d else
  whenDue (d.clk.tideQuiet + msG 1000) (fun d => settleStep true { d with
    pwr := { d.pwr with tideCeil := d.pwr.tideCeil + 1 }, clk := { d.clk with tideQuiet := d.clk.wall } }) d

/-- COUPLING_PAUSE (R174, R175): a tile moon that may not begin its next tick when its present one ends rests until the coupling
rules are met: the time it has rested counts as soon as it is reported. While another pause stands, when the tick begins is not
known yet, and the pause is counted as it begins. -/
def execCouplingPause (moon : Fin 36) (ns : Nat) : State → Host.Outcome State Fault Refusal := on <| whenAwake fun d =>
  let m := moon.val
  if latticePaused d || !clocksRun d then d
  else modMoon m (countPause (min (nsG ns) (nextBegin d m - tickEnd (getMoon d m)))) d

/-! ### References -/

/-- A reference is judged bad. -/
def refBad (d : Dev) (b : Bool) : Bool := if b then d.clk.refBBad else d.clk.refABad
def setRefBad (b v : Bool) (d : Dev) : Dev :=
  let d := { d with clk := { d.clk with refBadAt := tput d.clk.refBadAt (b2n b) d.clk.wall } }
  if b then { d with clk := { d.clk with refBBad := v } } else { d with clk := { d.clk with refABad := v } }

/-- The moons a PLL clocks: 0 to 3 the tile moons of die q, 4 to 7 MOON[36 + q], 8 to 11 MOON[40 + q]. -/
def pllMoons (p : Nat) : List Nat :=
  if p < 4 then tileMoons.filter (fun m => quadOfMoon m = p) else [32 + p]

/-- PLL_LOCK of the PLLs that have not lost lock: locked to the reference they follow, and not while they run free (Table 6.8). -/
def lockPlls (v : Bool) (d : Dev) : Dev :=
  forEach ((List.range 12).filter (fun p => !d.clk.pllDown.contains p)) (fun p => modMoons (pllMoons p) (fun m => { m with pllLock := v })) d

/-- The PLLs follow a reference again. -/
def takeRef (b : Bool) (d : Dev) : Dev :=
  lockPlls true { d with clk := { d.clk with refSel := b, holdover := false, freeRun := false, holdoverAt := none } }

/-- REF_PREF (Table 6.10): selects a reference when it is good. -/
def selectRef (v : Bool) (d : Dev) : Dev :=
  let d := { d with clk := { d.clk with refPref := v } }
  if refBad d v || d.clk.refSel = v then d else clkEvent 4 (takeRef v d)

/-- REF_PREF (R182). -/
def execRefPref (v : Bool) : State → Host.Outcome State Fault Refusal := on (whenAwake (selectRef v))

/-- REF_AUTO (Table 6.10): set to 1 while the selected reference is bad and the other good, it switches over (Table 6.6). -/
def setRefAuto (v : Bool) (d : Dev) : Dev :=
  let d := { d with clk := { d.clk with refAuto := v } }
  if v && refBad d d.clk.refSel && !refBad d (!d.clk.refSel) then clkEvent 4 (takeRef (!d.clk.refSel) d) else d

/-- REFERENCE_BAD (R182, Table 6.6). -/
def execReferenceBad (b : Bool) : State → Host.Outcome State Fault Refusal := on <| whenAwake fun d =>
  if refBad d b then d else
  let d := clkEvent (if b then 2 else 1) (setRefBad b true d)
  if refBad d (!b) then
    raise 1 0x22C 0x0202 0xFF 0 (clkEvent 8 { d with clk := { d.clk with holdover := true, holdoverAt := some d.clk.wall } })
  else if d.clk.refSel ≠ b then d
  else if d.clk.refAuto then raise 1 0x22C 0x0202 0xFF 0 (clkEvent 4 (takeRef (!b) d))
  else raise 1 0x22C 0x0202 0xFF 0 (clkEvent 8 { d with clk := { d.clk with holdover := true } })

/-- REFERENCE_GOOD (R182): good again for 1 ms, a reference becomes standby; PLLs without a good reference go back to it. -/
def execReferenceGood (b : Bool) : State → Host.Outcome State Fault Refusal := on <| whenAwake fun d =>
  if !refBad d b then d else
  whenDue ((tget d.clk.refBadAt (b2n b)).getD 0 + msG 1) (fun d =>
    let d := setRefBad b false d
    if d.clk.refSel = b then takeRef b d
    else if refBad d (!b) && (d.clk.holdoverAt.isSome || d.clk.freeRun) then clkEvent 4 (takeRef b d)
    else d) d

/-- HOLDOVER_EXPIRY (R182): after 10 ms with both references bad the PLLs run free. -/
def execHoldoverExpiry : State → Host.Outcome State Fault Refusal := on <| whenAwake fun d =>
  match d.clk.holdoverAt with
  | none => d
  | some t =>
    whenDue (t + msG 10) (fun d =>
      clkEvent 16 (lockPlls false { d with clk := { d.clk with freeRun := true, holdoverAt := none } })) d

/-! ### PLLs and seam groups -/

/-- The moon whose source names a PLL's events: the first it clocks. -/
def pllSrc (p : Nat) : Nat := 0x200 + (pllMoons p).headD 0

/-- A channel enters RETRAINING (Table 7.3). -/
def enterRetrain (c : Nat) (d : Dev) : Dev :=
  if (getChan d c).st ≠ .up then d else
  let d := modChan c (fun x => { x with
    st := .retraining, deferred := false, retrain := x.retrain + 1, retries := [], retrainAt := d.clk.wall, trainFails := 0 }) d
  raise 0 (0x300 + c) 0x0301 (match partOfBlock d (c / 3) with | some x => x.pid | none => 0xFF) 0 d

/-- The seam groups that a die's tile moons are members of. -/
def dieGroups (q : Nat) : List Nat := (List.range 9).filter (fun g => (groupMoons g).any (fun m => quadOfMoon m = q))

/-- SEAM_ALIGNED of the members of seam groups. -/
def alignGroups (l : List Nat) (v : Bool) (d : Dev) : Dev :=
  forEach l (fun g => modMoons (groupMoons g) (fun m => { m with seamAligned := v })) d

/-- PLL_LOCK_LOSS (R182, Table 6.6): the tile moons of a die that lose their clock lose their seam alignment. -/
def execPllLockLoss (pll : Fin 12) : State → Host.Outcome State Fault Refusal := on <| whenAwake fun d =>
  let p := pll.val
  if d.clk.pllDown.contains p then d else
  let d := modMoons (pllMoons p) (fun m => { m with pllLock := false })
    { d with clk := { d.clk with pllDown := insertNat d.clk.pllDown p, pllAt := tput d.clk.pllAt p d.clk.wall } }
  let d := if p < 4 then alignGroups (dieGroups p) false d else d
  raise 0 (pllSrc p) 0x0203 0xFF 0 (clkEvent 32 d)

/-- PLL_RELOCK (R182, Table 6.6): within 100 us of the loss; for a tile PLL its seam groups are realigned within 20 us more and the
tile moons resume; a memory moon's channels retrain. -/
def pllRelock (p : Nat) (d : Dev) : Dev :=
  if !d.clk.pllDown.contains p then d else
  let at_ := (tget d.clk.pllAt p).getD d.clk.wall
  let (v, d) := draw 17 d
  let d := modMoons (pllMoons p) (fun m => { m with pllLock := !d.clk.freeRun })
    { d with clk := { d.clk with pllDown := d.clk.pllDown.filter (· != p), pllAt := tdel d.clk.pllAt p } }
  if p < 4 then
    clkEvent 64 (alignGroups ((dieGroups p).filter (fun g => !d.clk.seamDown.contains g)) true
      (resumeTiles (at_ + nsG (v.toNat % 120001)) d))
  else
    let w := at_ + nsG (v.toNat % 100001)
    let d := if mayPass w d then passTo w d else d
    if p < 8 then forEach ((List.range 12).map (12 * (p - 4) + ·)) enterRetrain d else d

/-- PLL_RELOCK (R182). -/
def execPllRelock (pll : Fin 12) : State → Host.Outcome State Fault Refusal := on (whenAwake (pllRelock pll.val))

/-- PLL_FAIL (R182): a tile PLL that has not relocked in 100 us. -/
def execPllFail (pll : Fin 12) : State → Host.Outcome State Fault Refusal := on <| whenAwake fun d =>
  let p := pll.val
  if p < 4 && d.clk.pllDown.contains p then
    whenDue ((tget d.clk.pllAt p).getD d.clk.wall + usG 100) (fun d =>
      raise 2 (pllSrc p) 0x0204 0xFF 0 { d with clk := { d.clk with pllAt := tdel d.clk.pllAt p } }) d
  else d

/-- The seam that names a group's events: the lowest it touches (Table 6.2). -/
def groupSeam (g : Nat) : Nat :=
  match g with
  | 0 | 1 | 4 => 0
  | 2 | 3 => 2
  | 5 | 6 => 3
  | _ => 1

/-- SEAM_PHASE_ERROR (R179): the group's moons pause for realignment, and with them every tile moon. -/
def execSeamPhaseError (g : Fin 9) : State → Host.Outcome State Fault Refusal := on <| whenAwake fun d =>
  if d.clk.seamDown.contains g.val then d else
  alignGroups [g.val] false
    { d with clk := { d.clk with seamDown := insertNat d.clk.seamDown g.val, seamAt := tput d.clk.seamAt g.val d.clk.wall } }

/-- SEAM_REALIGN (R179): after at most 20 us the moons resume and the seam raises a NOTE. -/
def execSeamRealign (g : Fin 9) : State → Host.Outcome State Fault Refusal := on <| whenAwake fun d =>
  if !d.clk.seamDown.contains g.val then d else
  let at_ := (tget d.clk.seamAt g.val).getD d.clk.wall
  let (v, d) := draw 15 d
  let d := { d with clk := { d.clk with seamDown := d.clk.seamDown.filter (· != g.val), seamAt := tdel d.clk.seamAt g.val } }
  raise 0 (0x240 + groupSeam g.val) 0x0205 0xFF 0
    (clkEvent 64 (alignGroups [g.val] true (resumeTiles (at_ + nsG (v.toNat % 20001)) d)))

/-- SEAM_FAIL (R179): realignment that has not succeeded within 100 us. -/
def execSeamFail (g : Fin 9) : State → Host.Outcome State Fault Refusal := on <| whenAwake fun d =>
  if !d.clk.seamDown.contains g.val then d
  else
    let d := passTo ((tget d.clk.seamAt g.val).getD d.clk.wall + usG 100) d
    raise 2 (0x240 + groupSeam g.val) 0x0206 0xFF 0 { d with clk := { d.clk with seamAt := tdel d.clk.seamAt g.val } }

end Sys2Proof.Machine
end

