-- ==== Sys2Proof/Machine/Packets.lean ====
section
/-!
DEFINITION. Cells and packets of the Jastad link (R290 to R294): CRC16, the cells a packet travels as, the gathering of
received cells into a packet, and the header's fields.
-/

namespace Sys2Proof.Machine

open Sys2Proof

/-! ### Cells -/

/-- CRC16 of a cell (R291): polynomial 0x1021, initial value 0xFFFF, no reflection, no final XOR. -/
def crc16Steps : Nat → Nat → Nat
  | 0, c => c
  | n + 1, c => crc16Steps n (if 0x8000 ≤ c then (2 * c % 65536) ^^^ 0x1021 else 2 * c)

def crc16 (l : List Byte) : Nat := l.foldl (fun c b => crc16Steps 8 (c ^^^ (b.toNat * 256))) 0xFFFF

/-- A cell (R291, Table 11.3): CONTROL, DATA and CRC16. -/
def cellBytes (kind idx : Nat) (first last : Bool) (data : List Byte) : List Byte :=
  let b := toLe 2 (kind + b2n first * 4 + b2n last * 8 + idx * 16) ++ padTo 256 data
  b ++ toLe 2 (crc16 b)

/-- Flits of a packet with this many payload bytes (R292). -/
def flitCount (len : Nat) : Nat := (32 + len + 255) / 256

/-- The cells of n flits, from flit k on. -/
def flitCells (f : Nat) : Nat → Nat → List Byte → List Byte
  | 0, _, _ => []
  | n + 1, k, b => cellBytes 1 k (k = 0) (k + 1 = f) (b.take 256) ++ flitCells f n (k + 1) (b.drop 256)

/-- The cells a packet travels as, back to back (R292). -/
def packetCells (p : Packet) : List Byte :=
  flitCells (flitCount p.payload.length) (flitCount p.payload.length) 0 (p.hdr ++ p.payload)

/-- Cut received bytes into cells of 260 bytes. -/
def cellsOf : Nat → List Byte → List (List Byte)
  | 0, _ => []
  | n + 1, l => if l.length < 260 then [] else l.take 260 :: cellsOf n (l.drop 260)

/-- A cell's CKIND, and whether its CRC16 is right. -/
def cellKind (c : List Byte) : Nat := lf c 0 2 % 4
def cellOk (c : List Byte) : Bool := crc16 (c.take 258) = lf c 258 2

/-- What the receive stage makes of the cells of a packet (the first rows of Table 11.8). -/
inductive Gathered where
  /-- No flit among them. -/
  | nothing
  /-- A flit with a CRC16 error. -/
  | crc
  /-- FIRST missing, FLIT_INDEX out of sequence, more than 17 flits, or F not as R292 gives for LENGTH. -/
  | seq
  /-- A packet, and whether a reserved CONTROL bit was set. -/
  | packet (p : Packet) (reserved : Bool)
  deriving DecidableEq, Repr

/-- Flits stand in sequence, from flit k of f on. -/
def inSequence (f : Nat) : Nat → List (List Byte) → Bool
  | _, [] => true
  | k, c :: r =>
    bit (lf c 0 2) 2 = (k = 0 : Bool) && bit (lf c 0 2) 3 = (k + 1 = f : Bool) && fld (lf c 0 2) 4 5 = k && inSequence f (k + 1) r

/-- Gather the cells of one packet (R292, R303). -/
def gather (cells : List (List Byte)) : Gathered :=
  let fl := cells.filter (fun c => cellKind c = 1)
  let b := fl.flatMap (fun c => sl c 2 256)
  let len := lf b 6 2 % 8192
  if fl.isEmpty then .nothing
  else if fl.any (fun c => !cellOk c) then .crc
  else if 17 < fl.length || !inSequence fl.length 0 fl || fl.length ≠ flitCount len then .seq
  else .packet ⟨b.take 32, sl b 32 len⟩ (fl.any (fun c => lf c 0 2 / 512 ≠ 0))

/-! ### Headers (Table 11.4) -/

def pDest (p : Packet) : Nat := lf p.hdr 0 2 % 16384
def pSrc (p : Packet) : Nat := lf p.hdr 2 2 % 16384
def pType (p : Packet) : Nat := lf p.hdr 4 1
def pFlags (p : Packet) : Nat := lf p.hdr 5 1
def pEpoch (p : Packet) : Bool := bit (pFlags p) 0
def pMc (p : Packet) : Bool := bit (pFlags p) 1
def pResent (p : Packet) : Bool := bit (pFlags p) 3
def pLength (p : Packet) : Nat := lf p.hdr 6 2 % 8192
def pOrbit (p : Packet) : Nat := lf p.hdr 8 4
def pTransfer (p : Packet) : Nat := lf p.hdr 12 3
def pWcode (p : Packet) : Nat := lf p.hdr 15 1 % 16
def pLq (p : Packet) : Nat := fld (lf p.hdr 15 1) 4 2
def pTile (p : Packet) : Nat := lf p.hdr 16 2 % 4096
def pTag (p : Packet) : Nat := lf p.hdr 18 2
def pMask (p : Packet) : Nat := lf p.hdr 20 8

/-- A reserved TYPE, a reserved bit, or LENGTH above 4,096 (Table 11.8). -/
def badFormat (p : Packet) : Bool :=
  pType p = 0 || 5 < pType p || lf p.hdr 0 2 ≠ pDest p || lf p.hdr 2 2 ≠ pSrc p || 16 ≤ pFlags p ||
    lf p.hdr 6 2 ≠ pLength p || 4096 < pLength p || 64 ≤ lf p.hdr 15 1 || 4096 ≤ lf p.hdr 16 2

/-- The end-to-end check (R294). -/
def e2eOk (p : Packet) : Bool := crc32c (p.hdr.take 28 ++ p.payload) = BitVec.ofNat 32 (lf p.hdr 28 4)

/-- Form a packet: the header's 28 bytes with their CRC32C (R293, R294). -/
def formPacket (h payload : List Byte) : Packet :=
  ⟨h ++ toLe 4 (crc32c (h ++ payload)).toNat, payload⟩

/-- Form a packet from its header's fields. -/
def mkPacket (dest src ty flags orbit transfer deliv tile tag mask : Nat) (payload : List Byte) : Packet :=
  formPacket (toLe 2 dest ++ toLe 2 src ++ toLe 1 ty ++ toLe 1 flags ++ toLe 2 payload.length ++ toLe 4 orbit ++
    toLe 3 transfer ++ toLe 1 deliv ++ toLe 2 tile ++ toLe 2 tag ++ toLe 8 mask) payload

/-- Comet traffic (R315): TYPE 2 to 5, and DATA with RESENT. -/
def isComet (p : Packet) : Bool := pType p ≠ 1 || pResent p

/-- The mask names a rank (R335); a MGMT packet with MC set names every module. -/
def maskNames (p : Packet) (rank : Nat) : Bool :=
  pType p = 5 || (rank / 64 = pDest p / 64 && bit (pMask p) (rank % 64))

/-- The mask names some other module. -/
def maskOthers (p : Packet) (rank : Nat) : Bool :=
  pType p ≠ 5 && (List.range 64).any (fun i => bit (pMask p) i && 64 * (pDest p / 64) + i ≠ rank)

/-- The bytes of a packet (R292). -/
def packetLen (p : Packet) : Nat := 32 + p.payload.length

end Sys2Proof.Machine
end

