-- ==== Sys2Proof/Machine/Ports.lean ====
section
/-!
DEFINITION. What the ports of a partition have in common: the comet queues and their routes (R314, R315, R344), receipts
(R320 to R322), abandoned transfers (R324), and the states of a port with what a change sets in motion (R307, R332, R349 to
R352).
-/

namespace Sys2Proof.Machine

open Sys2Proof

/-! ### Names -/

/-- DETAIL of a link event (Table 17.5); lane 7 where none is named. -/
def linkDetail (transfer src cause lane : Nat) : Nat :=
  transfer % 2 ^ 24 + src % 2 ^ 14 * 2 ^ 24 + cause * 2 ^ 38 + lane * 2 ^ 41

/-- The partition of a port (R286). -/
def portPart (d : Dev) (p : Nat) : Option Part := partOfBlock d (p / 2)

/-- PART of a port's events. -/
def portPid (d : Dev) (p : Nat) : Nat := ((portPart d p).map (·.pid)).getD 0xFF

/-- FAR_RANK of a logical port that the job declares (R346). -/
def declared (x : Part) (l : Nat) : Option Nat := x.info.bind (fun i => tget i.topo.far (x.job.rank * 32 + l))

/-- A port is UP and has not counted as DOWN for the fabric since the job started (R307). -/
def fabUp (d : Dev) (p : Nat) : Bool := (getPort d p).st = .up && !(getPort d p).fabDown

/-- The ports that face a plan neighbour: logical port, physical port, far rank (R346). -/
def facing (x : Part) : List (Nat × Nat × Nat) :=
  (List.range (2 * nBlocks x)).filterMap (fun l => match declared x l, physPort x l with
    | some f, some p => some (l, p, f)
    | _, _ => none)

/-- Of those, the ports that are UP (R327). -/
def upFacing (d : Dev) (x : Part) : List (Nat × Nat × Nat) := (facing x).filter (fun e => fabUp d e.2.1)

/-- The route epoch in force (R334). -/
def epochNow (x : Part) : Bool := x.fab.mode.getLsbD 9

/-- The rank at a port's far end (FAR_ID). -/
def farRank (d : Dev) (p : Nat) : Nat := fld (getPort d p).farId.toNat 0 14

/-- The slot table of a port. -/
def portTab (x : Part) (p : Nat) : Option PortTab := x.info.bind (fun i => tget i.ports (logPort x p))

/-- Ticks of a port's slots. -/
def slotTicks (x : Part) (p : Nat) : Nat := max 1 (((portTab x p).map (·.slotTicks)).getD 1)

/-- A port's transmit direction carries packets (R307). -/
def sends (y : Port) : Bool := y.st = .up || (y.st = .subst && !y.txSubst)

/-- Slot j of a port begins in the present tick, and has not begun (R295). -/
def slotBegins (d : Dev) (x : Part) (p j : Nat) : Bool :=
  decide (x.tick = j * slotTicks x p) && decide ((getPort d p).slot ≤ j) &&
    decide ((j + 1) * slotTicks x p ≤ (x.info.map (·.orbitLen)).getD 0)

/-- A port has a packet to take up in the present tick: an outbound slot's, a comet slot's, or one on its way to a stream buffer, which
it reaches before tick T + 24 (R295 to R297, R314). -/
def portDue (d : Dev) (x : Part) (p : Nat) : Bool :=
  (getPort d p).toStream.any (fun m => decide (m.at_ + 24 ≤ x.now + 1)) ||
    (match portTab x p with
      | some tab =>
        let j := x.tick / slotTicks x p
        slotBegins d x p j && (if j % 16 = 15 then sends (getPort d p) else tab.outs.any (fun e => e.slot = j))
      | none => false)

/-! ### Comet queues -/

/-- A packet enters a port's comet queue of 16 (R315). -/
def enqueueComet (pid p : Nat) (kind : CometKind) (pkt : Packet) (second : Bool) (d : Dev) : Dev :=
  if 16 ≤ (getPort d p).comet.length then
    modPart pid (fun y => { y with fab := { y.fab with cometDrop := satAdd y.fab.cometDrop 1 } }) d
  else modPort p (fun y => { y with comet := y.comet ++ [⟨kind, pkt, second⟩] }) d

/-- The rank table's ports for a rank and epoch: primary, then alternate (R344, Table 13.1). -/
def rankPorts (d : Dev) (epoch : Bool) (rank : Nat) : List (Option Nat) :=
  let e := ((tget d.ranks (b2n epoch * 16384 + rank)).getD 0).toNat
  [if bit e 7 then some (fld e 0 5) else none, if bit e 15 then some (fld e 8 5) else none]

/-- The physical port comet traffic for a rank leaves on (R315): the primary route where it is UP, else the alternate; the
second copy of a receipt asks for the alternate first (R320). -/
def route (d : Dev) (x : Part) (epoch : Bool) (rank : Nat) (altFirst : Bool) : Option Nat :=
  let l := rankPorts d epoch rank
  let l := if altFirst then l.reverse else l
  (l.filterMap (fun o => o.bind (physPort x))).find? (fabUp d)

/-- Queue comet traffic on its route, or drop and count it (R315). The second copy of a receipt waits, on another route than the
first, for its second comet slot (R320). -/
def sendComet (pid : Nat) (kind : CometKind) (altFirst : Bool) (pkt : Packet) : Dev → Dev :=
  withPart pid fun x d =>
    match route d x (pEpoch pkt) (pDest pkt) altFirst with
    | some p => enqueueComet pid p kind pkt (altFirst && route d x (pEpoch pkt) (pDest pkt) false ≠ some p) d
    | none => setPart pid { x with fab := { x.fab with cometNoroute := satAdd x.fab.cometNoroute 1 } } d

/-- The kind under which a comet packet waits (Table 12.1). -/
def cometKind (p : Packet) : CometKind :=
  match pType p with
  | 1 => .resend
  | 2 => .receipt
  | 3 => .time
  | 4 => .mark
  | _ => .mgmt

/-- A comet packet of this module. -/
def cometPacket (x : Part) (dest ty orbit : Nat) (payload : List Byte) : Packet :=
  mkPacket dest x.job.rank ty (b2n (epochNow x)) orbit 0 0 0 x.job.tag.toNat 0 payload

/-! ### Receipts -/

/-- A record of a receipt (Table 12.3): the listed positions of one port within 64 of BASE, with their transfers. -/
def receiptRecord (lport base : Nat) (l : List (Nat × Nat)) : List Byte :=
  let bits := (List.range 64).filterMap (fun i => (l.find? (fun e => e.1 = base + i)).map (fun e => (i, e.2)))
  toLe 3 base ++ toLe 1 lport ++ toLe 8 (bits.foldl (fun a b => a + 2 ^ b.1) 0) ++
    padTo 192 (bits.flatMap (fun b => toLe 3 b.2))

/-- The records for entries given as (logical port, position, transfer). -/
def receiptRecords (l : List (Nat × Nat × Nat)) : List (List Byte) :=
  let keys := l.foldl (fun a e => insertNat a (e.1 * 2 ^ 20 + e.2.1 / 64 * 64)) []
  keys.map (fun k => receiptRecord (k / 2 ^ 20) (k % 2 ^ 20)
    ((l.filter (fun e => e.1 * 2 ^ 20 + e.2.1 / 64 * 64 = k)).map (·.2)))

/-- Cut a list into pieces of at most n. -/
def chunks {α : Type} (n : Nat) : Nat → List α → List (List α)
  | 0, _ => []
  | fuel + 1, l => if l.isEmpty then [] else l.take n :: chunks n fuel (l.drop n)

/-- Payload of a receipt (Table 12.2). -/
def receiptPayload (orbit attempt flags : Nat) (recs : List (List Byte)) : List Byte :=
  toLe 4 orbit ++ toLe 1 attempt ++ toLe 1 flags ++ toLe 2 recs.length ++ recs.flatMap id

/-- Send records as receipts of at most 20 records, each in two copies (R320). -/
def sendReceipts (pid dest orbit attempt : Nat) (gone : Bool) (recs : List (List Byte)) : Dev → Dev :=
  withPart pid fun x d =>
    forEach (chunks 20 recs.length recs) (fun c d =>
      let pkt (copy : Nat) : Packet :=
        cometPacket x dest 2 orbit (receiptPayload orbit attempt (copy + 2 * b2n gone) c)
      sendComet pid .receipt true (pkt 1) (sendComet pid .receipt false (pkt 0) d)) d

/-- Ask for entries again, source by source and orbit by orbit (R320, R322). -/
def askAgain (pid attempt : Nat) (es : List Inbound) (d : Dev) : Dev :=
  let keys := es.foldl (fun a e => if a.contains (e.src, e.orbit.toNat) then a else a ++ [(e.src, e.orbit.toNat)]) []
  forEach keys (fun k d => sendReceipts pid k.1 k.2 attempt false
    (receiptRecords ((es.filter (fun e => e.src = k.1 && e.orbit.toNat = k.2)).map (fun e => (e.lport, e.pos, e.transfer)))) d) d

/-- A hold on a link queue begins request round 2 for every missing entry that has not had it (R322). -/
def round2 (pid : Nat) : Dev → Dev := withPart pid fun x d =>
  let es := x.fab.open_.filter (fun e => e.missing && !e.round2)
  askAgain pid 2 es (setPart pid { x with fab := { x.fab with
    open_ := x.fab.open_.map (fun e => if e.missing then { e with round2 := true } else e) } } d)

/-! ### Abandoned transfers -/

/-- Abandon open entries (R324): they close, link WAITs release until the orbit ends, the orbit's mark fences every slot, and
the first abandonment of the orbit writes a NOTE. -/
def abandon (pid : Nat) (f : Inbound → Bool) : Dev → Dev := withPart pid fun x d =>
  let es := x.fab.open_.filter f
  match es.head? with
  | none => d
  | some e =>
    let d := setPart pid { x with fab := { x.fab with
      open_ := x.fab.open_.filter (fun e => !f e), abandoned := satAdd x.fab.abandoned es.length
      abandonNow := true, allFence := true } } d
    if x.fab.abandonNow then d
    else
      let d := raise 0 (0x560 + pid) 0x050A pid (linkDetail e.transfer e.src 0 7) d
      if mpUp d then ephRec pid 0x22 0xFFFF 0 (0x560 + pid + 0x050A * 2 ^ 14) d else d

/-! ### The rounds of orbit marks -/

/-- Payload of a mark (Table 12.5). -/
def markPayload (m : MarkSet) : List Byte :=
  toLe 4 m.orbit.toNat ++ toLe 1 m.round ++ toLe 1 (b2n m.allFence + 2 * b2n m.late + 4 * b2n m.stale) ++ toLe 2 0 ++
    toLe 8 m.mtStart.toNat ++ toLe 64 m.fence.toNat ++ toLe 32 m.cbitReq.toNat ++ List.replicate 16 0

/-- MARK_ROUNDS in force (Table 12.9). -/
def markRounds (x : Part) : Nat := fld x.fab.mode.toNat 0 7

def getMark (x : Part) (orbit : BitVec 32) : Option MarkSet := x.fab.marks.find? (fun m => m.orbit = orbit)

def putMark (m : MarkSet) (y : Part) : Part :=
  if y.fab.marks.any (fun n => n.orbit = m.orbit) then
    { y with fab := { y.fab with marks := y.fab.marks.map (fun n => if n.orbit = m.orbit then m else n) } }
  else { y with fab := { y.fab with marks := y.fab.marks ++ [m] } }

/-- Queue the round just formed on every UP port that faces a plan neighbour (R327). -/
def queueMark (x : Part) (m : MarkSet) (d : Dev) : Dev :=
  forEach (upFacing d x) (fun e d =>
    enqueueComet x.pid e.2.1 .mark (cometPacket x (farRank d e.2.1) 4 m.orbit.toNat (markPayload m)) false d) d

/-- The payloads of a round that a module holds from its plan neighbours, where it holds one of each (R327). -/
def neighbourMarks (d : Dev) (x : Part) (m : MarkSet) : Option (List (List Byte)) :=
  let ranks := (upFacing d x).foldl (fun a e => insertNat a e.2.2) []
  let got (r : Nat) : List (List Byte) := (m.got.filter (fun g => g.2.1 = m.round &&
    (facing x).any (fun e => e.1 = g.1 && e.2.2 = r))).map (·.2.2)
  if ranks.all (fun r => !(got r).isEmpty) then some (ranks.flatMap got) else none

/-- One round merged from the round before it (R327). -/
def mergeMark (m : MarkSet) (l : List (List Byte)) : MarkSet :=
  l.foldl (fun m pl => { m with
    allFence := m.allFence || bit (lf pl 5 1) 0, late := m.late || bit (lf pl 5 1) 1, stale := m.stale || bit (lf pl 5 1) 2
    mtStart := BitVec.ofNat 64 (max m.mtStart.toNat (lf pl 8 8)), fence := m.fence ||| BitVec.ofNat 512 (lf pl 16 64)
    cbitReq := m.cbitReq ||| BitVec.ofNat 256 (lf pl 80 32) }) m

/-- The marks of an orbit are complete (R327, R332, Table 12.9): after so many ticks of the next orbit. -/
def completeMark (m : MarkSet) (mt : BitVec 64) (y : Part) : Part :=
  let lag := if y.orbit = m.orbit then 0 else y.tick
  let y := putMark { m with complete := true, completeMt := mt } y
  { y with fab := { y.fab with
    markLag := BitVec.ofNat 32 (max y.fab.markLag.toNat lag)
    detourDue := if m.cbitReq = 0 then y.fab.detourDue else y.fab.detourDue ++ [(m.orbit + 2, m.cbitReq)] } }

/-- Form every round that the marks held allow, up to MARK_ROUNDS (R327). -/
def advanceMarks (pid : Nat) (orbit : BitVec 32) : Nat → Dev → Dev
  | 0, d => d
  | fuel + 1, d =>
    match getPart d pid with
    | none => d
    | some x =>
      match getMark x orbit with
      | none => d
      | some m =>
        if m.complete || m.round = 0 then d
        else if markRounds x ≤ m.round then setPart pid (completeMark m d.mt.mt x) d
        else match neighbourMarks d x m with
          | none => d
          | some l =>
            let m := { mergeMark m l with round := m.round + 1 }
            advanceMarks pid orbit fuel (queueMark x m (setPart pid (putMark m x) d))

/-! ### Port states -/

/-- Raise the job interrupt of a partition (Table 15.12). -/
def jobIrq (pid : Nat) : Dev → Dev := raiseVec (98 + pid)

def modSrv (pid : Nat) (f : Serving → Serving) : Dev → Dev := modPart pid (fun y => { y with srv := f y.srv })

def modJob (pid : Nat) (f : Job → Job) : Dev → Dev := modPart pid (fun y => { y with job := f y.job })

/-- Set or clear a bit of a 32-bit vector. -/
def put32 (v : BitVec 32) (i : Nat) (b : Bool) : BitVec 32 := BitVec.ofNat 32 (setBit v.toNat i b)

/-- The detour conditions tied to a logical port of this module (R332, R346). -/
def cbitsOf (x : Part) (l : Nat) : Nat :=
  match x.info with
  | none => 0
  | some i => (i.topo.cbits.zipIdx.filter (fun c =>
      (c.1.rankA = x.job.rank && c.1.lportA = l) || (c.1.rankB = x.job.rank && c.1.lportB = l))).foldl
        (fun a c => a + 2 ^ c.2) 0

/-- A port of a running partition has left UP, and counts as DOWN for the fabric until the job restarts (R307): its detour condition is
set in every mark the module sends from then on (R332), its open entries are abandoned (R324), and rounds that waited for the
neighbour behind it go on (R327). -/
def fabricLoses (x : Part) (p : Nat) (d : Dev) : Dev :=
  let c := BitVec.ofNat 256 (cbitsOf x (logPort x p))
  let d := modPort p (fun y => { y with fabDown := true }) d
  let d := modPart x.pid (fun y => { y with fab := { y.fab with
    cbitReq := y.fab.cbitReq ||| c, marks := y.fab.marks.map (fun m => { m with cbitReq := m.cbitReq ||| c }) } }) d
  let d := abandon x.pid (fun e => e.lport = logPort x p) d
  forEach (x.fab.marks.map (·.orbit)) (fun o => advanceMarks x.pid o 130) d

/-- A port has left UP: the fabric of a running partition loses it, and before that the job loses a neighbour (Table 13.5). -/
def portLeft (p : Nat) (d : Dev) : Dev :=
  match portPart d p with
  | none => d
  | some x =>
    let l := logPort x p
    let d := if x.plan = .running then fabricLoses x p d else d
    if (declared x l).isNone then d else
    let d := modJob x.pid (fun j => { j with discOk := if j.st = .preparing || j.st = .ready then put32 j.discOk l false else j.discOk }) d
    match x.job.st with
    | .ready => modJob x.pid (fun j => { j with st := .preparing, discAt := d.clk.wall }) d
    | .armed => jobIrq x.pid (modJob x.pid (fun j => { j with st := .failed, lastFail := 4 }) d)
    | _ => d

/-- Move a port to a state, counting DOWN_NS (Table 11.13). -/
def movePort (p : Nat) (st : PortSt) (f : Port → Port) (d : Dev) : Dev :=
  let old := getPort d p
  let counts (s : PortSt) : Bool := s = .subst || s = .down
  let d := modPort p (fun y =>
    let y := match y.downAt with
      | some t => if counts st then y else
          { y with downNs := y.downNs + BitVec.ofNat 64 ((d.clk.wall - t) / grain), downAt := none }
      | none => if counts st then { y with downAt := some d.clk.wall } else y
    f { y with st := st }) d
  if old.st = .up && st ≠ .up then portLeft p d else d

/-- A port declares itself DOWN (R307): it sends DOWN for 10 us, and a DEGRADE is raised. -/
def portDown (p cause lane : Nat) (d : Dev) : Dev :=
  let d := movePort p .down (fun y => { y with
    downCause := BitVec.ofNat 3 cause, sendDown := true, downDecl := some d.clk.wall, rxSubst := false, txSubst := false
    haloReq := false, deskew := false, substAt := none, outageAt := none }) d
  raise 1 (0x500 + p) 0x0505 (portPid d p) (linkDetail 0 0 cause lane) d

/-- DARK 1 (Table 11.9): a port that is TRAINING or UP becomes DARK. -/
def setDark (p : Nat) (d : Dev) : Dev :=
  let d := modPort p (fun y => { y with darkBit := true }) d
  if (getPort d p).st = .training || (getPort d p).st = .up then movePort p .dark id d else d

/-- Lanes that the crater map marks unusable (R305). -/
def craterLanes (d : Dev) (p : Nat) : BitVec 5 :=
  BitVec.ofNat 5 ((d.crater.force.lanes.filter (fun k => k / 5 = p)).foldl (fun a k => a + 2 ^ (k % 5)) 0)

/-- Lanes of a vector, 0 to 4. -/
def laneList (v : BitVec 5) : List Nat := (List.range 5).filter (fun i => v.getLsbD i)

def laneBit (l : Nat) : BitVec 5 := BitVec.ofNat 5 (2 ^ l)

/-- Once every lane has locked or failed, stripes go to the healthy data lanes and the halo lane takes that of a failed one;
fewer than four usable lanes take the port DOWN (R308, Table 11.9). -/
def assignStripes (p : Nat) (d : Dev) : Dev :=
  let y := getPort d p
  if y.st ≠ .training || y.laneLock ||| y.laneFailed ≠ 0b11111#5 then d
  else
    match laneList y.laneFailed with
    | [] => modPort p (fun y => { y with laneUse := 0b01111#5 }) d
    | [l] =>
      if l = 4 then modPort p (fun y => { y with laneUse := 0b01111#5, haloFail := true }) d
      else modPort p (fun y => { y with
        laneUse := 0b11111#5 &&& ~~~laneBit l, haloUsed := true, haloStripe := BitVec.ofNat 3 l
        haloAck := true, ackLane := BitVec.ofNat 3 l }) d
    | _ => portDown p 4 7 d

/-- A port enters TRAINING (R308): its lanes are acquired anew, but for those the crater map marks, which have failed. DARK holds it
DARK, and so does the MP while the job runs (R352). -/
def enterTraining (p : Nat) (d : Dev) : Dev :=
  let failed := craterLanes d p
  let d := movePort p .training (fun y => { y with
    foreign := false, trainTimeout := false, haloUsed := false, haloFail := false, haloStripe := 7#3
    rxSubst := false, txSubst := false, downCause := 0, laneLock := 0, laneUse := 0, laneFailed := failed, lostAt := []
    outageAt := none, lasers := true, sendDown := false, haloReq := false, reqLane := 0, haloAck := false, ackLane := 0
    deskew := false, substAt := none, downDecl := none, trainAt := d.clk.wall, matchCells := 0, farMatch := false }) d
  let run := match portPart d p with
    | some x => x.job.st = .running && mpUp d
    | none => false
  if run || (getPort d p).darkBit then setDark p d else assignStripes p d

/-- DARK 0 (Table 11.9). -/
def clearDark (p : Nat) (d : Dev) : Dev :=
  let d := modPort p (fun y => { y with darkBit := false }) d
  if (getPort d p).st = .dark then enterTraining p d else d

/-- A write of JOB_ID (Table 11.9): unless the port is OFF, training starts. -/
def writeJobId (p : Nat) (v : BitVec 32) (d : Dev) : Dev :=
  let d := modPort p (fun y => { y with jobTag := v.setWidth 16, jobEpoch := (v >>> 16).setWidth 16 }) d
  if (getPort d p).st = .off then d else enterTraining p d

/-- Job discovery fails (Table 13.5): every port of the partition is held DARK, and the job interrupt is raised. -/
def failDiscovery (pid reason : Nat) : Dev → Dev := withPart pid fun x d =>
  let d := setPart pid { x with job := { x.job with st := .failed, lastFail := BitVec.ofNat 8 reason } } d
  jobIrq pid (forEach (partPorts x) setDark d)

/-- Judge the declared ports of a partition whose job is PREPARING (Table 13.4): every one good makes the job READY. -/
def allGood (pid : Nat) : Dev → Dev := withPart pid fun x d =>
  if x.job.st = .preparing && (facing x).all (fun e => x.job.discOk.getLsbD e.1) then
    jobIrq pid (setPart pid { x with job := { x.job with st := .ready } } d)
  else d

/-- A port has gone UP: a declared port of a PREPARING job is good, or miswired (Table 13.4). -/
def discover (p : Nat) (d : Dev) : Dev :=
  match portPart d p with
  | none => d
  | some x =>
    let l := logPort x p
    match declared x l with
    | none => d
    | some f =>
      if x.job.st ≠ .preparing then d
      else if fld (getPort d p).farId.toNat 0 14 = f then
        allGood x.pid (modJob x.pid (fun j => { j with
          discOk := put32 j.discOk l true, discMissing := put32 j.discMissing l false
          discForeign := put32 j.discForeign l false }) d)
      else failDiscovery x.pid 2 (modJob x.pid (fun j => { j with discMiswired := put32 j.discMiswired l true }) d)

/-- What a port that has come UP meets: DARK holds it DARK instead, and a job that prepares judges it. -/
def settleUp (p : Nat) (d : Dev) : Dev := if (getPort d p).darkBit then setDark p d else discover p d

/-- The transmit direction has moved a stripe to LANE[4], from the cell after the request (R306): it leaves substitution. -/
def endMove (p : Nat) (d : Dev) : Dev :=
  if !(getPort d p).txSubst then d
  else
    let d := modPort p (fun y => { y with txSubst := false }) d
    if (getPort d p).st = .subst && !(getPort d p).rxSubst then settleUp p (movePort p .up id d) else d

/-- A port goes UP (R308); DARK holds it DARK instead. -/
def portUp (p : Nat) (d : Dev) : Dev :=
  let d := movePort p .up (fun y => { y with matchCells := 0 }) d
  let d := if (getPort d p).haloUsed then
      raise 1 (0x500 + p) 0x0503 (portPid d p) (linkDetail 0 0 0 (getPort d p).haloStripe.toNat) d
    else d
  settleUp p d

end Sys2Proof.Machine
end

