-- ==== Sys2Proof/Machine/Operands.lean ====
section
/-!
DEFINITION. The forms in which operands are read and results written (chapters 2 and 4): the number formats of Table
2.1, exact values, the single rounding of R62 and R63, conversion words, long sums and their addition, and vectors.
Each function that rounds or forms a term also says which ARITH_STATUS flags it sets.
-/

namespace Sys2Proof.Machine

open Sys2Proof

/-! ### Flags that arithmetic sets (Table 2.8) -/

/-- A set of ARITH_STATUS flags, bit numbers as in Table 2.8. -/
abbrev Fl := BitVec 9

def flWuf : Fl := 0x001#9
def flWloss : Fl := 0x002#9
def flTovf : Fl := 0x004#9
def flAovf : Fl := 0x008#9
def flNan : Fl := 0x010#9
def flInf : Fl := 0x020#9
def flOvf : Fl := 0x040#9
def flUf : Fl := 0x080#9
def flInexact : Fl := 0x100#9

/-- A set of flags, where a condition holds. -/
def flIf (b : Bool) (f : Fl) : Fl := if b then f else 0

/-! ### Values and formats -/

/-- An exact value: NaN, an infinity, or (-1)^neg * m * 2^e, where m = 0 is a signed zero (R47). -/
inductive Val where
  | nan
  | inf (neg : Bool)
  | fin (neg : Bool) (m : Nat) (e : Int)
  deriving DecidableEq, Repr

/-- A floating-point layout (Table 2.2): widths of E and M, bias, code of the largest finite magnitude, code of +infinity
where there is one, canonical NaN, and whether E4M3's rule for NaN applies. -/
structure FloatFmt where
  eb : Nat
  mb : Nat
  bias : Int
  max : Nat
  inf : Option Nat
  nan : Nat
  nanTop : Bool
  deriving DecidableEq, Repr

/-- The layout of a floating format code 0x0 to 0x6 (Table 2.1); any other code is read as FP32. -/
def floatFmt (code : Nat) : FloatFmt :=
  match code with
  | 0 => ⟨4, 3, 7, 0x7E, none, 0x7F, true⟩
  | 1 => ⟨5, 2, 15, 0x7B, some 0x7C, 0x7E, false⟩
  | 2 => ⟨3, 2, 3, 0x1F, none, 0, false⟩
  | 3 => ⟨2, 3, 1, 0x1F, none, 0, false⟩
  | 4 => ⟨2, 1, 1, 0x7, none, 0, false⟩
  | 5 => ⟨8, 7, 127, 0x7F7F, some 0x7F80, 0x7FC0, false⟩
  | _ => ⟨8, 23, 127, 0x7F7FFFFF, some 0x7F800000, 0x7FC00000, false⟩

/-- Bits of one value of a format code (Table 2.1). -/
def elemBits (code : Nat) : Nat :=
  match code with
  | 2 | 3 | 0xB | 0xC => 6
  | 4 | 0xD => 4
  | 5 => 16
  | 6 | 8 => 32
  | 0xF => 96
  | _ => 8

/-- Bytes of a vector of 32 values (Table 4.1). -/
def vecBytes (code : Nat) : Nat := 4 * elemBits code

/-- The scalar format of the elements of an MX format code. -/
def mxElem (code : Nat) : Nat := if code = 0xE then 7 else code - 9

/-- The format code is an MX block format. -/
def isMx (code : Nat) : Bool := 9 ≤ code && code ≤ 0xE

/-- Read a floating-point code exactly (R46, R47). -/
def readFloat (f : FloatFmt) (v : Nat) : Val :=
  let neg := bit v (f.eb + f.mb)
  let e := fld v f.mb f.eb
  let m := fld v 0 f.mb
  if f.nanTop && e = 2 ^ f.eb - 1 && m = 2 ^ f.mb - 1 then .nan
  else if f.inf.isSome && e = 2 ^ f.eb - 1 then (if m = 0 then .inf neg else .nan)
  else if e = 0 then .fin neg m (1 - f.bias - f.mb)
  else .fin neg (m + 2 ^ f.mb) (e - f.bias - f.mb)

/-- An integer as a value. -/
def intVal (i : Int) : Val := .fin (i < 0) i.natAbs 0

/-- A two's-complement number of n bits. -/
def toInt (n v : Nat) : Int := if bit v (n - 1) then (v : Int) - 2 ^ n else v

/-- Read one value of a scalar or MX-element format code. -/
def readElem (code v : Nat) : Val :=
  match code with
  | 7 | 0xE => intVal (toInt 8 v)
  | 8 => intVal (toInt 32 v)
  | _ => readFloat (floatFmt (if isMx code then mxElem code else code)) v

/-! ### Rounding -/

/-- A rounding mode of Table 2.6: to nearest even, toward zero, toward +infinity, toward -infinity. -/
abbrev Round := BitVec 2

/-- m * 2^s rounded to an integer magnitude, and whether anything nonzero was discarded. -/
def roundShift (mode : Round) (neg : Bool) (m : Nat) (s : Int) : Nat × Bool :=
  match s with
  | .ofNat k => (m * 2 ^ k, false)
  | .negSucc k =>
    let d := 2 ^ (k + 1)
    let q := m / d
    let r := m % d
    let up := match mode.toNat with
      | 0 => decide (d < 2 * r) || (decide (2 * r = d) && q % 2 = 1)
      | 1 => false
      | 2 => !neg && r ≠ 0
      | _ => neg && r ≠ 0
    (if up then q + 1 else q, r ≠ 0)

/-- Round m * 2^e, m above 0, into a floating format: the magnitude's code before any check of overflow, and whether the
rounding was inexact (R62). -/
def roundMag (f : FloatFmt) (mode : Round) (neg : Bool) (m : Nat) (e : Int) : Nat × Bool :=
  let k : Int := (Nat.log2 m : Int) + e
  let q : Int := max k (1 - f.bias) - f.mb
  let (r, x) := roundShift mode neg m (e - q)
  (((q + f.mb + f.bias - 1) * 2 ^ f.mb + r).toNat, x)

/-- Put the sign on a magnitude's code. -/
def withSign (f : FloatFmt) (neg : Bool) (c : Nat) : Nat := c + b2n neg * 2 ^ (f.eb + f.mb)

/-- The code of an overflow (R63): FP8 targets saturate with SATF; E4M3 has a NaN in place of an infinity. -/
def overflowCode (code : Nat) (mode : Round) (satf neg : Bool) : Nat :=
  let f := floatFmt code
  let big := match mode.toNat with
    | 0 => true
    | 1 => false
    | 2 => !neg
    | _ => neg
  if (satf && code < 2) || !big then withSign f neg f.max
  else match f.inf with
    | some i => withSign f neg i
    | none => f.nan

/-- Round a finite value once into a floating format (R62, R63): the code and the flags. -/
def roundFloat (code : Nat) (mode : Round) (satf neg : Bool) (m : Nat) (e : Int) : Nat × Fl :=
  let f := floatFmt code
  if m = 0 then (withSign f neg 0, 0)
  else
    let (c, x) := roundMag f mode neg m e
    if f.max < c then (overflowCode code mode satf neg, flOvf)
    else (withSign f neg c, flIf x flInexact ||| flIf (x && c < 2 ^ f.mb) flUf)

/-- Round a finite value into INT8 or INT32 and clamp (R62): the code and the flags. -/
def roundInt (code : Nat) (mode : Round) (neg : Bool) (m : Nat) (e : Int) : Nat × Fl :=
  let w := elemBits code
  let (r, x) := roundShift mode neg m e
  let lim := 2 ^ (w - 1)
  if neg then
    if lim < r then (lim, flOvf) else ((2 ^ w - r) % 2 ^ w, flIf x flInexact)
  else if lim ≤ r then (lim - 1, flOvf) else (r, flIf x flInexact)

/-! ### Conversion words (Table 2.6) -/

/-- ANCHOR of a conversion word. -/
def convAnchor (c : BitVec 32) : Int := (c.extractLsb' 0 10).toInt
def convShift (c : BitVec 32) : Int := (c.extractLsb' 10 8).toInt
def convRound (c : BitVec 32) : Round := c.extractLsb' 18 2
def convSatf (c : BitVec 32) : Bool := c.getLsbD 20
def convFmt (c : BitVec 32) : Nat := fld c.toNat 21 4

/-- A reserved bit is set, or OUT_FMT is outside R61 (R65). -/
def convBad (c : BitVec 32) : Bool :=
  fld c.toNat 25 7 ≠ 0 || !(match convFmt c with
    | 0 | 1 | 5 | 6 | 7 | 8 | 0xF => true
    | _ => false)

/-- The format a conversion word writes: FP32 where it is bad (R65). -/
def convOut (c : BitVec 32) : Nat := if convBad c then 6 else convFmt c

/-! ### Long sums (R53 to R57) -/

/-- Bits 95:94 are equal: the long sum is ordinary (R53). -/
def lsOrd (x : LongSum) : Bool := x.getLsbD 95 == x.getLsbD 94

/-- A special long sum with the flags NAN 1, PINF 2, NINF 4, SAT 8 (R54). -/
def lsSpecial (f : BitVec 4) : LongSum := 0x800000000000000000000000#96 ||| f.setWidth 96

/-- Neither ordinary nor a well-formed special (R54). -/
def lsMalformed (x : LongSum) : Bool :=
  !lsOrd x && !(x.getLsbD 95 && x.extractLsb' 4 90 = 0#90 && x.extractLsb' 0 4 ≠ 0#4)

/-- A long sum as a unit reads it: a malformed one is a special with SAT alone (R54). -/
def lsRead (x : LongSum) : LongSum := if lsMalformed x then lsSpecial 8#4 else x

/-- The integer of an ordinary long sum. -/
def lsInt (x : LongSum) : Int := x.toInt

/-- Long-sum addition (Table 2.4). Two ordinary long sums add without leaving 96 bits, so the sum is ordinary just where
the exact sum lies in [-2^94, 2^94). -/
def lsAdd (x y : LongSum) : LongSum × Fl :=
  match lsOrd x, lsOrd y with
  | true, true => if lsOrd (x + y) then (x + y, 0) else (lsSpecial 8#4, flAovf)
  | true, false => (y, 0)
  | false, true => (x, 0)
  | false, false => (x ||| y, 0)

/-- One term from an exact product under an anchor (R56). -/
def lsTerm (anchor : Int) (p : Val) : LongSum × Fl :=
  match p with
  | .nan => (lsSpecial 1#4, 0)
  | .inf neg => (lsSpecial (if neg then 4#4 else 2#4), 0)
  | .fin neg m e =>
    if m ≠ 0 && decide (anchor + 1 ≤ (Nat.log2 m : Int) + e) then (lsSpecial 8#4, flTovf)
    else
      let (t, x) := roundShift 1#2 false m (e - (anchor - 71))
      (BitVec.ofInt 96 (if neg then -(t : Int) else t), flIf x flWloss ||| flIf (t = 0 && m ≠ 0) flWuf)

/-- A special long sum at conversion (R64, Table 2.7), by the first row that its flags match. -/
def convSpecial (code : Nat) (satf : Bool) (f : BitVec 4) : Nat :=
  let p := f.getLsbD 1
  let n := f.getLsbD 2
  let nan := f.getLsbD 0 || p == n
  match code with
  | 8 => if nan then 0x80000000 else if p then 0x7FFFFFFF else 0x80000000
  | 7 => if nan then 0x80 else if p then 0x7F else 0x80
  | _ =>
    let fm := floatFmt code
    if nan then fm.nan
    else if satf && code < 2 then withSign fm n fm.max
    else match fm.inf with
      | some i => withSign fm n i
      | none => fm.nan

/-- An infinity is written as a finite code: the target is an integer, or FP8 with SATF (Table 2.7, R461). -/
def infClamps (code : Nat) (satf : Bool) : Bool := code = 7 || code = 8 || (code < 2 && satf)

/-- The flags of a special long sum at conversion: PINF or NINF written as a finite code is a clamp (Table 2.8, R461). Log entry
65. -/
def specialFlags (code : Nat) (satf : Bool) (f : BitVec 4) : Fl :=
  flIf (infClamps code satf && !f.getLsbD 0 && f.getLsbD 1 != f.getLsbD 2) flOvf

/-- Convert a long sum by a conversion word (R62 to R65): the code, in format `convOut`, and the flags. A bad conversion word sets
NAN_IN here, where something is converted, and nowhere else (log entry 171). -/
def lsConv (c : BitVec 32) (x : LongSum) : Nat × Fl :=
  if convBad c then (0x7FC00000, flNan)
  else if convFmt c = 0xF then (x.toNat, 0)
  else
    let x := lsRead x
    if !lsOrd x then
      (convSpecial (convFmt c) (convSatf c) (x.extractLsb' 0 4), specialFlags (convFmt c) (convSatf c) (x.extractLsb' 0 4))
    else if x = 0 then (0, 0)
    else
      let i := x.toInt
      let e := convAnchor c - 71 + convShift c
      if convFmt c = 7 || convFmt c = 8 then roundInt (convFmt c) (convRound c) (i < 0) i.natAbs e
      else roundFloat (convFmt c) (convRound c) (convSatf c) (i < 0) i.natAbs e

/-! ### Exact operations on values -/

/-- A finite value's integer at an exponent no greater than its own. -/
def atExp (neg : Bool) (m : Nat) (e e0 : Int) : Int :=
  let i : Int := (m * 2 ^ (e - e0).toNat : Nat)
  if neg then -i else i

/-- Exact product (R52): NaN with a NaN, or zero with an infinity. -/
def vMul (a b : Val) : Val :=
  match a, b with
  | .nan, _ => .nan
  | _, .nan => .nan
  | .inf s, .inf t => .inf (s != t)
  | .inf s, .fin t m _ => if m = 0 then .nan else .inf (s != t)
  | .fin s m _, .inf t => if m = 0 then .nan else .inf (s != t)
  | .fin s m e, .fin t n f => .fin (s != t) (m * n) (e + f)

/-- Exact sum, with the sign of zero of IEEE 754 under round to nearest (R74). -/
def vAdd (a b : Val) : Val :=
  match a, b with
  | .nan, _ => .nan
  | _, .nan => .nan
  | .inf s, .inf t => if s = t then .inf s else .nan
  | .inf s, _ => .inf s
  | _, .inf t => .inf t
  | .fin s m e, .fin t n f =>
    let e0 := min e f
    let i := atExp s m e e0 + atExp t n f e0
    if i = 0 then .fin (s && t && decide (m = 0) && decide (n = 0)) 0 0 else .fin (i < 0) i.natAbs e0

/-- Change of sign. -/
def vNeg (a : Val) : Val :=
  match a with
  | .nan => .nan
  | .inf s => .inf (!s)
  | .fin s m e => .fin (!s) m e

/-- Rank in the total order of R129: class and signed magnitude at a common exponent. -/
def vLt (a b : Val) : Bool :=
  match a, b with
  | .nan, _ => false
  | _, .nan => true
  | .inf s, .inf t => s && !t
  | .inf s, .fin _ _ _ => s
  | .fin _ _ _, .inf t => !t
  | .fin s m e, .fin t n f =>
    let e0 := min e f
    let i := atExp s m e e0
    let j := atExp t n f e0
    if i = j then s && !t && decide (m = 0) else decide (i < j)

/-- Flags of operands (Table 2.8): a NaN, an infinity. -/
def vFlags (a : Val) : Fl :=
  match a with
  | .nan => flNan
  | .inf _ => flInf
  | .fin _ _ _ => 0

/-- A value rounded to FP32, to nearest even, as a value again, with the rounding's flags. -/
def f32Round (v : Val) : Val × Fl :=
  match v with
  | .fin neg m e =>
    let (c, fl) := roundFloat 6 0#2 false neg m e
    (readFloat (floatFmt 6) c, fl)
  | v => (v, 0)

/-- The FP32 operations fp32(·) of R138 to R140. -/
def fAdd (a b : Val) : Val := (f32Round (vAdd a b)).1
def fMul (a b : Val) : Val := (f32Round (vMul a b)).1

/-- The FP32 code of a value that FP32 holds. -/
def f32Code (v : Val) : Nat :=
  match v with
  | .nan => 0x7FC00000
  | .inf neg => withSign (floatFmt 6) neg 0x7F800000
  | .fin neg m e => (roundFloat 6 0#2 false neg m e).1

/-- Write an FP32 result into FO (R126): to nearest even, E4M3 and E5M2 saturating; `pre` are the flags of the FP32
rounding, which stand beside those of the rounding into FO. -/
def toFo (fo : Nat) (pre : Fl) (v : Val) : Nat × Fl :=
  let f := floatFmt fo
  match v with
  | .nan => (f.nan, 0)
  | .inf neg => if fo < 2 then (withSign f neg f.max, flOvf ||| pre) else (withSign f neg (f.inf.getD 0), pre)
  | .fin neg m e =>
    let (c, fl) := roundFloat fo 0#2 true neg m e
    let both := fl ||| pre
    (c, both ||| flIf (fl ≠ flOvf && both &&& flInexact ≠ 0 && c % 2 ^ (f.eb + f.mb) < 2 ^ f.mb) flUf)

/-- A floating result: rounded to FP32, then into FO (R126). -/
def foResult (fo : Nat) (v : Val) : Nat × Fl :=
  let (r, fl) := f32Round v
  toFo fo fl r

/-- An integer result (R126): modulo 2^32, clamped for an INT8 FO. -/
def intResult (fo : Nat) (i : Int) : Nat × Fl :=
  let w := BitVec.ofInt 32 i
  if fo = 7 then
    let j := w.toInt
    if j < -128 then (0x80, flOvf) else if 127 < j then (0x7F, flOvf) else ((BitVec.ofInt 8 j).toNat, 0)
  else (w.toNat, 0)

/-! ### Vectors (R114, R115) -/

/-- The 32 codes of a vector: the first V bytes, missing bytes 0. -/
def lanes (code : Nat) (bytes : List Byte) : List Nat :=
  let v := leNat (bytes.take (vecBytes code))
  let w := elemBits code
  (List.range 32).map (fun j => fld v (j * w) w)

/-- The vector that 32 codes make. -/
def packLanes (code : Nat) (cs : List Nat) : List Byte :=
  toLe (vecBytes code) (cs.foldr (fun c a => c % 2 ^ elemBits code + 2 ^ elemBits code * a) 0)

/-- The 32 values of a vector. -/
def laneVals (code : Nat) (bytes : List Byte) : List Val := (lanes code bytes).map (readElem code)

/-- The 32 long sums of a vector. -/
def laneSums (bytes : List Byte) : List LongSum := (lanes 0xF bytes).map (BitVec.ofNat 96)

/-- Codes and flags of 32 results, packed. -/
def packResults (code : Nat) (rs : List (Nat × Fl)) : List Byte × Fl :=
  (packLanes code (rs.map (·.1)), rs.foldl (fun a r => a ||| r.2) 0)

end Sys2Proof.Machine
end

