-- ==== Sys2Proof/Machine/Flags.lean ====
section
/-!
DEFINITION. The two flag registers of a tile: ARITH_STATUS (R66, R67) and SEQ_STATUS (R113), how a command sets them and
how a write or the MP clears them.
-/

namespace Sys2Proof.Machine

open Sys2Proof

/-- Flags of ARITH_STATUS that FIRST_IDX watches: TOVF, AOVF and NAN_IN. -/
def arithWatch : BitVec 32 := 0x1C#32

/-- Flags of SEQ_STATUS. -/
def sqOvf : BitVec 32 := 0x01#32
def sqUnf : BitVec 32 := 0x02#32
def sqOverrun : BitVec 32 := 0x04#32
def sqNest : BitVec 32 := 0x08#32
def sqEngOvl : BitVec 32 := 0x10#32
def sqBadop : BitVec 32 := 0x20#32
def seqWatch : BitVec 32 := 0x3F#32

/-- Set flags of a status register; the first command to set one of the watched flags stands in bits 31:16, which read 0xFFFF
while none has. -/
def setFlags (watch fl : BitVec 32) (idx : Option Nat) (r : BitVec 32) : BitVec 32 :=
  let old := r.extractLsb' 16 16
  let first := match idx with
    | some i => if old = 0xFFFF#16 && fl &&& watch ≠ 0 then BitVec.ofNat 16 i else old
    | none => old
  (first ++ (r.extractLsb' 0 16 ||| fl.extractLsb' 0 16) : BitVec 32)

/-- Clear flags of a status register (R67): a flag set in the present tick stays set, and FIRST_IDX returns to 0xFFFF when the
watched flags are all clear. -/
def clearFlags (watch mask : BitVec 32) (new : BitVec 16) (r : BitVec 32) : BitVec 32 :=
  let low := r.extractLsb' 0 16 &&& (new ||| ~~~ (mask.extractLsb' 0 16))
  let first := if low.setWidth 32 &&& watch = 0 then 0xFFFF#16 else r.extractLsb' 16 16
  (first ++ low : BitVec 32)

/-- A command sets arithmetic flags of its tile. -/
def setArith (idx : Nat) (fl : Fl) (t : Tile) : Tile :=
  { t with
    arithStatus := setFlags arithWatch (fl.setWidth 32) (some idx) t.arithStatus, arithNew := t.arithNew ||| fl.setWidth 16 }

/-- A command sets sequencing flags of its tile. -/
def setSeq (idx : Nat) (fl : BitVec 32) (t : Tile) : Tile :=
  { t with seqStatus := setFlags seqWatch fl (some idx) t.seqStatus, seqNew := t.seqNew ||| fl.setWidth 16 }

/-- A mesh arrival sets a sequencing flag and leaves FIRST_IDX as it stands (R113). -/
def setSeqMesh (fl : BitVec 32) (t : Tile) : Tile :=
  { t with seqStatus := setFlags seqWatch fl none t.seqStatus, seqNew := t.seqNew ||| fl.setWidth 16 }

end Sys2Proof.Machine
end

