-- ==== Sys2Proof/Machine/Queues.lean ====
section
/-!
DEFINITION. Queue ends (R96 to R99, Table 3.7) over the rings in the scratchpad (R146), with the parity of scratchpad
bytes and the tags of slot-tagging mode (R40, R41).
-/

namespace Sys2Proof.Machine

open Sys2Proof

/-- A HALT a tile raises (Table 3.12): HALT_CAUSE, command index, queue, tag found. -/
structure HaltEv where
  cause : Nat
  idx : Nat
  q : Nat
  found : Nat
  deriving DecidableEq, Repr

/-- A tile at work in one tick: the tile, its number, the plan hash where the plan is tagged, and the HALTs raised. -/
structure Work where
  t : Tile
  no : Nat
  tag : Option Hash
  bad : List HaltEv
  deriving DecidableEq, Repr

/-- Element width in bytes of a width code (Table 5.3). -/
def elemWidth (w : Nat) : Nat :=
  match w with
  | 1 => 1
  | 2 => 16
  | 3 => 24
  | 4 => 32
  | 5 => 64
  | 6 => 128
  | 7 => 384
  | _ => 0

/-- Bytes of a ring slot (Table 5.3; scales are packed 16 per word). -/
def slotBytes (w : Nat) : Nat :=
  match w with
  | 1 => 1
  | 2 => 16
  | 3 => 32
  | 4 => 32
  | 5 => 64
  | 6 => 128
  | 7 => 384
  | _ => 0

/-- Scratchpad byte address of the element with push index i (R146). -/
def slotAddr (x : Queue) (i : Nat) : Nat := x.base * 16 + i % x.depth * slotBytes x.wcode

/-- Append an element whose queue has room: its bytes, with the parity they have; `bad` lists the bytes whose parity is wrong, by
their place in the element. -/
def enqueue (q : Nat) (bytes : List Byte) (bad : List Nat) (tag : Option (BitVec 16)) (t : Tile) : Tile :=
  let x := getQ t q
  let n := elemWidth x.wcode
  let a := slotAddr x x.pushed
  let t := { t with
    spad := wrBs t.spad a (padTo n bytes)
    spadBad := ((bad.filter (fun k => decide (k < n))).map (a + ·)).foldl insertNat
      (t.spadBad.filter (fun b => decide (b < a) || decide (a + n ≤ b))) }
  setQ q { x with
    pushed := x.pushed + 1, count := x.count + 1, tags := match tag with | some g => x.tags ++ [g] | none => x.tags } t

/-- The queue has room for an element. -/
def hasRoom (x : Queue) : Bool := decide (x.count < x.depth)

/-- Push by a tile command (Table 3.7): into a plan queue with room, else discarded with QOVF, which in slot-tagging mode
is a HALT. The HALT's history entry shows the pushing command's index as the expected one and 0 as the tag found: the model's choice
(log entry 176). -/
def push (q idx : Nat) (bytes : List Byte) (w : Work) : Work :=
  let x := getQ w.t q
  if 24 ≤ q then { w with t := setSeq idx sqOvf w.t }
  else if hasRoom x then
    { w with t := enqueue q bytes [] (w.tag.map (fun h => Config.slotTag h w.no q x.pushed)) w.t }
  else if w.tag.isSome then { w with bad := w.bad ++ [⟨5, idx, q, 0⟩] }
  else { w with t := setSeq idx sqOvf w.t }

/-- The oldest k elements of a queue, in order. -/
def peek (t : Tile) (x : Queue) : Nat → Nat → List (List Byte)
  | _, 0 => []
  | i, k + 1 => rdBs t.spad (slotAddr x i) (elemWidth x.wcode) :: peek t x (i + 1) k

/-- The bytes of the element with push index i whose parity is bad, by their place in the element. -/
def badBytes (t : Tile) (x : Queue) (i : Nat) : List Nat :=
  (t.spadBad.filter (fun b => decide (slotAddr x i ≤ b) && decide (b < slotAddr x i + elemWidth x.wcode))).map (· - slotAddr x i)

/-- A byte of one of k elements from push index i has bad parity. -/
def badIn (t : Tile) (x : Queue) : Nat → Nat → Bool
  | _, 0 => false
  | i, k + 1 => t.spadBad.any (fun b => decide (slotAddr x i ≤ b) && decide (b < slotAddr x i + elemWidth x.wcode)) ||
    badIn t x (i + 1) k

/-- Pop n elements (Table 3.7): missing ones are zero bytes. `recv` lets a decoupling queue be popped. -/
def pop (q n idx : Nat) (recv : Bool) (w : Work) : List (List Byte) × Work :=
  let x := getQ w.t q
  let zero := List.replicate (elemWidth x.wcode) (0 : Byte)
  if n = 0 then ([], w)
  else if 24 ≤ q && !recv then (List.replicate n zero, { w with t := setSeq idx sqUnf w.t })
  else
    let k := min n x.count
    let first := x.pushed - x.count
    let short := decide (k < n)
    let wrong := (x.tags.take k).find? (fun g => g ≠ BitVec.ofNat 16 idx)
    let bad := (if badIn w.t x first k then [⟨3, idx, q, 0⟩] else []) ++
      (if w.tag.isSome then
        (match wrong with | some g => [⟨4, idx, q, g.toNat⟩] | none => []) ++ (if short then [⟨6, idx, q, 0xFFFF⟩] else [])
       else [])
    let t := setQ q { x with count := x.count - k, tags := x.tags.drop k } w.t
    let t := if short && w.tag.isNone then setSeq idx sqUnf t else t
    (peek w.t x first k ++ List.replicate (n - k) zero, { w with t := t, bad := w.bad ++ bad })

/-- Pop one element. -/
def pop1 (q idx : Nat) (w : Work) : List Byte × Work :=
  let (l, w) := pop q 1 idx false w
  (l.headD [], w)

/-- The scale queue of a queue (R114). -/
def scaleQ (q : Nat) : Nat := (q + 1) % 24

/-- Set arithmetic flags from a command. -/
def flag (idx : Nat) (fl : Fl) (w : Work) : Work := if fl = 0 then w else { w with t := setArith idx fl w.t }

end Sys2Proof.Machine
end

