-- ==== Sys2Proof/Machine/Units.lean ====
section
/-!
DEFINITION. The three compute units tick by tick (chapter 4): the matrix unit (R118 to R124, R134), the vector unit (R125
to R130, R135) and the function unit (R131 to R140), with what a command that ends an earlier one leaves of it (R117).
-/

namespace Sys2Proof.Machine

open Sys2Proof

/-! ### The matrix unit -/

/-- Mode of a pair of formats (Table 4.3): 0 FP4, 1 FP8, 2 INT8, 3 BF16. -/
def matMode (fa fb : Nat) : Option Nat :=
  let four (c : Nat) := c == 4 || c == 0xD
  let fp (c : Nat) := c ≤ 4 || (9 ≤ c && c ≤ 0xD)
  let int8 (c : Nat) := c == 7 || c == 0xE
  if four fa && four fb then some 0
  else if fp fa && fp fb then some 1
  else if int8 fa && int8 fb then some 2
  else if fa = 5 && fb = 5 then some 3
  else none

/-- LW: ticks that fill the stationary array for one step (Table 4.3). -/
def matLw (c : MatCmd) : Nat := if c.fa = 5 then 2 else 1

/-- TC: ticks per column and step. -/
def matTc (c : MatCmd) : Nat := if c.fa = 5 then 4 else 1

/-- The command runs in FP4 mode: two steps at a time. -/
def matFour (c : MatCmd) : Bool := matMode c.fa c.fb == some 0

/-- Steps, or step pairs. -/
def matSteps (c : MatCmd) : Nat := if matFour c then (c.kb + 1) / 2 else c.kb

/-- Ticks of one step (Table 4.4). -/
def matStepTicks (c : MatCmd) : Nat := max (matLw c) (c.cols * matTc c)

/-- S: streaming ticks (R120). -/
def matS (c : MatCmd) : Nat := matSteps c * matStepTicks c

/-- Vectors per row (and per column) that step j takes: two in FP4 mode, but one in a last odd step (R121). -/
def matHalves (c : MatCmd) (j : Nat) : Nat := if matFour c && 2 * j + 1 < c.kb then 2 else 1

/-- Pop n vectors of an operand with their scales; an operand that is not MX has scale 1, and so has its latch entry where a HOLDB
MATQ reads it as MX (R122; log entry 172). -/
def popScaled (q n fmt idx : Nat) (w : Work) : List Scaled × Work :=
  let (vs, w) := pop q n idx false w
  if isMx fmt then
    let (ss, w) := pop (scaleQ q) n idx false w
    ((vs.zip ss).map (fun p => ⟨p.1, p.2.headD 0⟩), w)
  else (vs.map (fun v => ⟨v, 0x7F⟩), w)

/-- Latch entries from index i, zeros with QUNF beyond those recorded (R122). -/
def fromLatch (i n idx : Nat) (w : Work) : List Scaled × Work :=
  let got := (w.t.mat.latch.drop i).take n
  let w := if got.length < n then { w with t := setSeq idx sqUnf w.t } else w
  (got ++ List.replicate (n - got.length) ⟨List.replicate 128 0, 0⟩, w)

/-- The value of an element under its block's scale (R48, R49). -/
def scaleVal (s : Byte) (v : Val) : Val :=
  if s = 0xFF then .nan else
  match v with
  | .fin neg m e => .fin neg m (e + s.toNat - 127)
  | v => v

/-- The values of a vector under its scale. -/
def scaledVals (fmt : Nat) (s : Scaled) : List Val :=
  if isMx fmt then (laneVals fmt s.bytes).map (scaleVal s.scale) else laneVals fmt s.bytes

/-- Add the terms of products into a long sum (R56, R57), one by one in the order given, which is element 0 first: the order tells
only where a partial sum leaves the range (log entry 173). -/
def addTerms (anchor : Int) (ps : List Val) (acc : LongSum × Fl) : LongSum × Fl :=
  ps.foldl (fun a p =>
    let t := lsTerm anchor p
    let s := lsAdd a.1 t.1
    (s.1, a.2 ||| vFlags p ||| t.2 ||| s.2)) acc

/-- The products of a row: each of its vectors with the column's vector of the same step. -/
def rowProducts (f : MatFlight) (r : Nat) : List Val :=
  let h := f.rows.length / 64
  (List.range h).flatMap (fun i =>
    match f.rows[r * h + i]?, f.bs[i]? with
    | some a, some b => List.zipWith vMul (scaledVals f.fa a) (scaledVals f.fb b)
    | _, _ => [])

/-- The products of a column and step land in ACC (R120). -/
def landMat (f : MatFlight) (w : Work) : Work :=
  (List.range 64).foldl (fun w r =>
    let k := r * 32 + f.col
    let (s, fl) := addTerms (convAnchor f.conv) (rowProducts f r) ((tget w.t.mat.acc k).getD 0, 0)
    flag f.idx fl { w with t := { w.t with mat := { w.t.mat with acc := tput w.t.mat.acc k s } } }) w

/-- One vector of a drain: lanes of rows at or above NR are zero bytes (R123). -/
def drainVec (m : MatUnit) (d : MatDrain) (col half : Nat) : List Byte × Fl :=
  packResults (convOut d.conv) ((List.range 32).map (fun i =>
    let r := 32 * half + i
    if r < d.rows then lsConv d.conv ((tget m.acc (r * 32 + col)).getD 0) else (0, 0)))

/-- The vectors of a drain, in push order (R123). -/
def drainAll (m : MatUnit) (d : MatDrain) : List (List Byte × Fl) :=
  (List.range d.cols).flatMap (fun c => (List.range ((d.rows + 31) / 32)).map (drainVec m d c))

/-- A drain begins: ACC as it stands is converted, and its vectors go out one per tick. The flags of the whole drain appear at its
first push tick (log entry 174). -/
def beginDrain (now : Nat) (w : Work) : Work :=
  match w.t.mat.drain with
  | some d =>
    if d.at_ ≠ now then w else
    let vs := drainAll w.t.mat d
    let items := vs.zipIdx.map (fun p => (⟨now + p.2, d.qd, p.1.1, d.idx⟩ : PipeItem))
    let w := { w with t := { w.t with mat := { w.t.mat with drain := none }, matPipe := w.t.matPipe ++ items } }
    flag d.idx (vs.foldl (fun a v => a ||| v.2) 0) w
  | none => w

/-- Products that are due land in ACC: what the matrix unit does before its pushes of a tick. -/
def matLand (now : Nat) (w : Work) : Work :=
  let m := w.t.mat
  let due := m.flight.filter (fun f => decide (f.at_ ≤ now))
  let w := { w with t := { w.t with mat := { m with flight := m.flight.filter (fun f => decide (now < f.at_)) } } }
  due.foldl (fun w f => landMat f w) w

/-- The rows of the stationary array popped in the i-th tick of a window (R121), as the count of vectors. -/
def statPop (c : MatCmd) (j i : Nat) (w : Work) : Work :=
  let n := (64 * (i + 1) / matLw c - 64 * i / matLw c) * matHalves c j
  let (vs, w) := popScaled c.qa n c.fa c.idx w
  { w with t := { w.t with mat := { w.t.mat with statNext := w.t.mat.statNext ++ vs } } }

/-- Column col of step j streams: its B vectors are popped, or come from the latch, and its products set out. -/
def streamCol (c : MatCmd) (now j col : Nat) (w : Work) : Work :=
  let n := matHalves c j
  let (bs, w) := if c.holdb then fromLatch c.bTaken n c.idx w else popScaled c.qb n c.fb c.idx w
  let m := w.t.mat
  let f : MatFlight := ⟨now + matTc c - 1 + 6, col, m.stat, bs, c.conv, c.fa, c.fb, c.idx⟩
  { w with t := { w.t with mat := { m with
    flight := m.flight ++ [f], cur := some { c with bTaken := c.bTaken + n }
    latch := if c.holdb then m.latch else (m.latch ++ bs).take 64 } } }

/-- The matrix unit's pops of a tick (Table 4.4). -/
def matPops (now : Nat) (w : Work) : Work :=
  match w.t.mat.cur with
  | none => w
  | some c =>
    let rel := now - c.start
    let lw := matLw c
    let sl := matStepTicks c
    if rel < lw then statPop c 0 rel w
    else
      let j := (rel - lw) / sl
      let s := (rel - lw) % sl
      let w := if s = 0 then { w with t := { w.t with mat := { w.t.mat with stat := w.t.mat.statNext, statNext := [] } } } else w
      let w := if j + 1 < matSteps c && sl ≤ s + lw then statPop c (j + 1) (s + lw - sl) w else w
      let w := if s % matTc c = 0 && s / matTc c < c.cols then streamCol c now j (s / matTc c) w else w
      if matS c ≤ rel - lw + 1 then { w with t := { w.t with mat := { w.t.mat with cur := none } } } else w

/-- The reserved and disallowed fields of a MATQ (R118, R119). -/
def matBad (ops : Nat) : Bool := (matMode (fld ops 32 4) (fld ops 36 4)).isNone

/-- A MATQ issues (R117, R118, R122): CLR, the latch, the drain it will make, and what it leaves of an earlier command:
products whose landing tick is the issue tick still land, after a CLR of the new command (log entry 68). -/
def issueMat (now idx qa qb qd ops : Nat) (t : Tile) : Tile :=
  let conv := BitVec.ofNat 32 ops
  let c : MatCmd := {
    start := now, conv := conv, fa := fld ops 32 4, fb := fld ops 36 4, kb := fld ops 40 10 + 1, cols := fld ops 50 5 + 1
    holdb := bit ops 63, qa := qa, qb := qb, idx := idx, bTaken := 0 }
  let m := t.mat
  { t with mat := { m with
    cur := some c, stat := [], statNext := []
    acc := if bit ops 61 then [] else m.acc
    latch := if c.holdb then m.latch else []
    flight := m.flight.filter (fun f => decide (f.at_ ≤ now))
    drain := if bit ops 62 then some ⟨now + matLw c + matS c + 7, conv, c.cols, fld ops 55 6 + 1, qd, idx⟩ else none } }

/-! ### The vector unit -/

/-- Classes of VECQ operations (Table 4.6). -/
inductive VecKind where
  | float | floatImm | cvt | qmx | copy | lsadd | lscvt | sum | rmax | argmax | int
  deriving DecidableEq, Repr

def vecKind (op : Nat) : Option VecKind :=
  if op = 1 || op = 2 || op = 3 || op = 6 || op = 7 then some .float
  else if op = 4 || op = 5 then some .floatImm
  else if op = 8 then some .cvt
  else if op = 9 then some .qmx
  else if op = 0xA then some .copy
  else if op = 0x10 then some .lsadd
  else if op = 0x11 then some .lscvt
  else if op = 0x12 || op = 0x13 then some .sum
  else if op = 0x14 then some .rmax
  else if op = 0x15 then some .argmax
  else if 0x20 ≤ op && op ≤ 0x29 then some .int
  else none

def isFloatFmt (c : Nat) : Bool := c ≤ 6
def isFloatOut (c : Nat) : Bool := c = 0 || c = 1 || c = 5 || c = 6

/-- The operation pops QB (Table 4.6). -/
def usesB (k : VecKind) : Bool := k = .float || k = .int || k = .lsadd

/-- The operation is a reduction. -/
def isRed (k : VecKind) : Bool := k = .sum || k = .rmax || k = .argmax

/-- The fields R127 and R130 do not allow. LSADD, LSCVT, RSUM and RSSQ take any FO, which their conversion word makes idle (log entry
175). -/
def vecBad (ops : Nat) : Bool :=
  let fi := fld ops 8 4
  let fo := fld ops 12 4
  let imm := fld ops 32 32
  match vecKind (fld ops 0 6) with
  | none => true
  | some k =>
    (bit ops 6 && !(k = .float || k = .int)) || (bit ops 7 && !isRed k) ||
    (match k with
      | .float | .floatImm | .rmax => !isFloatFmt fi || !isFloatOut fo
      | .cvt => !(fi ≤ 8) || fld imm 21 4 = 0xF
      | .qmx => !isFloatFmt fi || !isMx fo || fld imm 8 8 < fld imm 0 8 || fld imm 0 8 = 0xFF || fld imm 8 8 = 0xFF
      | .copy => false
      | .lsadd | .lscvt => fi ≠ 0xF
      | .sum => !(fi ≤ 8)
      | .argmax => !isFloatFmt fi
      | .int => !(fi = 7 || fi = 8) || !(fo = 7 || fo = 8))

/-- INF_IN and NAN_IN of a floating operation (Table 4.10): an infinite input counts unless a NaN input made the result
NaN. -/
def opFlags (a b r : Val) : Fl :=
  let nanIn := a = .nan || b = .nan
  let infIn := (vFlags a ||| vFlags b) &&& flInf ≠ 0
  flIf (nanIn || r = .nan) flNan ||| flIf (infIn && (!nanIn || r ≠ .nan)) flInf

/-- The greater of two values in the order of R129. -/
def vMax (a b : Val) : Val := if vLt a b then b else a
def vMin (a b : Val) : Val := if vLt b a then b else a

/-- One lane of a floating operation of two operands. -/
def floatLane (op fo : Nat) (a b : Val) : Nat × Fl :=
  let r := match op with
    | 1 | 4 => vAdd a b
    | 2 => vAdd a (vNeg b)
    | 3 | 5 => vMul a b
    | 6 => vMax a b
    | _ => vMin a b
  let c := foResult fo r
  (c.1, opFlags a b r ||| c.2)

/-- One lane of CVT (R461, R62, R63, R65): an infinity written as a finite code sets OUT_OVF too. -/
def cvtLane (conv : BitVec 32) (a : Val) : Nat × Fl :=
  if convBad conv then (0x7FC00000, flNan) else
  let code := convFmt conv
  match a with
  | .nan => (convSpecial code (convSatf conv) 1#4, flNan)
  | .inf neg =>
    let f := if neg then 4#4 else 2#4
    (convSpecial code (convSatf conv) f, flInf ||| specialFlags code (convSatf conv) f)
  | .fin neg m e =>
    let e := e + convShift conv
    if code = 7 || code = 8 then roundInt code (convRound conv) neg m e
    else roundFloat code (convRound conv) (convSatf conv) neg m e

/-- One lane of an integer operation. -/
def intLane (op fo : Nat) (x y : Int) : Nat × Fl :=
  let a := BitVec.ofInt 32 x
  let b := BitVec.ofInt 32 y
  let k := b.toNat % 32
  intResult fo (match op with
    | 0x20 => x + y
    | 0x21 => x - y
    | 0x22 => x * y
    | 0x23 => max x y
    | 0x24 => min x y
    | 0x25 => (a &&& b).toInt
    | 0x26 => (a ||| b).toInt
    | 0x27 => (a ^^^ b).toInt
    | 0x28 => (a <<< k).toInt
    | _ => (a.sshiftRight k).toInt)

/-- The 32 integers of a vector. -/
def laneInts (code : Nat) (bytes : List Byte) : List Int := (lanes code bytes).map (toInt (elemBits code))

/-- Largest magnitude of a vector's finite values, as a power of two's exponent: floor(log2 amax). -/
def maxExp (vs : List Val) : Option Int :=
  vs.foldl (fun a v => match v with
    | .fin _ m e => if m = 0 then a else
      let k : Int := (Nat.log2 m : Int) + e
      some (match a with | some j => max j k | none => k)
    | _ => a) none

/-- emax of an MX element format (R130). -/
def mxEmax (fo : Nat) : Int :=
  match fo with
  | 9 => 8
  | 0xA => 15
  | 0xB => 4
  | 0xE => 6
  | _ => 2

/-- One element of QMX: the value times 2^(127 - X), rounded once and saturated (R130). -/
def qmxElem (fo : Nat) (x : Int) (v : Val) : Nat × Fl :=
  match v with
  | .fin neg m e =>
    let e := e + 127 - x
    if fo = 0xE then
      let (r, ix) := roundShift 0#2 neg m e
      if 127 < r then (if neg then 0x81 else 0x7F, flOvf) else (if neg then (256 - r) % 256 else r, flIf ix flInexact)
    else
      let f := floatFmt (mxElem fo)
      if m = 0 then (withSign f neg 0, 0) else
      let (c, ix) := roundMag f 0#2 neg m e
      if f.max < c then (withSign f neg f.max, flOvf)
      else (withSign f neg c, flIf ix flInexact ||| flIf (ix && c < 2 ^ f.mb) flUf)
  | _ => (0, 0)

/-- QMX of one vector (R130): the MX vector, the scale element and the flags. -/
def qmx (fo : Nat) (imm : BitVec 32) (vs : List Val) : List Byte × Byte × Fl :=
  let sp := vs.foldl (fun a v => a ||| vFlags v) 0
  if sp ≠ 0 then (packLanes fo (List.replicate 32 0), 0xFF, sp) else
  let clo : Int := fld imm.toNat 0 8
  let chi : Int := fld imm.toNat 8 8
  let x := match maxExp vs with
    | some k => max clo (min chi (k - mxEmax fo + 127))
    | none => clo
  let (b, fl) := packResults fo (vs.map (qmxElem fo x))
  (b, BitVec.ofInt 8 x, fl)

/-- Items a result vector makes for the pipeline. -/
def outVec (at_ q idx : Nat) (b : List Byte) : PipeItem := ⟨at_, q, b, idx⟩

/-- The results of one input vector of an elementwise or long-sum operation: pipeline items and flags. -/
def vecOne (now : Nat) (c : VecCmd) (k : VecKind) (a b : List Byte) : List PipeItem × Fl :=
  let lane0 (l : List Val) : List Val := if c.bs then List.replicate 32 (l.headD .nan) else l
  let one (r : List Byte × Fl) : List PipeItem × Fl := ([outVec (now + 3) c.qd c.idx r.1], r.2)
  match k with
  | .float => one (packResults c.fo (List.zipWith (floatLane c.op c.fo) (laneVals c.fi a) (lane0 (laneVals c.fi b))))
  | .floatImm =>
    one (packResults c.fo ((laneVals c.fi a).map (fun v => floatLane c.op c.fo v (readElem 6 c.imm.toNat))))
  | .cvt => one (packResults (convOut c.imm) ((laneVals c.fi a).map (cvtLane c.imm)))
  | .qmx =>
    let (v, s, fl) := qmx c.fo c.imm (laneVals c.fi a)
    ([outVec (now + 3) c.qd c.idx v, outVec (now + 3) (scaleQ c.qd) c.idx [s]], fl)
  | .copy => one (a, 0)
  | .lsadd =>
    one (packResults (convOut c.imm) (List.zipWith (fun x y =>
      let s := lsAdd (lsRead x) (lsRead y)
      let r := lsConv c.imm s.1
      (r.1, flIf (lsMalformed x || lsMalformed y) flAovf ||| s.2 ||| r.2)) (laneSums a) (laneSums b)))
  | .lscvt =>
    one (packResults (convOut c.imm) ((laneSums a).map (fun x =>
      let r := lsConv c.imm (lsRead x)
      (r.1, flIf (lsMalformed x) flAovf ||| r.2))))
  | .int =>
    let bi := laneInts c.fi b
    one (packResults c.fo (List.zipWith (intLane c.op c.fo) (laneInts c.fi a)
      (if c.bs then List.replicate 32 (bi.headD 0) else bi)))
  | _ => ([], 0)

/-- One input vector of a reduction (R127, R129). -/
def vecRed (c : VecCmd) (k : VecKind) (first : Nat) (a : List Byte) : VecCmd × Fl :=
  let vs := laneVals c.fi a
  match k with
  | .sum =>
    let (s, fl) := addTerms (convAnchor c.imm) (vs.map (fun v =>
      if c.op = 0x13 then vMul v v else v)) (c.sum, 0)
    ({ c with sum := s }, fl)
  | _ =>
    let best := vs.zipIdx.foldl (fun (b : Option (F32 × Nat)) p =>
      let code := BitVec.ofNat 32 (f32Code p.1)
      match b with
      | none => some (code, first + p.2)
      | some (g, _) => if vLt (readElem 6 g.toNat) p.1 then some (code, first + p.2) else b) c.best
    ({ c with best := best, sawInf := c.sawInf || vs.any (fun v => vFlags v = flInf) },
      vs.foldl (fun f v => f ||| vFlags v &&& flNan) 0)

/-- The result of a reduction: lane 0, with lanes 1 to 31 zero bytes. ARGMAX's result is an index and never NaN, so an infinite input
always sets INF_IN (Table 4.10). -/
def redResult (c : VecCmd) (k : VecKind) : List Byte × Fl :=
  let best := (c.best.getD (0, 0))
  let v := readElem 6 best.1.toNat
  let inf := flIf (c.sawInf && (k = .argmax || v ≠ .nan)) flInf
  match k with
  | .sum =>
    let r := lsConv c.imm c.sum
    (packLanes (convOut c.imm) (r.1 :: List.replicate 31 0), r.2)
  | .rmax =>
    let r := toFo c.fo 0 v
    (packLanes c.fo (r.1 :: List.replicate 31 0), r.2 ||| inf)
  | _ => (packLanes 8 (best.2 :: List.replicate 31 0), inf)

/-- Add items to the vector unit's pipeline. -/
def vecOut (items : List PipeItem) (w : Work) : Work := { w with t := { w.t with vecPipe := w.t.vecPipe ++ items } }

/-- The vector unit's pops of a tick (R127). -/
def vecPops (now : Nat) (w : Work) : Work :=
  match w.t.vec.cur with
  | none => w
  | some c =>
    match vecKind c.op with
    | none => w
    | some k =>
      let per := if k = .lsadd || k = .lscvt then 1 else 2
      let n := min per (c.n - c.popped)
      let (as, w) := pop c.qa n c.idx false w
      let (bv, w) := if c.bs && now = c.start then
          (let (b, w) := pop1 c.qb c.idx w; (some b, w))
        else (c.bvec, w)
      let (bs, w) := if usesB k then
          (if c.bs then (List.replicate n (bv.getD []), w) else pop c.qb n c.idx false w)
        else (List.replicate n [], w)
      let c := { c with bvec := bv }
      let (c, w) :=
        if isRed k then
          as.zipIdx.foldl (fun p a =>
            let (c, fl) := vecRed p.1 k (32 * (c.popped + a.2)) a.1
            (c, flag c.idx fl p.2)) (c, w)
        else
          (c, (as.zip bs).foldl (fun w p =>
            let (items, fl) := vecOne now c k p.1 p.2
            flag c.idx fl (vecOut items w)) w)
      let w := if c.fwd then vecOut (as.map (fun a => outVec (now + 1) c.qb c.idx (padTo (vecBytes c.fi) a))) w else w
      let c := { c with popped := c.popped + n }
      if c.popped < c.n then { w with t := { w.t with vec := { cur := some c } } }
      else
        let w := { w with t := { w.t with vec := { cur := none } } }
        if isRed k then
          let (b, fl) := redResult c k
          flag c.idx fl (vecOut [outVec (now + 4) c.qd c.idx b] w)
        else w

/-- A VECQ issues (R117): an earlier command pops nothing more. -/
def issueVec (now idx qa qb qd ops : Nat) (t : Tile) : Tile :=
  let n := fld ops 16 16
  { t with vec := { cur := if n = 0 then none else some {
    start := now, op := fld ops 0 6, bs := bit ops 6, fwd := bit ops 7, fi := fld ops 8 4, fo := fld ops 12 4, n := n
    imm := BitVec.ofNat 32 (fld ops 32 32), qa := qa, qb := qb, qd := qd, idx := idx, popped := 0, bvec := none, sum := 0
    best := none, sawInf := false } } }

/-! ### The function unit -/

/-- FP32 constants of Table 4.14. -/
def fOne : Val := .fin false 1 0
def fLog2e : Val := readElem 6 0x3FB8AA3B
def fK3 : Val := readElem 6 0x4038AA3B
def fK1 : Val := readElem 6 0x3D372713
def fK2 : Val := readElem 6 0x40135761

/-- EXP2 coefficients (Table 4.12), from C[6] down to C[0]. -/
def exp2Coeff : List Int := [661577, 5726720, 41309550, 238388332, 1031764991, 2977044472, 4294967296]

/-- EXP2 of a finite value -x or x given as a signed integer over 2^k (R138). -/
def exp2Fin (x : Int) (k : Nat) : Val × Fl :=
  if 160 * 2 ^ k < x then (.inf false, flOvf)
  else if x < -160 * 2 ^ k then (.fin false 0 0, flUf ||| flInexact)
  else
    let n := (2 * x + 2 ^ k) / 2 ^ (k + 1)
    let f := (x - n * 2 ^ k) * 2 ^ 32 / 2 ^ k
    let p := exp2Coeff.foldl (fun p c => c + p * f / 2 ^ 32) 65510
    f32Round (.fin (p < 0) p.natAbs (n - 32))

/-- EXP2 (R138, Table 4.11). -/
def exp2 (v : Val) : Val × Fl :=
  match v with
  | .nan => (.nan, 0)
  | .inf neg => if neg then (.fin false 0 0, 0) else (.inf false, 0)
  | .fin neg m e =>
    let i : Int := if neg then -(m : Int) else m
    match e with
    | .ofNat k => exp2Fin (i * 2 ^ k) 0
    | .negSucc k => exp2Fin i (k + 1)

/-- RECIP (R137, Table 4.11): the quotient with a sticky last bit, rounded once. -/
def recip (v : Val) : Val × Fl :=
  match v with
  | .nan => (.nan, 0)
  | .inf neg => (.fin neg 0 0, 0)
  | .fin neg m e =>
    if m = 0 then (.inf neg, flOvf)
    else f32Round (.fin neg (2 * (2 ^ 64 / m) + b2n (2 ^ 64 % m ≠ 0)) (-65 - e))

/-- Integer square root, rounded down, by bits from 2^k. -/
def isqrt (n : Nat) : Nat → Nat → Nat
  | 0, r => if (r + 1) * (r + 1) ≤ n then r + 1 else r
  | k + 1, r => isqrt n k (if (r + 2 ^ (k + 1)) * (r + 2 ^ (k + 1)) ≤ n then r + 2 ^ (k + 1) else r)

/-- RSQRT (R137, Table 4.11). -/
def rsqrt (v : Val) : Val × Fl :=
  match v with
  | .nan => (.nan, 0)
  | .inf neg => if neg then (.nan, 0) else (.fin false 0 0, 0)
  | .fin neg m e =>
    if m = 0 then (.inf neg, flOvf)
    else if neg then (.nan, 0)
    else
      let m2 := if e % 2 = 0 then m else 2 * m
      let e2 := if e % 2 = 0 then e else e - 1
      let q := isqrt (2 ^ 160 / m2) 80 0
      f32Round (.fin false (2 * q + b2n (q * q * m2 ≠ 2 ^ 160)) (-81 - e2 / 2))

/-- LOG2 coefficients (Table 4.13), from D[3] down to D[0]. -/
def log2Coeff : List Int := [442594858, 619632802, 1032721336, 3098164009]

/-- LOG2 (R139, Table 4.11). -/
def log2 (v : Val) : Val × Fl :=
  match v with
  | .nan => (.nan, 0)
  | .inf neg => if neg then (.nan, 0) else (.inf false, 0)
  | .fin neg m e =>
    if m = 0 then (.inf true, flOvf)
    else if neg then (.nan, 0)
    else
      let mm := m * 2 ^ (23 - Nat.log2 m)
      let e := e + Nat.log2 m
      let s : Int := if mm < 3 * 2 ^ 22 then ((mm : Int) - 2 ^ 23) * 2 ^ 60 / (mm + 2 ^ 23)
        else ((mm : Int) - 2 ^ 24) * 2 ^ 60 / (mm + 2 ^ 24)
      let e := if mm < 3 * 2 ^ 22 then e else e + 1
      let z := s * s / 2 ^ 60
      let q := log2Coeff.foldl (fun q d => d + q * z / 2 ^ 60) 344240445
      let r := e * 2 ^ 90 + s * q
      f32Round (.fin (r < 0) r.natAbs (-90))

/-- SIGMOID of a finite value (R140). -/
def sigmoid (x : Val) : Val × Fl := recip (fAdd fOne (exp2 (vNeg (fMul x fLog2e))).1)

/-- The absolute value. -/
def vAbs (v : Val) : Val := match v with | .fin _ m e => .fin false m e | .inf _ => .inf false | v => v
def vSign (v : Val) : Bool := match v with | .fin n _ _ => n | .inf n => n | .nan => false

/-- TANH of a finite value (R140). -/
def tanh (x : Val) : Val × Fl :=
  if vLt (vAbs x) (.fin false 1 (-12)) then (x, 0)
  else
    let w := fMul (.fin false 2 0) (recip (fAdd fOne (exp2 (vNeg (fMul (vAbs x) fK3))).1)).1
    let r := f32Round (vAdd w (.fin true 1 0))
    (if vSign x then vNeg r.1 else r.1, r.2)

/-- GELU of a finite value (R140). -/
def gelu (x : Val) : Val × Fl :=
  let w := fMul x (fMul fK2 (fAdd fOne (fMul fK1 (fMul x x))))
  f32Round (vMul x (recip (fAdd fOne (exp2 (vNeg w)).1)).1)

/-- A FUNQ function on an FP32 value (Table 4.8), the special inputs of Table 4.11 first. -/
def funStrict (fn : Nat) (m x : Val) : Val × Fl :=
  let fin (special : Bool → Val × Fl) (zero : Option (Val × Fl)) (f : Val → Val × Fl) : Val × Fl :=
    match x with
    | .nan => (.nan, 0)
    | .inf neg => special neg
    | .fin _ n _ => if n = 0 then zero.getD (f x) else f x
  match fn with
  | 1 => exp2 x
  | 2 => recip x
  | 3 => rsqrt x
  | 4 => log2 x
  | 5 => fin (fun neg => (if neg then .fin false 0 0 else fOne, 0)) (some (.fin false 1 (-1), 0)) sigmoid
  | 6 => fin (fun neg => (.fin neg 1 0, 0)) (some (x, 0)) tanh
  | 7 => fin (fun neg => (if neg then .fin true 0 0 else .inf false, 0)) (some (x, 0))
      (fun x => f32Round (vMul x (sigmoid x).1))
  | 8 => fin (fun neg => (if neg then .fin true 0 0 else .inf false, 0)) (some (x, 0)) gelu
  | _ => if x = .nan || m = .nan then (.nan, 0) else exp2 (fMul (fAdd x (vNeg m)) fLog2e)

/-- The FP32 values within the relative error 2^-10 of a finite nonzero value, one of them chosen (R133). -/
def within (choice : Nat) (v : Val) : Val :=
  match v with
  | .fin neg m e =>
    if m = 0 then v else
    let f := floatFmt 6
    let lo := (roundMag f 2#2 false (m * 1023) (e - 10)).1
    let hi := min f.max (roundMag f 1#2 false (m * 1025) (e - 10)).1
    readFloat f (withSign f neg (lo + choice % (hi - lo + 1)))
  | v => v

/-- The metal revision (Table 0.2). -/
def stepMetal : Nat := 1

/-- A FUNQ function, relaxed or not (R133, R136): special inputs follow Table 4.11 in both. -/
def funVal (fn : Nat) (rel : Bool) (m x : Val) : Val × Fl :=
  let r := funStrict fn m x
  match x with
  | .fin _ n _ =>
    if rel && n ≠ 0 then
      (within (Config.relaxed fn stepMetal (BitVec.ofNat 32 (f32Code x)) (BitVec.ofNat 32 (f32Code m))).toNat r.1, r.2)
    else r
  | _ => r

/-- A value is finite. -/
def isFin (v : Val) : Bool := match v with | .fin _ _ _ => true | _ => false

/-- One lane of a FUNQ (R131, R136): the result in FO, NAN_IN where the input or the result is NaN, INF_IN where an operand is infinite
(Table 2.8), OUT_OVF where a finite input gives an infinity. -/
def funLane (c : FunCmd) (x : Val) : Nat × Fl :=
  let mv := readElem 6 c.m.toNat
  let (r, fl) := funVal c.fn c.rel mv x
  let o := toFo c.fo (fl &&& (flInexact ||| flUf)) r
  (o.1, opFlags x (if c.fn = 9 then mv else x) r ||| flIf (isFin x && vFlags r = flInf) flOvf ||| o.2)

/-- Ticks per vector (Table 4.8). -/
def funRate (fn : Nat) : Nat := if fn = 5 || fn = 6 || fn = 7 then 2 else if fn = 8 then 3 else 1

/-- The fields R132 does not allow. -/
def funBad (ops : Nat) : Bool :=
  let fn := fld ops 0 6
  fn = 0 || 9 < fn || (bit ops 6 && !(fn = 1 || fn = 5 || fn = 7 || fn = 8 || fn = 9)) || bit ops 7 ||
    !isFloatFmt (fld ops 8 4) || !isFloatOut (fld ops 12 4) || fld ops 32 32 ≠ 0

/-- The function unit's pops of a tick (R132, R133). -/
def funPops (now : Nat) (w : Work) : Work :=
  match w.t.fn.cur with
  | none => w
  | some c =>
    let rel := now - c.start
    let rate := if c.rel then 1 else funRate c.fn
    if rel % rate ≠ 0 then w else
    let n := if c.rel then min 2 (c.n - c.popped) else 1
    let (as, w) := pop c.qa n c.idx false w
    let (c, w) := if c.fn = 9 && rel = 0 then
        (let (b, w) := pop1 c.qb c.idx w
         ({ c with m := BitVec.ofNat 32 (f32Code ((laneVals c.fi b).headD .nan)) }, w))
      else (c, w)
    let w := as.foldl (fun w a =>
      let (b, fl) := packResults c.fo ((laneVals c.fi a).map (funLane c))
      flag c.idx fl { w with t := { w.t with fnPipe := w.t.fnPipe ++ [outVec (now + 12) c.qd c.idx b] } }) w
    let c := { c with popped := c.popped + n }
    { w with t := { w.t with fn := { cur := if c.popped < c.n then some c else none } } }

/-- A FUNQ issues (R117). -/
def issueFun (now idx qa qb qd ops : Nat) (t : Tile) : Tile :=
  let n := fld ops 16 16
  { t with fn := { cur := if n = 0 then none else some {
    start := now, fn := fld ops 0 6, rel := bit ops 6, fi := fld ops 8 4, fo := fld ops 12 4, n := n
    qa := qa, qb := qb, qd := qd, idx := idx, popped := 0, m := 0 } } }

end Sys2Proof.Machine
end

