-- ==== Sys2Proof/Machine/Tile.lean ====
section
/-!
DEFINITION. The sequencer (chapter 3): the command word, issue, predicates, SKIP, REPT, MARK, counters, WAIT, breaks, and
the HALTs a tile raises. A tile command takes effect when the word the tile fetches has its opcode and the tile is due to
issue in the present tick; what its units and engines then do in that tick and later ones is in `Lattice`.
-/

namespace Sys2Proof.Machine

open Sys2Proof

/-- A command word (Table 3.1), with its index. -/
structure TileCmd where
  opc : Nat
  pred : Nat
  issue : Nat
  tag : Nat
  qa : Nat
  qb : Nat
  qd : Nat
  ops : Nat
  idx : Nat
  deriving DecidableEq, Repr

/-- The fields of 16 bytes (Table 3.1). ISSUE 0 is read as 1. -/
def cmdOf (idx : Nat) (l : List Byte) : TileCmd :=
  let w := leNat l
  { opc := fld w 0 8, pred := fld w 8 8, issue := max 1 (fld w 16 20), tag := fld w 36 12, qa := fld w 48 5
    qb := fld w 53 5, qd := fld w 58 5, ops := fld w 64 64, idx := idx }

/-- The command a tile is due to issue. -/
def fetch (t : Tile) : TileCmd := cmdOf t.pc (rdBs t.cmem (16 * t.pc) 16)

/-- The fetch finds a byte with bad parity (R77). -/
def fetchBad (t : Tile) : Bool := t.cmemBad.any (fun a => a / 16 == t.pc)

/-- The opcodes of Table 3.2. -/
def listedOpc (o : Nat) : Bool := o ≤ 3 || (0x10 ≤ o && o ≤ 0x14) || (0x20 ≤ o && o ≤ 0x24) || o = 0x30 || o = 0x31

/-- A predicate source (Table 3.4). -/
def predSource (t : Tile) (src : Nat) : Bool :=
  if src = 0 then true
  else if src ≤ 4 then t.pred.getLsbD (src - 1)
  else if src < 0x40 then false
  else t.slotPred.getLsbD (src - 0x40)

/-- PRED (Table 3.3). -/
def predTrue (t : Tile) (p : Nat) : Bool := predSource t (p % 128) != bit p 7

/-- Counters. -/
def getCtr (t : Tile) (k : Nat) : BitVec 32 :=
  match k with
  | 0 => t.ctr0
  | 1 => t.ctr1
  | 2 => t.ctr2
  | _ => t.ctr3
def setCtr (k : Nat) (v : BitVec 32) (t : Tile) : Tile :=
  match k with
  | 0 => { t with ctr0 := v }
  | 1 => { t with ctr1 := v }
  | 2 => { t with ctr2 := v }
  | _ => { t with ctr3 := v }

/-- The tile is due to issue in its partition's present tick (R80). -/
def issueDue (x : Part) (t : Tile) : Bool :=
  t.mode = .run && !t.halting && !t.ended && t.wait.isNone && decide (t.nextIssue = x.now) &&
    decide (x.tick < (x.info.map (·.orbitLen)).getD 0)

/-! ### HALTs -/

/-- A tile raises a HALT-class fault: it enters HALTED at the end of the current tick, and its partition stops (R105, Table
17.5). -/
def tileHalt (no : Nat) (x : Part) (e : HaltEv) (d : Dev) : Dev :=
  let d := modTile no (fun t => { t with halting := true, haltCause := BitVec.ofNat 8 e.cause }) d
  raise 2 (0x100 + moonOfTile no) (0x0100 + e.cause) x.pid
    (no + e.idx % 4096 * 2 ^ 12 + e.q * 2 ^ 24 + e.found * 2 ^ 29) d

/-- The plan hash that tags are drawn from, where the plan is tagged (R40). -/
def tagHash (x : Part) : Option Hash := x.info.bind (fun i => if i.tagged then some i.hash else none)

/-- Put a tile's work back, and raise the first HALT it met. -/
def settleWork (x : Part) (w : Work) (d : Dev) : Dev :=
  let d := setTile d w.no w.t
  match w.bad with
  | [] => d
  | e :: _ => tileHalt w.no x e d

/-! ### Breaks -/

/-- A break fires at this issue by count or by tag (R109). -/
def breakMatch (t : Tile) (c : TileCmd) : Bool :=
  let b := t.brkCtrl.toNat
  bit b 0 && ((bit b 1 && t.issueCount = t.brkCount) ||
    (bit b 2 && (c.tag &&& fld b 32 12) = (fld b 16 12 &&& fld b 32 12)))

/-- A break fires in a tile (R110): the first one sets the partition's break tick, which each of its tiles records; later ones
join it. -/
def fireBreak (no : Nat) (x : Part) (d : Dev) : Dev :=
  let d := modTile no (fun t => { t with brkHit := true }) d
  if x.brk.isSome then d
  else
    modPart x.pid (fun y => { y with brk := some ⟨x.now⟩ })
      (forEach (listedTiles d x) (fun t => modTile t (fun y => { y with brkTick := BitVec.ofNat 40 (x.now % 2 ^ 40) })) d)

/-! ### Moving on -/

/-- Close loops that end at an index, or go back to the first command of one that has iterations left (R91, R92). -/
def loopEnd (pc : Nat) : List Loop → Nat × List Loop
  | [] => (pc + 1, [])
  | l :: r =>
    if l.last ≤ pc then
      if 1 < l.left then (l.first, { l with left := l.left - 1 } :: r) else loopEnd pc r
    else (pc + 1, l :: r)

/-- The tile moves past a command whose slot is so many ticks. -/
def passSlot (x : Part) (slot : Nat) (t : Tile) : Tile :=
  let (pc, ls) := loopEnd t.pc t.loops
  { t with pc := pc, loops := ls, nextIssue := x.now + slot }

/-- An issue is counted, and uses up a position of an open shadow (R85, R87, R109). -/
def counted (t : Tile) : Tile := { t with issueCount := t.issueCount + 1, skipLeft := t.skipLeft - 1 }

/-- What a tile command does when it issues, with the tile past its slot. -/
abbrev Effect := TileCmd → Part → Nat → Dev → Dev

/-- An effect on the tile alone. -/
def onTile (f : TileCmd → Tile → Tile) : Effect := fun c _ no d => modTile no (f c) d

/-- Issue the command of one opcode (R77 to R87, R109): nothing happens unless the tile is due and fetches that opcode.
`bad` says which operand fields are reserved, `always` that PRED and a shadow do not skip it. -/
def issueCmd (opc : Nat) (always : Bool) (bad : TileCmd → Tile → Bool) (eff : Effect) (no : Nat) (d : Dev) : Dev :=
  match partOfTile d no with
  | none => d
  | some x =>
    let t := getTile d no
    if !active x || !issueDue x t || 4095 < t.pc then d
    else if fetchBad t then tileHalt no x ⟨1, t.pc, 0, 0⟩ d
    else
      let c := fetch t
      if c.opc ≠ opc then d else
      let skip := !always && (t.skipLeft ≠ 0 || !predTrue t c.pred)
      let badop := !skip && bad c t
      let brk := breakMatch (counted t) c
      let d := setTile d no (passSlot x c.issue (if badop then setSeq c.idx sqBadop (counted t) else counted t))
      let d := if skip || badop then d else eff c x no d
      if brk then fireBreak no x d else d

/-- A tile command as an answer. -/
def tileCmd (opc : Nat) (bad : TileCmd → Tile → Bool) (eff : Effect) (no : Nat) :
    State → Host.Outcome State Fault Refusal := on (whenAwake (issueCmd opc false bad eff no))

def noBad : TileCmd → Tile → Bool := fun _ _ => false

/-! ### Control commands -/

/-- NOP (R79). -/
def execNop (tile : Fin 2304) : State → Host.Outcome State Fault Refusal :=
  tileCmd 0x00 noBad (fun _ _ _ d => d) tile.val

/-- ILL_OPC (R79): a word with an opcode that is not listed issues nothing and halts the tile. -/
def illOpc (no : Nat) (d : Dev) : Dev :=
  match partOfTile d no with
  | none => d
  | some x =>
    let t := getTile d no
    if !active x || !issueDue x t || 4095 < t.pc then d
    else if fetchBad t then tileHalt no x ⟨1, t.pc, 0, 0⟩ d
    else if listedOpc (fetch t).opc then d
    else tileHalt no x ⟨2, t.pc, 0, 0⟩ d

/-- ILL_OPC (R79). -/
def execIllOpc (tile : Fin 2304) : State → Host.Outcome State Fault Refusal := on (whenAwake (illOpc tile.val))

/-- MATQ (R116 to R124). -/
def execMatq (tile : Fin 2304) : State → Host.Outcome State Fault Refusal :=
  tileCmd 0x01 (fun c _ => matBad c.ops) (fun c x no d => modTile no (issueMat x.now c.idx c.qa c.qb c.qd c.ops) d) tile.val

/-- VECQ (R125 to R130). -/
def execVecq (tile : Fin 2304) : State → Host.Outcome State Fault Refusal :=
  tileCmd 0x02 (fun c _ => vecBad c.ops) (fun c x no d => modTile no (issueVec x.now c.idx c.qa c.qb c.qd c.ops) d) tile.val

/-- FUNQ (R131 to R141). -/
def execFunq (tile : Fin 2304) : State → Host.Outcome State Fault Refusal :=
  tileCmd 0x03 (fun c _ => funBad c.ops) (fun c x no d => modTile no (issueFun x.now c.idx c.qa c.qb c.qd c.ops) d) tile.val

/-- CNT (R89, Table 3.5). -/
def cntEffect (c : TileCmd) (t : Tile) : Tile :=
  let k := fld c.ops 0 2
  let imm := BitVec.ofNat 32 (fld c.ops 32 32)
  setCtr k (match fld c.ops 2 2 with
    | 0 => imm
    | 1 => getCtr t k + imm
    | _ => getCtr t (fld c.ops 4 2)) t

/-- CNT (R89). -/
def execCnt (tile : Fin 2304) : State → Host.Outcome State Fault Refusal :=
  tileCmd 0x20 (fun c _ => fld c.ops 2 2 = 3 || fld c.ops 6 26 ≠ 0) (onTile cntEffect) tile.val

/-- CMP (R90, Table 3.6). -/
def cmpEffect (c : TileCmd) (t : Tile) : Tile :=
  let a := getCtr t (fld c.ops 2 2)
  let b := if bit c.ops 7 then getCtr t (fld c.ops 8 2) else BitVec.ofNat 32 (fld c.ops 32 32)
  let r := match fld c.ops 4 3 with
    | 0 => a == b
    | 1 => a != b
    | 2 => decide (a.toNat < b.toNat)
    | 3 => decide (b.toNat ≤ a.toNat)
    | _ => (a &&& b) != 0
  { t with pred := BitVec.ofNat 4 (setBit t.pred.toNat (fld c.ops 0 2) r) }

/-- CMP (R90). -/
def execCmp (tile : Fin 2304) : State → Host.Outcome State Fault Refusal :=
  tileCmd 0x21 (fun c _ => 4 < fld c.ops 4 3 || fld c.ops 10 22 ≠ 0) (onTile cmpEffect) tile.val

/-- SKIP (R87). -/
def execSkip (tile : Fin 2304) : State → Host.Outcome State Fault Refusal :=
  tileCmd 0x22 (fun c _ => fld c.ops 8 56 ≠ 0) (onTile fun c t => { t with skipLeft := fld c.ops 0 8 }) tile.val

/-- The innermost open block does not end before an index. -/
def stretchLoop (last : Nat) : List Loop → List Loop
  | [] => []
  | l :: r => { l with last := max l.last last } :: r

/-- REPT (R91, R92): the body ends at index 4,095 at the latest; at depth 4 it runs once and NEST is set. The block is opened on
the blocks open at the issue, since a REPT does not end a body it stands last in. -/
def reptEffect (c : TileCmd) (open_ : List Loop) (t : Tile) : Tile :=
  let last := min (c.idx + fld c.ops 0 8 + 1) 4095
  let deep := decide (4 ≤ open_.length)
  let t := if deep then setSeq c.idx sqNest t else t
  if last ≤ c.idx then t
  else { t with
    pc := c.idx + 1
    loops := if deep then stretchLoop last open_ else ⟨c.idx + 1, last, fld c.ops 8 16 + 1⟩ :: open_ }

/-- A REPT takes its own slot before its body. -/
def rept (no : Nat) (d : Dev) : Dev :=
  issueCmd 0x23 true (fun c _ => fld c.ops 24 40 ≠ 0)
    (onTile (fun c t => reptEffect c (getTile d no).loops t)) no d

/-- REPT (R91). -/
def execRept (tile : Fin 2304) : State → Host.Outcome State Fault Refusal := on (whenAwake (rept tile.val))

/-- SPLD (R83, R95): the distributor's write of tick 128 is visible from tick 129. -/
def spldEffect : Effect := fun _ x no =>
  modTile no (fun t => { t with slotPred := if x.staged && decide (x.tick ≤ 128) then t.slotOld else t.slotStage })

/-- SPLD (R95). -/
def execSpld (tile : Fin 2304) : State → Host.Outcome State Fault Refusal := tileCmd 0x24 noBad spldEffect tile.val

/-- The stream has ended for this orbit (R93): open REPT blocks and a shadow close, and index 0 is due next. -/
def endStream (t : Tile) : Tile := { t with pc := 0, ended := true, loops := [], skipLeft := 0 }

/-- MARK (R93): END ends the orbit's stream; STAMP writes MARK_LOG. -/
def markEffect : Effect := fun c x no d =>
  if bit c.ops 0 then
    modTile no (fun t => { t with markLog := BitVec.ofNat 64 (x.now % 2 ^ 40 + fld c.ops 16 16 * 2 ^ 40 + 2 ^ 63) }) d
  else modTile no endStream d

/-- MARK (R93). -/
def execMark (tile : Fin 2304) : State → Host.Outcome State Fault Refusal :=
  on (whenAwake (issueCmd 0x30 true (fun c _ => fld c.ops 1 15 ≠ 0 || fld c.ops 32 32 ≠ 0) markEffect tile.val))

/-- BRK (R109): fires a break while DBG_EN and CMD_EN are 1, else acts as NOP. -/
def execBrk (tile : Fin 2304) : State → Host.Outcome State Fault Refusal :=
  tileCmd 0x31 noBad (fun _ x no d =>
    let b := (getTile d no).brkCtrl.toNat
    if bit b 0 && bit b 3 then fireBreak no x d else d) tile.val

/-! ### Movement engines -/

/-- SEND starts its engine, ending a command it is still carrying out (R82, R100). -/
def sendEffect (c : TileCmd) (t : Tile) : Tile :=
  let t := match t.eng.send with
    | some s => if s.left = 0 then t else setSeq c.idx sqEngOvl t
    | none => t
  let n := fld c.ops 0 16
  { t with eng := { t.eng with send := if n = 0 then none else some ⟨n, BitVec.ofNat 64 c.ops, c.qa, c.idx⟩ } }

/-- SEND (R100). -/
def execSend (tile : Fin 2304) : State → Host.Outcome State Fault Refusal :=
  tileCmd 0x10 (fun c _ => fld c.ops 33 2 = 3 || fld c.ops 43 21 ≠ 0) (onTile sendEffect) tile.val

/-- RECV starts its engine (R82, R101). -/
def recvEffect (c : TileCmd) (t : Tile) : Tile :=
  let t := match t.eng.recv with
    | some r => if r.left = 0 then t else setSeq c.idx sqEngOvl t
    | none => t
  let n := fld c.ops 0 16
  { t with eng := { t.eng with recv := if n = 0 then none else some ⟨n, 24 + c.qa % 8, c.qd, c.idx⟩ } }

/-- RECV (R101). -/
def execRecv (tile : Fin 2304) : State → Host.Outcome State Fault Refusal :=
  tileCmd 0x11 (fun c _ => fld c.ops 16 48 ≠ 0) (onTile recvEffect) tile.val

/-! ### WAIT -/

/-- The met tick of a WAIT is noted when its queue first holds the count (R161). -/
def noteMet (now : Nat) (t : Tile) : Tile :=
  match t.wait with
  | some w => if w.met.isNone && decide (w.n ≤ (getQ t w.q).count) then { t with wait := some { w with met := some now } } else t
  | none => t

/-- WAIT (R35, R103): the budget is ISSUE. -/
def waitEffect : Effect := fun c x no d =>
  modTile no (fun t => noteMet x.now { t with wait := some {
    q := 24 + c.qa % 8, n := fld c.ops 0 16, issue := x.now, release := x.now + c.issue, met := none, hold := none
    idx := c.idx } }) d

/-- WAIT (R103). -/
def execWait (tile : Fin 2304) : State → Host.Outcome State Fault Refusal :=
  tileCmd 0x14 (fun c _ => fld c.ops 16 48 ≠ 0) waitEffect tile.val

/-- Count a released WAIT in its moon's slice (R161): fill, and margin, which is 0 where it held. -/
def countWait (no : Nat) (w : WaitSt) (held : Bool) : Dev → Dev :=
  let met := if held then w.release else w.met.getD w.release
  let fill := BitVec.ofNat 64 (met - w.issue)
  let margin := BitVec.ofNat 32 (if held then 0 else w.release - met)
  let least (m : BitVec 32) : BitVec 32 := if margin.toNat < m.toNat then margin else m
  modSlice (moonOfTile no) (sliceOf no) fun s =>
    if w.q < 28 then { s with
      waitCount0 := s.waitCount0 + 1, waitFill0 := s.waitFill0 + fill, marginMin0 := least s.marginMin0 }
    else { s with
      waitCount1 := s.waitCount1 + 1, waitFill1 := s.waitFill1 + fill, marginMin1 := least s.marginMin1 }

/-- WAIT_RELEASE (R35, R36, R322): at the release tick the WAIT releases, or its moon holds; a hold on a link queue begins
request round 2. In the tick in which its partition stops no hold begins. -/
def waitRelease (no : Nat) (d : Dev) : Dev :=
  match partOfTile d no, (getTile d no).wait with
  | some x, some w =>
    let t := getTile d no
    if !active x || t.mode ≠ .run || x.now ≠ w.release || w.hold.isSome then d
    else if waitMet t w || abandonFrees x w then countWait no w false (setTile d no { t with wait := none })
    else if x.stopping then d
    else
      let d := setTile d no { t with wait := some { w with hold := some d.clk.wall } }
      if 28 ≤ w.q then round2 x.pid d else d
  | _, _ => d

/-- WAIT_RELEASE (R35). -/
def execWaitRelease (tile : Fin 2304) : State → Host.Outcome State Fault Refusal := on (whenAwake (waitRelease tile.val))

/-- HOLD_END (R36): the count is met, the WAIT releases at its release tick and the clocks resume. -/
def holdEnd (no : Nat) (d : Dev) : Dev :=
  match partOfTile d no, (getTile d no).wait with
  | some x, some w =>
    match w.hold with
    | some s => if waitMet (getTile d no) w || abandonFrees x w then countWait no w true (endHold no w s d) else d
    | none => d
  | _, _ => d

/-- HOLD_END (R36). -/
def execHoldEnd (tile : Fin 2304) : State → Host.Outcome State Fault Refusal := on (whenAwake (holdEnd tile.val))

/-- HOLD_LIMIT_EXPIRY (R37): a hold longer than the partition's hold limit raises a HALT that names the queue. The WAIT has not
released: its hold alone is counted. -/
def holdLimitExpiry (no : Nat) (d : Dev) : Dev :=
  match partOfTile d no, (getTile d no).wait with
  | some x, some w =>
    match w.hold with
    | some s =>
      if waitMet (getTile d no) w || abandonFrees x w then d else
      whenDue (s + usG x.holdUs) (fun d =>
        raise 2 (0x100 + moonOfTile no) 0x0107 x.pid (no + w.idx * 2 ^ 12 + w.q * 2 ^ 24)
          (modTile no (fun t => { t with halting := true, haltCause := 0 }) (endHold no w s d))) d
    | none => d
  | _, _ => d

/-- HOLD_LIMIT_EXPIRY (R37). -/
def execHoldLimitExpiry (tile : Fin 2304) : State → Host.Outcome State Fault Refusal :=
  on (whenAwake (holdLimitExpiry tile.val))

/-- MATQ_DRAIN (R123): at its first push tick a drain converts ACC and its vectors set out. -/
def matqDrain (no : Nat) (d : Dev) : Dev :=
  match partOfTile d no with
  | none => d
  | some x =>
    let t := getTile d no
    if active x && t.mode = .run && !issueDue x t then settleWork x (beginDrain x.now ⟨t, no, tagHash x, []⟩) d else d

/-- MATQ_DRAIN (R123). -/
def execMatqDrain (tile : Fin 2304) : State → Host.Outcome State Fault Refusal := on (whenAwake (matqDrain tile.val))

/-! ### Breaks reach the partition -/

/-- BREAK_PARK (R110): after tick T + 15 every tile of the partition parks, RESUMABLE. -/
def breakPark (p : Nat) : Dev → Dev := withPart p fun x d =>
  match x.brk with
  | some b =>
    if x.plan ≠ .running || x.now < b.at_ + 16 then d else
    let d := forEach (listedTiles d x) (fun no => modTile no (fun t =>
      if t.mode = .run then { t with mode := .parked, resumable := true } else t)) d
    setPart p { x with brk := none, parked := true } d
  | none => d

/-- BREAK_PARK (R110). -/
def execBreakPark (part : Fin 16) : State → Host.Outcome State Fault Refusal := on (whenAwake (breakPark part.val))

end Sys2Proof.Machine
end

