-- ==== Sys2Proof/Machine/Memory.lean ====
section
/-!
DEFINITION. The memory path of a tile (R184 to R203, R220, R233 to R247): how a LOAD or STORE becomes pieces, what a bad
page does, slot fences, delivery, the write buffer, and the events of the GDDR7 channels. A request's pieces are
translated at its issue tick.
-/

namespace Sys2Proof.Machine

open Sys2Proof

/-! ### Slots and pieces -/

/-- Absolute number of a partition's relative slot (R259). -/
def slotAbs (x : Part) (r : Nat) : Nat := 32 * ((blocksOf x.mask)[r / 32]?).getD 0 + r % 32

/-- The partition and relative slot of an absolute slot. -/
def slotOwner (d : Dev) (s : Nat) : Option (Part × Nat) :=
  (partOfBlock d (s / 32)).map (fun x => (x, 32 * (blocksOf x.mask).findIdx (· == s / 32) + s % 32))

/-- The slot table in force (R266). -/
def bankOf (x : Part) : SlotBank := if x.srv.bank then x.srv.bank1 else x.srv.bank0
def slotEntry (x : Part) (r : Nat) : SlotEntry := (tget (bankOf x).slots r).getD {}

/-- The pages of a slot, from LIST_BASE of its bank's page list area on (R270). -/
def pagesOf (b : SlotBank) (e : SlotEntry) : List Nat := (b.lists.drop e.listBase).take e.pageCount

/-- A location moved on by some bytes. -/
def shiftLoc (n k : Nat) : PieceLoc → PieceLoc
  | .gddr a => .gddr (a + n)
  | .tier a p c => .tier (a + n) p c
  | .served b => .served (sl b n k)
  | .void => .void

/-- The part of a list of pieces from a byte offset, so many bytes long. -/
def slicePieces : List Piece → Nat → Nat → List Piece
  | [], _, _ => []
  | p :: r, off, n =>
    if n = 0 then []
    else if p.len ≤ off then slicePieces r (off - p.len) n
    else
      let k := min n (p.len - off)
      ⟨k, shiftLoc off k p.loc⟩ :: slicePieces r 0 (n - k)

/-- The granules that a piece in GDDR7 touches: first and last. -/
def granules (p : Piece) : Option (Nat × Nat) :=
  match p.loc with
  | .gddr a => some (a / 32, (a + p.len - 1) / 32)
  | _ => none

/-- Two pieces touch one 32-byte granule. -/
def sameGranule (a b : Piece) : Bool :=
  match granules a, granules b with
  | some g, some h => decide (g.1 ≤ h.2) && decide (h.1 ≤ g.2)
  | _, _ => false

/-- The cuts of a range of n bytes at every 64 KiB boundary (R190): page step, offset, length. -/
def cuts : Nat → Nat → Nat → Nat → List (Nat × Nat × Nat)
  | 0, _, _, _ => []
  | fuel + 1, k, off, n =>
    if n = 0 then [] else
      let m := min n (65536 - off)
      (k, off, m) :: cuts fuel (k + 1) 0 (n - m)

def rangeCuts (off n : Nat) : List (Nat × Nat × Nat) := cuts (n / 65536 + 2) 0 off n

/-- What a request's pieces come to: treated as in R79, a cause that stops the partition (with its table, index, offset and
cause), or the pieces with the causes that fence its slot (with their pages). -/
inductive Resolved where
  | badop
  | stop (lkind index off cause : Nat)
  | ok (pieces : List Piece) (slot : Option Nat) (cause : Option (Nat × Nat)) (fenced : Nat)
  deriving DecidableEq, Repr

/-! ### Translation -/

/-- The causes of a context page's entry (R242), in their order; 0 for none. -/
def pageCause (d : Dev) (page : Nat) (store : Bool) : Nat :=
  let e := cptE d page
  if d.cptBad.contains page then 5
  else if !eValid e then 1
  else if ePoison e then 3
  else if eIncomplete e then 4
  else if !ePinned e then 2
  else if store && (!eWrite e || eLoc e) then 7
  else 0

/-- Where a byte of a valid context page lies. -/
def pageLoc (d : Dev) (page off : Nat) : PieceLoc :=
  let e := cptE d page
  if eLoc e then .tier (eLocator e * 65536 + off) page true else .gddr (eLocator e * 65536 + off)

/-- Weight page table entries, and the index of an entry of a partition's weight space (R218). -/
def wptE (d : Dev) (i : Nat) : Nat := ((tget d.wpt i).getD 0).toNat
def wptIndex (x : Part) (e : Nat) : Nat := 16384 * ((blocksOf x.mask)[e / 16384]?).getD 0 + e % 16384

/-- The pieces of n bytes of a tiered copy from an offset (R232, R234): each lies where its shard's source holds it; bytes that no
shard covers lie where the page's entry puts them. -/
def tierCut (runs : List TierRun) (page : Nat) : Nat → Nat → Nat → Nat → List Piece
  | 0, _, _, _ => []
  | fuel + 1, here, o, n =>
    if n = 0 then []
    else match runs.find? (fun r => decide (r.off ≤ o) && decide (o < r.off + r.len)) with
      | some r =>
        let k := min n (r.off + r.len - o)
        ⟨k, .tier (r.addr + (o - r.off)) page false⟩ :: tierCut runs page fuel (here + k) (o + k) (n - k)
      | none =>
        let k := min n ((runs.filter (fun r => decide (o < r.off))).foldl (fun m r => min m (r.off - o)) n)
        ⟨k, .tier here page false⟩ :: tierCut runs page fuel (here + k) (o + k) (n - k)

/-- The pieces of a range of the weight space that begins at byte `a`, cut short after `lim` bytes, in a copy that begins at byte
`base`; a bad entry stops. -/
def weightPieces (d : Dev) (x : Part) (runs : List TierRun) (base a lim : Nat) :
    List (Nat × Nat × Nat) → Except (Nat × Nat × Nat) (List Piece)
  | [] => .ok []
  | (k, off, n) :: r =>
    let b := a / 65536 * 65536 + k * 65536 + off
    let here := min n (a + lim - b)
    if here = 0 then (weightPieces d x runs base a lim r).map (⟨n, .void⟩ :: ·)
    else
      let i := wptIndex x (b / 2 ^ 20)
      let e := wptE d i
      let c := if d.wptBad.contains i then 5 else if eValid e then 0 else 1
      if c ≠ 0 then .error (i, b % 65536, c)
      else
        let u := (eLocator e + b % 2 ^ 20 / 65536) * 65536 + b % 65536
        let ps : List Piece := if eLoc e then tierCut runs i (2 * runs.length + 2) u (b - base) here else [⟨here, .gddr u⟩]
        (weightPieces d x runs base a lim r).map (fun l => ps ++ (if here < n then ⟨n - here, .void⟩ :: l else l))

/-- A slot is fenced at a memory moon. -/
def isFenced (d : Dev) (q s : Nat) : Bool := (getMm d q).slotFence.getLsbD s

/-- The pieces of a request of a fenced slot (R244). -/
def fencedPieces (s off n : Nat) : Resolved :=
  .ok ((rangeCuts off n).map (fun c => ⟨c.2.2, .void⟩)) (some s) none (rangeCuts off n).length

/-- MODE 0b00 (R220): the active copy slot, or the adapter area of a batch slot, which reads zeros once the slot is fenced (R244). -/
def resolveWeight (d : Dev) (x : Part) (q addr n : Nat) : Resolved :=
  match x.info with
  | none => .badop
  | some i =>
    let wr := i.wref
    let space := 16384 * nBlocks x * 2 ^ 20
    let go (runs : List TierRun) (base a lim : Nat) (slot : Option Nat) : Resolved :=
      if space ≤ a then .badop
      else match weightPieces d x runs base a lim (rangeCuts (a % 65536) n) with
        | .ok l => .ok l slot none 0
        | .error (ix, off, c) => .stop 2 ix off c
    if bit addr 39 then
      let s := fld addr 30 9
      let off := fld addr 0 30
      let e := slotEntry x s
      let first := ((1 + b2n wr.double) * wr.copyPages + e.area * wr.areaPages) * 2 ^ 20
      if 32 * nBlocks x ≤ s then .badop
      else if isFenced d q (slotAbs x s) then fencedPieces s (addr % 65536) n
      else if e.area = 0xFF then .ok [⟨n, .void⟩] (some s) none 0
      else go [] first (first + off) (wr.areaPages * 2 ^ 20 - off) (some s)
    else if bit addr 38 then .badop
    else
      let off := fld addr 0 38
      let base := x.w.sel * wr.copyPages * 2 ^ 20
      go (if x.w.sel = 0 then x.w.copy0 else x.w.copy1).tier base (base + off) (wr.copyPages * 2 ^ 20 - off) none

/-- The pieces of a MODE 0b01 range (R190, R243). -/
def indexPieces (d : Dev) (page : Nat) (store : Bool) :
    List (Nat × Nat × Nat) → Except (Nat × Nat × Nat) (List Piece)
  | [] => .ok []
  | (k, off, n) :: r =>
    let c := pageCause d (page + k) store
    if c ≠ 0 then .error (page + k, off, c)
    else (indexPieces d page store r).map (⟨n, pageLoc d (page + k) off⟩ :: ·)

/-- MODE 0b01: an index outside the partition's blocks is treated as in R79 (R235). -/
def resolveIndex (d : Dev) (x : Part) (addr n : Nat) (store : Bool) : Resolved :=
  let page := fld addr 16 20
  let cs := rangeCuts (addr % 65536) n
  if fld addr 36 4 ≠ 0 || cs.any (fun c => 1048576 ≤ page + c.1 || !x.mask.getLsbD ((page + c.1) / 65536)) then .badop
  else match indexPieces d page store cs with
    | .ok l => .ok l none none 0
    | .error (p, off, c) => .stop 1 p off c

/-- The pieces of a MODE 0b10 range: from the first cause on, every piece is void (R244). The cause, its page, and how many
pieces are void. -/
def slotPieces (d : Dev) (pages : List Nat) (p0 : Nat) (store : Bool) :
    List (Nat × Nat × Nat) → List Piece × Option (Nat × Nat) × Nat
  | [] => ([], none, 0)
  | (k, off, n) :: r =>
    let (page, c) := match pages[p0 + k]? with
      | none => (0, 6)
      | some pg => (pg, pageCause d pg store)
    if c ≠ 0 then
      ((⟨n, .void⟩ : Piece) :: r.map (fun q => ⟨q.2.2, .void⟩), some (c, page), 1 + r.length)
    else
      let (l, c, m) := slotPieces d pages p0 store r
      (⟨n, pageLoc d page off⟩ :: l, c, m)

/-- MODE 0b10. -/
def resolveSlot (d : Dev) (x : Part) (q addr n : Nat) (store : Bool) : Resolved :=
  let s := fld addr 31 9
  if 32 * nBlocks x ≤ s then .badop
  else if isFenced d q (slotAbs x s) then fencedPieces s (addr % 65536) n
  else
    let (l, c, m) := slotPieces d (pagesOf (bankOf x) (slotEntry x s)) (fld addr 16 15) store (rangeCuts (addr % 65536) n)
    .ok l (some s) c m

/-- Resolve the operand field of a LOAD or STORE for a width (R104, R189). -/
def resolveReq (d : Dev) (x : Part) (q : Nat) (ops width : Nat) (store : Bool) : Resolved :=
  let addr := fld ops 0 40
  let n := fld ops 42 16 * width
  match fld ops 40 2 with
  | 0 => if n = 0 then .ok [] none none 0 else resolveWeight d x q addr n
  | 1 => resolveIndex d x addr n store
  | _ => resolveSlot d x q addr n store

/-! ### Fences -/

/-- DETAIL of a memory fault (Table 17.5). -/
def memDetail (loc granule cause tile lkind : Nat) : Nat :=
  loc + granule * 2 ^ 22 + cause * 2 ^ 33 + tile * 2 ^ 37 + lkind * 2 ^ 49

/-- A slot of a partition is fenced from now on in one memory moon. -/
def setFence (q s : Nat) : Dev → Dev := modMm q fun m => { m with slotFence := m.slotFence ||| BitVec.ofNat 512 (2 ^ s) }

/-- The module fences a slot (R244, R245): the request in it leaves the next placement, and the orbit's mark says so. -/
def markFenced (x : Part) (r : Nat) : Dev → Dev :=
  modPart x.pid fun y => { y with
    fab := { y.fab with fenced := y.fab.fenced ||| BitVec.ofNat 512 (2 ^ r) }
    srv := { y.srv with reqs := y.srv.reqs.map (fun q =>
      if q.id = (slotEntry y r).place.id then { q with fenced := true } else q) } }

/-- A memory moon detects a cause in a slot (R243, R244, R247): it fences the slot, tells the other moons, counts the
pieces, and poisons the page for causes 5 and 8; the MP writes a FENCE record. -/
def detectFence (q tile : Nat) (x : Part) (r cause page pieces : Nat) (d : Dev) : Dev :=
  let s := slotAbs x r
  let d := setFence q s d
  let d := modMm q (fun m => { m with
    fenceCount := m.fenceCount + BitVec.ofNat 32 pieces
    fenceFirst := if m.fenceFirst = 0 then
      BitVec.ofNat 64 (s + cause * 2 ^ 9 + tile * 2 ^ 13 + x.now % 2 ^ 39 * 2 ^ 25) else m.fenceFirst }) d
  let d := forEach ((List.range 4).filter (· ≠ q)) (fun o => modMm o (fun m => { m with ringIn := m.ringIn ++ [s] })) d
  let d := if cause = 5 || cause = 8 then
      { setCpt page (setBit (cptE d page) 7 true) d with cptBad := d.cptBad.filter (· ≠ page) } else d
  let d := markFenced x r d
  if mpUp d then ephRec x.pid 0x15 r (slotEntry x r).place.id.toNat (cause + tile * 16) d else d

/-- FENCE_RECEIVE (R244): the oldest fence on the ring to a memory moon takes hold there. -/
def fenceReceive (q : Nat) (d : Dev) : Dev :=
  match (getMm d q).ringIn with
  | [] => d
  | s :: r => setFence q s (modMm q (fun m => { m with ringIn := r }) d)

/-- FENCE_RECEIVE (R244). -/
def execFenceReceive (q : Fin 4) : State → Host.Outcome State Fault Refusal := on (whenAwake (fenceReceive q.val))

/-! ### LOAD and STORE -/

/-- A request finds its tile's 32 entries taken (R188): discarded, counted, and a HALT. -/
def reqOverflow (no idx : Nat) (x : Part) (d : Dev) : Dev :=
  let q := tileQ no
  raise 2 (0x340 + q) 0x0306 x.pid (memDetail idx 0 0 no 3) (modMm q (fun m => { m with reqqOvf := m.reqqOvf + 1 }) d)

/-- The channel of a GDDR7 byte address. -/
def chanOf (a : Nat) : Nat := a / 2 ^ 32

/-- A piece lies on a channel. -/
def onChan (c : Nat) (p : Piece) : Bool :=
  match p.loc with
  | .gddr a => chanOf a = c
  | _ => false

/-- The pieces that a request has still to move. -/
def restPieces (r : MemReq) : List Piece := slicePieces r.pieces (r.done * r.width) ((r.len - r.done) * r.width)

/-- LOADs and buffered STORE elements that wait in a channel's controller (Table 7.4 CH_QMAX). -/
def waitingOn (d : Dev) (c : Nat) : Nat :=
  (d.tiles.flatMap (fun e => e.2.reqs.filter (fun r => !r.isStore && (restPieces r).any (onChan c)))).length +
    (d.mm.flatMap (fun e => e.2.wbuf.filter (fun w => w.pieces.any (onChan c)))).length

/-- CH_QMAX of every channel that pieces lie on is brought up to date. -/
def noteWaiting (ps : List Piece) (d : Dev) : Dev :=
  forEach ((List.range 48).filter (fun c => ps.any (onChan c))) (fun c d =>
    modChan c (fun y => { y with qmax := BitVec.ofNat 32 (max y.qmax.toNat (waitingOn d c)) }) d) d

/-- Take a request entry (R188). -/
def takeEntry (no : Nat) (r : MemReq) (d : Dev) : Dev :=
  let d := modTile no (fun t => { t with reqs := t.reqs ++ [{ r with id := t.reqNext }], reqNext := t.reqNext + 1 }) d
  let d := if r.isStore then d else noteWaiting r.pieces d
  let n := (getTile d no).reqs.length
  modMm (tileQ no) (fun m => if fld m.reqqMax.toNat 0 6 < n then
    { m with reqqMax := BitVec.ofNat 32 (n + no * 2 ^ 8) } else m) d

/-- The operand fields of a LOAD or STORE that are reserved, whatever the tables hold (R104, R189). -/
def moveBad (ops width : Nat) (store : Bool) : Bool :=
  fld ops 40 2 = 3 || fld ops 58 6 ≠ 0 || (fld ops 0 40 % 8 ≠ 0 && 16 ≤ width) || (store && fld ops 40 2 = 0)

/-- Element width of a LOAD or STORE. -/
def moveWidth (t : Tile) (store : Bool) (c : TileCmd) : Nat :=
  elemWidth (getQ t (if store then c.qa else 24 + c.qd % 4)).wcode

/-- A STORE starts its engine, ending one it is still carrying out and freeing that one's request entry (R82). -/
def storeEngine (c : TileCmd) (req : Option Nat) (t : Tile) : Tile :=
  let t := match t.eng.store with
    | some s => { setSeq c.idx sqEngOvl t with reqs := t.reqs.filter (fun r => !(r.isStore && r.id = s.req)) }
    | none => t
  { t with eng := { t.eng with store := req.map (fun r => ⟨fld c.ops 42 16, c.qa, c.idx, r⟩) } }

/-- LOAD and STORE at their issue tick: R79 where the address is bad, an entry in the request queue (R188) before the causes that
translation meets, and for a STORE its engine. -/
def moveEffect (store : Bool) : Effect := fun c x no d =>
  let t := getTile d no
  let w := moveWidth t store c
  let q := tileQ no
  let len := fld c.ops 42 16
  match resolveReq d x q c.ops w store with
  | .badop => modTile no (setSeq c.idx sqBadop) d
  | .stop lkind ix off cause =>
    if len ≠ 0 && 32 ≤ t.reqs.length then reqOverflow no c.idx x d
    else raise 2 (0x340 + q) 0x0308 x.pid (memDetail ix (off / 32) cause no lkind) d
  | .ok pieces slot cause voids =>
    if len = 0 then (if store then modTile no (storeEngine c none) d else d)
    else if 32 ≤ t.reqs.length then reqOverflow no c.idx x d
    else
      let r : MemReq := {
        id := 0, isStore := store, q := c.qd % 4, len := len, width := w, done := 0, pieces := pieces
        orbit := x.orbit, slot := slot, idx := c.idx }
      let id := t.reqNext
      let d := if store then modTile no (storeEngine c (some id)) d else d
      let d := takeEntry no r d
      match slot, cause with
      | some s, some (k, page) => detectFence q no x s k page voids d
      | some _, none => if voids = 0 then d else
          modMm q (fun m => { m with fenceCount := m.fenceCount + BitVec.ofNat 32 voids }) d
      | none, _ => d

/-- LOAD (R104, R188 to R190, R220). -/
def execLoad (tile : Fin 2304) : State → Host.Outcome State Fault Refusal :=
  tileCmd 0x12 (fun c t => moveBad c.ops (moveWidth t false c) false || (getQ t (24 + c.qd % 4)).depth = 0)
    (moveEffect false) tile.val

/-- STORE (R104, R188 to R192). -/
def execStore (tile : Fin 2304) : State → Host.Outcome State Fault Refusal :=
  tileCmd 0x13 (fun c t => moveBad c.ops (moveWidth t true c) true) (moveEffect true) tile.val

/-! ### Delivery -/

/-- A channel serves requests: it is UP, and its memory moon's PLL holds lock (R195, Table 6.6). -/
def chanServes (d : Dev) (c : Nat) : Bool := (getChan d c).st = .up && !d.clk.pllDown.contains (4 + c / 12)

/-- A piece can be performed now: its channel serves requests, or its bytes have come from the store. -/
def pieceReady (d : Dev) (p : Piece) : Bool :=
  match p.loc with
  | .gddr a => chanServes d (chanOf a)
  | .tier _ _ _ => false
  | _ => true

/-- The bytes of a piece that can be performed. -/
def pieceBytes (d : Dev) (p : Piece) : List Byte :=
  match p.loc with
  | .gddr a => rdBs d.gddr a p.len
  | .served b => padTo p.len b
  | _ => List.replicate p.len 0

/-- Count tile bytes moved on channels and the ring (Table 7.4, Table 7.6). -/
def countMove (q : Nat) (write : Bool) (ps : List Piece) : Dev → Dev :=
  forEach ps fun p d =>
    match p.loc with
    | .gddr a =>
      let n := BitVec.ofNat 64 p.len
      let d := modChan (chanOf a) (fun c => { c with
        pinBytes := c.pinBytes + p.len
        rdBytes := if write then c.rdBytes else c.rdBytes + n, wrBytes := if write then c.wrBytes + n else c.wrBytes }) d
      if chanOf a / 12 = q then d else modMm q (fun m => { m with xqBytes := m.xqBytes + n }) d
    | _ => d

/-- An orbit number comes before another (R31: the numbers wrap). -/
def orbitBefore (a b : BitVec 32) : Bool := a ≠ b && decide ((b - a).toNat < 2 ^ 31)

/-- A STORE of the partition from an earlier orbit still waits in a write buffer or a request queue (R191 rule 3). -/
def olderStore (d : Dev) (x : Part) (orbit : BitVec 32) : Bool :=
  d.mm.any (fun m => m.2.wbuf.any (fun w => w.part = x.pid && orbitBefore w.orbit orbit)) ||
    (listedTiles d x).any (fun t => (getTile d t).reqs.any (fun r => r.isStore && orbitBefore r.orbit orbit))

/-- An earlier request of the same tile to a granule of these pieces still waits (R191 rule 2). -/
def granuleWaits (d : Dev) (no id : Nat) (ps : List Piece) : Bool :=
  (getMm d (tileQ no)).wbuf.any (fun w => w.tile = no && decide (w.req < id) &&
    w.pieces.any (fun a => ps.any (sameGranule a))) ||
  (getTile d no).reqs.any (fun r => decide (r.id < id) && (restPieces r).any (fun a => ps.any (sameGranule a)))

/-- The oldest LOAD of a memory queue. -/
def oldestLoad (t : Tile) (q : Nat) : Option MemReq := t.reqs.find? (fun r => !r.isStore && r.q = q)

/-- The pieces of a request are zeros from now on, because its slot is fenced (R244). -/
def reqVoid (d : Dev) (x : Part) (no : Nat) (r : MemReq) : Bool :=
  match r.slot with
  | some s => isFenced d (tileQ no) (slotAbs x s)
  | none => false

/-- An element of a request goes: its entry is freed with the last one. -/
def stepReq (id : Nat) (t : Tile) : Tile :=
  let l := t.reqs.map (fun r => if r.id = id then { r with done := r.done + 1, tries := [] } else r)
  { t with reqs := l.filter (fun r => decide (r.done < r.len)) }

/-- A request as it stands once its slot's fence has reached it (R244): what it has still to move is void, and those pieces are
counted (R247). -/
def fenceReq (x : Part) (no : Nat) (r : MemReq) (d : Dev) : MemReq × Dev :=
  let rest := restPieces r
  let n := (rest.filter (fun p => p.loc ≠ .void)).length
  if n = 0 || !reqVoid d x no r then (r, d)
  else
    let r := { r with pieces := slicePieces r.pieces 0 (r.done * r.width) ++ rest.map (fun p => ⟨p.len, .void⟩) }
    (r, modMm (tileQ no) (fun m => { m with fenceCount := m.fenceCount + BitVec.ofNat 32 n })
      (modTile no (fun t => { t with reqs := t.reqs.map (fun y => if y.id = r.id then r else y) }) d))

/-- CRC retries that have passed are counted (R197). -/
def passRetries (tries : Tab Nat) : Dev → Dev :=
  forEach tries (fun e => modChan e.1 (fun y => { y with crcRetry := if e.2 = 0 then y.crcRetry else y.crcRetry + 1 }))

/-- MEMORY_DELIVERY (R191, R99): the next element of the oldest LOAD of a memory queue is pushed, once the queue has room,
earlier STOREs have been written and its bytes can be read. -/
def deliver (no q : Nat) (d : Dev) : Dev :=
  match partOfTile d no with
  | none => d
  | some x =>
    match oldestLoad (getTile d no) q with
    | none => d
    | some r =>
      let (r, d) := fenceReq x no r d
      let t := getTile d no
      let ps := slicePieces r.pieces (r.done * r.width) r.width
      let y := getQ t (24 + q)
      if !hasRoom y || olderStore d x r.orbit || granuleWaits d no r.id ps || !ps.all (pieceReady d) then d
      else
        let tag := (tagHash x).map (fun h => Config.slotTag h no (24 + q) y.pushed)
        let t := stepReq r.id (enqueue (24 + q) (ps.flatMap (pieceBytes d)) [] tag t)
        passRetries r.tries (countMove (tileQ no) false ps (setTile d no (noteMet x.now t)))

/-- MEMORY_DELIVERY (R191). -/
def execMemoryDelivery (tile : Fin 2304) (q : Fin 4) : State → Host.Outcome State Fault Refusal :=
  on (whenAwake (deliver tile.val q.val))

/-- Put the bytes the store delivered in place of the first tiered piece that has none. -/
def serveFirst (b : List Byte) : List Piece → List Piece
  | [] => []
  | p :: r =>
    match p.loc with
    | .tier _ _ _ => ⟨p.len, .served b⟩ :: r
    | _ => p :: serveFirst b r

/-- The pieces from the first tiered one on become void. -/
def voidFrom : List Piece → List Piece
  | [] => []
  | p :: r =>
    match p.loc with
    | .tier _ _ _ => ⟨p.len, .void⟩ :: r.map (fun q => ⟨q.len, .void⟩)
    | _ => p :: voidFrom r

/-- The pieces from the first tiered one on, how many. -/
def tierLeft : List Piece → Nat
  | [] => 0
  | p :: r =>
    match p.loc with
    | .tier _ _ _ => 1 + r.length
    | _ => tierLeft r

/-- TIERED_READ (R233, R234, R242): the store controller serves the next piece of the oldest LOAD of a memory queue. An
uncorrectable read stops the partition, or fences the slot of a MODE 0b10 request. -/
def tieredRead (no q : Nat) (corrected : Bool) (d : Dev) : Dev :=
  match partOfTile d no with
  | none => d
  | some x =>
    match oldestLoad (getTile d no) q with
    | none => d
    | some r =>
      let tier := r.pieces.findSome? (fun p => match p.loc with
        | .tier a page ctx => some (a, page, ctx, p.len)
        | _ => none)
      match tier with
      | none => d
      | some (a, page, ctx, n) =>
        let setReq (f : List Piece → List Piece) : Dev → Dev := modTile no fun t =>
          { t with reqs := t.reqs.map (fun y => if y.id = r.id then { y with pieces := f y.pieces } else y) }
        match storeRd d a n with
        | some b => storeNote a n (setReq (serveFirst b) (if corrected then countSoft [a / 4096] d else d))
        | none =>
          match ctx, r.slot with
          | true, some s => detectFence (tileQ no) no x s 8 page (tierLeft r.pieces) (setReq voidFrom d)
          | true, none => raise 2 (0x340 + tileQ no) 0x0308 x.pid (memDetail page (a % 65536 / 32) 8 no 1) d
          | false, _ => raise 2 0x440 0x0403 x.pid (a / 2 ^ 26 + page * 2 ^ 32) d

/-- TIERED_READ (R233). -/
def execTieredRead (tile : Fin 2304) (q : Fin 4) (corrected : Bool) : State → Host.Outcome State Fault Refusal :=
  on (whenAwake (tieredRead tile.val q.val corrected))

/-! ### The write buffer -/

/-- Bytes of a memory moon's write buffer that are taken. -/
def wbufBytes (m : MemMoon) : Nat := (m.wbuf.map (fun w => w.bytes.length)).foldl (· + ·) 0

/-- A STORE element reaches the write buffer with the parity it was popped with (R192, R198); false where it is full. -/
def bufferStore (no : Nat) (x : Part) (req : Nat) (bytes : List Byte) (bad : Bool) (d : Dev) : Bool × Dev :=
  let q := tileQ no
  match (getTile d no).reqs.find? (fun r => r.isStore && r.id = req) with
  | none => (true, d)
  | some r =>
    let (r, d) := fenceReq x no r d
    let ps := slicePieces r.pieces (r.done * r.width) r.width
    let d := modTile no (stepReq req) d
    if ps.all (fun p => p.loc = .void) then (true, d)
    else if 4194304 < wbufBytes (getMm d q) + r.width then (false, d)
    else
      let e : WbEntry := {
        tile := no, req := req, part := x.pid, pieces := ps, bytes := padTo r.width bytes, orbit := r.orbit, badPar := bad }
      (true, noteWaiting ps (modMm q (fun m =>
        let m := { m with wbuf := m.wbuf ++ [e] }
        { m with wbufMax := BitVec.ofNat 32 (max m.wbufMax.toNat (wbufBytes m)) }) d))

/-- Write an element's bytes piece by piece. -/
def writePieces : List Piece → List Byte → Mem → Mem
  | [], _, m => m
  | p :: r, b, m =>
    writePieces r (b.drop p.len) (match p.loc with
      | .gddr a => wrBs m a (b.take p.len)
      | _ => m)

/-- STORE_WRITE (R191, R192): a write-buffer element is written, once no earlier element of its tile and no earlier LOAD of
its tile touches one of its granules. A parity error read from the buffer is a HALT. -/
def storeWrite (q idx : Nat) (d : Dev) : Dev :=
  let m := getMm d q
  match m.wbuf[idx]? with
  | none => d
  | some w =>
    let touches (l : List Piece) : Bool := l.any (fun a => w.pieces.any (sameGranule a))
    let before := (m.wbuf.take idx).any (fun v => v.tile = w.tile && touches v.pieces)
    let loads := (getTile d w.tile).reqs.any (fun r => !r.isStore && decide (r.id < w.req) &&
      touches (restPieces r))
    if before || loads || !w.pieces.all (pieceReady d) then d
    else
      let d := modMm q (fun m => { m with wbuf := m.wbuf.eraseIdx idx }) d
      releasePins w.part (if w.badPar then raise 2 (0x340 + q) 0x0307 w.part 0 d
        else passRetries w.tries (countMove q true w.pieces { d with gddr := writePieces w.pieces w.bytes d.gddr }))

/-- STORE_WRITE (R192). -/
def execStoreWrite (q : Fin 4) (idx : Nat) : State → Host.Outcome State Fault Refusal :=
  on (whenAwake (storeWrite q.val idx))

end Sys2Proof.Machine
end

