-- ==== Sys2Proof/Machine/Lattice.lean ====
section
/-!
DEFINITION. The tick lattice (R28, R80 to R83, R117, R149 to R161, R460): what every tile's units, engines and router do in
a tick once the events due in it have happened, arrivals from the mesh, and the tick a module takes while no command waits.
-/

namespace Sys2Proof.Machine

open Sys2Proof

/-! ### The mesh -/

/-- The occurrences of a run entry cover a tick of the orbit (R153). -/
def covers (start len period reps tick : Nat) : Bool :=
  decide (start ≤ tick) &&
    (if reps ≤ 1 then decide (tick < start + len)
     else decide ((tick - start) / period < reps) && decide ((tick - start) % period < len))

def runCovers (tick : Nat) (r : Run) : Bool := covers r.start r.len r.period r.reps tick

/-- The run in force in a tick of the orbit. -/
def runAt (r : Router) (tick : Nat) : Option Run := r.runs.find? (runCovers tick)

/-- The outputs of a run towards the neighbours: the select code, the step in tile index, and the input it enters there. -/
def runOuts (r : Run) (no : Nat) : List (Nat × Nat × Nat) :=
  [(r.selN, no - 48, 3), (r.selE, no + 1, 4), (r.selS, no + 48, 1), (r.selW, no - 1, 2)]

/-- Hop latency between neighbours x and x + 1, or y and y + 1 (R158). -/
def hopAt (k : Nat) : Nat := if k = 23 then 2 else if k = 7 || k = 15 || k = 31 || k = 39 then 3 else 1

/-- Hop latency between two neighbouring tiles. -/
def hop (a b : Nat) : Nat :=
  let lo := min a b
  if max a b = lo + 1 then hopAt (lo % 48) else hopAt (lo / 48)

/-- The seam, direction and lane of a hop across a seam (R178). -/
def seamOf (a b : Nat) : Nat × Nat × Nat :=
  if max a b = min a b + 1 then (a / 48 / 24, b2n (decide (b < a)), a / 48 % 24)
  else (2 + a % 48 / 24, b2n (decide (b < a)), a % 48 % 24)

/-- What a word rides from a tile to its neighbour (R157, R177, R178): over a seam, the channel that the plan assigns to its lane,
direction and entry tick. -/
def viaOf (x : Part) (tick a b : Nat) : Via :=
  match hop a b with
  | 1 => .link
  | 2 =>
    let k := seamOf a b
    .seam (((((x.info.map (·.seams)).getD []).find? (fun e =>
      (e.seam, e.dir, e.lane) = k && covers e.start e.len e.period e.reps tick)).map (·.ch)).getD 0)
  | _ => .crossing

/-- Put a word on a link into a router. -/
def addInput (no : Nat) (i : MeshIn) : Dev → Dev :=
  modTile no fun t => { t with router := { t.router with inputs := t.router.inputs ++ [i] } }

/-- Put a word at a router's local output. -/
def addArrival (no : Nat) (i : MeshIn) : Dev → Dev :=
  modTile no fun t => { t with router := { t.router with arrivals := t.router.arrivals ++ [i] } }

/-- A router's words of this tick go on (R152): each used output carries its input's word, and is counted in its slice. -/
def routeTile (x : Part) (no : Nat) (d : Dev) : Dev :=
  let now := x.now
  let t := getTile d no
  let due := t.router.inputs.filter (fun i => i.at_ = now)
  let d := setTile d no { t with router := { t.router with inputs := t.router.inputs.filter (fun i => i.at_ ≠ now) } }
  match runAt t.router x.tick with
  | none => d
  | some r =>
    let pick (sel : Nat) : Option MeshIn := if sel = 0 then none else due.find? (fun i => i.dir = sel)
    let d := forEach (runOuts r no) (fun o d => match pick o.1 with
      | some i => addInput o.2.1 ⟨now + hop no o.2.1, o.2.2, i.word, viaOf x x.tick no o.2.1⟩ d
      | none => d) d
    let d := match pick r.selL with
      | some i => if i.dir = 5 then addArrival no ⟨now + 1, 5, i.word, .link⟩ d else d
      | none => d
    let n := ((r.selL :: (runOuts r no).map (·.1)).filter (fun s => (pick s).isSome)).length
    if n = 0 then d
    else modSlice (moonOfTile no) (sliceOf no) (fun s => { s with meshBusy := s.meshBusy + BitVec.ofNat 64 n }) d

/-- The words that a router's local output takes from a mesh input in the next tick. They land after an element that the tile sends to
itself in the same tick: the model's choice (log entry 178). -/
def peekTile (next tick no : Nat) (d : Dev) : Dev :=
  let t := getTile d no
  match runAt t.router tick with
  | none => d
  | some r =>
    match t.router.inputs.find? (fun i => i.at_ = next && i.dir = r.selL && i.dir ≠ 5) with
    | some i => addArrival no i d
    | none => d

/-- The bit that makes the ones of n bits odd, itself counted (R142, Table 5.5). -/
def oddParity (v n : Nat) : Bool := (List.range n).foldl (fun a i => a != bit v i) true

/-- Bits 3,490:3,456 of a mesh word (Table 5.5): DQ, MC, DEST, VALID and TAG. -/
def hdrBits (w : MeshWord) : Nat := w.dq + 2 ^ 5 * b2n w.mc + 2 ^ 6 * w.dest + 2 ^ 18 + 2 ^ 19 * w.tag.toNat

/-- The word is for this tile (R155). -/
def meshMine (no : Nat) (t : Tile) (w : MeshWord) : Bool :=
  if w.mc then t.router.groups.getLsbD (w.dest % 256) else w.dest % 64 = no % 48 && w.dest / 64 = no / 48

/-- HPAR does not make the header's ones odd (Table 5.5). -/
def hdrBad (w : MeshWord) : Bool := w.hpar != oddParity (hdrBits w) 35

/-- The DATA bytes that PAR does not match, by number. -/
def dataBad (w : MeshWord) : List Nat :=
  ((w.data.zipIdx).filter (fun e => w.par.getLsbD e.2 != oddParity e.1.toNat 8)).map (·.2)

/-- An element at the local output enters its plan queue (R155, Table 3.7), DATA and PAR as received. -/
def meshPush (no : Nat) (x : Part) (w : MeshWord) (d : Dev) : Dev :=
  let t := getTile d no
  let sl (f : MoonSlice → MoonSlice) : Dev → Dev := modSlice (moonOfTile no) (sliceOf no) f
  if hdrBad w then
    raise 2 (0x100 + moonOfTile no) 0x0108 x.pid no (sl (fun s => { s with hperr := s.hperr + 1 })
      (modTile no (fun t => { t with halting := true, haltCause := 0 }) d))
  else if !meshMine no t w then sl (fun s => { s with misdeliver := s.misdeliver + 1 }) d
  else if 24 ≤ w.dq then modTile no (setSeqMesh sqOvf) d
  else if hasRoom (getQ t w.dq) then
    let bad := dataBad w
    let d := if bad.any (fun k => decide (k < elemWidth (getQ t w.dq).wcode)) then sl (fun s => { s with perr := s.perr + 1 }) d else d
    modTile no (enqueue w.dq w.data bad ((tagHash x).map (fun _ => w.tag))) d
  else if (tagHash x).isSome then tileHalt no x ⟨5, w.tag.toNat % 4096, w.dq, 0⟩ d
  else modTile no (setSeqMesh sqOvf) d

/-- MESH_ARRIVAL (R155): the next element that is due at a tile's local output. -/
def meshArrival (no : Nat) (d : Dev) : Dev :=
  match partOfTile d no with
  | none => d
  | some x =>
    let t := getTile d no
    match t.router.arrivals.find? (fun i => decide (i.at_ ≤ x.now)) with
    | none => d
    | some i =>
      if !active x || t.mode ≠ .run then d else
      meshPush no x i.word (setTile d no { t with router := { t.router with arrivals := t.router.arrivals.erase i } })

/-- MESH_ARRIVAL (R155). -/
def execMeshArrival (tile : Fin 2304) : State → Host.Outcome State Fault Refusal := on (whenAwake (meshArrival tile.val))

/-! ### A tile's tick -/

/-- What a tick hands on outside the tile: elements for a port's stream, and a store element. -/
structure TickOut where
  links : List (Nat × StreamMsg) := []
  store : Option (Nat × List Byte × Bool) := none
  deriving DecidableEq, Repr

/-- RECV elements land (R101). -/
def recvLand (now : Nat) (w : Work) : Work :=
  let e := w.t.eng
  let due := e.landing.filter (fun l => decide (l.at_ ≤ now))
  let w := { w with t := { w.t with eng := { e with landing := e.landing.filter (fun l => decide (now < l.at_)) } } }
  due.foldl (fun w l => push l.q l.idx l.bytes w) w

/-- Vectors that are due leave a pipeline for their queues. -/
def pipePush (now : Nat) (l : List PipeItem) (w : Work) : List PipeItem × Work :=
  (l.filter (fun i => decide (now < i.at_)),
   (l.filter (fun i => decide (i.at_ ≤ now))).foldl (fun w i => push i.q i.idx i.bytes w) w)

/-- The pushes of a tick after the mesh's (Table 3.7). -/
def tickPushes (now : Nat) (w : Work) : Work :=
  let w := matLand now (recvLand now w)
  let (l, w) := pipePush now w.t.matPipe w
  let w := { w with t := { w.t with matPipe := l } }
  let (l, w) := pipePush now w.t.vecPipe w
  let w := { w with t := { w.t with vecPipe := l } }
  let (l, w) := pipePush now w.t.fnPipe w
  { w with t := { w.t with fnPipe := l } }

/-- The word a SEND puts on the mesh (Table 3.8, Table 5.5): bytes popped with bad parity keep it. -/
def sendWord (w : Work) (s : SendCmd) (bytes : List Byte) (bad : List Nat) (i : Nat) : MeshWord :=
  let o := s.ops.toNat
  let mc := fld o 33 2 = 1
  let data := padTo 384 bytes
  let word : MeshWord := {
    data := data, dq := fld o 28 5, mc := mc
    par := BitVec.ofNat 384 (data.foldr (fun b a => b2n (oddParity b.toNat 8) + 2 * a) 0 ^^^ bad.foldl (fun a k => a + 2 ^ k) 0)
    dest := if mc then fld o 35 8 else fld o 16 6 + 64 * fld o 22 6
    tag := match w.tag with
      | some h => Config.slotTag h w.no (32 + s.qa) i
      | none => 0
    hpar := false }
  { word with hpar := oddParity (hdrBits word) 35 }

/-- SEND's pop of a tick (R100): onto the local input, or towards a port. -/
def sendPop (now : Nat) (w : Work) : TickOut × Work :=
  match w.t.eng.send with
  | none => ({}, w)
  | some s =>
    let x := getQ w.t s.qa
    let bad := if s.qa < 24 && decide (0 < x.count) then badBytes w.t x (x.pushed - x.count) else []
    let (b, w) := pop1 s.qa s.idx w
    let w := { w with t := { w.t with eng := { w.t.eng with
      send := if s.left ≤ 1 then none else some { s with left := s.left - 1 } } } }
    let o := s.ops.toNat
    if fld o 33 2 = 2 then ({ links := [(fld o 35 5, ⟨fld o 40 3, b, bad, now⟩)] }, w)
    else
      let i : MeshIn := ⟨now, 5, sendWord w s b bad (x.pushed - x.count), .link⟩
      ({}, { w with t := { w.t with router := { w.t.router with inputs := w.t.router.inputs ++ [i] } } })

/-- RECV's pop of a tick (R101). -/
def recvPop (now : Nat) (w : Work) : Work :=
  match w.t.eng.recv with
  | none => w
  | some r =>
    let (l, w) := pop r.q 1 r.idx true w
    { w with t := { w.t with eng := { w.t.eng with
      recv := if r.left ≤ 1 then none else some { r with left := r.left - 1 }
      landing := w.t.eng.landing ++ [⟨now + 1, r.qd, l.headD [], r.idx⟩] } } }

/-- STORE's pop of a tick (R104): its request, its bytes, and whether one of them has bad parity (R198). -/
def storePop (w : Work) : Option (Nat × List Byte × Bool) × Work :=
  match w.t.eng.store with
  | none => (none, w)
  | some s =>
    let x := getQ w.t s.qa
    let bad := s.qa < 24 && badIn w.t x (x.pushed - x.count) (min 1 x.count)
    let (b, w) := pop1 s.qa s.idx w
    (some (s.req, b, bad), { w with t := { w.t with eng := { w.t.eng with
      store := if s.left ≤ 1 then none else some { s with left := s.left - 1 } } } })

/-- A fetch past index 4,095 ends the orbit's stream with OVERRUN (R94). -/
def pastEnd (x : Part) (t : Tile) : Tile :=
  if issueDue x t && 4095 < t.pc then setSeqMesh sqOverrun (endStream t) else t

/-- One tile's tick: pushes, then pops in the order of Table 3.7. Where several units set a flag that FIRST_IDX watches, the order here
(drain, landings of the matrix unit, vector unit, function unit) names the first: the model's choice (log entry 177). -/
def tileTick (x : Part) (no : Nat) (t : Tile) : TickOut × Work :=
  let w := tickPushes x.now ⟨pastEnd x t, no, tagHash x, []⟩
  let w := funPops x.now (vecPops x.now (matPops x.now w))
  let (o, w) := sendPop x.now w
  let (s, w) := storePop (recvPop x.now w)
  ({ o with store := s }, { w with t := { w.t with seqNew := 0, arithNew := 0 } })

/-! ### A partition's tick -/

/-- A HALT that a tick raises. -/
inductive TickHalt where
  | tile (no : Nat) (e : HaltEv)
  | wbuf (q : Nat)
  deriving DecidableEq, Repr

/-- What a tile's tick hands on, and the HALTs it raises. -/
def tickTile (x : Part) (no : Nat) (a : List TickHalt × Dev) : List TickHalt × Dev :=
  let (o, w) := tileTick x no (getTile a.2 no)
  let d := setTile a.2 no w.t
  let d := forEach (o.links.filter (fun l => x.mask.getLsbD (l.1 / 2)))
    (fun l => modPort l.1 (fun p => { p with toStream := p.toStream ++ [l.2] })) d
  let (ok, d) := match o.store with
    | some (r, b, bad) => bufferStore no x r b bad d
    | none => (true, d)
  (a.1 ++ w.bad.map (TickHalt.tile no) ++ (if ok then [] else [.wbuf (tileQ no)]), d)

/-- The tiles of a partition that run. -/
def runTiles (d : Dev) (x : Part) : List Nat := (listedTiles d x).filter (fun t => (getTile d t).mode = .run)

/-- Raise what a tick found, at its end. -/
def raiseHalt (x : Part) (h : TickHalt) : Dev → Dev :=
  match h with
  | .tile no e => tileHalt no x e
  | .wbuf q => raise 2 (0x340 + q) 0x0307 x.pid 0

/-- The link queue of a delivery has room for every element of its packet (R304). -/
def linkRoom (d : Dev) (p : Packet) : Bool :=
  let y := getQ (getTile d (pTile p)) (28 + pLq p)
  decide (y.count + p.payload.length / elemWidth y.wcode ≤ y.depth)

/-- Delivery stages that wait for room count the tick (R304). -/
def stallTick (x : Part) (d : Dev) : Dev :=
  forEach (partPorts x) (fun p d =>
    match (getPort d p).deliv with
    | some v => if linkRoom d v.pkt then d else modPort p (fun y => { y with stallTicks := satAdd y.stallTicks 1 }) d
    | none => d) d

/-- The end of a partition's tick: tick and time stamp move on, and a partition that has stopped parks. -/
def endTick (pid : Nat) : Dev → Dev := withPart pid fun x d =>
  let d := modPart pid (fun y => { y with now := y.now + 1, tick := y.tick + 1 }) d
  if x.stopping then parkTiles pid d else d

/-- A partition's tick (R28): every running tile, then every router, then the HALTs, then its end. -/
def partTick (x : Part) (d : Dev) : Dev :=
  let ts := runTiles d x
  let (hs, d) := ts.foldl (fun a no => tickTile x no a) ([], d)
  let d := forEach ts (routeTile x) d
  let len := (x.info.map (·.orbitLen)).getD 1
  let d := forEach ts (peekTile (x.now + 1) ((x.tick + 1) % len)) d
  endTick x.pid (forEach hs (raiseHalt x) d)

/-- A partition that has stopped finishes its tick in hand (Table 1.5). -/
def finishStop (pid : Nat) : Dev → Dev := withPart pid fun x d => if x.stopping then partTick x d else d

/-! ### The module's tick -/

/-- A tile has an event in its partition's present tick that has not happened yet. -/
def tileDue (x : Part) (t : Tile) : Bool :=
  (issueDue x t && decide (t.pc ≤ 4095)) || (match t.wait with
    | some w => decide (w.release = x.now)
    | none => false) ||
  (match t.mat.drain with
    | some m => decide (m.at_ = x.now)
    | none => false) || t.router.arrivals.any (fun i => decide (i.at_ ≤ x.now))

/-- The marks of the orbit before the present one are not complete (R328). -/
def marksOpen (x : Part) : Bool := x.fab.marks.any (fun m => m.orbit + 1 = x.orbit && !m.complete)

/-- A partition has an event in its present tick that has not happened yet. -/
def partDue (d : Dev) (x : Part) : Bool :=
  (x.plan = .running && ((marksOpen x && decide ((x.info.map (·.orbitLen)).getD 0 / 2 ≤ x.tick)) ||
    decide ((x.info.map (·.orbitLen)).getD 0 ≤ x.tick) || (x.tick = 128 && !x.staged))) ||
    (runTiles d x).any (fun no => tileDue x (getTile d no)) || (x.plan = .running && (partPorts x).any (portDue d x))

/-- An event is still to come before the lattice ticks: one of a ticking partition, a break that parks one, or a tide excursion. -/
def lateDue (d : Dev) : Bool :=
  (ticking d).any (partDue d) || d.parts.any (fun e => e.2.plan = .running && !e.2.parked && breakDue e.2) ||
    d.clk.moons.any (fun e => e.2.excDue ≠ 0)

/-- Every tile moon begins its next tick; before the tile clocks have started, a tick's wall time passes. -/
def moonsTick (d : Dev) : Dev := if clocksRun d then freeTicks (beginTick d) else advance (tickPeriod d) d

/-- One tick of the lattice (R28, R174): the work of each ticking partition's tick, the ticks that delivery stages wait, and the
next tick's beginning in every moon. -/
def latticeTick (d : Dev) : Dev := moonsTick (forEach (d.parts.map (·.2)) stallTick (forEach (ticking d) partTick d))

/-- While a pause of the lattice lasts (R169, R175): a partition that has stopped finishes the tick in hand, and wall time passes. -/
def pausedTick (d : Dev) : Dev :=
  letPass (tickPeriod d) (forEach ((ticking d).filter (fun x => x.stopping && !partDue d x)) partTick d)

/-- What the module does while no command waits: nothing while it is off, in reset or SEALED, and nothing while an event of
the present tick is still to come; else a tick of the lattice passes, or its wall time alone while the clocks stand
still. -/
def idle (d : Dev) : Dev :=
  if !awake d then d
  else
  let d := forEach (d.ports.map (·.1)) endMove d
  if latticePaused d then pausedTick d
  else if lateDue d then d
  else latticeTick d

end Sys2Proof.Machine
end

