-- ==== Sys2Proof/Machine/Level.lean ====
section
/-!
DEFINITION. Level reports (R163, R203, Table 15.11): what a partition's counters have gained since the boundary before, as the
MP reports it.
-/

namespace Sys2Proof.Machine

open Sys2Proof

/-- The counter slices of a partition's blocks: key moon * 4 + slice (R162). -/
def partSlices (x : Part) : List (Nat × Nat) :=
  tileMoons.flatMap (fun m => (moonBlocks m).zipIdx.filterMap (fun b => if x.mask.getLsbD b.1 then some (m, b.2) else none))

/-- The channels of a partition's blocks. -/
def partChans (x : Part) : List Nat := (blocksOf x.mask).flatMap (fun n => [3 * n, 3 * n + 1, 3 * n + 2])

/-- The counters as they stand, for the next report to start from. -/
def levelSnap (x : Part) (d : Dev) (l : Level) : Level :=
  { l with
    base := (partSlices x).map (fun k => (4 * k.1 + k.2, getSlice d k.1 k.2))
    chans := (partChans x).map (fun c => (c, (getChan d c).rdBytes.toNat, (getChan d c).wrBytes.toNat, (getChan d c).pinBytes))
    at_ := d.clk.wall }

/-- What a 64-bit counter of a partition's slices has gained since the last snapshot. -/
def gained (x : Part) (d : Dev) (f : MoonSlice → BitVec 64) : Nat :=
  ((partSlices x).map (fun k => (f (getSlice d k.1 k.2) - f ((tget x.level.base (4 * k.1 + k.2)).getD {})).toNat)).foldl (· + ·) 0

/-- The least margin that a partition's slices show. -/
def leastMargin (x : Part) (d : Dev) (f : MoonSlice → BitVec 32) : Nat :=
  ((partSlices x).map (fun k => (f (getSlice d k.1 k.2)).toNat)).foldl min 0xFFFFFFFF

/-- Parts per million of a whole; 0 where there is no whole. -/
def ppm (part whole : Nat) : Nat := if whole = 0 then 0 else part * 1000000 / whole

/-- Mean fill of a level as a share of its mean budget. -/
def fillPpm (x : Part) (lvl fill waits : Nat) : Nat :=
  let r := ((x.info.bind (fun i => tget i.waits lvl))).getD (0, 0)
  ppm (fill * r.1) (waits * r.2)

/-- A channel record of the report. -/
def chanRec (x : Part) (d : Dev) (c : Nat) : List Byte :=
  let k := getChan d c
  let (rd, wr, pin) := (tget x.level.chans c).getD (0, 0, 0)
  let ns := (d.clk.wall - x.level.at_) / grain
  toLe 1 c ++ toLe 3 0 ++ toLe 4 (ppm ((k.pinBytes - pin) / 128) ns) ++ toLe 8 (k.rdBytes - BitVec.ofNat 64 rd).toNat ++
    toLe 8 (k.wrBytes - BitVec.ofNat 64 wr).toNat

/-- The quadrants of a partition. -/
def partQuads (x : Part) : List Nat := ((blocksOf x.mask).map (· / 4)).foldl insertNat []

/-- The report from byte 4 on, for the orbit that ends (Table 15.11). -/
def levelBody (x : Part) (d : Dev) : List Byte :=
  let w0 := gained x d (·.waitCount0)
  let w1 := gained x d (·.waitCount1)
  let reqq := (partQuads x).foldl (fun a q =>
    let v := (getMm d q).reqqMax.toNat
    if fld a 0 6 < fld v 0 6 then v else a) 0
  let wbuf := (partQuads x).foldl (fun a q => max a (getMm d q).wbufMax.toNat) 0
  toLe 4 (ppm (gained x d (·.meshBusy)) (5 * (partTiles x).length * (x.info.map (·.orbitLen)).getD 0)) ++ toLe 8 w0 ++
    toLe 8 w1 ++ toLe 4 (fillPpm x 0 (gained x d (·.waitFill0)) w0) ++ toLe 4 (fillPpm x 1 (gained x d (·.waitFill1)) w1) ++
    toLe 4 (leastMargin x d (·.marginMin0)) ++ toLe 4 (leastMargin x d (·.marginMin1)) ++
    toLe 8 (gained x d (·.holdNs0)) ++ toLe 8 (gained x d (·.holdNs1)) ++ toLe 4 reqq ++ toLe 4 wbuf ++
    toLe 2 (partChans x).length ++ List.replicate 6 0 ++ (partChans x).flatMap (chanRec x d)

/-- At a boundary the MP forms the report of the orbit that ends. -/
def formLevel (pid : Nat) : Dev → Dev := withPart pid fun x d =>
  setPart pid { x with level := levelSnap x d { x.level with orbit := x.orbit, body := levelBody x d } } d

/-- LEVEL_REPORT (R163): the last report formed; zero bytes before the first boundary. -/
def execLevelReport (m : Fin 64) : State → Host.Outcome State Fault Refusal := on <| partCommand 0x0206 m fun x _ d =>
  answer m stOk 0 (if x.level.body.isEmpty then List.replicate 72 0 else toLe 4 x.level.orbit.toNat ++ x.level.body) d

end Sys2Proof.Machine
end

