-- ==== Sys2Proof/Machine/Dma.lean ====
section
/-!
DEFINITION. DMA channels (R248 to R258, R462): the registers that start and stop a channel, descriptors, page locks, bursts
and write-backs. A burst is one event: it completes whole, or ends the descriptor.
-/

namespace Sys2Proof.Machine

open Sys2Proof

/-- Raise a DMA interrupt: its status bit, and the channel's vector (R255, Table 15.12). -/
def dmaIrq (c : Nat) (f : Dma → Dma) (d : Dev) : Dev := raiseVec (66 + c) (modDma c f d)

/-- The partition a DMA channel serves (R248). -/
def dmaPart (d : Dev) (c : Nat) : Option Part := partOfBlock d (c / 2)

/-- Ring index after the head. -/
def nextIdx (x : Dma) (i : BitVec 16) : BitVec 16 := BitVec.ofNat 16 ((i.toNat + 1) % 2 ^ x.ringSize.toNat)

/-! ### Registers that act -/

/-- A write of DMA_CTRL.EN (R255, Table 9.8). A channel that the crater map marks unusable is refused too (R430, DEDUCED). -/
def dmaEn (c : Nat) (v : Bool) (d : Dev) : Dev :=
  let x := getDma d c
  let k := x.ringSize.toNat
  if v then
    if x.st ≠ .idle then d
    else if 1 ≤ k && k ≤ 16 && x.ringBase.toNat % 4096 = 0 && (dmaPart d c).isSome && !d.crater.force.dma.contains c then
      modDma c (fun x => { x with en := true, st := .run, stallOwn := false }) d
    else modDma c (fun x => { x with en := false, cfgErr := true }) d
  else
    modDma c (fun x => { x with
      en := false
      st := match x.st with
        | .run => if x.cur.isSome then .aborting else .idle
        | .stopped => .idle
        | s => s }) d

/-- DMA_EN (R255). -/
def execDmaEn (c : Fin 32) (v : Bool) : State → Host.Outcome State Fault Refusal := on (whenBell (dmaEn c.val v))

/-- A write of 1 to DMA_CTRL.ABORT (R254, Table 9.8). -/
def dmaAbort (c : Nat) (d : Dev) : Dev :=
  let x := getDma d c
  if x.st ≠ .run then d
  else if x.cur.isSome then modDma c (fun x => { x with abort := true, st := .aborting }) d
  else dmaIrq c (fun x => { x with st := .stopped, irqAbort := true }) d

/-- ABORT (R254). -/
def execAbort (c : Fin 32) : State → Host.Outcome State Fault Refusal := on (whenBell (dmaAbort c.val))

/-- A write of 1 to DMA_CTRL.RESUME (R255). -/
def dmaResume (c : Nat) : Dev → Dev :=
  modDma c fun x => if x.st = .stopped then { x with st := .run, stallOwn := false } else x

/-- RESUME (R255). -/
def execResume (c : Fin 32) : State → Host.Outcome State Fault Refusal := on (whenBell (dmaResume c.val))

/-- A write of TAIL (R250, R256). -/
def dmaTail (c : Nat) (v : BitVec 16) : Dev → Dev :=
  modDma c fun x =>
    if 2 ^ x.ringSize.toNat ≤ v.toNat then { x with cfgErr := true } else { x with tail := v, stallOwn := false }

/-- TAIL (R250). -/
def execTail (c : Fin 32) (v : BitVec 16) : State → Host.Outcome State Fault Refusal := on (whenBell (dmaTail c.val v))

/-! ### Pages -/

/-- The page a descriptor's next byte lies in, and the offset there. -/
def xferPage (x : DmaXfer) : Nat := x.page + (x.off + x.moved) / 65536
def xferOff (x : DmaXfer) : Nat := (x.off + x.moved) % 65536

/-- Release a page's lock (R252). -/
def unlockPage (x : DmaXfer) (d : Dev) : Dev :=
  match x.lock with
  | some p => setCpt p (setBit (cptE d p) 5 false) d
  | none => d

/-- A descriptor ends with a status, before its write-back: its lock goes, and a page whose data ends inside it is INCOMPLETE
(R253). -/
def endXfer (c : Nat) (status : Nat) (d : Dev) : Dev :=
  match (getDma d c).cur with
  | none => d
  | some x =>
    let d := unlockPage x d
    let d := if !x.toHost && 0 < x.moved && x.moved < x.len && xferOff x ≠ 0 then
        let e := cptE d (xferPage x)
        setCpt (xferPage x) (setBit (e - eResume e * 2 ^ 40 + xferOff x * 2 ^ 40) 6 true) d
      else d
    modDma c (fun y => { endLockWait d.clk.wall y with
      cur := some { x with lock := none, tries := 0, ended := some (BitVec.ofNat 8 status) } }) d

/-- The channel takes the lock of the page its next byte lies in, waits for it, or ends (R252, Table 9.7). -/
def enterPage (c : Nat) (d : Dev) : Dev :=
  match (getDma d c).cur, dmaPart d c with
  | some x, some pt =>
    let p := xferPage x
    let e := cptE d p
    if 1048576 ≤ p || !pt.mask.getLsbD (p / 65536) then endXfer c stDenied d
    else if !eValid e then endXfer c stNotReady d
    else if ePinned e then endXfer c stDenied d
    else if eLock e then
      modDma c (fun y => { y with lockWait := some ((getDma d c).lockWait.getD d.clk.wall) }) d
    else if ePoison e || d.cptBad.contains p then endXfer c stIntegrity d
    else if eLoc e && !x.toHost then endXfer c stDenied d
    else modDma c (fun y => { endLockWait d.clk.wall y with cur := some { x with lock := some p } })
      (setCpt p (setBit e 5 true) d)
  | some _, none => endXfer c stDenied d
  | none, _ => d

/-- LOCK_WAIT_END (R252): the lock is free, and the channel's wait is counted. -/
def lockWaitEnd (c : Nat) (d : Dev) : Dev :=
  let x := getDma d c
  match x.lockWait, x.cur with
  | some _, some y =>
    if eLock (cptE d (xferPage y)) then d
    else enterPage c (modDma c (endLockWait d.clk.wall) d)
  | _, _ => d

/-- LOCK_WAIT_END (R252). -/
def execLockWaitEnd (c : Fin 32) : State → Host.Outcome State Fault Refusal := on (whenAwake (lockWaitEnd c.val))

/-! ### Descriptors -/

/-- A descriptor's fields (Table 9.6). -/
def xferOf (l : List Byte) : DmaXfer :=
  { host := lf l 0 8, page := lf l 8 4 % 2 ^ 20, off := lf l 12 2, len := lf l 16 4, toHost := bit (lf l 20 1) 0
    irq := bit (lf l 20 1) 1, tag := BitVec.ofNat 16 (lf l 29 2), moved := 0, lock := none, ended := none }

/-- A descriptor the channel refuses with BAD_ARG (R250). -/
def xferBad (l : List Byte) : Bool :=
  lf l 8 4 / 2 ^ 20 ≠ 0 || lf l 14 2 ≠ 0 || lf l 20 1 / 4 ≠ 0 || lf l 21 3 ≠ 0 || lf l 31 1 % 64 ≠ 0 || lf l 16 4 = 0 ||
    16777216 < lf l 16 4

/-- The channel reads at HEAD now: it runs, holds no descriptor, HEAD differs from TAIL and it does not wait for OWN. -/
def readsHead (x : Dma) : Bool := x.st = .run && x.cur.isNone && x.head ≠ x.tail && !x.stallOwn

/-- The read of the descriptor at HEAD fails (R462). -/
def readFails (c status : Nat) (d : Dev) : Dev :=
  dmaIrq c (fun x => { x with
    st := .stopped, irqErr := true, lastErr := BitVec.ofNat 64 (x.head.toNat + status * 2 ^ 16) }) d

/-- DESCRIPTOR_READ (R249, R250). -/
def descriptorRead (c : Nat) (d : Dev) : Dev :=
  let x := getDma d c
  if !readsHead x then d else
  let a := x.ringBase.toNat + 32 * x.head.toNat
  if !ioSecure d then readFails c stTimeout d
  else if !hostOk d a 32 then readFails c stIntegrity d
  else
    let l := hostRd d a 32
    if !bit (lf l 31 1) 7 then modDma c (fun x => { x with stallOwn := true }) d
    else
      let d := modDma c (fun x => { x with stallOwn := false, cur := some (xferOf l) }) d
      if xferBad l then endXfer c stBadArg d else enterPage c d

/-- DESCRIPTOR_READ (R249). -/
def execDescriptorRead (c : Fin 32) : State → Host.Outcome State Fault Refusal := on (whenAwake (descriptorRead c.val))

/-- DESCRIPTOR_READ_FAIL (R462): an error or poisoned completion (INTEGRITY) or none within 50 ms (TIMEOUT). -/
def execDescriptorReadFail (c : Fin 32) : State → Host.Outcome State Fault Refusal := on <| whenAwake fun d =>
  if !readsHead (getDma d c) then d
  else
    let (v, d) := draw 1 d
    readFails c.val (if v = 1#1 then stTimeout else stIntegrity) d

/-- Bytes of the next burst (R251): to the next 4,096-byte boundary of either address, or the end of the range. -/
def burstLen (x : DmaXfer) : Nat :=
  min (x.len - x.moved) (min (4096 - xferOff x % 4096) (4096 - (x.host + x.moved) % 4096))

/-- Bytes of DMA, window or weight traffic on a channel (Table 7.4, Table 7.6). -/
def countOther (ch n : Nat) (d : Dev) : Dev :=
  modMm (ch / 12) (fun m => { m with otherBytes := m.otherBytes + BitVec.ofNat 64 n })
    (modChan ch (fun k => { k with pinBytes := k.pinBytes + n }) d)

/-- An access of the window or of a weight load has passed, with the retries it took (R197). -/
def passOther (ch : Nat) (d : Dev) : Dev :=
  modChan ch (fun k => { k with crcTries := 0 }) (passRetries [(ch, (getChan d ch).crcTries)] d)

/-- Bytes of the whole blocks of k bytes that cover n bytes from an address (R251). -/
def outward (k a n : Nat) : Nat := if n = 0 then 0 else ((a + n - 1) / k + 1 - a / k) * k

/-- GDDR7 bytes that a burst moves (R251): whole granules read, or whole granules written with the partial ones read for the
merge. -/
def burstBytes (toHost : Bool) (a n : Nat) : Nat :=
  if toHost then outward 32 a n
  else outward 32 a n + (if a % 32 = 0 then 0 else 32) +
    (if (a + n) % 32 = 0 || (a % 32 ≠ 0 && outward 32 a n = 32) then 0 else 32)

/-- A burst's bytes count as moved (R251), on the channel's counters and on the memory's. -/
def countBurst (c n : Nat) (mem : Option (Nat × Nat)) (d : Dev) : Dev :=
  let d := modDma c (fun y => { y with bytesMoved := y.bytesMoved + BitVec.ofNat 64 n }) d
  match mem with
  | some (ch, k) => countOther ch k d
  | none => d

/-- The channel leaves a page (R252): its lock goes, and INCOMPLETE clears where this descriptor moved every byte from an
offset no greater than RESUME_OFF to the end (R253). -/
def leavePage (c : Nat) (x : DmaXfer) (d : Dev) : Dev :=
  match x.lock with
  | none => d
  | some p =>
    let d := unlockPage x d
    let e := cptE d p
    let start := if p = x.page then x.off else 0
    let d := if !x.toHost && x.off + x.moved = (p - x.page + 1) * 65536 && eIncomplete e && start ≤ eResume e then
        setCpt p (setBit (e - eResume e * 2 ^ 40) 6 false) d
      else d
    modDma c (fun y => { y with cur := some { x with lock := none } }) d

/-- BURST (R251): one burst of a running descriptor moves, or ends it with INTEGRITY (R253). Host memory is read in whole 64-byte
lines. -/
def burst (c : Nat) (d : Dev) : Dev :=
  let k := getDma d c
  match k.cur with
  | none => d
  | some x =>
    match x.lock with
    | none => d
    | some p =>
      if k.st ≠ .run || x.ended.isSome then d else
      let n := burstLen x
      let h := x.host + x.moved
      let e := cptE d p
      let a := eLocator e * 65536 + xferOff x
      if !ioSecure d then endXfer c stTimeout d
      else if !eLoc e && !chanServes d (chanOf a) then d
      else if !(if x.toHost then hostOk d h n else hostOk d (h / 64 * 64) (outward 64 h n)) then endXfer c stIntegrity d
      else
        let data := if x.toHost then (if eLoc e then storeRd d a n else some (rdBs d.gddr a n)) else some (hostRd d h n)
        match data with
        | none => endXfer c stIntegrity d
        | some b =>
          let d := if x.toHost then hostWr h b d else { d with gddr := wrBs d.gddr a b }
          let y := { x with moved := x.moved + n, tries := 0 }
          let d := if eLoc e then storeNote a n d else passRetries [(chanOf a, x.tries)] d
          let d := countBurst c n (if eLoc e then none else some (chanOf a, burstBytes x.toHost a n))
            (modDma c (fun z => { z with cur := some y }) d)
          if y.moved = y.len then endXfer c stOk (leavePage c y d)
          else if xferOff y = 0 then enterPage c (leavePage c y d)
          else d

/-- BURST (R251). -/
def execBurst (c : Fin 32) : State → Host.Outcome State Fault Refusal := on (whenAwake (burst c.val))

/-- HOST_COMPLETION_TIMEOUT (R253). -/
def execHostCompletionTimeout (c : Fin 32) : State → Host.Outcome State Fault Refusal := on <| whenAwake fun d =>
  match (getDma d c).cur with
  | some x => if x.ended.isSome || x.lock.isNone then d else endXfer c.val stTimeout d
  | none => d

/-- Bytes 24 to 31 of a descriptor as written back (R250). -/
def backBytes (x : DmaXfer) (status : Nat) : List Byte :=
  toLe 4 (x.len - x.moved) ++ toLe 1 status ++ toLe 2 x.tag.toNat ++ [0x40#8]

/-- The write-back of a descriptor (R250, R255): the ring entry, HEAD, the counts, LAST_ERR and the interrupt of its status. -/
def writeBack (c status : Nat) (x : DmaXfer) (d : Dev) : Dev :=
  let k := getDma d c
  let a := k.ringBase.toNat + 32 * k.head.toNat + 24
  let d := if hostOk d a 8 then hostWr a (backBytes x status) d else d
  let d := modDma c (fun y => { y with
    head := nextIdx y y.head, descDone := y.descDone + 1, cur := none
    lastErr := if status = stOk then y.lastErr
      else BitVec.ofNat 64 (y.head.toNat + status * 2 ^ 16 + xferPage x % 2 ^ 20 * 2 ^ 24) }) d
  if status = stOk then (if x.irq then dmaIrq c (fun y => { y with irqDone := true }) d else d)
  else if status = stAborted then d
  else dmaIrq c (fun y => { y with irqErr := true }) d

/-- WRITE_BACK (R250): an ended descriptor of a running channel is written back; an error stops the channel where
STOP_ON_ERR is 1. -/
def dmaWriteBack (c : Nat) (d : Dev) : Dev :=
  let k := getDma d c
  match k.cur with
  | some x =>
    match x.ended with
    | some st =>
      if k.st ≠ .run then d else
      let d := writeBack c st.toNat x d
      if st.toNat ≠ stOk && k.stopOnErr then modDma c (fun y => { y with st := .stopped }) d else d
    | none => d
  | none => d

/-- WRITE_BACK (R250). -/
def execWriteBack (c : Fin 32) : State → Host.Outcome State Fault Refusal := on (whenAwake (dmaWriteBack c.val))

/-- ABORT_WRITE_BACK (R254): the aborted descriptor is written back ABORTED, or with the outcome it met, and the channel
stops, or goes IDLE where EN 0 caused it. -/
def abortWriteBack (c : Nat) (d : Dev) : Dev :=
  let k := getDma d c
  if k.st ≠ .aborting then d else
  match k.cur with
  | none => d
  | some x =>
    let d := if x.ended.isSome then d else endXfer c stAborted d
    match (getDma d c).cur with
    | none => d
    | some x =>
      let d := writeBack c ((x.ended.map (·.toNat)).getD stAborted) x d
      dmaIrq c (fun y => { y with st := if y.en then .stopped else .idle, abort := false, irqAbort := true }) d

/-- ABORT_WRITE_BACK (R254). -/
def execAbortWriteBack (c : Fin 32) : State → Host.Outcome State Fault Refusal := on (whenAwake (abortWriteBack c.val))

end Sys2Proof.Machine
end

