-- ==== Sys2Proof/Machine/Channel.lean ====
section
/-!
DEFINITION. The events of the GDDR7 channels (R195 to R201), the page commands (R239), and the CXL.mem window (R376 to
R378).
-/

namespace Sys2Proof.Machine

open Sys2Proof

/-! ### Channel events -/

/-- PART of an event of a channel: the partition that holds its block, or none. -/
def chanPart (d : Dev) (c : Nat) : Nat := ((partOfBlock d (c / 3)).map (·.pid)).getD 0xFF

/-- The partition that owns a channel runs. -/
def chanRuns (d : Dev) (c : Nat) : Bool := (partOfBlock d (c / 3)).any (fun x => x.plan = .running)

/-- REFRESH (R195): the wall time an UP channel spends in refresh. -/
def execRefresh (ch : Fin 48) (ns : Nat) : State → Host.Outcome State Fault Refusal := on <| whenAwake fun d =>
  if (getChan d ch).st = .up then modChan ch (fun c => { c with refreshNs := c.refreshNs + BitVec.ofNat 64 ns }) d else d

/-- A retraining starts, 10 ms after the last one at the earliest (R196). -/
def startRetrain (c : Nat) (d : Dev) : Dev :=
  let x := getChan d c
  whenDue (if x.retrainAt = 0 then 0 else x.retrainAt + msG 10) (enterRetrain c) d

/-- When a routine retraining falls due (R196): at once where the temperature has moved by more than 8 degrees, and 10 ms after the
last training otherwise. -/
def retrainDue (x : Chan) : Nat :=
  if 8 < max x.temp.toNat x.trainTemp.toNat - min x.temp.toNat x.trainTemp.toNat then 0 else x.trainAt + msG 10

/-- ROUTINE_RETRAINING (R196): deferred while the partition that owns the channel runs; one deferred starts once it does not. -/
def routineRetrain (c : Nat) (d : Dev) : Dev :=
  let x := getChan d c
  if x.st ≠ .up then d
  else if x.deferred then (if chanRuns d c then d else startRetrain c d)
  else whenDue (retrainDue x) (fun d =>
    if chanRuns d c then modChan c (fun y => { y with deferred := true, deferAt := d.clk.wall }) d else startRetrain c d) d

/-- ROUTINE_RETRAINING (R196). -/
def execRoutineRetraining (ch : Fin 48) : State → Host.Outcome State Fault Refusal := on (whenAwake (routineRetrain ch))

/-- RETRAINING_DEFERRAL_EXPIRY (R196): a deferral ends after 5 ms. -/
def execRetrainingDeferralExpiry (ch : Fin 48) : State → Host.Outcome State Fault Refusal := on <| whenAwake fun d =>
  let x := getChan d ch
  if x.deferred then whenDue (x.deferAt + msG 5) (startRetrain ch) d else d

/-- More than 16 CRC retries have come within 1 ms (R195). -/
def manyRetries (d : Dev) (c : Nat) : Bool :=
  (((getChan d c).retries[16]?).map (fun t => decide (d.clk.wall < t + msG 1))).getD false

/-- CRC_RETRAINING (R195, R196): not deferred. -/
def execCrcRetraining (ch : Fin 48) : State → Host.Outcome State Fault Refusal := on <| whenAwake fun d =>
  if manyRetries d ch then enterRetrain ch d else d

/-- TRAINING_PASS (R195): the channel is UP again. -/
def trainingPass (c : Nat) (d : Dev) : Dev :=
  let x := getChan d c
  if x.st ≠ .retraining then d else
  modChan c (fun y => { y with
    st := .up, trainTemp := y.temp, trainAt := d.clk.wall, trainFails := 0
    retrainNs := y.retrainNs + BitVec.ofNat 64 ((d.clk.wall - x.retrainAt) / grain) }) d

/-- TRAINING_PASS (R195). -/
def execTrainingPass (ch : Fin 48) : State → Host.Outcome State Fault Refusal := on (whenAwake (trainingPass ch))

/-- A channel goes DOWN (R201): its contents are lost, the crater map gets a pending entry, and a HALT stops the partition
that owns it; without one it stops none. -/
def chanDown (c : Nat) (d : Dev) : Dev :=
  let x := getChan d c
  let d := modChan c (fun y => { y with
    st := .down, trainFails := 0, deferred := false
    retrainNs := y.retrainNs + BitVec.ofNat 64 ((d.clk.wall - x.retrainAt) / grain) }) d
  let d := addPending 3 c (c / 3) { d with gddr := d.gddr.filter (fun e => chanOf e.1 ≠ c) }
  match partOfBlock d (c / 3) with
  | some p => raise 2 (0x300 + c) 0x0304 p.pid 0 d
  | none => recordEvent 2 (0x300 + c) 0x0304 0xFF 0 d

/-- TRAINING_FAIL (R195): the third failure in succession takes the channel DOWN. -/
def execTrainingFail (ch : Fin 48) : State → Host.Outcome State Fault Refusal := on <| whenAwake fun d =>
  let x := getChan d ch
  if x.st ≠ .retraining then d
  else if x.trainFails + 1 < 3 then modChan ch (fun y => { y with trainFails := y.trainFails + 1 }) d
  else chanDown ch d

/-- The GDDR7 byte address on a channel, and the bytes there, of the access that someone waits for (R197). -/
def accessAt (d : Dev) (c : Nat) (who : Reader) : Option (Nat × Nat) :=
  let first (l : List Piece) : Option (Nat × Nat) := l.findSome? (fun (p : Piece) => match p.loc with
    | .gddr a => if chanOf a = c then some (a, p.len) else none
    | _ => none)
  match who with
  | .tile t q => (oldestLoad (getTile d t) q).bind (fun r => first (slicePieces r.pieces (r.done * r.width) r.width))
  | .dma k => (getDma d k).cur.bind (fun x => x.lock.bind (fun p =>
      let a := eLocator (cptE d p) * 65536 + xferOff x
      if eLoc (cptE d p) || chanOf a ≠ c || (!x.toHost && burstBytes false a (burstLen x) = outward 32 a (burstLen x)) then none
      else some (a, burstLen x)))
  | .write q idx => ((getMm d q).wbuf[idx]?).bind (fun w => first w.pieces)
  | .other => none

/-- Failed tries of an access. -/
def triesOf (d : Dev) (c : Nat) (who : Reader) : Nat :=
  match who with
  | .tile t q => (((oldestLoad (getTile d t) q).bind (fun r => tget r.tries c))).getD 0
  | .dma k => ((getDma d k).cur.map (·.tries)).getD 0
  | .write q idx => (((getMm d q).wbuf[idx]?).bind (fun w => tget w.tries c)).getD 0
  | .other => (getChan d c).crcTries

/-- An access is tried again (R197), and the retry counts towards CRC_RETRAINING (R195). -/
def tryAgain (c : Nat) (who : Reader) (d : Dev) : Dev :=
  let n := triesOf d c who + 1
  let d := modChan c (fun y => { y with retries := (d.clk.wall :: y.retries).take 17 }) d
  match who with
  | .tile t q => (match oldestLoad (getTile d t) q with
      | some r => modTile t (fun y => { y with reqs := y.reqs.map (fun z =>
          if z.id = r.id then { z with tries := tput z.tries c n } else z) }) d
      | none => d)
  | .dma k => modDma k (fun y => { y with cur := y.cur.map (fun x => { x with tries := n }) }) d
  | .write q idx => modMm q (fun m => { m with wbuf := m.wbuf.modify idx (fun w => { w with tries := tput w.tries c n }) }) d
  | .other => modChan c (fun y => { y with crcTries := n }) d

/-- Whoever waits for a failed access gets nothing (R197, R253). -/
def dropAccess (who : Reader) (d : Dev) : Dev :=
  match who with
  | .tile t q => modTile t (fun y => { y with reqs := match oldestLoad y q with
      | some r => y.reqs.filter (fun z => z.id ≠ r.id)
      | none => y.reqs }) d
  | .dma k => (match (getDma d k).cur.bind (·.lock) with
      | some p => endXfer k stIntegrity (setCpt p (setBit (cptE d p) 7 true) d)
      | none => d)
  | .write q idx => modMm q (fun m => { m with wbuf := m.wbuf.eraseIdx idx }) d
  | .other => d

/-- An access has failed for good (R197): it is counted, whoever waits for it gets nothing, and a HALT names the channel, the PFN
and the granule. -/
def readFail (c : Nat) (who : Reader) (granule : BitVec 11) (d : Dev) : Dev :=
  let (v, e) := draw 16 d
  let (a, n) := (accessAt d c who).getD ((c * 65536 + v.toNat % 61035) * 65536, 65536)
  let g := a % 65536 / 32
  let g := if g ≤ granule.toNat && granule.toNat ≤ (a % 65536 + n - 1) / 32 then granule.toNat else g
  let d := dropAccess who (modChan c (fun y => { y with crcTries := 0, readFail := y.readFail + 1 }) e)
  match partOfBlock d (c / 3) with
  | some p => releasePins p.pid (raise 2 (0x300 + c) 0x0303 p.pid (memDetail (a / 65536) g 0 0 0) d)
  | none => recordEvent 2 (0x300 + c) 0x0303 0xFF (memDetail (a / 65536) g 0 0 0) d

/-- READ_CRC_FAIL (R197): one try of an access whose CRC fails; it is repeated three times, and fails at the fourth. A read that the
device reports as uncorrectable fails at once. -/
def readCrcFail (c : Nat) (who : Reader) (granule : BitVec 11) (uncorr : Bool) (d : Dev) : Dev :=
  if !chanServes d c || (who ≠ .other && (accessAt d c who).isNone) then d
  else if !uncorr && triesOf d c who < 3 then tryAgain c who d
  else readFail c who granule d

/-- READ_CRC_FAIL (R197). -/
def execReadCrcFail (ch : Fin 48) (who : Reader) (err : ReadErr) : State → Host.Outcome State Fault Refusal :=
  on (whenAwake (readCrcFail ch who err.granule err.uncorr))

/-- ECC_READ (R197): every 1 ms; corrections are counted and raise a NOTE. -/
def execEccRead (ch : Fin 48) (count : Nat) : State → Host.Outcome State Fault Refusal := on <| whenAwake fun d =>
  whenDue ((getChan d ch).eccAt + msG 1) (fun d =>
    let d := modChan ch (fun y => { y with eccAt := d.clk.wall, eccCorr := y.eccCorr + BitVec.ofNat 32 count }) d
    if count = 0 then d else raise 0 (0x300 + ch) 0x0302 (chanPart d ch) 0 d) d

/-- DEVICE_TEMPERATURE_READ (R196): every 1 ms. -/
def execDeviceTemperatureRead (ch : Fin 48) (temp : BitVec 8) : State → Host.Outcome State Fault Refusal :=
  on <| whenAwake fun d =>
    whenDue ((getChan d ch).tempAt + msG 1) (fun d => modChan ch (fun y => { y with tempAt := d.clk.wall, temp := temp }) d) d

/-! ### Frames -/

/-- The channels of a partition that give frames: UP or RETRAINING (R186, R200). -/
def usableChans (d : Dev) (x : Part) : List Nat :=
  ((blocksOf x.mask).flatMap (fun n => [3 * n, 3 * n + 1, 3 * n + 2])).filter (fun c =>
    (getChan d c).st = .up || (getChan d c).st = .retraining)

/-- Frames of a channel in use: by valid context pages in GDDR7, and 16 by each valid weight page. -/
def usedFrames (d : Dev) (c : Nat) : List Nat :=
  (d.cpt.filterMap (fun e =>
    let v := e.2.toNat
    if eValid v && !eLoc v && eLocator v / 65536 = c then some (eLocator v % 65536) else none)) ++
  (d.wpt.flatMap (fun e =>
    let v := e.2.toNat
    if eValid v && !eLoc v && eLocator v / 65536 = c then (List.range 16).map (eLocator v % 65536 + ·) else []))

/-- The free frame a page takes: the lowest of the first channel, in rotation, that has one (Table 9.3). -/
def freeFrame (d : Dev) (x : Part) : Option Nat :=
  let cs := usableChans d x
  let from_ := (tget d.rot x.pid).getD 0
  ((cs.filter (fun c => decide (from_ ≤ c))) ++ cs.filter (fun c => decide (c < from_))).findSome? (fun c =>
    let u := usedFrames d c
    let f := firstFree u (u.length + 1) 0
    if f ≤ 61034 then some (c * 65536 + f) else none)

/-! ### Page commands -/

/-- One page of a PAGE_MAP (Table 9.3): its status, and the PFN the reply gives. For a pinned or locked page Table 9.3 gives BAD_ARG
and Table 9.13 BUSY: which of the two it is, is a free value (log 86). -/
def mapPage (p i flags unit : Nat) (d : Dev) : Nat × Nat × Dev :=
  match getPart d p with
  | none => (stDenied, 0, d)
  | some x =>
    if 1048576 ≤ i || !x.mask.getLsbD (i / 65536) then (stDenied, 0, d)
    else if eValid (cptE d i) && (ePinned (cptE d i) || eLock (cptE d i)) then
      let (v, d) := draw 1 d
      (if v = 1#1 then stBusy else stBadArg, 0, d)
    else if eValid (cptE d i) then (stBadArg, 0, d)
    else
      let put (e : Nat) (d : Dev) : Dev := { setCpt i e d with cptBad := d.cptBad.filter (· ≠ i) }
      let st := 4 * b2n (bit flags 2)
      if bit flags 0 then
        if unitCommitted d unit then
          let (v, d) := draw 32 d
          (stOk, v.toNat, put (1 + st + 16 + unit * 256) d)
        else (stBadArg, 0, d)
      else
        match freeFrame d x with
        | none => (stNotReady, 0, d)
        | some f =>
          let d := { d with gddr := zeroBs d.gddr (f * 65536) 65536, rot := tput d.rot p (f / 65536 + 1) }
          (stOk, f, put (1 + st + 8 * b2n (bit flags 1) + f * 256) d)

/-- Pages in index order until one fails: status, PFNs so far. -/
def mapPages (p flags : Nat) : Nat → Nat → Nat → List Nat → Dev → Nat × List Nat × Dev
  | 0, _, _, l, d => (stOk, l, d)
  | n + 1, i, u, l, d =>
    let (st, f, d) := mapPage p i flags u d
    if st = stOk then mapPages p flags n (i + 1) (u + 1) (l ++ [f]) d else (st, l, d)

/-- PAGE_MAP (R239). -/
def execPageMap (m : Fin 64) : State → Host.Outcome State Fault Refusal := on <| partCommand 0x0401 m fun x pl d =>
  let count := lf pl 4 2
  let flags := lf pl 6 1
  if count = 0 || 507 < count || 8 ≤ flags then answer m stBadArg 0 [] d
  else
    let (st, l, d) := mapPages x.pid flags count (lf pl 0 4) (lf pl 8 4) [] d
    answer m st 0 (toLe 2 l.length ++ [0#8, 0#8] ++ l.flatMap (toLe 4)) d

/-- One page of a PAGE_UNMAP. -/
def unmapPage (x : Part) (i : Nat) (d : Dev) : Nat × Dev :=
  let e := cptE d i
  if 1048576 ≤ i || !x.mask.getLsbD (i / 65536) then (stDenied, d)
  else if !eValid e then (stBadArg, d)
  else if ePinned e || eLock e then (stBusy, d)
  else (stOk, { setCpt i 0 d with cptBad := d.cptBad.filter (· ≠ i) })

/-- Pages in index order until one fails: status, pages unmapped. -/
def unmapPages (x : Part) : Nat → Nat → Nat → Dev → Nat × Nat × Dev
  | 0, _, k, d => (stOk, k, d)
  | n + 1, i, k, d =>
    let (st, d) := unmapPage x i d
    if st = stOk then unmapPages x n (i + 1) (k + 1) d else (st, k, d)

/-- PAGE_UNMAP (R239). -/
def execPageUnmap (m : Fin 64) : State → Host.Outcome State Fault Refusal := on <| partCommand 0x0402 m fun x pl d =>
  let count := lf pl 4 2
  if count = 0 || 1024 < count then answer m stBadArg 0 [] d
  else
    let (st, k, d) := unmapPages x count (lf pl 0 4) 0 d
    answer m st 0 (toLe 2 k) d

/-- PAGE_READ (R239). -/
def execPageRead (m : Fin 64) : State → Host.Outcome State Fault Refusal := on <| partCommand 0x0403 m fun x pl d =>
  let first := lf pl 0 4
  let count := lf pl 4 2
  if count = 0 || 254 < count then answer m stBadArg 0 [] d
  else if (List.range count).any (fun i => 1048576 ≤ first + i || !x.mask.getLsbD ((first + i) / 65536)) then
    answer m stDenied 0 [] d
  else answer m stOk 0 ((List.range count).flatMap (fun i => toLe 8 (cptE d (first + i)))) d

/-! ### The CXL.mem window -/

/-- A page of an enabled ephemeris or digest ring (R282). -/
def ringPage (d : Dev) (i : Nat) : Bool :=
  d.parts.any (fun e =>
    let x := e.2
    ephEn x && ((decide (ephFirst x ≤ i) && decide (i < ephFirst x + ephSize x / 2048)) ||
      (decide (fld x.eph.digCfg.toNat 0 20 ≤ i) &&
        decide (i < fld x.eph.digCfg.toNat 0 20 + fld x.eph.digCfg.toNat 20 6))))

/-- The first row of Table 15.5: the page is not there to be read or written. -/
def windowBad (d : Dev) (i : Nat) : Bool :=
  let e := cptE d i
  (partOfBlock d (i / 65536)).isNone || d.cptBad.contains i || !eValid e || eLoc e || ePoison e

/-- The window stands open: the link trained as CXL, and the module is at work. -/
def windowUp (d : Dev) : Bool := awake d && d.glb.cxl

/-- The CXL.mem stream carries traffic (R407). -/
def memSecure (d : Dev) : Bool := !((tget d.sec.ide 2).getD {}).insecure

/-- A window read completes with poisoned data, and is counted. -/
def poisonRead (d : Dev) : Dev :=
  { d with glb := { d.glb with cxlmPoison := d.glb.cxlmPoison + 1 }, out := { d.out with poison := true, bytes := [] } }

/-- WINDOW_READ (R377): an access lies within one page. -/
def windowRead (off : BitVec 36) (len : Nat) (d : Dev) : Dev :=
  let i := off.toNat / 65536
  let o := off.toNat % 65536
  let a := eLocator (cptE d i) * 65536 + o
  if !windowUp d then d
  else if windowBad d i || !memSecure d then poisonRead d
  else if !chanServes d (chanOf a) then d
  else
    let n := min len (65536 - o)
    passOther (chanOf a) (countOther (chanOf a) n { d with out := { d.out with poison := false, bytes := rdBs d.gddr a n } })

/-- WINDOW_READ (R377). -/
def execWindowRead (off : BitVec 36) (len : Nat) : State → Host.Outcome State Fault Refusal := on (windowRead off len)

/-- WINDOW_WRITE (R377). -/
def windowWrite (off : BitVec 36) (bytes : List Byte) (d : Dev) : Dev :=
  let i := off.toNat / 65536
  let o := off.toNat % 65536
  let e := cptE d i
  let a := eLocator e * 65536 + o
  if !windowUp d then d
  else if windowBad d i || ePinned e || eLock e || ringPage d i || !memSecure d || (getChan d (chanOf a)).st = .down then
    { d with glb := { d.glb with cxlmWdrop := d.glb.cxlmWdrop + 1 } }
  else
    let b := bytes.take (65536 - o)
    passOther (chanOf a) (countOther (chanOf a) b.length { d with gddr := wrBs d.gddr a b })

/-- WINDOW_WRITE (R377). -/
def execWindowWrite (off : BitVec 36) (bytes : List Byte) : State → Host.Outcome State Fault Refusal :=
  on (windowWrite off bytes)

/-- WINDOW_TIMEOUT (R378): a read that cannot complete in 20 us, because its channel does not serve requests. -/
def execWindowTimeout (off : BitVec 36) (len : Nat) : State → Host.Outcome State Fault Refusal := on fun d =>
  let i := off.toNat / 65536
  let a := eLocator (cptE d i) * 65536 + off.toNat % 65536
  if windowUp d && decide (len ≠ 0) && !windowBad d i && !chanServes d (chanOf a) then poisonRead (letPass (usG 20) d) else d

end Sys2Proof.Machine
end

