-- ==== Sys2Proof/Machine/Link.lean ====
section
/-!
DEFINITION. The optical link (R286 to R313): port control and training, received packets, streams and slots, lanes, halo
substitution, and the port registers.
-/

namespace Sys2Proof.Machine

open Sys2Proof

/-! ### Port control (Table 11.9, Table 11.15) -/

/-- A port is switched off: its lasers go out, and what its lanes and its substitution had reached is forgotten. -/
def portOff (p : Nat) : Dev → Dev := movePort p .off fun y => { y with
  lasers := false, laneLock := 0, laneUse := 0, lostAt := [], outageAt := none, rxSubst := false, txSubst := false
  sendDown := false, haloReq := false, haloAck := false, deskew := false, substAt := none, downDecl := none }

/-- EN: 1 lights a port whose block has a partition and starts training, 0 turns it OFF. -/
def portEn (p : Nat) (v : Bool) (d : Dev) : Dev :=
  let d := modPort p (fun y => { y with en := v }) d
  if !v then portOff p d
  else if (getPort d p).st = .off && (portPart d p).isSome then enterTraining p d
  else d

/-- PORT_EN (R307). -/
def execPortEn (port : Fin 32) (v : Bool) : State → Host.Outcome State Fault Refusal := on (whenAwake (portEn port.val v))

/-- RETRAIN: a lit port that is not TRAINING returns to TRAINING. -/
def portRetrain (p : Nat) (d : Dev) : Dev :=
  if (getPort d p).st = .off || (getPort d p).st = .training then d else enterTraining p d

/-- RETRAIN (R307). -/
def execRetrain (port : Fin 32) : State → Host.Outcome State Fault Refusal := on (whenAwake (portRetrain port.val))

/-- DARK (R307). -/
def execDark (port : Fin 32) (v : Bool) : State → Host.Outcome State Fault Refusal :=
  on (whenAwake (if v then setDark port.val else clearDark port.val))

/-- FORCE_DOWN: a port that is UP or substituting goes DOWN. -/
def forceDown (p : Nat) (d : Dev) : Dev :=
  if (getPort d p).st = .up || (getPort d p).st = .subst then portDown p 5 7 d else d

/-- FORCE_DOWN (R307). -/
def execForceDown (port : Fin 32) : State → Host.Outcome State Fault Refusal := on (whenAwake (forceDown port.val))

/-- JOB_ID_WRITE (R307). -/
def execJobIdWrite (port : Fin 32) (v : BitVec 32) : State → Host.Outcome State Fault Refusal :=
  on (whenAwake (writeJobId port.val v))

/-! ### Training (R308, R309) -/

/-! Cells on the lanes (R290, R291, R309) -/

/-- Physical lane that carries stripe j: the halo lane where it has taken the stripe over. -/
def stripeLane (y : Port) (j : Nat) : Nat := if y.haloAck && y.ackLane.toNat = j then 4 else j

/-- Stripe that a lane carries; 7 in standby. -/
def laneStripe (y : Port) (lane : Nat) : Nat := if lane < 4 then lane else if y.haloAck then y.ackLane.toNat else 7

/-- Segment that a lane carries of the n-th cell (Table 11.2): stripe j carries cell bytes 4m + j. -/
def laneSegment (y : Port) (n lane : Nat) (cell : List Byte) : List Byte :=
  let j := laneStripe y lane
  toLe 1 (if n % 2 = 0 then 0x5A else 0xA5) ++ toLe 1 (j + n % 16 * 8 + b2n y.sendDown * 128) ++
    toLe 1 (b2n y.haloReq + y.reqLane.toNat * 2 + b2n y.haloAck * 16 + y.ackLane.toNat * 32) ++
    (if j = 7 then List.replicate 65 0x55 else (List.range 65).map (fun m => (cell[4 * m + j]?).getD 0))

/-- The cell that four stripes' segments make (R291). -/
def destripe (segs : List (List Byte)) : List Byte :=
  (List.range 260).map (fun i => (((segs[i % 4]?).getD [])[3 + i / 4]?).getD 0)

/-- An idle cell (R291). -/
def idleCell : List Byte := cellBytes 0 0 false false []

/-- READY of a port's own training cells: its stripes are assigned, and DARK does not hold it (R308, Table 11.15). -/
def portReady (y : Port) : Bool := y.st = .training && y.laneUse ≠ 0 && !y.darkBit

/-- DATA of the training cell that a port sends (Table 11.10). -/
def trainingData (d : Dev) (p : Nat) : List Byte :=
  let y := getPort d p
  let map := (List.range 4).foldl (fun a j => a + stripeLane y j * 2 ^ (3 * j)) 0
  padTo 256 (toLe 2 y.jobTag.toNat ++ toLe 2 y.jobEpoch.toNat ++ toLe 2 y.rank.toNat ++ toLe 1 p ++
    toLe 1 (b2n (portReady y) + 2 * b2n (y.st = .dark) + 4 * b2n y.farMatch) ++ toLe 8 d.otp.serial.toNat ++ toLe 2 map)

/-- The cell that a port sends while it carries no packet: in training and while DARK a training cell (R308, Table 11.15), else an idle
one (R295). -/
def fillCell (d : Dev) (p : Nat) : List Byte :=
  if (getPort d p).st = .training || (getPort d p).st = .dark then cellBytes 2 0 false false (trainingData d p) else idleCell

/-- Number of the present cell, one each 2.56 ns (R290). -/
def cellNo (d : Dev) : Nat := d.clk.wall * 25 / (64 * grain)

/-- What a lane of a lit port carries in the present cell, between packets (R290). -/
def laneOut (d : Dev) (p lane : Nat) : List Byte := laneSegment (getPort d p) (cellNo d) lane (fillCell d p)

/-- LANE_ACQUISITION_TIMEOUT: a lane without lock 20 ms into training is failed. -/
def laneTimeout (p lane : Nat) (d : Dev) : Dev :=
  let y := getPort d p
  if y.st ≠ .training || (y.laneLock ||| y.laneFailed).getLsbD lane then d
  else whenDue (y.trainAt + msG 20) (fun d =>
    assignStripes p (modPort p (fun y => { y with laneFailed := y.laneFailed ||| laneBit lane }) d)) d

/-- LANE_ACQUISITION_TIMEOUT (R308). -/
def execLaneAcquisitionTimeout (port : Fin 32) (lane : Fin 5) : State → Host.Outcome State Fault Refusal :=
  on (whenAwake (laneTimeout port.val lane.val))

/-- A training cell is compared (R308): on the 1,024th in a row with the far tag and epoch equal to the port's, its own tag nonzero and
READY at both ends, the port goes UP. -/
def compareCell (p : Nat) (c : List Byte) (d : Dev) : Dev :=
  let y := getPort d p
  let same := lf c 0 2 = y.jobTag.toNat && lf c 2 2 = y.jobEpoch.toNat
  let n := if same && y.jobTag ≠ 0 && bit (lf c 7 1) 0 && portReady y then y.matchCells + 1 else 0
  let d := modPort p (fun y => { y with matchCells := n, farMatch := same, foreign := !same || lf c 0 2 = 0 }) d
  if 1024 ≤ n then portUp p d else d

/-- A port in TRAINING or DARK sends its own training cell in the same cell time (R308). -/
def sendTraining (p : Nat) (d : Dev) : Dev :=
  if (getPort d p).st = .training || (getPort d p).st = .dark then modPort p (fun y => { y with trainSent := fillCell d p }) d else d

/-- TRAINING_CELL (Table 11.10): the far end's identity is kept; a port in any state but OFF and TRAINING trains again; a
TRAINING port with its stripes assigned compares the cell. -/
def trainingCell (p : Nat) (c : List Byte) (d : Dev) : Dev :=
  if (getPort d p).st = .off then d else
  let keep (y : Port) : Port := { y with
    farId := BitVec.ofNat 32 (lf c 4 2 % 16384 + lf c 6 1 % 32 * 2 ^ 16 + 2 ^ 21), farSerial := BitVec.ofNat 64 (lf c 8 8) }
  let d := modPort p keep d
  sendTraining p (
    if (getPort d p).st ≠ .training then
      let d := enterTraining p d
      match portPart d p with
      | some x =>
        if x.job.st ≠ .none_ && (declared x (logPort x p)).isNone then
          modJob x.pid (fun j => { j with discExtra := put32 j.discExtra (logPort x p) true }) d
        else d
      | none => d
    else if (getPort d p).laneUse = 0 then d
    else compareCell p c d)

/-- TRAINING_CELL (R308). -/
def execTrainingCell (port : Fin 32) (cell : List Byte) : State → Host.Outcome State Fault Refusal :=
  on (whenAwake (trainingCell port.val cell))

/-- TRAIN_TIMEOUT (R308): a port not UP 50 ms after training began goes on training. -/
def trainTimeout (p : Nat) (d : Dev) : Dev :=
  if (getPort d p).st ≠ .training then d
  else whenDue ((getPort d p).trainAt + msG 50) (modPort p (fun y => { y with trainTimeout := true })) d

/-- TRAIN_TIMEOUT (R308). -/
def execTrainTimeout (port : Fin 32) : State → Host.Outcome State Fault Refusal := on (whenAwake (trainTimeout port.val))

/-! ### Receiving (Table 11.8) -/

/-- A lane event or a drop raises a NOTE (Table 11.11). -/
def linkNote (p cause lane : Nat) (d : Dev) : Dev := raise 0 (0x500 + p) cause (portPid d p) (linkDetail 0 0 0 lane) d

/-- A packet is dropped: its counter counts it, and the first drop of a 1 ms interval raises a NOTE (R303, R310). -/
def dropPacket (p : Nat) (count : Port → Port) (d : Dev) : Dev :=
  let y := getPort d p
  let open_ := match y.dropsAt with
    | some t => decide (d.clk.wall < t + msG 1)
    | none => false
  let d := modPort p (fun y => { count y with
    drops := if open_ then y.drops + 1 else 1, dropsAt := if open_ then y.dropsAt else some d.clk.wall }) d
  if open_ then d else linkNote p 0x0501 7 d

/-- Count a packet that is delivered or held for relay (Table 11.13). -/
def countRx (p : Nat) (pkt : Packet) : Dev → Dev := modPort p fun y => { y with
  pktRx := y.pktRx + 1, rxBytes := y.rxBytes + BitVec.ofNat 64 (packetLen pkt) }

/-- The relay stage takes a packet that this module is to pass on, in the place of the one it held (R302); a comet packet leaves it
again, within one cell time, for the comet queue of its route (R315). -/
def relayPacket (x : Part) (p : Nat) (pkt : Packet) (d : Dev) : Dev :=
  let d := modPort p (fun y => { y with
    dropRelay := (match y.relay with
      | some (_, false) => satAdd y.dropRelay 1
      | _ => y.dropRelay)
    relay := if isComet pkt then none else some (pkt, false) }) (countRx p pkt d)
  if isComet pkt then sendComet x.pid (cometKind pkt) false pkt d else d

/-- A packet that waits for its push is overtaken: it is dropped, and its inbound entry opens again (R304). -/
def dropWaiting (x : Part) (p : Nat) (d : Dev) : Dev :=
  match (getPort d p).deliv with
  | none => d
  | some v =>
    let due := ((x.info.bind (fun i => tget i.ports v.lport)).bind (fun t => t.ins[v.pos]?)).map (·.due)
    let e : Inbound := ⟨v.lport, v.pos, BitVec.ofNat 32 (pOrbit v.pkt), pSrc v.pkt, pTransfer v.pkt, due.getD 0, false, false, none⟩
    modPart x.pid (fun y => { y with fab := { y.fab with open_ := y.fab.open_ ++ [e] } })
      (modPort p (fun y => { y with deliv := none, dropQfull := satAdd y.dropQfull 1 }) d)

/-- DATA for this module (the last rows of Table 11.8); a multicast packet that travels on goes to the relay stage as well
(R302), but a dropped one reaches neither (R303). -/
def receiveData (x : Part) (p : Nat) (pkt : Packet) (onward : Bool) (d : Dev) : Dev :=
  match x.fab.open_.find? (fun e => e.orbit.toNat = pOrbit pkt && e.src = pSrc pkt && e.transfer = pTransfer pkt) with
  | none => dropPacket p (fun y => { y with dropUnexp := satAdd y.dropUnexp 1 }) d
  | some e =>
    let q := getQ (getTile d (pTile pkt)) (28 + pLq pkt)
    let w := elemWidth q.wcode
    if 2304 ≤ pTile pkt || (partOfTile d (pTile pkt)).map (·.pid) ≠ some x.pid || pWcode pkt ≠ q.wcode || w = 0 ||
        pkt.payload.length % w ≠ 0 then
      dropPacket p (fun y => { y with dropFormat := satAdd y.dropFormat 1 }) d
    else
      let d := dropWaiting x p d
      let d := modPart x.pid (fun y => { y with fab := { y.fab with open_ := y.fab.open_.erase e } }) d
      let d := modPort p (fun y => { y with deliv := some ⟨pkt, e.lport, e.pos⟩ }) d
      if onward then relayPacket x p pkt d else countRx p pkt d

/-- A packet for the fabric logic waits for its row; a TIME packet is stamped as it arrives (R329). -/
def fabricPacket (x : Part) (p : Nat) (pkt : Packet) (d : Dev) : Dev :=
  let d := modPart x.pid (fun y => { y with fab := { y.fab with inbox := y.fab.inbox ++ [⟨logPort x p, pkt, d.mt.mt⟩] } }) d
  if pType pkt = 3 then modPort p (fun y => { y with
    echoTx := BitVec.ofNat 64 (lf pkt.payload 0 8), echoRx := d.mt.mt
    farStratum := BitVec.ofNat 8 (lf pkt.payload 24 1), timeAt := some d.clk.wall }) d
  else d

/-- A packet whose cells were whole, by the rows of Table 11.8 from JOB_TAG on. -/
def receivePacket (x : Part) (p : Nat) (pkt : Packet) (reserved : Bool) (d : Dev) : Dev :=
  let rank := x.job.rank
  let mine := if pMc pkt then maskNames pkt rank else pDest pkt = rank
  let onward := pMc pkt && maskOthers pkt rank
  if pTag pkt ≠ (getPort d p).jobTag.toNat then dropPacket p (fun y => { y with dropForeign := satAdd y.dropForeign 1 }) d
  else if reserved || badFormat pkt then dropPacket p (fun y => { y with dropFormat := satAdd y.dropFormat 1 }) d
  else
    if !mine then relayPacket x p pkt d
    else if !e2eOk pkt then dropPacket p (fun y => { y with dropE2e := satAdd y.dropE2e 1 }) d
    else if pType pkt ≠ 1 then fabricPacket x p pkt (if onward then relayPacket x p pkt d else d)
    else receiveData x p pkt onward d

/-- PACKET_RECEIVED (R303): the cells of one packet, first to last. -/
def packetReceived (p : Nat) (bytes : List Byte) (d : Dev) : Dev :=
  let y := getPort d p
  let cells := cellsOf bytes.length bytes
  match portPart d p with
  | none => d
  | some x =>
    if y.st ≠ .up && (y.st ≠ .subst || y.rxSubst) then d
    else
      let bad := (cells.filter (fun c => cellKind c = 0 && !cellOk c)).length
      let d := modPort p (fun y => { y with cellErr := satAdd y.cellErr bad }) d
      match gather cells with
      | .nothing => d
      | .crc => dropPacket p (fun y => { y with dropCrc16 := satAdd y.dropCrc16 1 }) d
      | .seq => dropPacket p (fun y => { y with dropSeq := satAdd y.dropSeq 1 }) d
      | .packet pkt r => receivePacket x p pkt r d

/-- PACKET_RECEIVED (R303). -/
def execPacketReceived (port : Fin 32) (cells : List Byte) : State → Host.Outcome State Fault Refusal :=
  on (whenAwake (packetReceived port.val cells))

/-- The elements of a payload. -/
def elements (w : Nat) : Nat → List Byte → List (List Byte)
  | 0, _ => []
  | n + 1, b => b.take w :: elements w n (b.drop w)

/-- DELIVERY_PUSH (R304): with room for every element, the packet's elements enter the link queue in payload order, with the parity that
the inbound path generated (R311), also while the tiles are parked or HALTED (R106). -/
def deliveryPush (p : Nat) (d : Dev) : Dev :=
  match (getPort d p).deliv, portPart d p with
  | some v, some x =>
    if !linkRoom d v.pkt then d
    else
      let no := pTile v.pkt
      let q := 28 + pLq v.pkt
      let t := getTile d no
      let w := elemWidth (getQ t q).wcode
      let t := (elements w (v.pkt.payload.length / w) v.pkt.payload).foldl (fun t b =>
        enqueue q b [] ((tagHash x).map (fun h => Config.slotTag h no q (getQ t q).pushed)) t) t
      modPort p (fun y => { y with deliv := none }) (setTile d no (noteMet x.now t))
  | _, _ => d

/-- DELIVERY_PUSH (R304). -/
def execDeliveryPush (port : Fin 32) : State → Host.Outcome State Fault Refusal := on (whenAwake (deliveryPush port.val))

/-! ### Streams and slots -/

def getStream (y : Port) (s : Nat) : List Byte := (tget y.streams s).getD []

/-- Positions of a stream buffer's bytes with bad parity. -/
def streamBad (y : Port) (s : Nat) : List Nat := (tget y.streamBad s).getD []

/-- A stream buffer without its first n bytes. -/
def dropStream (s n : Nat) (y : Port) : Port := { y with
  streams := tput y.streams s ((getStream y s).drop n)
  streamBad := tput y.streamBad s (((streamBad y s).filter (n ≤ ·)).map (· - n)) }

/-- Keep the greatest fills of a port's stream and hold buffers (QDEPTH_MAX). -/
def noteFill (stream hold : Nat) (y : Port) : Port :=
  let v := y.qdepthMax.toNat
  { y with qdepthMax := BitVec.ofNat 32 (max (fld v 0 14) stream + max (fld v 14 17) hold * 2 ^ 14) }

/-- STREAM_APPEND (R297): the oldest element on its way enters its stream buffer of 8 KiB; one that does not fit is discarded,
and the partition stops. -/
def streamAppend (p : Nat) (d : Dev) : Dev :=
  match (getPort d p).toStream with
  | [] => d
  | m :: r =>
    let d := modPort p (fun y => { y with toStream := r }) d
    let s := getStream (getPort d p) m.stream ++ m.bytes
    if 8192 < s.length then raise 2 (0x500 + p) 0x0506 (portPid d p) (linkDetail 0 0 0 7) d
    else modPort p (fun y => noteFill s.length 0 { y with
      streams := tput y.streams m.stream s
      streamBad := tput y.streamBad m.stream (streamBad y m.stream ++ m.bad.map (· + (getStream y m.stream).length)) }) d

/-- STREAM_APPEND (R297). -/
def execStreamAppend (port : Fin 32) : State → Host.Outcome State Fault Refusal := on (whenAwake (streamAppend port.val))

/-- A packet goes onto the fibre. -/
def transmit (p : Nat) (pkt : Packet) : Dev → Dev := modPort p fun y => { y with
  pktTx := y.pktTx + 1, txBytes := y.txBytes + BitVec.ofNat 64 (packetLen pkt), sent := pkt :: y.sent }

/-- COND of an entry holds under the detour conditions in force (Table 11.6). -/
def condHolds (x : Part) (cond cbit : Nat) : Bool :=
  match cond with
  | 0 => true
  | 1 => x.fab.detour.getLsbD cbit
  | _ => !x.fab.detour.getLsbD cbit

def holdBytes (l : List HeldCopy) : Nat := (l.map (fun c => packetLen c.pkt)).foldl (· + ·) 0

/-- Copies that leave no room in the hold buffer are evicted, oldest first (R301). -/
def evict (p : Nat) : Nat → Dev → Dev
  | 0, d => d
  | fuel + 1, d =>
    let y := getPort d p
    if holdBytes y.hold ≤ 131072 then modPort p (noteFill 0 (holdBytes y.hold)) d
    else evict p fuel (linkNote p 0x0502 7
      (modPort p (fun y => { y with hold := y.hold.drop 1, holdEvict := satAdd y.holdEvict 1 }) d))

/-- Keep a copy for re-sending (R301). -/
def holdCopy (p : Nat) (c : HeldCopy) (d : Dev) : Dev :=
  let d := modPort p (fun y => { y with hold := y.hold ++ [c] }) d
  evict p ((getPort d p).hold.length + 1) d

/-- What the packet former's parity check finds in the bytes it takes (R311). The spec states no outcome where a byte is bad: whether
the packet is sent is a free value (log 105). -/
def formerSends (bad : List Nat) (n : Nat) (d : Dev) : Bool × Dev :=
  if bad.any (fun k => decide (k < n)) then
    let (b, d) := draw 1 d
    (b = 1#1, d)
  else (true, d)

/-- A SOURCE entry's slot (R300, R325). -/
def sourceSlot (x : Part) (p : Nat) (masks : List (BitVec 64)) (e : OutEntry) (d : Dev) : Dev :=
  let y := getPort d p
  let s := getStream y e.stream
  let take : Dev → Dev := modPort p (dropStream e.stream e.len)
  if !sends y then take d
  else if s.length < e.len then
    raise 2 (0x500 + p) 0x0507 x.pid (linkDetail e.transfer x.job.rank 0 7)
      (modPort p (fun y => { y with slotShort := satAdd y.slotShort 1 }) d)
  else
    let pkt := mkPacket e.dest x.job.rank 1 (b2n (epochNow x) + 2 * b2n e.mc + 4 * b2n (e.cond = 1)) x.orbit.toNat
      e.transfer (e.wcode + 16 * e.lq) e.tile y.jobTag.toNat (if e.mc then (masks[e.maskIdx]?.getD 0).toNat else 0) (s.take e.len)
    let (ok, d) := formerSends (streamBad y e.stream) e.len (take d)
    if !ok then d
    else
      let d := modPart x.pid (fun z => { z with fab := { z.fab with sentKeys := (x.orbit, e.transfer) :: z.fab.sentKeys } }) d
      holdCopy p ⟨pkt, x.orbit⟩ (transmit p pkt d)

/-- A FORWARD entry's slot (R300, R325). -/
def forwardSlot (x : Part) (p : Nat) (e : OutEntry) (d : Dev) : Dev :=
  if !sends (getPort d p) then d else
  let from_ := physPort x e.inLport
  let held := from_.bind (fun q => (getPort d q).relay)
  match from_, held with
  | some q, some (pkt, _) =>
    if pDest pkt = e.dest && pTransfer pkt = e.transfer && pMc pkt = e.mc then
      transmit p pkt (modPort q (fun y => { y with relay := some (pkt, true) }) d)
    else linkNote p 0x0502 7 (modPort p (fun y => { y with relayMismatch := satAdd y.relayMismatch 1 }) d)
  | _, _ => linkNote p 0x0502 7 (modPort p (fun y => { y with relayMismatch := satAdd y.relayMismatch 1 }) d)

/-- SLOT_START (R295, R300): slot j begins at tick j × SLOT_TICKS, once. -/
def slotStart (p : Nat) (d : Dev) : Dev :=
  match portPart d p with
  | none => d
  | some x =>
    match portTab x p with
    | none => d
    | some tab =>
      let j := x.tick / slotTicks x p
      if !active x || j % 16 = 15 || !slotBegins d x p j then d
      else
        let d := modPort p (fun y => { y with slot := j + 1 }) d
        match tab.outs.find? (fun e => e.slot = j && condHolds x e.cond e.cbit) with
        | none => d
        | some e => if e.forward then forwardSlot x p e d else sourceSlot x p tab.masks e d

/-- SLOT_START (R300). -/
def execSlotStart (port : Fin 32) : State → Host.Outcome State Fault Refusal := on (whenAwake (slotStart port.val))

/-! ### Comet slots -/

/-- A TIME packet as the port sends it now (Table 12.6). -/
def timePacket (x : Part) (d : Dev) (p : Nat) : Packet :=
  cometPacket x (farRank d p) 3 x.orbit.toNat (toLe 8 d.mt.mt.toNat ++ toLe 8 (getPort d p).echoTx.toNat ++
    toLe 8 (getPort d p).echoRx.toNat ++ toLe 1 d.mt.stratum.toNat ++ List.replicate 7 0)

/-- The latest round of the module's marks (R327). -/
def latestMark (x : Part) : Option MarkSet := (x.fab.marks.filter (fun m => 0 < m.round)).getLast?

/-- Reserved kind of comet slot c (Table 12.1). -/
def reservedKind (c : Nat) : CometKind :=
  match c % 8 with
  | 0 | 4 => .mark
  | 1 | 5 => .receipt
  | 2 | 6 => .resend
  | 3 => .time
  | _ => .mgmt

/-- A mark takes the CBIT_REQ bits set since it was queued (R332). -/
def freshMark (x : Part) (pkt : Packet) : Packet :=
  if pType pkt = 4 && pSrc pkt = x.job.rank then
    let pl := pkt.payload
    formPacket (pkt.hdr.take 28) (pl.take 80 ++ toLe 32 (lf pl 80 32 ||| x.fab.cbitReq.toNat) ++ pl.drop 112)
  else pkt

/-- The oldest pending packet of a kind. In MARK slots the latest round stands in where none is pending; TIME packets are
formed in TIME slots. -/
def pendingOf (x : Part) (d : Dev) (p : Nat) (reserved : Bool) (k : CometKind) : Option Packet :=
  match (getPort d p).comet.find? (fun c => c.kind = k && !c.second) with
  | some c => some (freshMark x c.pkt)
  | none =>
    if !reserved then none
    else match k with
      | .mark => if (facing x).any (fun e => e.2.1 = p) then
          (latestMark x).map (fun m => cometPacket x (farRank d p) 4 m.orbit.toNat (markPayload m)) else none
      | .time => some (timePacket x d p)
      | _ => none

/-- A receipt may take comet slot c (R314): no packet of the slot's reserved kind is pending, or that kind is its own. -/
def receiptMay (x : Part) (d : Dev) (p c : Nat) : Bool :=
  reservedKind c = .receipt || (pendingOf x d p true (reservedKind c)).isNone

/-- Second copies of receipts have let their first comet slot pass (R320). -/
def clearSecond (p : Nat) : Dev → Dev :=
  modPort p fun y => { y with comet := y.comet.map (fun e => { e with second := false }) }

/-- The packet a comet slot takes (R314). -/
def pickComet (x : Part) (d : Dev) (p c : Nat) : Option (CometKind × Packet) :=
  let k := reservedKind c
  match pendingOf x d p true k with
  | some q => some (k, q)
  | none => [CometKind.receipt, .resend, .mark, .time, .mgmt].findSome? (fun k => (pendingOf x d p false k).map (k, ·))

/-- Positions and transfers that a receipt lists: logical port, position, transfer (Table 12.3). -/
def recordEntries (rec : List Byte) : List (Nat × Nat × Nat) :=
  ((List.range 64).filter (fun i => bit (lf rec 4 8) i)).zipIdx.map (fun e =>
    (lf rec 3 1 % 32, lf rec 0 3 % 2 ^ 20 + e.1, lf rec (12 + 3 * e.2) 3))

/-- The records of a receipt (Table 12.2). -/
def receiptRecs (pl : List Byte) : List (List Byte) := (List.range (lf pl 6 2)).map (fun k => sl pl (8 + 204 * k) 204)

def receiptEntries (pl : List Byte) : List (Nat × Nat × Nat) := (receiptRecs pl).flatMap recordEntries

/-- What a sent comet packet leaves behind: the counters of Table 12.9, and the start of LATE_INC_NS for the entries of a
round-2 copy 0 (R322). -/
def cometSent (x : Part) (pkt : Packet) (d : Dev) : Dev :=
  if pSrc pkt ≠ x.job.rank then d
  else match pType pkt with
    | 1 => modPart x.pid (fun y => { y with fab := { y.fab with resendTx := satAdd y.fab.resendTx 1 } }) d
    | 2 =>
      let pl := pkt.payload
      let es := receiptEntries pl
      let first := lf pl 4 1 = 2 && lf pl 5 1 = 0
      modPart x.pid (fun y => { y with fab := { y.fab with
        receiptTx := satAdd y.fab.receiptTx 1
        open_ := if first then y.fab.open_.map (fun e =>
            if e.orbit.toNat = lf pl 0 4 && e.src = pDest pkt && es.any (fun k => k.1 = e.lport && k.2.1 = e.pos) &&
              e.round2At.isNone then { e with round2At := some d.clk.wall } else e)
          else y.fab.open_ } }) d
    | _ => d

/-- Send in comet slot c, which begins at a moment. -/
def sendInComet (x : Part) (p c at_ : Nat) (d : Dev) : Dev :=
  let d := modPort p (fun y => { y with cometNo := c + 1, cometAt := at_ }) d
  if !sends (getPort d p) then d else
  let pass : Dev → Dev := if receiptMay x d p c then clearSecond p else id
  match pickComet x d p c with
  | none => pass d
  | some (k, pkt) =>
    let d := modPort p (fun y => { y with comet := (match y.comet.find? (fun e => e.kind = k && !e.second) with
      | some e => y.comet.erase e
      | none => y.comet) }) d
    cometSent x pkt (transmit p pkt (pass d))

/-- COMET_SLOT (R314, R316, R349): the comet slot of the present tick, or, while a hold or a step change stops the ticks and
before a job runs, the next one of the grid in wall time. -/
def cometSlot (p : Nat) (d : Dev) : Dev :=
  match portPart d p with
  | none => d
  | some x =>
    let y := getPort d p
    let grid := (x.plan = .running && latticePaused d) || x.job.st = .preparing || x.job.st = .ready || x.job.st = .armed
    if grid then
      let step := 16 * slotTicks x p * period d.clk.step
      whenDue (y.cometAt + step) (fun d =>
        let k := (d.clk.wall - y.cometAt) / step
        sendInComet x p (y.cometNo + k - 1) (y.cometAt + k * step) d) d
    else
      let j := x.tick / slotTicks x p
      if !active x || j % 16 ≠ 15 || !slotBegins d x p j then d
      else sendInComet x p (j / 16) d.clk.wall (modPort p (fun y => { y with slot := j + 1 }) d)

/-- COMET_SLOT (R314). -/
def execCometSlot (port : Fin 32) : State → Host.Outcome State Fault Refusal := on (whenAwake (cometSlot port.val))

/-! ### Lanes and halo substitution (R305, R306) -/

/-- The port's lanes are watched: it is UP or substituting. -/
def watched (y : Port) : Bool := y.st = .up || y.st = .subst

/-- A segment has the SYNC that its SEG_COUNT calls for (Table 11.2): given by its bytes 0 and 1. -/
def syncRight (h : BitVec 16) : Bool := h.setWidth 8 = (if h.getLsbD 11 then 0xA5#8 else 0x5A#8)

/-- The latest segments of a lane lose it its lock (R305): none at all, for want of clock recovery, or 8 in a row with a wrong SYNC. -/
def losesLock (segs : List (BitVec 16)) : Bool :=
  segs.isEmpty || (8 ≤ segs.length && (segs.drop (segs.length - 8)).all (fun h => !syncRight h))

/-- The latest segments of a lane give it its lock (R305): 64 in a row are correct. -/
def gainsLock (segs : List (BitVec 16)) : Bool := 64 ≤ segs.length && (segs.drop (segs.length - 64)).all syncRight

/-- The receiver measures a lane's power (Table 11.13 RX_POWER). -/
def notePower (p lane : Nat) (power : BitVec 16) : Dev → Dev := modPort p fun y => { y with rxPower := tput y.rxPower lane power }

/-- LOCK_LOSS: a watched lane starts its 4 us; four lanes in use that lose lock within 1 us suspend the rule for 110 us. -/
def lockLoss (p lane : Nat) (segs : List (BitVec 16)) (d : Dev) : Dev :=
  let y := getPort d p
  if !y.laneLock.getLsbD lane || !losesLock segs then d
  else
    let y := { y with laneLock := y.laneLock &&& ~~~laneBit lane }
    if !watched y || y.laneFailed.getLsbD lane then modPort p (fun _ => y) d
    else
      let y := { y with lostAt := tput y.lostAt lane d.clk.wall }
      let at_ := (laneList y.laneUse).map (tget y.lostAt)
      let out := at_.all (fun o => o.any (fun t => decide (d.clk.wall ≤ t + usG 1)))
      modPort p (fun _ => { y with outageAt := if out && y.outageAt.isNone then some d.clk.wall else y.outageAt }) d

/-- LOCK_LOSS (R305). -/
def execLockLoss (port : Fin 32) (rx : LaneRx) : State → Host.Outcome State Fault Refusal :=
  on (whenAwake (fun d => lockLoss port.val rx.lane.val rx.segs (notePower port.val rx.lane.val rx.power d)))

/-- A lane is declared failed (R305, R306, Table 11.9). -/
def failLane (p lane : Nat) (d : Dev) : Dev :=
  let d := modPort p (fun y => { y with laneFailed := y.laneFailed ||| laneBit lane, lostAt := tdel y.lostAt lane }) d
  let y := getPort d p
  if y.st = .subst then portDown p 1 lane d
  else if lane = 4 && !y.laneUse.getLsbD 4 then
    raise 1 (0x500 + p) 0x0504 (portPid d p) (linkDetail 0 0 0 4) (modPort p (fun y => { y with haloFail := true }) d)
  else if lane = 4 || y.laneUse.getLsbD 4 || y.haloFail then portDown p 1 lane d
  else movePort p .subst (fun y => { y with
    rxSubst := true, haloReq := true, reqLane := BitVec.ofNat 3 lane, substAt := some d.clk.wall }) d

/-- LANE_FAILED: 4 us without lock, unless a whole-port outage suspends the rule. -/
def laneFailed (p lane : Nat) (d : Dev) : Dev :=
  let y := getPort d p
  match tget y.lostAt lane with
  | some t => if watched y && y.outageAt.isNone then whenDue (t + usG 4) (failLane p lane) d else d
  | none => d

/-- LANE_FAILED (R305). -/
def execLaneFailed (port : Fin 32) (lane : Fin 5) : State → Host.Outcome State Fault Refusal :=
  on (whenAwake (laneFailed port.val lane.val))

/-- LOCK_REGAIN: in training a lane is acquired; a watched lane's loss of less than 4 us is counted, and a longer one has
failed the lane, or, of a whole-port outage longer than 110 us, the port. -/
def lockRegain (p lane : Nat) (segs : List (BitVec 16)) (d : Dev) : Dev :=
  let y := getPort d p
  if y.st = .off || y.laneLock.getLsbD lane || !gainsLock segs then d
  else
    let lock : Dev → Dev := modPort p (fun y => { y with laneLock := y.laneLock ||| laneBit lane })
    if y.st = .training then if y.laneFailed.getLsbD lane then d else assignStripes p (lock d)
    else match tget y.lostAt lane with
      | none => lock d
      | some t =>
        if y.outageAt.any (fun s => decide (s + usG 110 < d.clk.wall)) then lock (portDown p 1 7 d)
        else if y.outageAt.isNone && t + usG 4 ≤ d.clk.wall then lock (failLane p lane d)
        else
          let d := modPort p (fun y =>
            let y := { y with lostAt := tdel y.lostAt lane }
            { y with outageAt := if (laneList y.laneUse).all (fun l => (tget y.lostAt l).isNone) then none else y.outageAt })
            (lock d)
          if d.clk.wall < t + usG 4 then
            linkNote p 0x0502 lane (modPort p (fun y => { y with laneLockloss := satAdd y.laneLockloss 1 }) d)
          else d

/-- LOCK_REGAIN (R305). -/
def execLockRegain (port : Fin 32) (rx : LaneRx) : State → Host.Outcome State Fault Refusal :=
  on (whenAwake (fun d => lockRegain port.val rx.lane.val rx.segs (notePower port.val rx.lane.val rx.power d)))

/-- PORT_OUTAGE_EXPIRY: 110 us without the four lanes take the port DOWN. -/
def outageExpiry (p : Nat) (d : Dev) : Dev :=
  match (getPort d p).outageAt with
  | some t => if watched (getPort d p) then whenDue (t + usG 110) (portDown p 1 7) d else d
  | none => d

/-- PORT_OUTAGE_EXPIRY (R305). -/
def execPortOutageExpiry (port : Fin 32) : State → Host.Outcome State Fault Refusal :=
  on (whenAwake (outageExpiry port.val))

/-- HALO_REQ seen: the transmit direction enters substitution, carries the failed lane's stripe on LANE[4] from its next cell and
acknowledges; it leaves substitution as time passes (R306, R307, log 98). -/
def haloReq (p lane : Nat) (d : Dev) : Dev :=
  let y := getPort d p
  if !watched y || 3 < lane || y.haloAck then d
  else
    let d := movePort p .subst (fun y => { y with
      txSubst := true, haloAck := true, ackLane := BitVec.ofNat 3 lane, haloUsed := true, haloStripe := BitVec.ofNat 3 lane }) d
    raise 1 (0x500 + p) 0x0503 (portPid d p) (linkDetail 0 0 0 lane) d

/-- HALO_REQ (R306). -/
def execHaloReq (port : Fin 32) (lane : Fin 5) : State → Host.Outcome State Fault Refusal :=
  on (whenAwake (haloReq port.val lane.val))

/-- HALO_ACK seen: deskew of LANE[4] begins. -/
def haloAck (p lane : Nat) (d : Dev) : Dev :=
  let y := getPort d p
  if y.st = .subst && y.rxSubst && y.reqLane.toNat = lane then modPort p (fun y => { y with deskew := true }) d else d

/-- HALO_ACK (R306). -/
def execHaloAck (port : Fin 32) (lane : Fin 5) : State → Host.Outcome State Fault Refusal :=
  on (whenAwake (haloAck port.val lane.val))

/-- DESKEW_DONE: the receive direction leaves substitution, and the port is UP with HALO_USED; more than 120 us after the
declaration it is DOWN instead. -/
def deskewDone (p : Nat) (d : Dev) : Dev :=
  let y := getPort d p
  if y.st = .subst && y.deskew then
    if y.substAt.any (fun t => decide (t + usG 120 < d.clk.wall)) then portDown p 2 y.reqLane.toNat d
    else portUp p (modPort p (fun y => { y with
      deskew := false, rxSubst := false, haloReq := false, substAt := none, haloUsed := true, haloStripe := y.reqLane
      laneUse := (y.laneUse &&& ~~~laneBit y.reqLane.toNat) ||| laneBit 4 }) d)
  else d

/-- DESKEW_DONE (R306). -/
def execDeskewDone (port : Fin 32) : State → Host.Outcome State Fault Refusal := on (whenAwake (deskewDone port.val))

/-- SUBST_TIMEOUT: 120 us after the declaration. -/
def substTimeout (p : Nat) (d : Dev) : Dev :=
  match (getPort d p).substAt with
  | some t => if (getPort d p).st = .subst then whenDue (t + usG 120) (portDown p 2 (getPort d p).reqLane.toNat) d else d
  | none => d

/-- SUBST_TIMEOUT (R306). -/
def execSubstTimeout (port : Fin 32) : State → Host.Outcome State Fault Refusal := on (whenAwake (substTimeout port.val))

/-- FAR_DOWN_SEEN (R307). -/
def farDown (p : Nat) (d : Dev) : Dev := if watched (getPort d p) then portDown p 3 7 d else d

/-- FAR_DOWN_SEEN (R307). -/
def execFarDownSeen (port : Fin 32) : State → Host.Outcome State Fault Refusal := on (whenAwake (farDown port.val))

/-- LASER_OFF (R307): 10 us after the port declared itself DOWN. -/
def laserOff (p : Nat) (d : Dev) : Dev :=
  match (getPort d p).downDecl with
  | some t =>
    if (getPort d p).st = .down then
      whenDue (t + usG 10) (modPort p (fun y => { y with lasers := false, sendDown := false, downDecl := none })) d
    else d
  | none => d

/-- LASER_OFF (R307). -/
def execLaserOff (port : Fin 32) : State → Host.Outcome State Fault Refusal := on (whenAwake (laserOff port.val))

/-! ### Port registers (Table 11.13) -/

/-- STATE codes of Table 11.14. -/
def portStCode (s : PortSt) : Nat :=
  match s with
  | .off => 0
  | .training => 1
  | .up => 2
  | .subst => 3
  | .down => 4
  | .dark => 5

/-- PORT_STATUS (Table 11.14). -/
def portStatus (d : Dev) (p : Nat) : Nat :=
  let y := getPort d p
  portStCode y.st + b2n y.foreign * 2 ^ 3 + b2n y.trainTimeout * 2 ^ 4 + b2n y.haloUsed * 2 ^ 5 + b2n y.haloFail * 2 ^ 6 +
    y.haloStripe.toNat * 2 ^ 7 + b2n y.rxSubst * 2 ^ 10 + b2n y.txSubst * 2 ^ 11 +
    b2n (((portPart d p).map epochNow).getD false) * 2 ^ 12 + y.downCause.toNat * 2 ^ 13

/-- LANE_STATUS (Table 11.13). -/
def laneStatus (d : Dev) (p : Nat) : Nat :=
  let y := getPort d p
  (List.range 5).foldl (fun a i => a + (b2n (y.laneLock.getLsbD i) + 2 * b2n (y.laneFailed.getLsbD i) +
    4 * b2n ((craterLanes d p).getLsbD i) + 8 * b2n (y.laneUse.getLsbD i)) * 2 ^ (4 * i)) 0

/-- DOWN_NS, the time of a state that still counts included. -/
def downNsNow (d : Dev) (y : Port) : BitVec 64 :=
  match y.downAt with
  | some t => y.downNs + BitVec.ofNat 64 ((d.clk.wall - t) / grain)
  | none => y.downNs

/-- The 256 bytes of a port's registers; offsets not listed read 0 (R313). -/
def portBytes (d : Dev) (p : Nat) : List Byte :=
  let y := getPort d p
  padTo 256 (toLe 4 (portStatus d p) ++ toLe 4 (b2n y.en + 4 * b2n y.darkBit) ++ toLe 2 y.jobTag.toNat ++
    toLe 2 y.jobEpoch.toNat ++ toLe 4 y.farId.toNat ++ toLe 8 y.farSerial.toNat ++ toLe 4 (laneStatus d p) ++
    toLe 4 y.laneLockloss.toNat ++ toLe 8 y.pktTx.toNat ++ toLe 8 y.pktRx.toNat ++ toLe 4 y.dropCrc16.toNat ++
    toLe 4 y.dropE2e.toNat ++ toLe 4 y.dropSeq.toNat ++ toLe 4 y.dropFormat.toNat ++ toLe 4 y.dropForeign.toNat ++
    toLe 4 y.dropUnexp.toNat ++ toLe 4 y.dropQfull.toNat ++ toLe 4 y.dropRelay.toNat ++ toLe 4 y.slotShort.toNat ++
    toLe 4 y.relayMismatch.toNat ++ toLe 4 y.cellErr.toNat ++ toLe 4 y.holdEvict.toNat ++ toLe 4 y.qdepthMax.toNat ++
    toLe 4 y.stallTicks.toNat ++ toLe 8 y.txBytes.toNat ++ toLe 8 y.rxBytes.toNat ++ toLe 8 (downNsNow d y).toNat ++
    (List.range 5).flatMap (fun i => toLe 2 ((tget y.rxPower i).getD 0).toNat))

/-- Reading a port's RC registers at the offsets given clears them. -/
def clearPort (has : Nat → Bool) (y : Port) : Port :=
  let z (off : Nat) (v : BitVec 32) : BitVec 32 := if has off then 0 else v
  { y with
    laneLockloss := z 0x1C y.laneLockloss, dropCrc16 := z 0x30 y.dropCrc16, dropE2e := z 0x34 y.dropE2e
    dropSeq := z 0x38 y.dropSeq, dropFormat := z 0x3C y.dropFormat, dropForeign := z 0x40 y.dropForeign
    dropUnexp := z 0x44 y.dropUnexp, dropQfull := z 0x48 y.dropQfull, dropRelay := z 0x4C y.dropRelay
    slotShort := z 0x50 y.slotShort, relayMismatch := z 0x54 y.relayMismatch, cellErr := z 0x58 y.cellErr
    holdEvict := z 0x5C y.holdEvict, qdepthMax := z 0x60 y.qdepthMax, stallTicks := z 0x64 y.stallTicks }

/-- PORT_READ (Table 15.10): the 256 bytes of a logical port's registers; the MP's read clears the RC registers. -/
def execPortRead (m : Fin 64) : State → Host.Outcome State Fault Refusal := on <| partCommand 0x0608 m fun x pl d =>
  match if lf pl 0 1 < 2 * nBlocks x then physPort x (lf pl 0 1) else none with
  | none => answer m stBadArg 0 [] d
  | some p => answer m stOk 0 (portBytes d p) (modPort p (clearPort (fun _ => true)) d)

/-- PORT_CTRL (Table 15.10): RETRAIN needs job state NONE or FAILED. -/
def execPortCtrl (m : Fin 64) : State → Host.Outcome State Fault Refusal := on <| partCommand 0x0609 m fun x pl d =>
  match if lf pl 0 1 < 2 * nBlocks x then physPort x (lf pl 0 1) else none with
  | none => answer m stBadArg 0 [] d
  | some p =>
    match lf pl 1 1 with
    | 1 =>
      if x.job.st = .none_ || x.job.st = .failed then answer m stOk 0 [] (portRetrain p d)
      else answer m stDenied 0 [] d
    | 2 => answer m stOk 0 [] (forceDown p d)
    | _ => answer m stBadArg 0 [] d

end Sys2Proof.Machine
end

