-- ==== Sys2Proof/Machine/Fabric.lean ====
section
/-!
DEFINITION. Keeping the plan across modules (R314 to R339): due slots, receipts and re-sends, orbit marks, machine time,
management floods, and route switches.
-/

namespace Sys2Proof.Machine

open Sys2Proof

/-- A row takes the oldest packet of its kind from those handed to the fabric logic, and acts on it. -/
def takeInbox (pid : Nat) (f : Packet → Bool) (act : Part → Received → Dev → Dev) : Dev → Dev := withPart pid fun x d =>
  match x.fab.inbox.find? (fun e => f e.pkt) with
  | none => d
  | some e =>
    let x := { x with fab := { x.fab with inbox := x.fab.inbox.erase e } }
    act x e (setPart pid x d)

/-! ### Due slots, receipts and re-sends -/

/-- The inbound entries that open at tick 0 of an orbit (R319). -/
def newEntries (x : Part) : List Inbound :=
  (((x.info.map (·.ports)).getD []).filter (fun e => e.1 < 2 * nBlocks x)).flatMap (fun e =>
    (e.2.ins.zipIdx.filter (fun i => condHolds x i.1.cond i.1.cbit)).map (fun i =>
      (⟨e.1, i.2, x.orbit, i.1.src, i.1.transfer, i.1.due, false, false, none⟩ : Inbound)))

/-- The end of an inbound entry's due slot has come (R320). -/
def duePassed (x : Part) (e : Inbound) : Bool :=
  e.orbit ≠ x.orbit || (match physPort x e.lport with
    | some p => decide ((e.due + 1) * slotTicks x p ≤ x.tick)
    | none => false)

/-- DUE_SLOT_END (R320): the entry is missing, and with every other missing entry of its orbit and source it is asked for in
round 1. -/
def dueSlotEnd (p pos : Nat) (d : Dev) : Dev :=
  match portPart d p with
  | none => d
  | some x =>
    match x.fab.open_.find? (fun e => e.lport = logPort x p && e.pos = pos && !e.missing && duePassed x e) with
    | none => d
    | some e =>
      if x.plan ≠ .running then d else
      let late (f : Inbound) : Bool := f.orbit = e.orbit && f.src = e.src && !f.missing && duePassed x f
      let es := x.fab.open_.filter late
      askAgain x.pid 1 es (setPart x.pid { x with fab := { x.fab with
        open_ := x.fab.open_.map (fun f => if late f then { f with missing := true } else f) } } d)

/-- DUE_SLOT_END (R320). -/
def execDueSlotEnd (port : Fin 32) (pos : Nat) : State → Host.Outcome State Fault Refusal :=
  on (whenAwake (dueSlotEnd port.val pos))

/-- This module has sent a transfer of an orbit as its source (R321, Table 12.4). -/
def everSent (x : Part) (orbit transfer : Nat) : Bool := x.fab.sentKeys.contains (BitVec.ofNat 32 orbit, transfer)

/-- The copy a partition's ports hold of a transfer (R301). -/
def heldCopy (d : Dev) (x : Part) (orbit transfer : Nat) : Option Packet :=
  ((partPorts x).flatMap (fun p => (getPort d p).hold)).find? (fun c => c.orbit.toNat = orbit && pTransfer c.pkt = transfer)
    |>.map (·.pkt)

/-- A copy re-formed as a re-send (R321). -/
def resend (x : Part) (dest : Nat) (p : Packet) : Packet :=
  mkPacket dest (pSrc p) 1 (b2n (epochNow x) + pFlags p / 4 % 2 * 4 + 8) (pOrbit p) (pTransfer p) (lf p.hdr 15 1) (pTile p)
    (pTag p) 0 p.payload

/-- One listed transfer of a receipt at its source (R321): the entries that cannot be served are collected. -/
def serveKey (pid req orbit attempt : Nat) (k : Nat × Nat × Nat) (a : List (Nat × Nat × Nat) × Dev) :
    List (Nat × Nat × Nat) × Dev :=
  match getPart a.2 pid with
  | none => a
  | some x =>
    let key : RcptKey := ⟨req, BitVec.ofNat 32 orbit, k.2.2, attempt⟩
    if x.fab.handled.contains key then a
    else
      let d := setPart pid { x with fab := { x.fab with handled := x.fab.handled ++ [key] } } a.2
      match heldCopy d x orbit k.2.2 with
      | some p => (a.1, sendComet pid .resend false (resend x req p) d)
      | none =>
        if everSent x orbit k.2.2 then (a.1 ++ [k], d)
        else (a.1, modPart pid (fun y => { y with fab := { y.fab with cometDrop := satAdd y.fab.cometDrop 1 } }) d)

/-- One record of a receipt at its source (R321): of what cannot be served, the record of a GONE answer, which echoes it. -/
def serveRecord (pid req orbit attempt : Nat) (rec : List Byte) (a : List (List Byte) × Dev) : List (List Byte) × Dev :=
  let r := (recordEntries rec).foldl (fun a k => serveKey pid req orbit attempt k a) ([], a.2)
  (if r.1.isEmpty then a.1 else a.1 ++ [receiptRecord (lf rec 3 1 % 32) (lf rec 0 3 % 2 ^ 20) (r.1.map (·.2))], r.2)

/-- RECEIPT (R321, R324): a source re-sends what it holds and answers GONE for the rest; a GONE answer abandons what it
lists. -/
def receipt (pid : Nat) : Dev → Dev := takeInbox pid (fun p => pType p = 2) fun x r d =>
  let pkt := r.pkt
  let pl := pkt.payload
  let orbit := lf pl 0 4
  let es := receiptEntries pl
  if bit (lf pl 5 1) 1 then
    abandon x.pid (fun e => e.orbit.toNat = orbit && e.src = pSrc pkt && es.any (fun k => k.1 = e.lport && k.2.1 = e.pos))
      (modPart pid (fun y => { y with fab := { y.fab with goneRx := satAdd y.fab.goneRx 1 } }) d)
  else
    let (gone, d) := (receiptRecs pl).foldl (fun a c => serveRecord pid (pSrc pkt) orbit (lf pl 4 1) c a) ([], d)
    sendReceipts pid (pSrc pkt) orbit (lf pl 4 1) true gone d

/-- RECEIPT (R321). -/
def execReceipt (part : Fin 16) : State → Host.Outcome State Fault Refusal := on (whenAwake (receipt part.val))

/-- LATE_INC_NS of FAB_TIMING. -/
def lateInc (x : Part) : Nat := fld x.fab.timing.toNat 40 18

/-- Of the open entries with round 2 sent, the one whose copy 0 was sent first. -/
def firstAsked (l : List Inbound) : Option (Nat × Inbound) :=
  l.foldl (fun a e => match e.round2At, a with
    | some t, some b => if t < b.1 then some (t, e) else a
    | some t, none => some (t, e)
    | none, _ => a) none

/-- FAB_SECOND (R322): an entry still open LATE_INC_NS after its round-2 copy 0. -/
def fabSecond (pid : Nat) : Dev → Dev := withPart pid fun x d =>
  match firstAsked x.fab.open_ with
  | none => d
  | some (t, e) =>
    if x.plan ≠ .running then d
    else whenDue (t + nsG (lateInc x)) (raise 2 (0x560 + pid) 0x0508 pid (linkDetail e.transfer e.src 0 7)) d

/-- FAB_SECOND (R322). -/
def execFabSecond (part : Fin 16) : State → Host.Outcome State Fault Refusal := on (whenAwake (fabSecond part.val))

/-! ### Orbit marks -/

/-- The relative slots occupied in an orbit: the present one, or one that ended lately. -/
def occupiedIn (x : Part) (orbit r : Nat) : Bool :=
  x.srv.occupied.any (fun e => e.1.toNat = orbit && e.2.getLsbD r) || (x.orbit.toNat = orbit && (slotEntry x r).place.id ≠ 0)

/-- Slots that a module learns are fenced it fences at once (R244, R245, R325). ALL_FENCE names every slot that was occupied in
the orbit. -/
def learnFences (pid orbit bits : Nat) (all : Bool) : Dev → Dev := withPart pid fun x d =>
  let named (r : Nat) : Bool := bit bits r || (all && occupiedIn x orbit r)
  forEach ((List.range (32 * nBlocks x)).filter (fun r => named r && !isFenced d 0 (slotAbs x r))) (fun r d =>
    markFenced x r (forEach (List.range 4) (fun q => setFence q (slotAbs x r)) d)) d

/-- The round-1 mark of the orbit that ends (R317, R326, R327): the module's own fences and flags, and the MT at which it begins
the next orbit. -/
def formRound1 (pid : Nat) (orbit : BitVec 32) (stale : Bool) (start : BitVec 64) : Dev → Dev := withPart pid fun x d =>
  let m : MarkSet := {
    orbit := orbit, round := 1, allFence := x.fab.allFence, late := x.fab.late, stale := stale, mtStart := start
    fence := x.fab.fenced, cbitReq := x.fab.cbitReq, got := ((getMark x orbit).map (·.got)).getD [], complete := false, completeMt := 0 }
  let d := setPart pid (putMark m x) d
  let d := queueMark x m (if x.fab.allFence then learnFences pid orbit.toNat 0 true d else d)
  advanceMarks pid orbit 130 d

/-- ORBIT_MARK (R327, R245): a mark received is kept, its fences take hold at once, and the rounds go on. -/
def orbitMark (pid : Nat) : Dev → Dev := takeInbox pid (fun p => pType p = 4) fun x r d =>
  let pl := r.pkt.payload
  let orbit := BitVec.ofNat 32 (lf pl 0 4)
  let new : MarkSet := ⟨orbit, 0, false, false, false, 0, 0, 0, [], false, 0⟩
  let m := (getMark x orbit).getD new
  let d := setPart pid (putMark { m with got := m.got ++ [(r.lport, lf pl 4 1, pl)] } x) d
  advanceMarks pid orbit 130 (learnFences pid orbit.toNat (lf pl 16 64) (bit (lf pl 5 1) 0) d)

/-- MARK_TIMEOUT (R328): marks of the orbit before not complete by tick ORBIT_LEN / 2. -/
def markTimeout (pid : Nat) : Dev → Dev := withPart pid fun x d =>
  if x.plan = .running && marksOpen x && decide ((x.info.map (·.orbitLen)).getD 0 / 2 ≤ x.tick) then
    raise 2 (0x560 + pid) 0x0509 pid (linkDetail 0 0 0 7) d
  else d

/-- MARK_TIMEOUT (R328). -/
def execMarkTimeout (part : Fin 16) : State → Host.Outcome State Fault Refusal := on (whenAwake (markTimeout part.val))

/-! ### Machine time -/

/-- The UP port whose far end has the lowest STRATUM, the lowest port on ties (R330). -/
def bestParent (d : Dev) : Option Nat :=
  (List.range 32).foldl (fun a p =>
    let y := getPort d p
    if y.st ≠ .up || y.farStratum = 0xFF#8 then a
    else match a with
      | some q => if y.farStratum.toNat < (getPort d q).farStratum.toNat then some p else a
      | none => some p) none

/-- Take the time parent that R330 leads to. -/
def takeParent (d : Dev) : Dev :=
  if d.mt.root then d
  else match bestParent d with
    | none => { d with mt := { d.mt with
        parent := none, lostAt := if d.mt.lostAt.isNone then some d.clk.wall else d.mt.lostAt } }
    | some p => { d with mt := { d.mt with
        parent := some p, stratum := BitVec.ofNat 8 (min 254 ((getPort d p).farStratum.toNat + 1)), lostAt := none
        since := if d.mt.since.isNone || d.mt.parent ≠ some p then some d.clk.wall else d.mt.since } }

/-- Offset to the parent in ns (R330): ((t4 - t3) - (t2 - t1)) / 2 less the 2.56 ns of a flit, rounded down. -/
def timeOffset (t1 t2 t3 t4 : Nat) : Int := ((((t4 : Int) - t3) - ((t2 : Int) - t1)) * 50 - 256) / 100

/-- TIME (R330): the module follows its parent, stepping MT before its first job start and slewing it after. -/
def time (pid : Nat) : Dev → Dev := takeInbox pid (fun p => pType p = 3) fun x r d =>
  let d := takeParent d
  let pl := r.pkt.payload
  if d.mt.root || d.mt.parent.isNone || physPort x r.lport ≠ d.mt.parent || lf pl 8 8 = 0 then d
  else
    let o := timeOffset (lf pl 8 8) (lf pl 16 8) (lf pl 0 8) r.rx.toNat
    let mt := { d.mt with offset := BitVec.ofInt 64 o }
    { d with mt := if d.mt.started then { mt with slew := -o }
                   else { mt with mt := BitVec.ofInt 64 (d.mt.mt.toNat - o), slew := 0 } }

/-- TIME (R330). -/
def execTime (part : Fin 16) : State → Host.Outcome State Fault Refusal := on (whenAwake (time part.val))

/-- TIME_PARENT_LOSS (R330): no parent for 10 ms. -/
def timeParentLoss (d : Dev) : Dev :=
  let d := takeParent d
  match d.mt.parent, d.mt.lostAt with
  | none, some t =>
    if d.mt.root then d else
    whenDue (t + msG 10) (fun d => { d with mt := { d.mt with stratum := 0xFF#8, slew := 0, since := none } }) d
  | _, _ => d

/-- TIME_PARENT_LOSS (R330). -/
def execTimeParentLoss : State → Host.Outcome State Fault Refusal := on (whenAwake timeParentLoss)

/-- TIME_ROOT (R331). -/
def execTimeRoot (m : Fin 64) : State → Host.Outcome State Fault Refusal := on <| command 0x0103 m fun pl d =>
  match lf pl 0 1 with
  | 1 =>
    let free := d.parts.all (fun e => e.2.job.st = .none_)
    let mt := if lf pl 8 8 ≠ 0 && free then BitVec.ofNat 64 (lf pl 8 8) else d.mt.mt
    answer m stOk 0 [] { d with mt := { d.mt with
      mt := mt, slew := 0, stratum := 0, root := true, parent := none, lostAt := none
      since := if d.mt.root then d.mt.since else some d.clk.wall } }
  | 0 =>
    if d.mt.root then
      answer m stOk 0 [] (takeParent { d with mt := { d.mt with root := false, since := none, started := true } })
    else answer m stOk 0 [] d
  | _ => answer m stBadArg 0 [] d

/-! ### Management traffic -/

/-- Header of a MGMT message (Table 12.8). -/
def mgmtHeader (kind part parts orbit : Nat) : List Byte :=
  toLe 1 kind ++ toLe 1 part ++ toLe 1 parts ++ toLe 1 0 ++ toLe 4 orbit

/-- Flood a MGMT message on every UP port that faces a plan neighbour, but for one (R337). -/
def flood (pid : Nat) (except : Option Nat) (pl : List Byte) : Dev → Dev := withPart pid fun x d =>
  let key := (lf pl 0 1, BitVec.ofNat 32 (lf pl 4 4), lf pl 1 1)
  let d := setPart pid { x with fab := { x.fab with floods := x.fab.floods ++ [key] } } d
  forEach ((upFacing d x).filter (fun e => some e.1 ≠ except)) (fun e d =>
    enqueueComet pid e.2.1 .mgmt (mkPacket (farRank d e.2.1) x.job.rank 5 (b2n (epochNow x) + 2) (lf pl 4 4) 0 0 0
      x.job.tag.toNat 0 pl) false d) d

/-- A part of a placement is kept for the orbit it concerns: the next one, or the one after, from a leader that is ahead (R338). -/
def keepPart (x : Part) (orbit : BitVec 32) (part : Nat) (b : List Byte) : Dev → Dev :=
  modSrv x.pid fun s =>
    if orbit = x.orbit + 1 then { s with parts := tput s.parts part b }
    else if orbit = x.orbit + 2 then { s with ahead := tput s.ahead part b }
    else s

/-- A STALE for the next orbit stands in its placement's place (R267); one for the orbit after is kept. -/
def keepStale (x : Part) (orbit : BitVec 32) : Dev → Dev :=
  modSrv x.pid fun s =>
    if orbit = x.orbit + 1 then { s with next := .stale } else if orbit = x.orbit + 2 then { s with aheadStale := true } else s

/-- A MGMT packet on first receipt is acted on and flooded onward (R337): a part of a placement, STALE, or the orbit of
an epoch switch. -/
def mgmtAct (x : Part) (r : Received) (d : Dev) : Dev :=
  let pl := r.pkt.payload
  let orbit := BitVec.ofNat 32 (lf pl 4 4)
  if x.fab.floods.contains (lf pl 0 1, orbit, lf pl 1 1) then d
  else
    let d := flood x.pid (some r.lport) pl d
    match lf pl 0 1 with
    | 1 => keepPart x orbit (lf pl 1 1) (pl.drop 8) d
    | 2 => keepStale x orbit d
    | 3 => modPart x.pid (fun y => { y with fab := { y.fab with switchAt := some (BitVec.ofNat 32 (lf pl 8 4)) } }) d
    | _ => d

/-- MGMT (R337): the oldest message other than a placement's part. -/
def execMgmt (part : Fin 16) : State → Host.Outcome State Fault Refusal := on <| whenMp <|
  takeInbox part.val (fun p => pType p = 5 && lf p.payload 0 1 ≠ 1) mgmtAct

/-- ROUTE_SWITCH (R334, Table 15.10): at rank 0, in EPOCH mode, at least two orbits ahead; the leader floods EPOCH_SWITCH. -/
def execRouteSwitch (m : Fin 64) : State → Host.Outcome State Fault Refusal := on <| partCommand 0x0607 m fun x pl d =>
  let k := BitVec.ofNat 32 (lf pl 0 4)
  if x.job.rank ≠ 0 || !x.fab.mode.getLsbD 8 || orbitBefore k (x.orbit + 2) then answer m stDenied 0 [] d
  else
    let d := modPart x.pid (fun y => { y with fab := { y.fab with switchAt := some k } }) d
    answer m stOk 0 [] (flood x.pid none (mgmtHeader 3 0 1 k.toNat ++ toLe 4 k.toNat) d)

end Sys2Proof.Machine
end

