-- ==== Sys2Proof/Machine/Plans.lean ====
section
/-!
DEFINITION. Plan images (R19 to R24): the header, the section table, the contents of every section with the checks that the
loader makes of them, and relocation. Each check is a Bool that is true where the image breaks it.
-/

namespace Sys2Proof.Machine

open Sys2Proof

/-! ### Header and section table -/

/-- A section table entry (R20). -/
structure PlanSec where
  ty : Nat
  inst : Nat
  len : Nat
  off : Nat
  deriving DecidableEq, Repr

/-- Entries k onward of the section table, n of them. -/
def secTable (img : List Byte) : Nat → Nat → List PlanSec
  | 0, _ => []
  | n + 1, k =>
    let e := sl img (128 + 16 * k) 16
    ⟨lf e 0 2, lf e 2 2, lf e 4 4, lf e 8 8⟩ :: secTable img n (k + 1)

/-- The sections of an image. -/
def secs (img : List Byte) : List PlanSec := secTable img (lf img 0x1A 2) 0

/-- Bytes of a section. -/
def secBytes (img : List Byte) (s : PlanSec) : List Byte := sl img s.off s.len

/-- The first section of a type and instance. -/
def findSec (img : List Byte) (ty inst : Nat) : Option (List Byte) :=
  ((secs img).find? (fun s => s.ty = ty && s.inst = inst)).map (secBytes img)

/-- A check of every section of a type; an absent one, or one too many, is found by the check of Table 1.2. -/
def onSec (img : List Byte) (ty : Nat) (f : List Byte → Bool) : Bool :=
  ((secs img).filter (fun s => s.ty = ty)).any (fun s => f (secBytes img s))

def planOrbitLen (img : List Byte) : Nat := lf img 0x10 4
def planBoundaryLen (img : List Byte) : Nat := lf img 0x14 4
def planMask (img : List Byte) : BitVec 16 := BitVec.ofNat 16 (lf img 0x0C 2)

/-- The virtual tiles of BLOCK_MASK, ascending. -/
def planTiles (img : List Byte) : List Nat := (List.range 2304).filter (fun t => (planMask img).getLsbD (blockOfTile t))
def planBlocks (img : List Byte) : Nat := (blocksOf (planMask img)).length

/-- Two sections overlap, at least one of them (R20). -/
def secOverlap : List PlanSec → Bool
  | [] => false
  | s :: r => r.any (fun e => decide (s.off < e.off + e.len) && decide (e.off < s.off + s.len) && s.len ≠ 0 && e.len ≠ 0) ||
      secOverlap r

/-- The header or the section table breaks R19 or R20. A SECTION_COUNT outside the range of Table 1.1 is refused here: the model's
choice, since Table 1.3 names no reason for it (log 117). -/
def headBad (img : List Byte) : Bool :=
  let n := lf img 0x1A 2
  decide (img.length < 128) || lf img 0 4 ≠ 0x4E414C50 || lf img 4 2 ≠ 1 || 1 < lf img 0x0A 1 || 4 ≤ lf img 0x0B 1 ||
    !allZero (sl img 0x0E 2) || !allZero (sl img 0x19 1) || !allZero (sl img 0x1C 20) || !allZero (sl img 0x60 32) ||
    n = 0 || 2400 < n || decide (img.length < 128 + 16 * n) ||
    (secs img).any (fun s => s.ty = 0 || 9 < s.ty || decide (s.off < 128 + 16 * n) || decide (img.length < s.off + s.len)) ||
    secOverlap (secs img)

/-- PLAN_HASH as R21 computes it. -/
def planHash (img : List Byte) : Hash := sha384 (img.take 0x30 ++ List.replicate 48 0 ++ img.drop 0x60)

/-! ### Command streams -/

/-- The command words of a stream (R76). -/
def streamCmds (b : List Byte) : List TileCmd := (List.range (b.length / 16)).map (fun i => cmdOf i (sl b (16 * i) 16))

/-- Tile and bytes of each command stream. -/
def streams (img : List Byte) : List (Nat × List Byte) :=
  ((secs img).filter (fun s => s.ty = 1)).map (fun s => (s.inst, secBytes img s))

/-! ### Queue depths (R146 to R148) -/

/-- A queue descriptor (Table 5.2). -/
def descOf (b : List Byte) : Queue := { base := lf b 0 2, depth := lf b 2 2, wcode := lf b 4 1 % 16 }

/-- The descriptors of a tile record. -/
def recQueues (rec : List Byte) : List Queue := (List.range 32).map (fun q => descOf (sl rec (8 + 8 * q) 8))

/-- Tile records of the queue-depth section. -/
def tileRecs (b : List Byte) : List (List Byte) := (List.range (lf b 0 4)).map (fun i => sl b (16 + 264 * i) 264)

/-- Words of a queue's footprint (R146). -/
def footprint (q : Queue) : Nat := if q.wcode = 1 then (q.depth + 15) / 16 else q.depth * (slotBytes q.wcode / 16)

/-- Two footprints of one tile overlap. -/
def footOverlap : List Queue → Bool
  | [] => false
  | q :: r => r.any (fun p => decide (q.base < p.base + footprint p) && decide (p.base < q.base + footprint q)) ||
      footOverlap r

/-- A tile record breaks R147 or has a reserved bit set. -/
def tileRecBad (rec : List Byte) : Bool :=
  let used := (recQueues rec).filter (fun q => q.depth ≠ 0)
  !allZero (sl rec 2 6) || footOverlap used ||
    (List.range 32).any (fun k =>
      let d := sl rec (8 + 8 * k) 8
      lf d 2 2 ≠ 0 && (16 ≤ lf d 4 4 || elemWidth (lf d 4 1 % 16) = 0 || lf d 0 2 % 8 ≠ 0))

/-- The wait record that a WAIT needs (Table 5.4). -/
def waitRec (tile : Nat) (c : TileCmd) (issue : Nat) : List Byte :=
  toLe 8 (tile + c.idx * 2 ^ 12 + c.qa % 8 * 2 ^ 24 + issue * 2 ^ 28)

/-- The wait records of the command streams, in order: tile index, then command index (R148). -/
def waitRecs (img : List Byte) : List Byte :=
  (planTiles img).flatMap (fun t => match findSec img 1 t with
    | some b => ((streamCmds b).filter (fun c => c.opc = 0x14)).flatMap (fun c =>
        waitRec t c (fld (lf b (16 * c.idx) 8) 16 20))
    | none => [])

/-- The queue-depth section is refused with FORMAT. -/
def depthBad (img b : List Byte) : Bool :=
  let n := lf b 0 4
  let w := lf b 4 4
  decide (b.length < 16 + 264 * n + 8 * w) || !allZero (sl b 8 8) || 9437184 < w ||
    (tileRecs b).map (fun r => lf r 0 2) ≠ planTiles img || (tileRecs b).any tileRecBad ||
    sl b (16 + 264 * n) (8 * w) ≠ waitRecs img

/-- A footprint ends beyond the scratchpad (R147). -/
def depthSize (b : List Byte) : Bool :=
  (tileRecs b).any (fun r => (recQueues r).any (fun q => q.depth ≠ 0 && 192 * 64 < q.base + footprint q))

/-! ### Runs (R153, R154, R156, R180, R181) -/

/-- A run entry (Table 5.6). A seam run entry shares its first four fields (Table 6.5). -/
def runOf (b : List Byte) : Run :=
  let v := leNat b
  { start := fld v 0 28, len := fld v 28 16, period := fld v 44 28, reps := fld v 72 16 + 1
    selN := fld v 88 3, selE := fld v 91 3, selS := fld v 94 3, selW := fld v 97 3, selL := fld v 100 3 }

/-- LEN, PERIOD and REPS of a run break R154, or an occurrence ends after tick ORBIT_LEN - 1. -/
def runBad (orbitLen : Nat) (r : Run) : Bool :=
  r.len = 0 || (if r.reps = 1 then r.period ≠ 0 else decide (r.period < r.len)) ||
    decide (orbitLen < r.start + (r.reps - 1) * r.period + r.len)

/-- The ticks at which an occurrence of a run begins, or has just ended: no run's cover changes at another tick. -/
def runEdges (l : List Run) : List Nat :=
  l.flatMap (fun r => (List.range r.reps).flatMap (fun k => [r.start + k * r.period, r.start + k * r.period + r.len]))

/-- Two runs of a list share a tick of the orbit. -/
def runClash (l : List Run) : Bool := (runEdges l).any (fun t => decide (1 < (l.filter (runCovers t)).length))

/-- A router record of the mesh link slot section (Table 5.8). -/
structure RouterRec where
  tile : Nat
  reserved : Bool
  count : Nat
  groups : BitVec 256
  runs : List (List Byte)
  deriving DecidableEq, Repr

/-- Router records from a byte list, so many, and the bytes they need beyond it (none where the section is whole). -/
def routerRecs : Nat → List Byte → List RouterRec × Bool
  | 0, _ => ([], true)
  | n + 1, b =>
    let c := lf b 2 2
    if b.length < 40 + 16 * c then ([], false)
    else
      let r := routerRecs n (b.drop (40 + 16 * c))
      (⟨lf b 0 2, !allZero (sl b 4 4), c, BitVec.ofNat 256 (lf b 8 32),
        (List.range c).map (fun i => sl b (40 + 16 * i) 16)⟩ :: r.1, r.2)

/-- The router records of a mesh link slot section. -/
def meshRecs (b : List Byte) : List RouterRec × Bool := routerRecs (lf b 0 4) (b.drop 16)

/-- The selects of a run for outputs N, E, S, W and local. -/
def runSels (r : Run) : List Nat := [r.selN, r.selE, r.selS, r.selW, r.selL]

/-- The tile that a direction of Table 5.7 faces, on the grid. -/
def facedTile (t dir : Nat) : Option Nat :=
  match dir with
  | 1 => if 48 ≤ t then some (t - 48) else none
  | 2 => if t % 48 < 47 then some (t + 1) else none
  | 3 => if t / 48 < 47 then some (t + 48) else none
  | _ => if 0 < t % 48 then some (t - 1) else none

/-- The directions that a run's inputs and outputs use. -/
def runDirs (r : Run) : List Nat :=
  ([(1, r.selN), (2, r.selE), (3, r.selS), (4, r.selW)].filterMap (fun e => if e.2 = 0 then none else some e.1)) ++
    (runSels r).filter (fun s => 1 ≤ s && s ≤ 4)

/-- A mesh run entry is refused with FORMAT (R154). -/
def meshRunBad (orbitLen : Nat) (b : List Byte) : Bool :=
  let r := runOf b
  2 ^ 103 ≤ leNat b || (runSels r).any (fun s => 5 < s) || r.selN = 1 || r.selE = 2 || r.selS = 3 || r.selW = 4 ||
    runBad orbitLen r

/-- The mesh link slot section is refused with FORMAT. -/
def meshBad (img b : List Byte) : Bool :=
  let (rs, whole) := meshRecs b
  b.length < 16 || !allZero (sl b 4 12) || !whole || rs.map (·.tile) ≠ planTiles img ||
    rs.any (fun r => r.reserved || 1024 < r.count || r.runs.any (meshRunBad (planOrbitLen img)) ||
      runClash (r.runs.map runOf))

/-- A selected input or output of the mesh link slot section faces outside BLOCK_MASK (R154). -/
def meshOutside (img b : List Byte) : Bool :=
  (meshRecs b).1.any (fun r => r.runs.any (fun e => (runDirs (runOf e)).any (fun k => match facedTile r.tile k with
    | some t => !(planMask img).getLsbD (blockOfTile t)
    | none => true)))

/-- A seam run entry: seam, direction, lane, channel, run. -/
structure SeamRun where
  seam : Nat
  dir : Nat
  lane : Nat
  ch : Nat
  run : Run
  raw : Nat
  deriving DecidableEq, Repr

/-- RUN_COUNT[s][d], by k = 2s + d (Table 6.4). -/
def seamCount (b : List Byte) (k : Nat) : Nat := lf b (2 * k) 2

/-- The seam run entries of section bytes, by k from 0 to 7. -/
def seamRuns (b : List Byte) : List SeamRun :=
  (List.range 8).flatMap (fun k =>
    let before := ((List.range k).map (seamCount b)).foldl (· + ·) 0
    (List.range (seamCount b k)).map (fun i =>
      let e := sl b (16 + 16 * (before + i)) 16
      ⟨k / 2, k % 2, fld (leNat e) 88 5, fld (leNat e) 93 3, runOf e, leNat e⟩))

/-- The two tiles of a seam lane, west or north first (R178). -/
def seamTiles (s lane : Nat) : Nat × Nat :=
  if s < 2 then ((lane + 24 * s) * 48 + 23, (lane + 24 * s) * 48 + 24)
  else (23 * 48 + lane + 24 * (s - 2), 24 * 48 + lane + 24 * (s - 2))

def inMask (img : List Byte) (t : Nat) : Bool := (planMask img).getLsbD (blockOfTile t)

/-- The select of the router output that a seam lane and direction leave by. -/
def seamSel (s d : Nat) (r : Run) : Nat :=
  match s / 2, d with
  | 0, 0 => r.selE
  | 0, _ => r.selW
  | _, 0 => r.selS
  | _, _ => r.selN

/-- Seam-side router outputs and channel assignments differ in a tick of the orbit (R181). -/
def seamDiffers (img b : List Byte) (s d lane : Nat) : Bool :=
  let ts := seamTiles s lane
  let t := if d = 0 then ts.1 else ts.2
  let outs := (((findSec img 2 0).map (fun m => ((meshRecs m).1.filter (fun r => r.tile = t)).flatMap (fun r =>
    r.runs.map runOf))).getD []).filter (fun r => seamSel s d r ≠ 0)
  let chans := ((seamRuns b).filter (fun e => e.seam = s && e.dir = d && e.lane = lane)).map (·.run)
  inMask img t && (runEdges (outs ++ chans)).any (fun t => outs.any (runCovers t) != chans.any (runCovers t))

/-- The seam bridge slot section is refused with FORMAT (R181). -/
def seamBad (img b : List Byte) : Bool :=
  let l := seamRuns b
  let ol := planOrbitLen img
  let keys (f : SeamRun → Nat × Nat × Nat) : Bool :=
    l.any (fun e => runClash ((l.filter (fun g => f g = f e)).map (·.run)))
  (List.range 8).any (fun k => 4096 < seamCount b k) || b.length < 16 + 16 * l.length ||
    l.any (fun e => 2 ^ 96 ≤ e.raw || 23 < e.lane || runBad ol e.run || e.ch / 4 ≠ e.lane / 12) ||
    keys (fun e => (e.seam, e.dir, e.ch)) || keys (fun e => (e.seam, e.dir, 8 + e.lane)) ||
    (List.range 4).any (fun s => (List.range 2).any (fun d => (List.range 24).any (fun k => seamDiffers img b s d k)))

/-- A lane's two tiles are not both in BLOCK_MASK (R181). -/
def seamOutside (img b : List Byte) : Bool :=
  (seamRuns b).any (fun e => !inMask img (seamTiles e.seam e.lane).1 || !inMask img (seamTiles e.seam e.lane).2)

/-! ### Optical port slot tables (R298, R299) -/

/-- An outbound entry (Table 11.6). -/
def outOf (b : List Byte) : OutEntry :=
  let v := leNat b
  { slot := fld v 0 24, forward := fld v 24 2 = 1, stream := fld v 26 3, inLport := fld v 29 5, len := fld v 34 13
    dest := fld v 47 14, tile := fld v 61 12, lq := fld v 73 2, wcode := fld v 75 4, mc := bit v 79, maskIdx := fld v 80 8
    transfer := fld v 88 24, cond := fld v 112 2, cbit := fld v 114 8 }

/-- An inbound entry (Table 11.7). -/
def inOf (b : List Byte) : InEntry :=
  let v := leNat b
  ⟨fld v 0 24, fld v 24 14, fld v 38 24, fld v 62 2, fld v 64 8⟩

/-- The byte strings of a port section's outbound and inbound entries. -/
def portOuts (b : List Byte) : List (List Byte) :=
  (List.range (lf b 8 4)).map (fun i => sl b (0x20 + 8 * lf b 0x10 2 + 16 * i) 16)
def portIns (b : List Byte) : List (List Byte) :=
  (List.range (lf b 12 4)).map (fun i => sl b (0x20 + 8 * lf b 0x10 2 + 16 * lf b 8 4 + 16 * i) 16)

/-- A port's slot table (Table 11.5). -/
def portTabOf (b : List Byte) : PortTab :=
  { slotTicks := lf b 4 4, masks := (List.range (lf b 0x10 2)).map (fun i => BitVec.ofNat 64 (lf b (0x20 + 8 * i) 8))
    outs := (portOuts b).map outOf, ins := (portIns b).map inOf }

/-- Numbers that do not fall. -/
def ascending : List Nat → Bool
  | a :: b :: r => decide (a ≤ b) && ascending (b :: r)
  | _ => true

/-- Two outbound entries share a slot without opposite conditions (R299). -/
def outShare : List OutEntry → Bool
  | [] => false
  | e :: r => r.any (fun f => e.slot = f.slot &&
      !(((e.cond = 1 && f.cond = 2) || (e.cond = 2 && f.cond = 1)) && e.cbit = f.cbit)) || outShare r

/-- An outbound entry is refused with FORMAT. -/
def outBad (orbitLen ticks masks : Nat) (b : List Byte) : Bool :=
  let e := outOf b
  1 < fld (leNat b) 24 2 || e.cond = 3 || 2 ^ 122 ≤ leNat b || 4096 < e.len || elemWidth e.wcode = 0 ||
    decide (orbitLen < (e.slot + 1) * ticks) || e.slot % 16 = 15 || decide (masks ≤ e.maskIdx) ||
    (!e.forward && e.len % elemWidth e.wcode ≠ 0)

/-- An inbound entry is refused with FORMAT. -/
def inBad (orbitLen ticks : Nat) (b : List Byte) : Bool :=
  let e := inOf b
  e.cond = 3 || 2 ^ 72 ≤ leNat b || decide (orbitLen < (e.due + 1) * ticks)

/-- An optical port slot section is refused with FORMAT. LPORT is held to an INSTANCE that Table 1.2 allows; another one is MISSING. -/
def portBad (img : List Byte) (inst : Nat) (b : List Byte) : Bool :=
  let ticks := lf b 4 4
  let masks := lf b 0x10 2
  let t := portTabOf b
  b.length < 0x20 + 8 * masks + 16 * lf b 8 4 + 16 * lf b 12 4 || (inst ≤ 31 && lf b 0 2 ≠ inst) || !allZero (sl b 2 2) ||
    !allZero (sl b 0x12 14) || 256 < masks || 1048576 < lf b 8 4 || 1048576 < lf b 12 4 || 65536 < ticks ||
    decide (100 * (ticks * period (BitVec.ofNat 3 (min 7 (lf img 0x18 1)))) < 4864 * grain) ||
    (portOuts b).any (outBad (planOrbitLen img) ticks masks) || (portIns b).any (inBad (planOrbitLen img) ticks) ||
    !ascending (t.outs.map (·.slot)) || !ascending (t.ins.map (·.due)) || outShare t.outs

/-- The port sections: instance and bytes. -/
def portSecs (img : List Byte) : List (Nat × List Byte) :=
  ((secs img).filter (fun s => s.ty = 4)).map (fun s => (s.inst, secBytes img s))

/-! ### Topology (R346, R347) -/

/-- FAR_RANK of a declared port record of a rank. -/
def topoFar (b : List Byte) (r l : Nat) : Option Nat :=
  let v := lf b (0x20 + 128 * r + 4 * l) 4
  if bit v 14 then some (fld v 0 14) else none

/-- CBIT records. -/
def topoCbits (b : List Byte) : List CbitRec :=
  (List.range (lf b 0x10 2)).map (fun c =>
    let e := sl b (0x20 + 128 * lf b 0 2 + 8 * c) 8
    ⟨lf e 0 2, lf e 2 1, lf e 4 2, lf e 6 1⟩)

/-- The declared ports: key rank * 32 + logical port, and the far rank. -/
def topoTab (b : List Byte) : Tab Nat :=
  (List.range (32 * lf b 0 2)).filterMap (fun k => (topoFar b (k / 32) (k % 32)).map (fun f => (k, f)))

def topoOf (b : List Byte) : Topo :=
  { modules := lf b 0 2, markRounds := lf b 2 1, epochMode := lf b 3 1 = 1, paceNs := lf b 4 4, driftNs := lf b 8 4
    lateIncNs := lf b 12 4, far := topoTab b, cbits := topoCbits b }

/-- Two CBIT records name one link. -/
def cbitTwice : List CbitRec → Bool
  | [] => false
  | c :: r => r.any (fun e => e = c || e = ⟨c.rankB, c.lportB, c.rankA, c.lportA⟩) || cbitTwice r

/-- The topology declaration is refused with FORMAT. -/
def topoBad (b : List Byte) : Bool :=
  let n := lf b 0 2
  let pace := lf b 4 4
  let t := topoOf b
  let facingOf (r f : Nat) : Nat := (t.far.filter (fun e => e.1 / 32 = r && e.2 = f)).length
  b.length < 0x20 + 128 * n + 8 * lf b 0x10 2 || n = 0 || 16384 < n || lf b 2 1 < 2 || 64 < lf b 2 1 || 1 < lf b 3 1 ||
    pace < 100 || 1000000 < pace || lf b 8 4 < pace || 1048575 < lf b 8 4 || lf b 12 4 < 4000 || 200000 < lf b 12 4 ||
    256 < lf b 0x10 2 || 4 < lf b 0x12 1 || !allZero (sl b 0x13 1) || !allZero (sl b 0x1A 6) ||
    (List.range (32 * n)).any (fun k => 2 ^ 15 ≤ lf b (0x20 + 4 * k) 4) ||
    t.far.any (fun e => decide (n ≤ e.2) || e.2 = e.1 / 32 || facingOf (e.1 / 32) e.2 ≠ facingOf e.2 (e.1 / 32)) ||
    (List.range (lf b 0x10 2)).any (fun c =>
      let e := sl b (0x20 + 128 * n + 8 * c) 8
      !allZero (sl e 3 1) || !allZero (sl e 7 1)) ||
    t.cbits.any (fun c => 31 < c.lportA || 31 < c.lportB || tget t.far (c.rankA * 32 + c.lportA) ≠ some c.rankB ||
      tget t.far (c.rankB * 32 + c.lportB) ≠ some c.rankA) ||
    cbitTwice t.cbits || (n = 1 && !t.far.isEmpty)

/-! ### Weight manifest reference (R216) -/

def wrefOf (b : List Byte) : WeightRef :=
  { modelId := BitVec.ofNat 64 (lf b 0 8), double := bit (lf b 8 1) 0, tiered := bit (lf b 8 1) 1, areas := lf b 9 1
    areaPages := lf b 10 2, copyPages := lf b 12 4, resident := lf b 16 4, layoutHash := hashOf (sl b 0x20 48)
    profileHash := hashOf (sl b 0x50 48) }

/-- The weight reference is refused with FORMAT. -/
def wrefBad (b : List Byte) : Bool :=
  let w := wrefOf b
  b.length < 0x80 || 4 ≤ lf b 8 1 || !allZero (sl b 0x14 12) || 64 < w.areas || 1024 < w.areaPages ||
    decide (w.copyPages < w.resident) || (!w.tiered && w.resident ≠ w.copyPages) || (w.tiered && w.double)

/-- The weight reference is refused with SIZE. -/
def wrefSize (img b : List Byte) : Bool :=
  let w := wrefOf b
  decide (16384 * planBlocks img < (1 + b2n w.double) * w.copyPages + w.areas * w.areaPages)

/-! ### Transit table (R158, R159) -/

/-- The module's transit table (Table 5.9). -/
def transitTable : List Byte :=
  toLe 2 48 ++ toLe 2 48 ++ toLe 1 1 ++ toLe 1 1 ++ List.replicate 10 0 ++ (List.range 2304).flatMap (fun k =>
    toLe 1 ((if k % 48 = 47 then 0 else hopAt (k % 48)) + 16 * (if k / 48 = 47 then 0 else hopAt (k / 48))))

/-! ### Relocation (R24) -/

/-- A relocation record. -/
structure Reloc where
  sec : Nat
  kind : Nat
  width : Nat
  bitOff : Nat
  addend : Nat
  deriving DecidableEq, Repr

def relocsOf (b : List Byte) : List Reloc := (List.range (b.length / 16)).map (fun i =>
  let e := sl b (16 * i) 16
  ⟨lf e 0 2, lf e 2 1, lf e 3 1, lf e 4 4, lf e 8 8⟩)

/-- The value a record patches in (Table 1.4), for a partition's blocks; none for a KIND or port that is not there. -/
def patchValue (mask : BitVec 16) (r : Reloc) : Option Nat :=
  let low := (blocksOf mask).headD 0
  match r.kind with
  | 1 => some r.addend
  | 2 => some (65536 * low + r.addend)
  | 3 => ((blocksOf mask)[r.addend / 2]?).map (fun n => 2 * n + r.addend % 2)
  | 4 => some (32 * low + r.addend)
  | 5 => some (2 * low + r.addend)
  | _ => none

/-- A record fails the load with RELOC. -/
def relocBad (img : List Byte) (r : Reloc) : Bool :=
  r.kind = 0 || 5 < r.kind || r.width = 0 || 64 < r.width || (match (secs img)[r.sec]? with
    | none => true
    | some s => decide (8 * s.len < r.bitOff + r.width)) || (match patchValue (planMask img) r with
    | some v => decide (2 ^ r.width ≤ v)
    | none => false)

/-- Write a field of n bits at a bit position of bytes. -/
def putField (b : List Byte) (pos n v : Nat) : List Byte :=
  let lo := pos / 8
  let k := (pos + n + 7) / 8 - lo
  let old := leNat (sl b lo k)
  let s := pos % 8
  b.take lo ++ toLe k (old - fld old s n * 2 ^ s + v * 2 ^ s) ++ b.drop (lo + k)

/-- The image with every record applied, in order. -/
def relocate (img : List Byte) : List Byte :=
  (((findSec img 9 0).map relocsOf).getD []).foldl (fun b r => match (secs img)[r.sec]?, patchValue (planMask img) r with
    | some s, some v => putField b (8 * s.off + r.bitOff) r.width v
    | _, _ => b) img

end Sys2Proof.Machine
end

