-- ==== Sys2Proof/Machine/Copies.lean ====
section
/-!
DEFINITION. The weight pages of copy slots and adapter areas (R218, R219, R232): where they lie in the partition's weight
space, the frames they take, and their release.
-/

namespace Sys2Proof.Machine

open Sys2Proof

def modW (pid : Nat) (f : Weights → Weights) : Dev → Dev := modPart pid (fun y => { y with w := f y.w })

def getCopy (x : Part) (s : Nat) : CopySlot := if s = 0 then x.w.copy0 else x.w.copy1

def setCopy (pid s : Nat) (c : CopySlot) : Dev → Dev :=
  modW pid fun w => if s = 0 then { w with copy0 := c } else { w with copy1 := c }

/-- First entry of a copy slot in the weight space (R219). -/
def copyFirst (r : WeightRef) (s : Nat) : Nat := s * r.copyPages

/-- First entry of an adapter area (R219). -/
def areaFirst (r : WeightRef) (a : Nat) : Nat := (1 + b2n r.double) * r.copyPages + a * r.areaPages

/-- Position in a partition's weight space of an entry of the weight page table. -/
def wptRel (x : Part) (i : Nat) : Nat := 16384 * (blocksOf x.mask).findIdx (· == i / 16384) + i % 16384

/-- Release the weight pages of a range of the weight space: their entries become 0. -/
def freePages (x : Part) (first n : Nat) (d : Dev) : Dev :=
  let mine (i : Nat) : Bool := x.mask.getLsbD (i / 16384) && decide (first ≤ wptRel x i) && decide (wptRel x i < first + n)
  { d with wpt := d.wpt.filter (fun e => !mine e.1), wptBad := d.wptBad.filter (fun i => !mine i) }

/-- A copy slot becomes EMPTY and its pages are released (Table 8.9). -/
def freeCopy (pid s : Nat) : Dev → Dev := withPart pid fun x d =>
  setCopy pid s {} (freePages x (getCopy x s).first (getCopy x s).pages d)

/-- The first free position for a weight page on a channel: 16 frames from a multiple of 16, below frame 61,024 (R218). -/
def weightPos (d : Dev) (c : Nat) : Option Nat :=
  let u := (usedFrames d c).map (· / 16)
  let f := firstFree u (u.length + 1) 0
  if f < 3814 then some (c * 65536 + 16 * f) else none

/-- The frames of weight page p: on the usable channels in rotation (R219). -/
def weightFrame (d : Dev) (x : Part) (p : Nat) : Option Nat :=
  let cs := usableChans d x
  let k := p % max 1 cs.length
  (cs.drop k ++ cs.take k).findSome? (weightPos d)

/-- Fill the entries of n weight pages from an entry on: the first ones with frames, the rest with the units of the store that
hold them (R219, R232). None where the frames do not suffice. -/
def fillPages (x : Part) (first resident : Nat) (unit : Nat → Option Nat) : Nat → Nat → Dev → Option Dev
  | 0, _, d => some d
  | n + 1, p, d =>
    let i := wptIndex x (first + p)
    let put (v : Nat) (d : Dev) : Dev := { d with
      wpt := tput d.wpt i (BitVec.ofNat 64 v), wptBad := d.wptBad.filter (· ≠ i) }
    if resident ≤ p then
      fillPages x first resident unit n (p + 1) (match unit p with
        | some u => put (1 + 16 + u * 256) d
        | none => put 0 d)
    else match weightFrame d x p with
      | some f => fillPages x first resident unit n (p + 1) (put (1 + f * 256) d)
      | none => none

/-- Write bytes into the weight space: only pages in GDDR7 take them. -/
def writeWeights (x : Part) (addr : Nat) (bytes : List Byte) (d : Dev) : Dev :=
  (rangeCuts (addr % 2 ^ 16) bytes.length).foldl (fun (a : List Byte × Dev) c =>
    let b := addr / 65536 * 65536 + c.1 * 65536 + c.2.1
    let e := wptE a.2 (wptIndex x (b / 2 ^ 20))
    let u := (eLocator e + b % 2 ^ 20 / 65536) * 65536 + b % 65536
    (a.1.drop c.2.2,
      if eValid e && !eLoc e then passOther (chanOf u) (countOther (chanOf u) c.2.2 { a.2 with gddr := wrBs a.2.gddr u (a.1.take c.2.2) })
      else a.2)) (bytes, d) |>.2

/-- An adapter generation's base is the base version a manifest names (R229, R231). -/
def boundTo (a : Adapter) (base : Option ManInfo) : Bool :=
  match a.man, base with
  | some m, some b => m.baseId = b.modelId && m.baseVersion = b.version
  | _, _ => false

end Sys2Proof.Machine
end

