-- ==== Sys2Proof/Machine/Serve.lean ====
section
/-!
DEFINITION. The serving engine (R259 to R279): submissions, the commands that name requests, placement and chunks, slot
tables, slot predicates, and the delivery of tokens. The serving leader writes the request records; every other module runs
the same steps without records.
-/

namespace Sys2Proof.Machine

open Sys2Proof

/-- Change one live request. -/
def modReq (pid : Nat) (id : BitVec 32) (f : Req → Req) : Dev → Dev :=
  modSrv pid fun s => { s with reqs := s.reqs.map (fun r => if r.id = id then f r else r) }

def getReq (x : Part) (id : BitVec 32) : Option Req := x.srv.reqs.find? (fun r => r.id = id)

/-- The times that a record carries (Table 10.9). -/
structure Stamp where
  mt : Nat
  orbit : Nat
  ts : Nat
  deriving DecidableEq, Repr

def stampNow (d : Dev) (x : Part) : Stamp := ⟨d.mt.mt.toNat, stampOrbit x, stampTs x⟩

/-- A request record, which only the leader writes (R281). -/
def reqRec (x : Part) (w : Stamp) (kind slot : Nat) (id : BitVec 32) (data : Nat) (d : Dev) : Dev :=
  if isLeader x then ephRecAt x.pid w.mt w.orbit w.ts kind slot id.toNat data d else d

/-- The slot of the table in force that carries a request. -/
def inForce (x : Part) (id : BitVec 32) : Option (Nat × SlotEntry) := (bankOf x).slots.find? (fun e => e.2.place.id = id)

/-- The bank that is not in force. -/
def otherBank (x : Part) : SlotBank := if x.srv.bank then x.srv.bank0 else x.srv.bank1

/-- An orbit in force or prepared carries a REQ_ID (R263). -/
def carried (x : Part) (id : BitVec 32) : Bool :=
  x.plan = .running && ((inForce x id).isSome || (x.srv.ready && (otherBank x).slots.any (fun e => e.2.place.id = id)) ||
    (match x.srv.next with
      | .made t => t.any (fun e => e.2.id = id)
      | _ => false))

/-- A request ends (R263): its REQ_ID stays taken while a table carries it, its steps still to be delivered become discards, and
a RETIRING copy slot that no other request started on is empty (Table 8.9). -/
def endReq (pid : Nat) (r : Req) (slot status reason : Nat) (w : Stamp) : Dev → Dev := withPart pid fun x d =>
  let rest := x.srv.reqs.filter (fun q => q.id ≠ r.id)
  let d := match r.copy with
    | some c => if (getCopy x c).st = .retiring && !rest.any (fun q => q.copy = some c) then freeCopy pid c d else d
    | none => d
  reqRec x w 0x08 slot r.id (status + (r.before + r.delivered) % 2 ^ 24 * 256) (modPart pid (fun y => { y with srv := { y.srv with
    reqs := rest
    gone := if carried x r.id then x.srv.gone ++ [(r.id, reason)] else x.srv.gone
    steps := x.srv.steps.map (fun s => if s.place.id = r.id && s.ended = 0 then { s with ended := reason } else s) } }) d)

/-- A request is eclipsed (R275). -/
def eclipseReq (x : Part) (r : Req) (cause : Nat) (d : Dev) : Dev :=
  reqRec x (stampNow d x) 0x06 (r.slot.getD 0xFFFF) r.id cause
    (modReq x.pid r.id (fun q => { q with st := .eclipsed, slot := none, cause := cause }) d)

/-! ### Submission -/

/-- The CPT indexes of a page list in host memory; none where it is not aligned or cannot be read. -/
def pageList (d : Dev) (addr count : Nat) : Option (List Nat) :=
  if addr % 4 ≠ 0 || !hostOk d addr (4 * count) then none
  else some ((List.range count).map (fun j => leNat (hostRd d (addr + 4 * j) 4) % 2 ^ 20))

/-- Every page lies in the partition's blocks and is VALID. -/
def pagesGood (d : Dev) (x : Part) (l : List Nat) : Bool :=
  l.all (fun p => x.mask.getLsbD (p / 65536) && eValid (cptE d p))

/-- Bytes of a context page; none where no valid page holds them or the store cannot correct them. -/
def pageRd (d : Dev) (page off n : Nat) : Option (List Byte) :=
  let e := cptE d page
  if !eValid e then none
  else if eLoc e then storeRd d (eLocator e * 65536 + off) n
  else some (rdBs d.gddr (eLocator e * 65536 + off) n)

/-- Bytes of a context page have been read: what the store's ECC corrected in them (R206). -/
def pageNote (page off n : Nat) (d : Dev) : Dev :=
  if eLoc (cptE d page) then storeNote (eLocator (cptE d page) * 65536 + off) n d else d

/-- The newest READY generation of a handle that takes admissions: bound to the active base, its handle not being deleted
(R230, R231). -/
def readyGen (x : Part) (handle : BitVec 32) : Option Adapter :=
  (x.w.adapters.filter (fun a => a.handle = handle && a.st = .ready && !a.deleting && boundTo a (activeMan x))).foldl
    (fun b a => match b with
      | some c => if c.gen.toNat < a.gen.toNat then some a else b
      | none => some a) none

/-- The pages that a request of so many tokens needs (R262). -/
def pagesNeeded (s : Selector) (tokens : Nat) : Nat :=
  s.basePages + ((tokens + 63) / 64 * 64 + 1023) / 1024 * s.pagesPer1k

/-- A descriptor's fields are outside what Table 10.1 allows, or meet a live request or a pending restart badly. -/
def descBad (x : Part) (b : List Byte) : Bool :=
  let id := BitVec.ofNat 32 (lf b 0 4)
  lf b 4 2 / 2 ^ 14 ≠ 0 || lf b 6 1 / 16 ≠ 0 || !allZero (sl b 7 1) || !allZero (sl b 44 20) || id = 0 ||
    (getReq x id).isSome || x.srv.gone.any (fun g => g.1 = id) || decide (1024 * nBlocks x ≤ lf b 4 2) ||
    lf b 12 4 = 0 || lf b 16 4 = 0 || lf b 40 4 = 0 || decide (32768 < lf b 40 4) ||
    (match x.srv.restarts.find? (fun r => r.id = id) with
      | some r => lf b 12 4 ≠ r.prompt + r.delivered || lf b 16 4 + r.delivered ≠ r.maxNew
      | none => false)

/-- The status of a descriptor by Table 10.2, in the table's order, and its pages. -/
def checkDesc (d : Dev) (x : Part) (b : List Byte) : Nat × List Nat :=
  if (x.info.map (·.tagged)).getD false then (stDenied, [])
  else match x.srv.sel with
    | none => (stNotReady, [])
    | some s =>
      if (activeMan x).isNone then (stNotReady, [])
      else if descBad x b then (stBadArg, [])
      else if s.maxContext < (lf b 12 4 + lf b 16 4 + 63) / 64 * 64 ||
          decide (lf b 40 4 < pagesNeeded s (lf b 12 4 + lf b 16 4)) then (stBadArg, [])
      else match pageList d (lf b 32 8) (lf b 40 4) with
        | none => (stBadArg, [])
        | some l =>
          if !pagesGood d x l || pageRd d (l.headD 0) 0 4 ≠ some (sl b 0 4) then (stBadArg, [])
          else if lf b 8 4 ≠ 0 && (readyGen x (BitVec.ofNat 32 (lf b 8 4))).isNone then (stNotReady, [])
          else if lf b 24 8 ≠ 0 && decide (lf b 24 8 < d.mt.mt.toNat) then (stLate, [])
          else (stOk, l)

/-- The request that an accepted descriptor makes. A pending restart binds its generation (R359). -/
def newReq (x : Part) (b : List Byte) (pages : List Nat) (gen : BitVec 32) : Req := {
  id := BitVec.ofNat 32 (lf b 0 4), customer := lf b 4 2, priority := fld (lf b 6 1) 0 3, lateCont := bit (lf b 6 1) 3
  adapter := BitVec.ofNat 32 (lf b 8 4), gen := gen, prompt := lf b 12 4, maxNew := lf b 16 4
  stop := BitVec.ofNat 32 (lf b 20 4), deadline := BitVec.ofNat 64 (lf b 24 8), pages := pages, st := .waiting, held := false
  cancel := false, fenced := false, prefilled := 0, delivered := 0, before := 0, slot := none, copy := none
  order := x.srv.order, cause := 0, voidTo := none }

/-- An accepted descriptor becomes a WAITING request, with a SUBMIT record, or RESTART for a pending restart (R263, R359). -/
def acceptDesc (x : Part) (b : List Byte) (pages : List Nat) (d : Dev) : Dev :=
  let id := BitVec.ofNat 32 (lf b 0 4)
  let again := x.srv.restarts.find? (fun r => r.id = id)
  let d := modSrv x.pid (fun s => { s with
    reqs := s.reqs ++ [newReq x b pages ((again.map (·.gen)).getD 0)], order := s.order + 1
    restarts := s.restarts.filter (fun r => r.id ≠ id) }) d
  match again with
  | some _ => reqRec x (stampNow d x) 0x09 0xFFFF id (lf b 12 4 % 2 ^ 24) d
  | none => reqRec x (stampNow d x) 0x01 0xFFFF id
      (lf b 4 2 + fld (lf b 6 1) 0 3 * 2 ^ 14 + b2n (bit (lf b 6 1) 3) * 2 ^ 17 + lf b 12 4 % 2 ^ 20 * 2 ^ 18) d

/-- Descriptors in the submission ring: 2^k with k from 1 to 16; none for another k. -/
def subRing (x : Part) : Option Nat :=
  let k := fld x.srv.subSize.toNat 0 5
  if 1 ≤ k && k ≤ 16 then some (2 ^ k) else none

/-- SUBMIT (R260, R262): while ADMIT is 1, the descriptor at SUB_HEAD is accepted or refused, and SUB_HEAD moves on. A
descriptor that cannot be read is refused as malformed. -/
def submit (pid : Nat) : Dev → Dev := withPart pid fun x d =>
  match subRing x with
  | none => d
  | some n =>
    let h := x.srv.subHead.toNat % n
    if !x.srv.admitOn || h = x.srv.subTail.toNat % n then d
    else
      let a := x.srv.subBase.toNat + 64 * h
      let (b, st, pages) : List Byte × Nat × List Nat :=
        if hostOk d a 64 then (hostRd d a 64, checkDesc d x (hostRd d a 64)) else ([], stBadArg, [])
      let d := if st = stOk then acceptDesc x b pages (pageNote (pages.headD 0) 0 4 d)
        else reqRec x (stampNow d x) 0x0B 0xFFFF (BitVec.ofNat 32 (lf b 0 4)) st d
      modSrv pid (fun s => { s with subHead := BitVec.ofNat 16 ((h + 1) % n) }) d

/-- SUBMIT (R262). -/
def execSubmit (part : Fin 16) : State → Host.Outcome State Fault Refusal := on (whenMp (submit part.val))

/-- A write of ADMIT: a write of 1 is discarded where the life cycle does not permit serving (R264, Table 16.5). -/
def setAdmit (pid : Nat) (v : Bool) (d : Dev) : Dev :=
  if v && !(1 ≤ d.otp.lc.toNat && d.otp.lc.toNat ≤ 3) then d else modSrv pid (fun s => { s with admitOn := v }) d

/-- ADMIT (R264). -/
def execAdmitWrite (part : Fin 16) (v : Bool) : State → Host.Outcome State Fault Refusal := on (whenHost (setAdmit part.val v))

/-! ### Commands that name a request -/

/-- A command on a live request; a REQ_ID that is not live is BAD_ARG. -/
def reqCommand (code m : Nat) (f : Part → Req → List Byte → Dev → Dev) : Dev → Dev :=
  partCommand code m fun x pl d =>
    match getReq x (BitVec.ofNat 32 (lf pl 0 4)) with
    | some r => f x r pl d
    | none => answer m stBadArg 0 [] d

/-- REQ_CANCEL (R263): the request ends at the next placement. -/
def execReqCancel (m : Fin 64) : State → Host.Outcome State Fault Refusal := on <| reqCommand 0x0502 m fun x r _ d =>
  answer m stOk 0 [] (modReq x.pid r.id (fun q => { q with cancel := true }) d)

/-- REQ_ECLIPSE (R275): the request is held until REQ_RESUME. -/
def execReqEclipse (m : Fin 64) : State → Host.Outcome State Fault Refusal := on <| reqCommand 0x0503 m fun x r _ d =>
  answer m stOk 0 [] (modReq x.pid r.id (fun q => { q with held := true }) d)

/-- REQ_RESUME (R275). -/
def execReqResume (m : Fin 64) : State → Host.Outcome State Fault Refusal := on <| reqCommand 0x0504 m fun x r _ d =>
  answer m stOk 0 [] (modReq x.pid r.id (fun q => { q with held := false }) d)

/-- REQ_REMAP (R276): a new page list for an ECLIPSED request. -/
def execReqRemap (m : Fin 64) : State → Host.Outcome State Fault Refusal := on <| reqCommand 0x0505 m fun x r pl d =>
  let n := lf pl 4 4
  if r.st ≠ .eclipsed then answer m stBusy 0 [] d
  else if n = 0 || 32768 < n || lf pl 8 8 % 4 ≠ 0 then answer m stBadArg 0 [] d
  else match pageList d (lf pl 8 8) n with
    | none => answer m stIntegrity 0 [] d
    | some l =>
      if pagesGood d x l then answer m stOk 0 [] (modReq x.pid r.id (fun q => { q with pages := l }) d)
      else answer m stBadArg 0 [] d

/-- Key of a partition's customer in the budget table (R278). -/
def budKey (x : Part) (c : Nat) : Nat := ((blocksOf x.mask)[c / 1024]?).getD 0 * 65536 + c % 1024

def budget (d : Dev) (x : Part) (c : Nat) : BitVec 128 := (tget d.budgets (budKey x c)).getD 0

/-- BUDGET_SET (R278): entries from FIRST on; what is written replaces a credit still waiting for its boundary. -/
def execBudgetSet (m : Fin 64) : State → Host.Outcome State Fault Refusal := on <| partCommand 0x0506 m fun x pl d =>
  let first := lf pl 0 2
  let n := lf pl 2 2
  if n = 0 || 122 < n || 1024 * nBlocks x < first + n ||
      (List.range n).any (fun i => lf pl (8 + 16 * i + 15) 1 % 128 ≠ 0) then answer m stBadArg 0 [] d
  else
    let d := forEach (List.range n) (fun i d => { d with
      budgets := tput d.budgets (budKey x (first + i)) (BitVec.ofNat 128 (lf pl (8 + 16 * i) 16)) }) d
    answer m stOk 0 [] (modSrv x.pid (fun s => { s with
      settled := s.settled.filter (fun e => e.1 < first || first + n ≤ e.1) }) d)

/-! ### The slot selector table -/

/-- A selector names a slot of the partition and a code of Table 10.7. -/
def selOk (slots : Nat) (v : Nat) : Bool :=
  let c := fld v 9 6
  decide (fld v 0 9 < slots) && !bit v 15 && (c ≤ 6 || (0x10 ≤ c && c ≤ 0x1F) || c = 0x3E || c = 0x3F)

/-- The selectors of a tile record. -/
def selsOf (rec : List Byte) : List (BitVec 16) := (List.range 64).map (fun j => BitVec.ofNat 16 (lf rec (4 + 2 * j) 2))

/-- The tile records of a selector table. -/
def selRecs (b : List Byte) : List (List Byte) := (List.range (lf b 6 2)).map (fun i => sl b (0x48 + 132 * i) 132)

/-- A selector table is not well formed for a partition's plan (R271). -/
def selectorBad (x : Part) (i : PlanInfo) (b : List Byte) : Bool :=
  let tiles := (List.range 2304).filter (fun t => i.mask.getLsbD (blockOfTile t))
  decide (b.length < 0x48) || lf b 0 4 ≠ 0x4C455353 || lf b 4 2 ≠ 1 || lf b 6 2 ≠ tiles.length ||
    b.length ≠ 0x48 + 132 * tiles.length || hashOf (sl b 8 48) ≠ i.hash || lf b 0x38 4 = 0 || decide (65536 < lf b 0x38 4) ||
    decide (lf b 0x3C 2 < 64) || decide (1024 < lf b 0x3C 2) || lf b 0x42 2 ≠ 0 || decide (1048576 < lf b 0x44 4) ||
    (selRecs b).map (fun r => lf r 0 2) ≠ tiles ||
    (selRecs b).any (fun r => lf r 2 2 ≠ 0 || (selsOf r).any (fun v => !selOk (32 * nBlocks x) v.toNat))

def selectorOf (b : List Byte) : Selector := {
  tokenCap := lf b 0x38 4, maxChunk := lf b 0x3C 2, basePages := lf b 0x3E 2, pagesPer1k := lf b 0x40 2
  maxContext := lf b 0x44 4, tiles := (selRecs b).map (fun r => (lf r 0 2, selsOf r)), hash := sha384 b }

/-- SELECTOR_LOAD (R271), while the plan is LOADED. -/
def execSelectorLoad (m : Fin 64) : State → Host.Outcome State Fault Refusal := on <| partCommand 0x0501 m fun x pl d =>
  let a := lf pl 0 8
  let n := lf pl 8 4
  match x.info with
  | none => answer m stNotReady 0 [] d
  | some i =>
    if x.plan ≠ .loaded then answer m stDenied 0 [] d
    else if 0x48 + 132 * 2304 < n then answer m stBadArg 0 [] d
    else if !hostOk d a n then answer m stIntegrity 0 [] d
    else if selectorBad x i (hostRd d a n) then answer m stBadArg 0 [] d
    else answer m stOk 0 [] (modSrv x.pid (fun s => { s with sel := some (selectorOf (hostRd d a n)) }) d)

/-- A selector's bit for its slot's entry (Table 10.7). -/
def selBit (x : Part) (v : BitVec 16) : Bool :=
  let c := fld v.toNat 9 6
  let e := (slotEntry x (fld v.toNat 0 9)).place
  if c ≤ 6 then e.cond.getLsbD c
  else if c ≤ 0x1F then decide (64 * (c - 0x10) < e.chunk)
  else c = 0x3F

/-- SLOT_STAGE_WRITE (R95, R272): at tick 128, the slot predicate bits of every tile; the bits it replaces stay for an SPLD of the
same tick. -/
def slotStageWrite (pid : Nat) : Dev → Dev := withPart pid fun x d =>
  if !active x || x.tick ≠ 128 || x.staged then d
  else
    let d := forEach (listedTiles d x) (fun no => modTile no (fun t => { t with slotOld := t.slotStage })) d
    let d := forEach ((x.srv.sel.map (·.tiles)).getD []) (fun e => modTile e.1 (fun t => { t with
      slotStage := BitVec.ofNat 64 ((e.2.reverse).foldl (fun a v => 2 * a + b2n (selBit x v)) 0) })) d
    modPart pid (fun y => { y with staged := true }) d

/-- SLOT_STAGE_WRITE (R95). -/
def execSlotStageWrite (part : Fin 16) : State → Host.Outcome State Fault Refusal := on (whenAwake (slotStageWrite part.val))

/-! ### Budgets -/

/-- A customer's credit: the settled one that waits for its boundary, or the entry's (R279). -/
def credit (d : Dev) (x : Part) (c : Nat) : Int :=
  (tget x.srv.settled c).getD ((budget d x c).extractLsb' 0 64).toInt

/-- Settle one customer for an orbit (R279). -/
def settleOne (pid c : Nat) : Dev → Dev := withPart pid fun x d =>
  let e := (budget d x c).toNat
  let old := credit d x c
  let new := min (old + fld e 64 32 - 256 * ((tget x.srv.charge c).getD 0 : Nat)) (256 * (fld e 96 24 : Nat))
  let d := modSrv pid (fun s => { s with settled := tput s.settled c new }) d
  if decide (0 < old) = decide (0 < new) then d else ephRec pid 0x23 0xFFFF 0 (c + b2n (decide (0 < new)) * 2 ^ 14) d

/-- The customers that have an entry or a charge. -/
def customers (d : Dev) (x : Part) : List Nat :=
  let own := (d.budgets.filter (fun e => x.mask.getLsbD (e.1 / 65536))).map
    (fun e => 1024 * (blocksOf x.mask).findIdx (· == e.1 / 65536) + e.1 % 65536)
  unionNat (unionNat [] own) (x.srv.charge.map (·.1))

/-- The leader settles the orbit before the present one, once (R279). -/
def settle (pid : Nat) : Dev → Dev := withPart pid fun x d =>
  if x.orbits ≤ 1 || x.srv.settledFor = some (x.orbit - 1) then d
  else modSrv pid (fun s => { s with charge := [], settledFor := some (x.orbit - 1) })
    (forEach (customers d x) (settleOne pid) d)

/-! ### Placement -/

/-- Where a request stands once a step is complete: prompt tokens prefilled, tokens yielded. -/
def stepProg (prompt : Nat) (e : PlaceEntry) : Nat × Nat :=
  if e.cond.getLsbD 1 then (prompt, e.pos - prompt + 1)
  else if e.cond.getLsbD 4 then (prompt, 1) else (e.pos + e.chunk, 0)

/-- A step of an orbit before the request's last restart counts for nothing (R227). -/
def voided (r : Req) (orbit : BitVec 32) : Bool :=
  match r.voidTo with
  | some v => !orbitBefore v orbit
  | none => false

/-- Some memory moon fences a relative slot. -/
def slotFenced (d : Dev) (x : Part) (s : Nat) : Bool := (List.range 4).any (fun q => isFenced d q (slotAbs x s))

/-- The marks held fence a step (R245). -/
def stepFenced (x : Part) (s : Step) : Bool :=
  match getMark x s.orbit with
  | some m => m.allFence || m.fence.getLsbD s.slot
  | none => false

/-- Where a request will stand when the orbit in force ends: after the step it rides in, else after its last step that is not
fenced, else after what has been delivered (R246, R273). -/
def progress (d : Dev) (x : Part) (r : Req) : Nat × Nat :=
  let riding := match inForce x r.id with
    | some (s, e) => if voided r (bankOf x).orbit || slotFenced d x s then none else some (stepProg r.prompt e.place)
    | none => none
  match riding with
  | some p => p
  | none =>
    match (x.srv.steps.filter (fun s => s.place.id = r.id && !voided r s.orbit && !stepFenced x s)).getLast? with
    | some s => stepProg r.prompt s.place
    | none => (r.prefilled, r.delivered)

/-- chunk(r, cap) of R274. -/
def chunkOf (rem maxChunk cap : Nat) : Nat :=
  let c := min rem (min maxChunk cap)
  if c < rem then c / 64 * 64 else c

/-- The step a request would take next with so much of TOKEN_CAP left; none where there is no room for it (R273, R274). -/
def nextChunk (s : Selector) (r : Req) (p : Nat × Nat) (gen : BitVec 32) (cap : Nat) : Option PlaceEntry :=
  let adp : Nat := if r.adapter = 0 then 0 else 32
  if r.prompt ≤ p.1 then
    if cap = 0 then none else some ⟨r.id, BitVec.ofNat 8 (0x43 + adp), 1, r.prompt + p.2, gen⟩
  else
    let c := chunkOf (r.prompt - p.1) s.maxChunk cap
    if c = 0 then none
    else
      let last := p.1 + c = r.prompt
      some ⟨r.id, BitVec.ofNat 8 (5 + (if p.1 = 0 then 8 else 0) + (if last then 0x50 else 0) + adp), c, p.1, gen⟩

/-- The generation a request rides with: its own, or for one not yet admitted the newest READY one (R230). -/
def genFor (x : Part) (r : Req) : Option (BitVec 32) :=
  if r.adapter = 0 then some 0 else if r.gen ≠ 0 then some r.gen else (readyGen x r.adapter).map (·.gen)

/-- Fewer than 2^K / 8 records of the ephemeris ring are free (R283). -/
def ringLow (x : Part) : Bool := decide (8 * ephFree x < ephSize x)

/-- Why the leader leaves a request out before it looks for room (Table 10.8); none where it is eligible. A request that has not
started waits while a flip is pending (R225) and while its handle has no generation. -/
def barred (d : Dev) (x : Part) (r : Req) : Option Nat :=
  if r.fenced then some (if r.cause = 4 && r.st = .running then 4 else 5)
  else if r.held || ringLow x then some 6
  else if credit d x r.customer ≤ 0 && !(budget d x r.customer).getLsbD 127 then some 2
  else if (r.copy.isNone && x.w.flip.isSome) || (genFor x r).isNone then some 3
  else none

/-- The order of eligible requests (R273), submission order apart: priority, decoding first, earliest deadline. -/
def placeKey (r : Req) (p : Nat × Nat) : Nat :=
  ((7 - r.priority) * 2 + b2n (decide (p.1 < r.prompt))) * 2 ^ 65 + (if r.deadline = 0 then 2 ^ 64 else r.deadline.toNat)

/-- Insert behind every element whose key is not greater. -/
def insertKey {α : Type} (k : Nat) (a : α) : List (Nat × α) → List (Nat × α)
  | [] => [(k, a)]
  | (j, b) :: r => if k < j then (k, a) :: (j, b) :: r else (j, b) :: insertKey k a r

/-- Place requests in order: each gets its step, or the cause that leaves it out (R273). -/
def placeAll (s : Selector) (x : Part) : Nat → Nat → List (Req × (Nat × Nat)) → List (Req × Except Nat PlaceEntry)
  | _, _, [] => []
  | 0, _, l => l.map (fun e => (e.1, .error 1))
  | slots + 1, cap, (r, p) :: l =>
    match nextChunk s r p ((genFor x r).getD 0) cap with
    | some e => (r, .ok e) :: placeAll s x slots (cap - e.chunk) l
    | none => (r, .error 3) :: placeAll s x (slots + 1) cap l

/-- Slots whose fence lasts into the next orbit (R244): fenced, and the table in force carries a request there. -/
def lastingFences (d : Dev) (x : Part) : List Nat :=
  (List.range (32 * nBlocks x)).filter (fun s => slotFenced d x s && (slotEntry x s).place.id ≠ 0)

/-- Give every placed request its slot: a running one keeps its own, the others take the lowest free ones in order. -/
def giveSlots (n : Nat) (taken : List Nat) (l : List (Req × PlaceEntry)) : Tab PlaceEntry :=
  let own := l.filterMap (fun e => if e.1.st = .running then e.1.slot.map (fun s => (s, e.2)) else none)
  let rest := l.filter (fun e => !(e.1.st = .running && e.1.slot.isSome))
  let used := taken ++ own.map (·.1)
  let free := (List.range n).filter (fun s => !used.contains s)
  (own ++ free.zip (rest.map (·.2))).foldl (fun t e => tput t e.1 e.2) []

/-- The requests, of those named, that end at a placement (R263, R273): cancelled, or waiting or eclipsed with their deadline passed
under LATE_END and not held by REQ_ECLIPSE. -/
def placeEnds (pid : Nat) (f : Req → Bool) (d : Dev) : Dev :=
  withPart pid (fun x d => forEach (x.srv.reqs.filter f) (fun r d =>
    if r.cancel then endReq pid r (r.slot.getD 0xFFFF) stAborted 1 (stampNow d x) d
    else if (r.st = .waiting || (r.st = .eclipsed && !r.held)) && r.deadline ≠ 0 && decide (r.deadline.toNat < d.mt.mt.toNat) && !r.lateCont then
      endReq pid r 0xFFFF stLate 2 (stampNow d x) d
    else d) d) d

/-- A slot entry of a PLACEMENT message (Table 12.11). -/
def placeBytes (e : PlaceEntry) : List Byte :=
  toLe 4 e.id.toNat ++ [e.cond, 0] ++ toLe 2 e.chunk ++ toLe 4 e.pos ++ toLe 4 e.gen.toNat

/-- Parts of a PLACEMENT message (R338). -/
def placeParts (x : Part) : Nat := (32 * nBlocks x + 254) / 255

/-- The leader sends a placement to the other modules of its job (R337, R338). -/
def sendPlacement (pid : Nat) (t : Tab PlaceEntry) : Dev → Dev := withPart pid fun x d =>
  if x.job.modules ≤ 1 then d
  else forEach (List.range (placeParts x)) (fun k => flood pid none
    (mgmtHeader 1 k (placeParts x) (x.orbit + 1).toNat ++
      (List.range (min 255 (32 * nBlocks x - 255 * k))).flatMap (fun j => placeBytes ((tget t (255 * k + j)).getD {})))) d

/-- Form P(n + 1) (R273): eclipse what is left out, and send the placement. -/
def formPlacement (pid : Nat) : Dev → Dev := withPart pid fun x d =>
  match x.srv.sel with
  | none => d
  | some s =>
    let elig := ((x.srv.reqs.filter (fun r => (barred d x r).isNone)).foldl (fun l r =>
      let p := progress d x r
      insertKey (placeKey r p) (r, p) l) []).map (·.2)
    let fences := lastingFences d x
    let out := placeAll s x (32 * nBlocks x - fences.length) s.tokenCap elig
    let t := giveSlots (32 * nBlocks x) fences (out.filterMap (fun e => match e.2 with
      | .ok p => some (e.1, p)
      | .error _ => none))
    let d := forEach x.srv.reqs (fun r d =>
      if r.st ≠ .running then d
      else match barred d x r, out.find? (fun e => e.1.id = r.id) with
        | some c, _ => eclipseReq x r c d
        | none, some (_, .error c) => eclipseReq x r c d
        | none, _ => d) d
    let d := modSrv pid (fun v => { v with
      next := .made t, nextFor := x.orbit + 1, reqs := v.reqs.map (fun r => { r with fenced := false }) }) d
    sendPlacement pid t d

/-- PLACEMENT (R265, R273): in the first half of orbit n, once the tokens of orbit n - 1 are delivered, the leader settles that
orbit and forms P(n + 1). -/
def placement (pid : Nat) : Dev → Dev := withPart pid fun x d =>
  if !isLeader x || x.plan ≠ .running || x.entering || x.srv.next ≠ .none_ || x.srv.nextFor = x.orbit + 1 ||
      decide ((x.info.map (·.orbitLen)).getD 0 / 2 ≤ x.tick) || !x.srv.steps.isEmpty then d
  else formPlacement pid (placeEnds pid (fun _ => true) (settle pid d))

/-- PLACEMENT (R273). -/
def execPlacement (part : Fin 16) : State → Host.Outcome State Fault Refusal := on (whenMp (placement part.val))

/-- STALE (R265): a leader that has not formed P(n + 1) by tick ORBIT_LEN / 2 sends STALE in its place. A table that was late
stays prepared (R267). -/
def stale (pid : Nat) : Dev → Dev := withPart pid fun x d =>
  let key := (2, x.orbit + 1, 0)
  if !isLeader x || x.plan ≠ .running || x.entering || x.srv.nextFor = x.orbit + 1 || x.srv.next = .stale ||
      x.fab.floods.contains key || !decide ((x.info.map (·.orbitLen)).getD 0 / 2 ≤ x.tick) then d
  else
    let d := if x.srv.next = .none_ then modSrv pid (fun s => { s with next := .stale }) d else d
    flood pid none (mgmtHeader 2 0 1 (x.orbit + 1).toNat) d

/-- STALE (R265). -/
def execStale (part : Fin 16) : State → Host.Outcome State Fault Refusal := on (whenMp (stale part.val))

/-- A slot entry of a PLACEMENT message, read. -/
def placeOf (b : List Byte) : PlaceEntry :=
  ⟨BitVec.ofNat 32 (lf b 0 4), BitVec.ofNat 8 (lf b 4 1), lf b 6 2, lf b 8 4, BitVec.ofNat 32 (lf b 12 4)⟩

/-- A placement is held whole: every part with its entries (R338). -/
def placeWhole (x : Part) : Option (Tab PlaceEntry) :=
  let n := 32 * nBlocks x
  let ok := (List.range (placeParts x)).all (fun k =>
    ((tget x.srv.parts k).map (fun b => decide (16 * min 255 (n - 255 * k) ≤ b.length))).getD false)
  if !ok then none
  else some (((List.range n).map (fun s => (s, placeOf (sl ((tget x.srv.parts (s / 255)).getD []) (16 * (s % 255)) 16)))).filter
    (fun e => e.2.id ≠ 0))

/-- What a placement does to the requests of a module that follows it (R263): those it leaves out end where they are to end at a
placement, and a running one among them is ECLIPSED. -/
def followPlacement (pid : Nat) (t : Tab PlaceEntry) (d : Dev) : Dev :=
  let out (r : Req) : Bool := !t.any (fun e => e.2.id = r.id)
  withPart pid (fun x d => forEach (x.srv.reqs.filter (fun r => out r && r.st = .running)) (fun r => eclipseReq x r 0) d)
    (placeEnds pid out d)

/-- With the last of its parts P(n + 1) is held (R338). -/
def holdPlacement (pid : Nat) : Dev → Dev := withPart pid fun x d =>
  match placeWhole x with
  | some t => if x.srv.next = .none_ then
      followPlacement pid t (modSrv pid (fun s => { s with next := .made t, nextFor := x.orbit + 1, parts := [] }) d) else d
  | none => d

/-- PLACEMENT_RECEIVE (R337, R338): the oldest part received; with the last of them P(n + 1) is held. -/
def placementReceive (pid : Nat) (d : Dev) : Dev :=
  holdPlacement pid (takeInbox pid (fun p => pType p = 5 && lf p.payload 0 1 = 1) mgmtAct d)

/-- PLACEMENT_RECEIVE (R338). -/
def execPlacementReceive (part : Fin 16) : State → Host.Outcome State Fault Refusal := on (whenMp (placementReceive part.val))

/-! ### Slot tables -/

/-- The page whose pin fails, with its cause (R241). -/
def pinFails (d : Dev) (pages : List Nat) : Option (Nat × Nat) :=
  pages.findSome? (fun p =>
    let e := cptE d p
    if !eValid e then some (p, 1) else if ePoison e then some (p, 3) else if eIncomplete e then some (p, 4)
    else if eLock e then some (p, 9) else none)

/-- Pin pages (R240). -/
def pinPages (pages : List Nat) : Dev → Dev := forEach pages (fun p d => setCpt p (setBit (cptE d p) 1 true) d)

/-- The adapter area that holds a request's generation (R266); 0xFF for a request without one. -/
def areaFor (x : Part) (r : Req) (gen : BitVec 32) : Option Nat :=
  if r.adapter = 0 then some 0xFF
  else (x.w.adapters.find? (fun a => a.handle = r.adapter && a.gen = gen && a.st ≠ .freed)).map (·.area)

/-- The copy slot that is ACTIVE. -/
def activeSlot (x : Part) : Nat := if x.w.copy0.st = .active then 0 else 1

/-- A request takes its slot in the table being built: PLACE and BIND for one that waited, RESUME for one that was eclipsed
(Table 10.3). -/
def rideSlot (x : Part) (r : Req) (s : Nat) (e : PlaceEntry) (cause : Nat) (d : Dev) : Dev :=
  let w := stampNow d x
  let d := match r.st with
    | .waiting =>
      let d := reqRec x w 0x02 s r.id e.gen.toNat d
      if r.adapter = 0 then d else reqRec x w 0x03 s r.id r.adapter.toNat d
    | .eclipsed => reqRec x w 0x07 s r.id (e.pos % 2 ^ 24) d
    | .running => d
  modReq x.pid r.id (fun q => { q with
    st := .running, slot := some s, gen := e.gen, copy := some (q.copy.getD (activeSlot x)), cause := cause }) d

/-- One slot of the table being built, with its page list behind those before it (R270); one whose list the area has no room for stays
out (log 165): in a single-module job a fenced request and one whose pin fails are left out (R241,
R244); in a larger job the slot stays and is fenced (R268). The bank so far, and the slots to fence. -/
def buildSlot (x : Part) (s : Nat) (e : PlaceEntry) (a : SlotBank × List Nat × Dev) : SlotBank × List Nat × Dev :=
  let (t, f, d) := a
  let multi := decide (1 < x.job.modules)
  match getReq x e.id with
  | none => if multi then ({ t with slots := tput t.slots s { place := e } }, f ++ [s], d) else a
  | some r =>
    let area := areaFor x r e.gen
    let entry : SlotBank := { t with
      slots := tput t.slots s ⟨e, area.getD 0xFF, r.pages.length, t.lists.length⟩, lists := t.lists ++ r.pages }
    if 65536 * nBlocks x < entry.lists.length then
      if multi then ({ t with slots := tput t.slots s { place := e } }, f ++ [s], rideSlot x r s e 4 d)
      else (t, f, if r.st = .running then eclipseReq x r 3 d else d)
    else if !multi && r.fenced then
      (t, f, modReq x.pid r.id (fun q => { q with fenced := false }) (if r.st = .running then eclipseReq x r 5 d else d))
    else match pinFails d r.pages with
      | some (p, c) =>
        let d := ephRec x.pid 0x16 s e.id.toNat (p + c * 2 ^ 20) d
        if multi then (entry, f ++ [s], rideSlot x r s e 4 d)
        else (t, f, if r.st = .running then eclipseReq x r 4 d else d)
      | none => (entry, if area.isNone then f ++ [s] else f, rideSlot x r s e 0 (pinPages r.pages d))

/-- SLOT_TABLE_BUILD (R240, R266, R270): the table of orbit n + 1 is written into the bank not in force and marked ready. -/
def slotTableBuild (pid : Nat) : Dev → Dev := withPart pid fun x d =>
  match x.srv.next with
  | .made t =>
    if x.plan ≠ .running || x.srv.ready then d
    else
      let (b, fences, d) := t.foldl (fun a e => buildSlot x e.1 e.2 a) ({ orbit := x.srv.nextFor }, [], d)
      modSrv pid (fun s => { s with
        bank0 := if s.bank then b else s.bank0, bank1 := if s.bank then s.bank1 else b, ready := true
        fenceNext := fences }) d
  | _ => d

/-- SLOT_TABLE_BUILD (R266). -/
def execSlotTableBuild (part : Fin 16) : State → Host.Outcome State Fault Refusal := on (whenMp (slotTableBuild part.val))

/-! ### Delivery -/

/-- The token at a position of a request's token array (R261); a position that no readable page holds gives a free value. -/
def tokenAt (d : Dev) (pages : List Nat) (pos : Nat) : Nat × Dev :=
  let off := 64 + 4 * pos
  match (pages[off / 65536]?).bind (fun p => pageRd d p (off % 65536) 4) with
  | some b => (leNat b % 2 ^ 20, pageNote ((pages[off / 65536]?).getD 0) (off % 65536) 4 d)
  | none =>
    let (v, d) := draw 20 d
    (v.toNat, d)

def charge (pid c n : Nat) : Dev → Dev :=
  modSrv pid (fun s => { s with charge := tput s.charge c ((tget s.charge c).getD 0 + n) })

/-- The position of the token that a step yields. -/
def stepPos (e : PlaceEntry) : Nat := if e.cond.getLsbD 1 then e.pos else e.pos + e.chunk

/-- The leader's TOKEN record finds the ring full, or behind a digest that is held back: its token is not delivered (R277, R283). -/
def tokenLost (x : Part) (d : Dev) : Bool :=
  isLeader x && ((getPart (ephGap x.pid d) x.pid).map (fun y => ephEn y && (y.eph.gap ≠ 0 || !ephOpen y))).getD false

/-- A token that cannot be delivered: its record is counted as lost, and its request takes its step again from its last complete token:
the steps under way count for nothing, and it is left out of the next placement (R246; log 166). -/
def loseToken (x : Part) (s : Step) (r : Req) (w : Stamp) (d : Dev) : Dev :=
  reqRec x w 0x05 s.slot r.id (stepPos s.place % 2 ^ 24)
    (modReq x.pid r.id (fun q => { q with voidTo := some x.orbit, fenced := true }) d)

/-- The token of a step is delivered, and ends its request where it is the last or, under LATE_END, LATE (R263, R277). -/
def deliverToken (x : Part) (s : Step) (r : Req) (late : Bool) (w : Stamp) (d : Dev) : Dev :=
  let pos := stepPos s.place
  let (tok, d) := tokenAt d r.pages pos
  let r := { r with prefilled := r.prompt, delivered := r.delivered + 1 }
  let stop := r.stop.toNat = tok
  let full := decide (r.maxNew ≤ r.delivered)
  let d := charge x.pid r.customer 1 (modReq x.pid r.id (fun q => { q with
    prefilled := r.prefilled, delivered := r.delivered }) d)
  let d := reqRec x w 0x05 s.slot r.id
    (pos % 2 ^ 24 + tok * 2 ^ 24 + b2n late * 2 ^ 44 + b2n stop * 2 ^ 45 + b2n full * 2 ^ 46) d
  if stop || full then endReq x.pid r s.slot stOk 1 w d
  else if late && !r.lateCont then endReq x.pid r s.slot stLate 2 w d
  else d

/-- A step whose marks fence nothing (R263, R277, R279): its chunk and its token are recorded and charged; the step of an ended
request is discarded, and one from before a restart counts for nothing. -/
def deliverStep (x : Part) (s : Step) (d : Dev) : Dev :=
  let w : Stamp := ⟨s.endMt.toNat, s.orbit.toNat, s.ts.toNat⟩
  let emit := s.place.cond.getLsbD 6
  if s.ended ≠ 0 then
    if emit then reqRec x w 0x0A s.slot s.place.id (stepPos s.place % 2 ^ 24 + s.ended * 2 ^ 24) d else d
  else match (getPart d x.pid).bind (getReq · s.place.id) with
    | none => d
    | some r =>
      if voided r s.orbit then d
      else
        let late := r.deadline ≠ 0 && decide (r.deadline.toNat < s.endMt.toNat)
        let deliver (d : Dev) : Dev := if tokenLost x d then loseToken x s r w d else deliverToken x s r late w d
        if s.place.cond.getLsbD 2 then
          let d := reqRec x w 0x04 s.slot r.id (s.place.pos % 2 ^ 24 + (s.place.chunk - 1) % 2 ^ 11 * 2 ^ 24 +
            b2n (s.place.cond.getLsbD 4) * 2 ^ 35) d
          let d := charge x.pid r.customer s.place.chunk (modReq x.pid r.id (fun q => { q with
            prefilled := s.place.pos + s.place.chunk }) d)
          if late && !r.lateCont then endReq x.pid r s.slot stLate 2 w d
          else if emit then deliver d else d
        else deliver d

/-- The request entry of a checkpoint (R356). -/
def ckptReq (r : Req) : List Byte :=
  let st : Nat := if r.held then 3 else match r.st with
    | .waiting => 0
    | .running => 1
    | .eclipsed => 2
  padTo 64 (toLe 4 r.id.toNat ++ toLe 2 r.customer ++ toLe 1 (r.priority + 8 * b2n r.lateCont) ++ toLe 1 st ++
    toLe 4 r.adapter.toNat ++ toLe 4 r.gen.toNat ++ toLe 4 (r.prompt - r.before) ++ toLe 4 (r.maxNew + r.before) ++
    toLe 4 r.stop.toNat ++ toLe 8 r.deadline.toNat ++ toLe 4 (r.before + r.delivered))

/-- Header, with COMMIT 0, and body of a checkpoint (R356, Table 13.8). -/
def ckptImage (d : Dev) (x : Part) (c : Ckpt) (mt : BitVec 64) : List Byte :=
  let reqs := if isLeader x then x.srv.reqs else []
  let adps := adpIn x (fun s => s = .ready || s = .superseded)
  let buds := if isLeader x then List.range (1024 * nBlocks x) else []
  let body := reqs.flatMap ckptReq ++ adps.flatMap adpEntry ++ buds.flatMap (fun k => toLe 16 (budget d x k).toNat)
  toLe 4 0x54504B43 ++ toLe 2 1 ++ toLe 2 x.job.rank ++ toLe 2 x.job.tag.toNat ++ toLe 2 x.job.epoch.toNat ++
    toLe 4 c.orbit.toNat ++ toLe 8 c.seq.toNat ++ toLe 8 mt.toNat ++ toLe 4 reqs.length ++ toLe 4 adps.length ++
    toLe 4 buds.length ++ toLe 4 0 ++ hashBytes ((x.info.map (·.hash)).getD 0) ++
    hashBytes (((activeMan x).map (·.hash)).getD 0) ++ hashBytes x.eph.prevHash ++ hashBytes (sha384 body) ++ toLe 16 0 ++ body

/-- CHECKPOINT_CAPTURE (R357): once the marks of orbit k are complete and its tokens delivered, the state is captured
and its writing begins, COMMIT 0 (R358); a leader with more than 65,536 requests fails the checkpoint (R356). -/
def ckptCapture (pid : Nat) : Dev → Dev := withPart pid fun x d =>
  match x.job.ckpt with
  | none => d
  | some c =>
    match getMark x c.orbit with
    | none => d
    | some m =>
      if c.image.isSome || !m.complete || x.srv.steps.any (fun s => !orbitBefore c.orbit s.orbit) then d
      else
        let img := ckptImage d x c m.completeMt
        let full := isLeader x && decide (65536 < x.srv.reqs.length)
        let d := if full || decide (c.size < img.length) || !hostOk d c.addr img.length then d else hostWr c.addr img d
        modPart pid (fun y => { y with job := { y.job with ckpt := some { c with
          image := some img, fail := if full then some (BitVec.ofNat 8 stNotReady) else none } } }) d

/-- ORBIT_MARK (R327, R357). -/
def execOrbitMark (part : Fin 16) : State → Host.Outcome State Fault Refusal :=
  on (whenAwake (fun d => whenMp (ckptCapture part.val) (orbitMark part.val d)))

/-- TOKEN_DELIVERY (R245, R277): the steps of the oldest orbit that waits, once the module holds that orbit's complete marks. A
fenced step delivers nothing. -/
def tokenDelivery (pid : Nat) : Dev → Dev := withPart pid fun x d =>
  match x.srv.steps with
  | [] => d
  | s :: _ =>
    match getMark x s.orbit with
    | none => d
    | some m =>
      if !m.complete then d
      else
        let now := x.srv.steps.filter (fun t => t.orbit = s.orbit)
        forEach now (fun t d =>
          let t' := (((getPart d pid).map (·.srv.steps)).getD []).find? (fun u => u.orbit = t.orbit && u.slot = t.slot)
          let d := if m.allFence || m.fence.getLsbD t.slot then d else deliverStep x (t'.getD t) d
          modSrv pid (fun v => { v with steps := v.steps.filter (fun u => !(u.orbit = t.orbit && u.slot = t.slot)) }) d) d

/-- TOKEN_DELIVERY (R277). -/
def execTokenDelivery (part : Fin 16) : State → Host.Outcome State Fault Refusal :=
  on (whenMp (fun d => ckptCapture part.val (tokenDelivery part.val d)))

/-- GAP (R283). -/
def execGap (part : Fin 16) : State → Host.Outcome State Fault Refusal := on (whenMp (ephGap part.val))

end Sys2Proof.Machine
end

