-- ==== Sys2Proof/Machine/Weights.lean ====
section
/-!
DEFINITION. Loading and replacing weights (R213 to R232): WEIGHT_LOAD and ADAPTER_LOAD with their manifests and shards, flips,
releases, and the states of copy slots and adapter generations.
-/

namespace Sys2Proof.Machine

open Sys2Proof

/-! ### Records and replies -/

/-- A WEIGHT record (Table 10.10). -/
def weightRec (pid event shard : Nat) (host : Bool) (status : Nat) : Dev → Dev :=
  ephRec pid 0x20 0xFFFF 0 (event + shard % 2 ^ 20 * 16 + b2n host * 2 ^ 24 + status * 2 ^ 25)

/-- An ADAPTER record (Table 10.10). -/
def adapterRec (pid event : Nat) (a : Adapter) : Dev → Dev :=
  ephRec pid 0x21 0xFFFF a.handle.toNat (event + a.gen.toNat * 16)

def isHost (s : Source) : Bool :=
  match s with
  | .host _ => true
  | _ => false

/-- The reply payload of a load: SHARD, and AREA for an adapter (Table 15.10). -/
def loadReply (t : LoadTarget) (shard : Nat) : List Byte :=
  match t with
  | .copy _ => toLe 4 shard
  | .adapter _ area => toLe 4 shard ++ toLe 1 area

def noShard : Nat := 0xFFFFFFFF

def getLoad (x : Part) (m : Nat) : Option Load := x.w.loads.find? (fun l => l.mbx = m)

def setLoad (pid : Nat) (l : Load) : Dev → Dev :=
  modW pid fun w => { w with loads := w.loads.map (fun k => if k.mbx = l.mbx then l else k) }

def dropLoad (pid m : Nat) : Dev → Dev := modW pid fun w => { w with loads := w.loads.filter (fun k => k.mbx ≠ m) }

/-! ### Adapter generations -/

def modAdapter (pid : Nat) (handle gen : BitVec 32) (f : Adapter → Adapter) : Dev → Dev :=
  modW pid fun w => { w with adapters := w.adapters.map (fun a => if a.handle = handle && a.gen = gen then f a else a) }

/-- Live requests that hold a generation (R230). -/
def genCount (x : Part) (a : Adapter) : Nat :=
  (x.srv.reqs.filter (fun r => r.adapter = a.handle && r.gen = a.gen)).length

/-- A generation is FREED: its area and pages are released (R230). -/
def freeAdapter (pid : Nat) (a : Adapter) : Dev → Dev := withPart pid fun x d =>
  let d := setPart pid { x with
    w := { x.w with adapters := x.w.adapters.filter (fun b => !(b.handle = a.handle && b.gen = a.gen)) }
    eph := if x.eph.held.isSome && (a.st = .ready || a.st = .superseded) then { x.eph with
      adapters := insertAdp x.eph.adapters (a.handle, a.gen, (a.man.map (·.hash)).getD 0) } else x.eph } d
  adapterRec pid 4 { a with st := .freed } (freePages x a.first a.pages d)

/-- A VERIFIED generation becomes READY and the READY one of its handle SUPERSEDED (R230). -/
def readyAdapter (pid : Nat) (a : Adapter) : Dev → Dev := withPart pid fun x d =>
  let old := x.w.adapters.filter (fun b => b.handle = a.handle && b.st = .ready)
  let d := modAdapter pid a.handle a.gen (fun b => { b with st := .ready }) (adapterRec pid 2 a d)
  forEach old (fun b d => adapterRec pid 3 b (modAdapter pid b.handle b.gen (fun c => { c with st := .superseded }) d)) d

/-- A generation that a boundary frees: SUPERSEDED, or of a handle being deleted, with no request on it (R230, R231). -/
def freeable (x : Part) (a : Adapter) : Bool :=
  (a.st = .superseded || (a.deleting && (a.st = .ready || a.st = .verified))) && genCount x a = 0

/-- A boundary changes the state of some generation. -/
def adaptersDue (x : Part) : Bool := x.w.adapters.any (fun a => a.st = .verified || freeable x a)

/-- The changes of adapter generations at a boundary, or at once where the partition does not run (R230, R231). -/
def stepAdapters (pid : Nat) (d : Dev) : Dev :=
  let d := withPart pid (fun x d => forEach (x.w.adapters.filter (fun a => a.st = .verified && !a.deleting)) (readyAdapter pid) d) d
  withPart pid (fun x d => forEach (x.w.adapters.filter (freeable x)) (freeAdapter pid) d) d

/-- As `stepAdapters`, while the partition does not run. -/
def stepAdaptersNow (pid : Nat) : Dev → Dev := withPart pid fun x d => if x.plan = .running then d else stepAdapters pid d

/-! ### Ending a load -/

/-- The adapter generation that a load fills. -/
def loadAdapter (x : Part) (l : Load) : Option Adapter :=
  match l.target with
  | .adapter h _ => x.w.adapters.find? (fun a => a.handle = h && a.st = .loading)
  | .copy _ => none

/-- A load fails (R222, R223): its slot becomes EMPTY or its generation is FREED, its pages are released, and the command is
answered. -/
def failLoad (pid : Nat) (l : Load) (st shard : Nat) (host : Bool) : Dev → Dev := withPart pid fun x d =>
  let d := dropLoad pid l.mbx d
  let d := match l.target with
    | .copy s => freeCopy pid s d
    | .adapter _ _ => match loadAdapter x l with
      | some a => freeAdapter pid a d
      | none => d
  let d := weightRec pid 3 (if shard = noShard then 0 else shard) host st d
  answer l.mbx st 0 (loadReply l.target shard) d

/-- Every shard of a load is verified (Table 8.9, R230). -/
def loadDone (pid : Nat) (l : Load) : Dev → Dev := withPart pid fun x d =>
  let d := dropLoad pid l.mbx d
  let d := match l.target with
    | .copy s => setCopy pid s { getCopy x s with st := .verified } d
    | .adapter _ _ => match loadAdapter x l with
      | some a => modW pid (fun w => { w with maxGen := tput w.maxGen a.handle.toNat a.gen })
          (modAdapter pid a.handle a.gen (fun b => { b with st := .verified }) d)
      | none => d
  let d := weightRec pid 2 0 (isHost l.pri) stOk d
  answer l.mbx stOk 0 (loadReply l.target noShard) (stepAdaptersNow pid d)

/-! ### Sources and shards -/

/-- Bytes of a source (R223): a committed image of the store, or host memory; none where they cannot be read. A store that
the crater map marks unusable counts as none (R432). -/
def readSource (d : Dev) (s : Source) (off n : Nat) : Option (List Byte) :=
  match s with
  | .none_ => none
  | .store k => match getImg d k with
    | some i => if i.committed && storeReady d && !d.crater.force.store then imgRd d i off n else none
    | none => none
  | .host a => if cacheOk d (a + off) n then some (hostRd d (a + off) n) else none

/-- A range of a source has been read: what the store's ECC corrected in it (R206). -/
def sourceNote (s : Source) (off n : Nat) (d : Dev) : Dev :=
  match s with
  | .store k => match getImg d k with
    | some i => imgNote i off n d
    | none => d
  | _ => d

/-- A rank lies in the range of a manifest. -/
def ranked (m : ManInfo) (rank : Nat) : Bool := decide (m.rankLo ≤ rank) && decide (rank ≤ m.rankHi)

/-- A source counts as none for a rank: a STORE source whose image does not hold it (R223). -/
def rankless (s : Source) (m : ManInfo) (rank : Nat) : Bool :=
  match s with
  | .store _ => !ranked m rank
  | _ => false

/-- Shards in flight. -/
def inFlight (l : Load) : Nat := (l.shards.filter (fun s => s.fetchAt.isSome)).length

/-- Request fetches from the primary source in manifest order, as far as there is room. -/
def startShards (now room : Nat) : List Shard → List Shard
  | [] => []
  | s :: l =>
    if room ≠ 0 && !s.done && s.fetchAt.isNone && !s.fromAlt then
      { s with fetchAt := some now } :: startShards now (room - 1) l
    else s :: startShards now room l

def putShard (l : Load) (s : Shard) : Load :=
  { l with shards := l.shards.map (fun t => if t.idx = s.idx then s else t) }

/-- A shard that failed at the primary source is fetched from the alternate, with its NOTE and its record (R223). -/
def refetch (pid : Nat) (l : Load) (s : Shard) (d : Dev) : Load × Dev :=
  (putShard l { s with fetchAt := some d.clk.wall },
    weightRec pid 4 s.idx (isHost l.alt) stOk (raise 0 (0x710 + pid) 0x0402 pid s.idx d))

/-- Go on with a load: its end, or more fetches with at most 8 in flight. Shards for the alternate source wait for its
manifest. -/
def goOn (pid : Nat) (l : Load) (d : Dev) : Dev :=
  if l.shards.all (·.done) then loadDone pid l d
  else
    let again := l.shards.filter (fun s => l.altChecked && s.fromAlt && !s.done && s.fetchAt.isNone)
    let (l, d) := again.foldl (fun a s => if inFlight a.1 < 8 then refetch pid a.1 s a.2 else a) (l, d)
    setLoad pid { l with shards := startShards d.clk.wall (8 - inFlight l) l.shards } d

/-- A shard fails at the primary source (Table 8.8): it is fetched from the alternate, whose manifest is read first. -/
def shardFails (pid : Nat) (l : Load) (s : Shard) (d : Dev) : Dev :=
  if s.fromAlt then failLoad pid l stIntegrity s.idx (isHost l.alt) d
  else if l.alt = .none_ then failLoad pid l stIntegrity s.idx (isHost l.pri) d
  else
    let l := putShard l { s with fromAlt := true, fetchAt := none }
    goOn pid (if l.altChecked then l else { l with manAt := some (l.manAt.getD d.clk.wall) }) d

/-- Weight-space address of a load's target. -/
def targetAddr (x : Part) (l : Load) : Nat :=
  2 ^ 20 * (match l.target with
    | .copy s => (getCopy x s).first
    | .adapter _ _ => ((loadAdapter x l).map (·.first)).getD 0)

/-- A load in flight of a mailbox of a partition, with one of its shards. -/
def withShard (pid m idx : Nat) (f : Part → Load → Shard → Dev → Dev) : Dev → Dev := withPart pid fun x d =>
  match getLoad x m with
  | none => d
  | some l => match l.shards.find? (fun s => s.idx = idx && s.fetchAt.isSome) with
    | none => d
    | some s => f x l s d

/-- Where the bytes of a shard lie in a source of the store, part by part. -/
def shardRuns (d : Dev) (src : Source) (s : Shard) : List TierRun :=
  match src with
  | .store k =>
    match (getImg d k).bind (fun i => imgParts i (s.len / 2 ^ 26 + 2) s.imgOff s.len) with
    | some ps => (ps.foldl (fun (a : List TierRun × Nat) p => (a.1 ++ [⟨a.2, p.2, p.1⟩], a.2 + p.2)) ([], s.off)).1
    | none => []
  | _ => []

/-- The entries of the tiered pages that begin in a run name its store units (R232, R235). -/
def tierEntries (x : Part) (first resident : Nat) (r : TierRun) (d : Dev) : Dev :=
  let p0 := (r.off + 2 ^ 20 - 1) / 2 ^ 20
  forEach ((List.range ((r.off + r.len + 2 ^ 20 - 1) / 2 ^ 20 - p0)).map (p0 + ·)) (fun p d =>
    if p < resident then d
    else { d with wpt := tput d.wpt (wptIndex x (first + p)) (BitVec.ofNat 64 (17 + (r.addr + (p * 2 ^ 20 - r.off)) / 65536 * 256)) }) d

/-- A shard of a TIERED plan's copy is verified: its bytes in the store tier are read where its source holds them (R232, R234). -/
def tierShard (pid : Nat) (l : Load) (s : Shard) (src : Source) : Dev → Dev := withPart pid fun x d =>
  match l.target, x.info with
  | .copy k, some i =>
    if !i.wref.tiered then d
    else
      let rs := shardRuns d src s
      forEach rs (tierEntries x (getCopy x k).first i.wref.resident)
        (setCopy pid k { getCopy x k with tier := (getCopy x k).tier ++ rs } d)
  | _, _ => d

/-- SHARD_FETCH_DONE (R223): the last byte of a shard has arrived. Its bytes are in place, and its hash decides. -/
def shardFetchDone (pid m idx : Nat) : Dev → Dev := withShard pid m idx fun x l s d =>
  let src := if s.fromAlt then l.alt else l.pri
  let none_ := (l.man.map (rankless src · l.rank)).getD true
  match if none_ then none else readSource d src s.imgOff s.len with
  | none => shardFails pid l s d
  | some b =>
    let d := sourceNote src s.imgOff s.len (writeWeights x (targetAddr x l + s.off) b d)
    if sha384 b = s.hash then goOn pid (putShard l { s with done := true, fetchAt := none }) (tierShard pid l s src d)
    else shardFails pid l s d

/-- SHARD_FETCH_DONE (R223). -/
def execShardFetchDone (part : Fin 16) (m : Fin 64) (shard : Nat) : State → Host.Outcome State Fault Refusal :=
  on (whenMp (shardFetchDone part.val m.val shard))

/-- SHARD_TIMEOUT (R223, Table 8.8): the last byte has not come within 10 s. -/
def execShardTimeout (part : Fin 16) (m : Fin 64) (shard : Nat) : State → Host.Outcome State Fault Refusal :=
  on <| whenMp <| withShard part.val m.val shard fun _ l s d =>
    whenDue (s.fetchAt.getD 0 + msG 10000)
      (failLoad part.val l stTimeout s.idx (isHost (if s.fromAlt then l.alt else l.pri))) d

/-! ### Manifests -/

/-- Bytes of the copy at an offset that a load's image holds: their offset in the image. -/
def shardAt (l : List Shard) (off : Nat) : Option Nat :=
  (l.find? (fun s => decide (s.off ≤ off) && decide (off < s.off + s.len))).map (fun s => s.imgOff + (off - s.off))

/-- The store unit that holds a tiered page of a copy (R232). -/
def tierUnit (d : Dev) (src : Source) (l : List Shard) (p : Nat) : Option Nat :=
  match src with
  | .store k => (getImg d k).bind (fun i => (shardAt l (p * 2 ^ 20)).bind (imgUnit i))
  | _ => none

/-- The checks that a load makes once it holds its manifest, other than for frames (R222, R229, R232): a status where one
fails. -/
def manifestRefusal (x : Part) (r : WeightRef) (l : Load) (m : ManInfo) : Option Nat :=
  match l.target with
  | .copy _ =>
    if m.kind ≠ 0 || decide (r.copyPages * 2 ^ 20 < m.copyBytes) then some stBadArg else none
  | .adapter h _ =>
    let bases := [activeMan x, x.w.flip.bind (fun f => (getCopy x f.slot).man)]
    if m.kind ≠ 1 || decide (r.areaPages * 2 ^ 20 < m.copyBytes) then some stBadArg
    else if !bases.any (fun b => (b.map (fun b => m.baseId = b.modelId && m.baseVersion = b.version)).getD false) then
      some stDenied
    else if ((tget x.w.maxGen h.toNat).map (fun g => decide (m.version.toNat ≤ g.toNat))).getD false then some stBadArg
    else none

/-- A load holds its manifest (R222, R223): it is checked, the entries of its pages are filled, and the fetches of the rank's
shards begin. -/
def takeManifest (pid : Nat) (l : Load) (man : ManInfo) (es : List (Nat × Shard)) : Dev → Dev := withPart pid fun x d =>
  match x.info with
  | none => failLoad pid l stNotReady noShard (isHost l.pri) d
  | some i =>
    let r := i.wref
    match manifestRefusal x r l man with
    | some st => failLoad pid l st noShard (isHost l.pri) d
    | none =>
      let shards := (es.filter (fun e => e.1 = l.rank)).map (·.2)
      let l := { l with man := some man, manAt := none, altChecked := l.useAlt, shards := shards }
      let unit := tierUnit d (if l.useAlt then l.alt else l.pri) shards
      match l.target with
      | .copy s =>
        match fillPages x (copyFirst r s) r.resident unit r.copyPages 0 d with
        | none => failLoad pid l stNotReady noShard (isHost l.pri) d
        | some d =>
          goOn pid l (setLoad pid l (weightRec pid 1 0 (isHost l.pri) stOk
            (setCopy pid s { st := .loading, man := some man, first := copyFirst r s, pages := r.copyPages } d)))
      | .adapter h area =>
        match fillPages x (areaFirst r area) r.areaPages (fun _ => none) r.areaPages 0 d with
        | none => failLoad pid l stNotReady noShard (isHost l.pri) d
        | some d =>
          let a : Adapter := ⟨h, man.version, .loading, area, some man, false, areaFirst r area, r.areaPages⟩
          goOn pid l (setLoad pid l (adapterRec pid 1 a (modW pid (fun w => { w with adapters := w.adapters ++ [a] }) d)))

/-- A manifest read ends with a status (R223). -/
def manifestFails (pid : Nat) (l : Load) (st : Nat) (d : Dev) : Dev :=
  match l.man with
  | some _ =>
    let l := { l with alt := .none_, manAt := none }
    match l.shards.find? (fun s => s.fromAlt && !s.done) with
    | some s => failLoad pid l stIntegrity s.idx (isHost l.pri) d
    | none => setLoad pid l d
  | none =>
    let first := (l.priStatus.map (·.toNat)).getD st
    if l.useAlt || l.alt = .none_ then failLoad pid l first noShard (isHost l.pri) d
    else setLoad pid { l with useAlt := true, priStatus := some (BitVec.ofNat 8 st), manAt := some d.clk.wall } d

/-- A manifest read of a mailbox's load is in progress. -/
def withManifest (pid m : Nat) (f : Load → Nat → Dev → Dev) : Dev → Dev := withPart pid fun x d =>
  match getLoad x m with
  | none => d
  | some l => match l.manAt with
    | none => d
    | some t => f l t d

/-- The status that a load ends with where its only source does not hold its rank: a TIERED plan's copy must come from an image that
does (R232). -/
def ranklessStatus (x : Part) : Nat := if (x.info.map (·.wref.tiered)).getD false then stBadArg else stIntegrity

/-- The primary source counts as none (R223): the alternate takes its place. -/
def withoutPrimary (pid : Nat) (l : Load) (st : Nat) (d : Dev) : Dev :=
  if l.alt = .none_ then manifestFails pid l st d
  else setLoad pid { l with pri := l.alt, alt := .none_, priStatus := some (BitVec.ofNat 8 st), manAt := some d.clk.wall } d

/-- MANIFEST_READ_DONE (R215, R223): the manifest of the source being read is checked. -/
def manifestReadDone (pid m : Nat) : Dev → Dev := withManifest pid m fun l _ => withPart pid fun x d =>
  let src := if l.man.isSome || l.useAlt then l.alt else l.pri
  let e := sourceNote src 0 (manLen (readSource d src)) d
  match readManifest d (readSource d src) with
  | .error st => manifestFails pid l st e
  | .ok (man, es) =>
    let none_ := rankless src man l.rank
    match l.man with
    | some mine =>
      if man.hash = mine.hash && !none_ then goOn pid { l with altChecked := true, manAt := none } e
      else manifestFails pid l stIntegrity e
    | none =>
      if !none_ then takeManifest pid l man es e
      else if l.useAlt then manifestFails pid l (ranklessStatus x) e
      else withoutPrimary pid l (ranklessStatus x) e

/-- MANIFEST_READ_DONE (R223). -/
def execManifestReadDone (part : Fin 16) (m : Fin 64) : State → Host.Outcome State Fault Refusal :=
  on (whenMp (manifestReadDone part.val m.val))

/-- MANIFEST_READ_TIMEOUT (R223): the read has not ended within 10 s. -/
def execManifestReadTimeout (part : Fin 16) (m : Fin 64) : State → Host.Outcome State Fault Refusal :=
  on <| whenMp <| withManifest part.val m.val fun l t d => whenDue (t + msG 10000) (manifestFails part.val l stTimeout) d

/-! ### The load commands -/

def sourceOf (kind arg : Nat) : Source :=
  match kind with
  | 1 => .store arg
  | 2 => .host arg
  | _ => .none_

/-- A KIND and ARG are outside their range (Table 15.10). -/
def sourceBad (kind arg : Nat) : Bool := decide (2 < kind) || (kind = 1 && decide (63 < arg)) || (kind = 2 && arg % 65536 ≠ 0)

/-- What refuses a load of either kind before its manifest is read (R208, R222, R372, R384, R451): a status. -/
def loadRefusal (d : Dev) (x : Part) (rank pk ak pa aa : Nat) : Option Nat :=
  if x.info.isNone then some stNotReady
  else if pk = 0 || sourceBad pk pa || sourceBad ak aa || 16383 < rank then some stBadArg
  else if d.glb.install || ((pk = 2 || ak = 2) && !d.glb.cxl) || (pk = 1 && !storeReady d) then some stNotReady
  else none

/-- A load begins with the manifest of its primary source (R223). -/
def beginLoad (pid m : Nat) (t : LoadTarget) (rank : Nat) (pri alt : Source) (d : Dev) : Dev :=
  beginCmd m (modW pid (fun w => { w with loads := w.loads ++ [{
    mbx := m, target := t, rank := rank, pri := pri, alt := alt, useAlt := false, manAt := some d.clk.wall, priStatus := none
    man := none, altChecked := false, shards := [] }] }) d)

/-- WEIGHT_LOAD (R222, R224). -/
def execWeightLoad (m : Fin 64) : State → Host.Outcome State Fault Refusal := on <| partCommand 0x0310 m fun x pl d =>
  let (t, pk, ak, pa, aa) := (lf pl 0 1, lf pl 4 1, lf pl 5 1, lf pl 8 8, lf pl 16 8)
  let no (st : Nat) : Dev := answer m st 0 (toLe 4 noShard) d
  match loadRefusal d x (lf pl 2 2) pk ak pa aa with
  | some st => no st
  | none =>
    let r := (x.info.map (·.wref))
    if 1 < t || (t = 1 && !(r.map (·.double)).getD false) then no stBadArg
    else if (r.map (·.tiered)).getD false && (pk ≠ 1 || ak = 2) then no stBadArg
    else if (getCopy x t).st = .loading then no stBusy
    else if (getCopy x t).st ≠ .empty then no stNotReady
    else beginLoad x.pid m (.copy t) (lf pl 2 2) (sourceOf pk pa) (sourceOf ak aa)
      (setCopy x.pid t { st := .loading } d)

/-- The lowest adapter area that no generation and no load holds (R229). -/
def freeArea (x : Part) (r : WeightRef) : Option Nat :=
  let used := x.w.adapters.map (·.area) ++ x.w.loads.filterMap (fun l => match l.target with
    | .adapter _ a => some a
    | .copy _ => none)
  (List.range r.areas).find? (fun a => !used.contains a)

/-- ADAPTER_LOAD (R222, R229). -/
def execAdapterLoad (m : Fin 64) : State → Host.Outcome State Fault Refusal := on <| partCommand 0x0313 m fun x pl d =>
  let (pk, ak, pa, aa) := (lf pl 6 1, lf pl 7 1, lf pl 8 8, lf pl 16 8)
  let h := BitVec.ofNat 32 (lf pl 0 4)
  let no (st : Nat) : Dev := answer m st 0 (toLe 4 noShard ++ [0xFF#8]) d
  match loadRefusal d x (lf pl 4 2) pk ak pa aa, x.info with
  | some st, _ => no st
  | none, none => no stNotReady
  | none, some i =>
    if h = 0 then no stBadArg
    else if x.w.loads.any (fun l => match l.target with
        | .adapter k _ => k = h
        | .copy _ => false) then no stBusy
    else match freeArea x i.wref with
      | none => no stNotReady
      | some a => beginLoad x.pid m (.adapter h a) (lf pl 4 2) (sourceOf pk pa) (sourceOf ak aa) d

/-- ADAPTER_DELETE (R231): the handle takes no admission, and its generations are freed as their counts reach 0. A handle with
a load in progress is BUSY. -/
def execAdapterDelete (m : Fin 64) : State → Host.Outcome State Fault Refusal := on <| partCommand 0x0314 m fun x pl d =>
  let h := BitVec.ofNat 32 (lf pl 0 4)
  if x.w.loads.any (fun l => match l.target with
      | .adapter k _ => k = h
      | .copy _ => false) then answer m stBusy 0 [] d
  else if !x.w.adapters.any (fun a => a.handle = h) then answer m stBadArg 0 [] d
  else answer m stOk 0 [] (stepAdaptersNow x.pid (modW x.pid (fun w => { w with
    adapters := w.adapters.map (fun a => if a.handle = h then { a with deleting := true } else a) }) d))

/-! ### Flips -/

/-- The slot that a flip activates (R225). -/
def flipSlot (x : Part) : Nat :=
  if x.w.copy0.st = .active then 1
  else if x.w.copy1.st = .active then 0
  else if x.w.copy0.st = .verified && x.w.copy1.st ≠ .verified then 0
  else if x.w.copy1.st = .verified && x.w.copy0.st ≠ .verified then 1
  else 1 - x.w.sel

/-- A manifest matches a plan (R217). -/
def matchesPlan (r : WeightRef) (m : ManInfo) : Bool :=
  m.kind = 0 && m.modelId = r.modelId && m.layoutHash = r.layoutHash && m.profileHash = r.profileHash

/-- A forced restart (R225, R227): the request waits again with its delivered tokens behind its prompt, and what its steps up to
the orbit given yield counts for nothing. -/
def restartReq (x : Part) (r : Req) (upTo : BitVec 32) (d : Dev) : Dev :=
  let prompt := r.prompt + r.delivered
  reqRec x (stampNow d x) 0x09 (r.slot.getD 0xFFFF) r.id (prompt % 2 ^ 24) (modReq x.pid r.id (fun q => { q with
    st := .waiting, slot := none, copy := none, gen := 0, prompt := prompt, maxNew := q.maxNew - q.delivered
    before := q.before + q.delivered, delivered := 0, prefilled := 0, voidTo := some upTo }) d)

/-- A flip takes effect (R224, R225). -/
def flipNow (pid slot : Nat) : Dev → Dev := withPart pid fun x d =>
  let retire (c : CopySlot) : CopySlot := if c.st = .active then { c with st := .retiring } else c
  let d := modW pid (fun w => { w with copy0 := retire w.copy0, copy1 := retire w.copy1, sel := slot, flip := none }) d
  weightRec pid 5 0 false stOk (setCopy pid slot { getCopy x slot with st := .active } d)

/-- The live requests that started on a copy slot. -/
def holders (x : Part) (s : Nat) : List Req := x.srv.reqs.filter (fun r => r.copy = some s)

/-- The pending flip takes effect at the boundary into an orbit, by its policy (R225). -/
def flipDue (x : Part) (orbit : BitVec 32) : Option Flip :=
  match x.w.flip with
  | none => none
  | some f =>
    let held := if (activeMan x).isSome then holders x (activeSlot x) else []
    if orbitBefore orbit f.at_ then none
    else if f.force || held.isEmpty || decide (f.wait ≤ (orbit - f.at_).toNat) then some f else none

/-- The flip that is due takes effect at the boundary into an orbit, restarting the requests on the old slot. -/
def boundaryFlip (pid : Nat) (orbit : BitVec 32) : Dev → Dev := withPart pid fun x d =>
  match flipDue x orbit with
  | none => d
  | some f =>
    let held := if (activeMan x).isSome then holders x (activeSlot x) else []
    flipNow pid f.slot (forEach held (fun r d => restartReq x r orbit d) d)

/-- WEIGHT_FLIP (R225). -/
def execWeightFlip (m : Fin 64) : State → Host.Outcome State Fault Refusal := on <| partCommand 0x0311 m fun x pl d =>
  let s := flipSlot x
  let wait := lf pl 8 4
  match x.info with
  | none => answer m stNotReady 0 [] d
  | some i =>
    if x.plan = .running && (1 < lf pl 4 1 || wait = 0 || 2 ^ 24 < wait) then answer m stBadArg 0 [] d
    else if x.w.flip.isSome || (getCopy x s).st = .loading then answer m stBusy 0 [] d
    else if (getCopy x s).st ≠ .verified then answer m stNotReady 0 [] d
    else if !(((getCopy x s).man.map (matchesPlan i.wref)).getD false) then answer m stDenied 0 [] d
    else if x.plan = .running then
      answer m stOk 0 [] (modW x.pid (fun w => { w with
        flip := some ⟨BitVec.ofNat 32 (lf pl 0 4), lf pl 4 1 = 1, wait, s⟩ }) d)
    else answer m stOk 0 [] (flipNow x.pid s d)

/-- WEIGHT_RELEASE (R224, R228, Table 8.9): the slot of a pending flip takes the flip with it. With FORCE the holders of an ACTIVE
slot restart, and it is released at once. -/
def execWeightRelease (k : Release) : State → Host.Outcome State Fault Refusal :=
  on <| partCommand 0x0312 k.mbx fun x pl d =>
  let s := lf pl 0 1
  let c := getCopy x s
  if 1 < s then answer k.mbx stBadArg 0 [] d
  else if c.st = .verified || c.st = .retiring ||
      (c.st = .active && x.plan ≠ .running && (k.force || (holders x s).isEmpty)) then
    let d := if c.st = .active then forEach (holders x s) (fun r => restartReq x r x.orbit) d else d
    answer k.mbx stOk 0 [] (freeCopy x.pid s (modW x.pid (fun w => { w with
      flip := if (w.flip.map (·.slot)) = some s then none else w.flip }) d))
  else answer k.mbx (if c.st = .loading then stBusy else stNotReady) 0 [] d

end Sys2Proof.Machine
end

