-- ==== Sys2Proof/Machine/Job.lean ====
section
/-!
DEFINITION. Jobs (R340 to R361): the rank table, job preparation and discovery, the start of a job and of its plan, the end of
a job, and checkpoints.
-/

namespace Sys2Proof.Machine

open Sys2Proof

/-! ### The rank table -/

/-- The plan of the module's multi-module job, while it is LOADED or RUNNING (R334). -/
def jobPlan (d : Dev) : Option (Part × PlanInfo) :=
  d.parts.findSome? (fun e => match e.2.info with
    | some i => if 1 < i.topo.modules && (e.2.plan = .loaded || e.2.plan = .running) then some (e.2, i) else none
    | none => none)

/-- A write to a half of the rank table is refused (R334): in STATIC mode always, in EPOCH mode to the half in force, and to the
half that left force until two orbits later. -/
def rankDenied (d : Dev) (half : Nat) : Bool :=
  match jobPlan d with
  | none => false
  | some (x, i) =>
    !i.topo.epochMode || b2n (epochNow x) = half || (match x.fab.halfFree with
      | some k => x.plan = .running && orbitBefore x.orbit k
      | none => false)

/-- A rank table entry has a reserved bit set, or names a port beyond the partition's (R345). -/
def rankBad (x : Part) (e : Nat) : Bool :=
  fld e 5 2 ≠ 0 || fld e 13 2 ≠ 0 || fld e 16 16 ≠ 0 || (bit e 7 && decide (2 * nBlocks x ≤ fld e 0 5)) ||
    (bit e 15 && decide (2 * nBlocks x ≤ fld e 8 5))

/-- RANK_WRITE (R345). -/
def execRankWrite (m : Fin 64) : State → Host.Outcome State Fault Refusal := on <| partCommand 0x0601 m fun x pl d =>
  let (half, first, n, a) := (lf pl 0 1, lf pl 2 2, lf pl 4 2, lf pl 8 8)
  let es := (List.range n).map (fun i => leNat (hostRd d (a + 4 * i) 4))
  if 1 < half || n = 0 || 1024 < n || 16384 < first + n then answer m stBadArg 0 [] d
  else if rankDenied d half then answer m stDenied 0 [] d
  else if !hostOk d a (4 * n) then answer m stIntegrity 0 [] d
  else if es.any (rankBad x) then answer m stBadArg 0 [] d
  else answer m stOk 0 [] (forEach (List.range n) (fun i d => { d with
    ranks := tput d.ranks (half * 16384 + first + i) (BitVec.ofNat 32 (leNat (hostRd d (a + 4 * i) 4))) }) d)

/-! ### Job preparation -/

/-- The rank table half that a job will start with. -/
def startEpoch (x : Part) (t : Topo) : Bool := t.epochMode && epochNow x

/-- The checks of Table 13.3, in order, with the match of R217: a status where one fails. -/
def prepareRefusal (d : Dev) (x : Part) (pl : List Byte) : Option Nat :=
  match x.info with
  | none => some stNotReady
  | some i =>
    let rank := lf pl 4 2
    let multi := decide (1 < i.topo.modules)
    if x.job.st ≠ .none_ || x.plan ≠ .loaded then some stNotReady
    else if hashOf (sl pl 8 48) ≠ i.hash then some stBadArg
    else if lf pl 0 2 = 0 || i.topo.modules ≤ rank then some stBadArg
    else if multi && d.parts.any (fun e => e.1 ≠ x.pid && e.2.job.st ≠ .none_ && decide (1 < e.2.job.modules)) then
      some stDenied
    else if (activeMan x).isNone || x.srv.sel.isNone || !ephEn x then some stNotReady
    else if !(((activeMan x).map (matchesPlan i.wref)).getD false) then some stDenied
    else if (x.job.restoredRank.map (fun r => decide (r ≠ rank))).getD false then some stBadArg
    else if multi && (List.range i.topo.modules).any (fun r =>
        r ≠ rank && (rankPorts d (startEpoch x i.topo) r).all (·.isNone)) then some stBadArg
    else if lf pl 6 2 ≠ 0 && (lf pl 6 2 < 50 || 10000 < lf pl 6 2) then some stBadArg
    else none

/-- FAB_TIMING and FAB_MODE from a topology declaration (R349, Table 12.9). -/
def setFabric (t : Topo) (epoch : Bool) (f : Fab) : Fab :=
  { f with
    timing := BitVec.ofNat 64 (t.paceNs + t.driftNs * 2 ^ 20 + t.lateIncNs * 2 ^ 40)
    mode := BitVec.ofNat 32 (t.markRounds + b2n t.epochMode * 2 ^ 8 + b2n epoch * 2 ^ 9) }

/-- What an accepted JOB_PREPARE does (R349). -/
def prepare (x : Part) (i : PlanInfo) (tag epoch rank ms : Nat) (d : Dev) : Dev :=
  let job : Job := { x.job with
    st := .preparing, lastFail := 0, tag := BitVec.ofNat 16 tag, epoch := BitVec.ofNat 16 epoch, rank := rank
    modules := i.topo.modules, discOk := 0, discMissing := 0, discMiswired := 0, discForeign := 0, discExtra := 0
    discAt := d.clk.wall, discMs := if ms = 0 then 500 else ms }
  let x := { x with job := job, fab := setFabric i.topo (startEpoch x i.topo) x.fab }
  let d := setPart x.pid x d
  let d := forEach (partPorts x) (fun p d => modPort p (fun y => { y with rank := BitVec.ofNat 14 rank, fabDown := false }) d) d
  let d := forEach (facing x) (fun e d => writeJobId e.2.1 (BitVec.ofNat 32 (tag + epoch * 2 ^ 16)) d) d
  let d := forEach ((partPorts x).filter (fun p => (declared x (logPort x p)).isNone)) setDark d
  allGood x.pid d

/-- JOB_PREPARE (R348, R349); RANK, PART_CODE and STEP_LETTER are given with every status. -/
def execJobPrepare (m : Fin 64) : State → Host.Outcome State Fault Refusal := on <| partCommand 0x0602 m fun x pl d =>
  let reply := toLe 2 (lf pl 4 2) ++ toLe 2 0x9216 ++ toLe 1 0x42 ++ toLe 3 0
  match prepareRefusal d x pl, x.info with
  | none, some i => answer m stOk 0 reply (prepare x i (lf pl 0 2) (lf pl 2 2) (lf pl 4 2) (lf pl 6 2) d)
  | st, _ => answer m (st.getD stNotReady) 0 reply d

/-- DISC_TIMEOUT (R350, Table 13.4): a declared port is not good when the time is up. -/
def discTimeout (pid : Nat) : Dev → Dev := withPart pid fun x d =>
  if x.job.st ≠ .preparing then d
  else
    whenDue (x.job.discAt + msG x.job.discMs) (fun d =>
    let bad := (facing x).filter (fun e => !x.job.discOk.getLsbD e.1)
    let foreign (e : Nat × Nat × Nat) : Bool := (getPort d e.2.1).st = .training && (getPort d e.2.1).foreign
    let d := modJob pid (fun j => bad.foldl (fun j e => { j with
      discMissing := put32 j.discMissing e.1 true
      discForeign := if foreign e then put32 j.discForeign e.1 true else j.discForeign }) j) d
    if bad.isEmpty then d else failDiscovery pid (if bad.any (fun e => !foreign e) then 1 else 3) d) d

/-- DISC_TIMEOUT (R350). -/
def execDiscTimeout (part : Fin 16) : State → Host.Outcome State Fault Refusal := on (whenMp (discTimeout part.val))

/-- JOB_GO (R351). -/
def execJobGo (m : Fin 64) : State → Host.Outcome State Fault Refusal := on <| partCommand 0x0603 m fun x pl d =>
  let young := match d.mt.since with
    | some t => decide (d.clk.wall < t + msG 100)
    | none => true
  if x.job.st ≠ .ready || d.mt.stratum = 0xFF#8 || young then answer m stNotReady 0 [] d
  else if lf pl 8 8 < d.mt.mt.toNat + 1000000 then answer m stLate 0 [] d
  else answer m stOk 0 [] (modJob x.pid (fun j => { j with
    st := .armed, startOrbit := BitVec.ofNat 32 (lf pl 0 4), startMt := BitVec.ofNat 64 (lf pl 8 8) }) d)

/-! ### The start of a plan -/

/-- What happens when MT reaches a value: now, where it has; else once so much time has passed, as `whenDue` lets it. -/
def whenMt (t : BitVec 64) (f : Dev → Dev) (d : Dev) : Dev :=
  if t.toNat ≤ d.mt.mt.toNat then f d
  else whenDue (d.clk.wall + nsG (t.toNat - d.mt.mt.toNat)) (fun d =>
    f (if d.mt.mt.toNat < t.toNat then { d with mt := { d.mt with mt := t } } else d)) d

/-- Pin every STATIC page of a partition that a pin can take (R240). -/
def pinStatic (x : Part) (d : Dev) : Dev :=
  let ps := (d.cpt.filter (fun e => x.mask.getLsbD (e.1 / 65536) && eValid e.2.toNat && eStatic e.2.toNat)).map (·.1)
  pinPages (ps.filter (fun p => (pinFails d [p]).isNone)) d

/-- The serving engine at plan start: both banks empty, no placement, no step waiting. -/
def startServing (orbit : BitVec 32) (s : Serving) : Serving :=
  { s with
    bank0 := {}, bank1 := {}, ready := false, next := .none_, nextFor := orbit, settledFor := none, parts := []
    ahead := [], aheadStale := false, occupied := [], fenceNext := [], fenceEnds := [], steps := [], settled := [], charge := [], stale := false, staleNow := false, gone := []
    reqs := s.reqs.map (fun r => { r with fenced := false }) }

/-- The fabric at plan start. -/
def startFabric (f : Fab) : Fab :=
  { f with
    detour := 0, open_ := [], handled := [], sentKeys := [], inbox := [], marks := [], abandonNow := false, allFence := false, fenced := 0
    cbitReq := 0, detourDue := [], late := false, floods := [], switchAt := none, halfFree := none, pace := none
    paceMt := none }

/-- An ARMED job's plan enters RUNNING at START_ORBIT (R351, Table 1.5), whose inbound entries open (R319). -/
def startPlan (x : Part) (d : Dev) : Dev :=
  let o := x.job.startOrbit
  let y : Part := { x with
    plan := .running, orbit := o, tick := 0, now := 0, orbits := 1, staged := false, entering := true, parked := false
    brk := none, holdUs := x.holdNext.getD x.holdUs, holdNext := none
    srv := startServing o x.srv, fab := startFabric x.fab
    eph := { x.eph with digFirstOrbit := o, digOrbits := 0 }
    level := levelSnap x d x.level
    job := { x.job with st := .running, restoredRank := none } }
  let d := setPart x.pid { y with fab := { y.fab with open_ := newEntries y } } d
  let d := forEach (partPorts x) (fun p d => modPort p (fun y => { y with slot := 0 }) d) d
  pinStatic x { d with mt := { d.mt with started := true } }

/-- JOB_START (R350, R351): when MT reaches START_MT an ARMED job runs, and its plan enters RUNNING at START_ORBIT once the
clean-up of R97 is done. -/
def jobStart (pid : Nat) : Dev → Dev := withPart pid fun x d =>
  if x.job.st ≠ .armed || x.plan ≠ .loaded then d else whenMt x.job.startMt (startPlan x) d

/-- JOB_START (R350). -/
def execJobStart (part : Fin 16) : State → Host.Outcome State Fault Refusal := on (whenMp (jobStart part.val))

/-- A tile at its plan's start (R88, R97, R124, Table 3.10): everything an earlier run left in it is discarded.
BRK_HIT clears here and nowhere else: the model's choice (log entry 179). -/
def startTile (t : Tile) : Tile :=
  { t with
    mode := if t.mode = .parked then .run else t.mode
    resumable := false, brkHit := false, pc := 0, haltCause := 0, loops := [], skipLeft := 0, nextIssue := 0, ended := false
    issueCount := 0, ctr0 := 0, ctr1 := 0, ctr2 := 0, ctr3 := 0, pred := 0, wait := none
    queues := t.queues.map (fun e => (e.1, { e.2 with pushed := 0, count := 0, tags := [] }))
    mat := {}, vec := {}, fn := {}, matPipe := [], vecPipe := [], fnPipe := [], eng := {}
    router := { t.router with inputs := [], arrivals := [] }, reqs := [] }

/-- RUNNING_ENTRY_CLEAN_UP_DONE (R97, R105, R460): what an earlier run left is discarded, and the tiles start. -/
def entryDone (pid : Nat) : Dev → Dev := withPart pid fun x d =>
  if x.plan ≠ .running || !x.entering then d
  else
    let d := forEach (listedTiles d x) (fun t => modTile t startTile) d
    let d := forEach (partPorts x) (fun p => modPort p (fun y => { y with deliv := none, toStream := [], streams := [], streamBad := [] })) d
    modPart pid (fun y => { y with entering := false }) d

/-- RUNNING_ENTRY_CLEAN_UP_DONE (R97). -/
def execRunningEntryCleanUpDone (part : Fin 16) : State → Host.Outcome State Fault Refusal := on (whenAwake (entryDone part.val))

/-! ### The end of a job -/

/-- JOB_STOP (R353). A checkpoint whose state has not been captured ends ABORTED. -/
def jobStop (pid : Nat) (d : Dev) : Dev :=
  withPart pid (fun x d =>
    let d := forEach (partPorts x) (fun p d => clearDark p (modPort p (fun y => { y with hold := [], fabDown := false })
      (writeJobId p 0 d))) d
    modJob pid (fun j => { j with
      st := .none_
      ckpt := j.ckpt.bind (fun c => if c.image.isSome then some c else none)
      ckptStatus := if j.ckpt.any (fun c => c.image.isNone) then BitVec.ofNat 8 stAborted else j.ckptStatus }) d)
    (leaveRunning pid d)

/-- JOB_STOP (R353). -/
def execJobStop (m : Fin 64) : State → Host.Outcome State Fault Refusal := on <| partCommand 0x0604 m fun x _ d =>
  answer m stOk 0 [] (if x.job.st = .none_ then d else jobStop x.pid d)

/-! ### Checkpoints -/

/-- CKPT_TAKE (R355). -/
def execCkptTake (m : Fin 64) : State → Host.Outcome State Fault Refusal := on <| partCommand 0x0605 m fun x pl d =>
  let k := BitVec.ofNat 32 (lf pl 0 4)
  let seq := BitVec.ofNat 64 (lf pl 8 8)
  if x.job.st ≠ .running then answer m stNotReady 0 [] d
  else if x.job.ckpt.isSome then answer m stBusy 0 [] d
  else if !orbitBefore x.orbit k || lf pl 16 8 % 4096 ≠ 0 || seq.toNat ≤ x.job.ckptMax.toNat || lf pl 24 8 < 256 then
    answer m stBadArg 0 [] d
  else answer m stOk 0 [] (modJob x.pid (fun j => { j with
    ckpt := some ⟨k, seq, lf pl 16 8, lf pl 24 8, none, none⟩ }) d)

/-- CHECKPOINT_WRITE_DONE (R357, R358): the capture is in the host buffer, COMMIT last, or the write has failed. -/
def ckptWriteDone (pid : Nat) (d : Dev) : Dev :=
  withPart pid (fun x d =>
    match x.job.ckpt with
    | some ⟨_, seq, addr, size, some img, fail⟩ =>
      let st : Nat := match fail with
        | some f => f.toNat
        | none => if size < img.length then stBadArg else if hostOk d addr img.length then stOk else stIntegrity
      let d := if st = stOk then hostWr (addr + 0xF8) (toLe 8 seq.toNat) (hostWr addr img d) else d
      jobIrq pid (modJob pid (fun j => { j with
        ckpt := none, ckptStatus := BitVec.ofNat 8 st
        ckptDone := if st = stOk then seq else j.ckptDone, ckptMax := if st = stOk then seq else j.ckptMax }) d)
    | _ => d) (ckptCapture pid d)

/-- CHECKPOINT_WRITE_DONE (R357). -/
def execCheckpointWriteDone (part : Fin 16) : State → Host.Outcome State Fault Refusal := on (whenMp (ckptWriteDone part.val))

/-- The body length that a checkpoint header names. -/
def ckptBodyLen (h : List Byte) : Nat := 64 * lf h 0x20 4 + 56 * lf h 0x24 4 + 16 * lf h 0x28 4

/-- A checkpoint is valid (R357). -/
def ckptValid (h body : List Byte) : Bool :=
  lf h 0 4 = 0x54504B43 && lf h 4 2 = 1 && lf h 0xF8 8 = lf h 0x10 8 && sha384 body = hashOf (sl h 0xC0 48)

/-- A request entry as a pending restart. -/
def restartOf (b : List Byte) : Restart :=
  ⟨BitVec.ofNat 32 (lf b 0 4), BitVec.ofNat 32 (lf b 12 4), lf b 16 4, lf b 20 4, lf b 36 4⟩

/-- What an accepted CKPT_RESTORE does (R359). -/
def restore (x : Part) (h body : List Byte) (d : Dev) : Dev :=
  let (nr, na, nb) := (lf h 0x20 4, lf h 0x24 4, lf h 0x28 4)
  let d := forEach (List.range (min nb (1024 * nBlocks x))) (fun i d => { d with
    budgets := tput d.budgets (budKey x i) (BitVec.ofNat 128 (lf body (64 * nr + 56 * na + 16 * i) 16)) }) d
  modPart x.pid (fun y => { y with
    srv := { y.srv with restarts := (List.range nr).map (fun i => restartOf (sl body (64 * i) 64)), settled := [] }
    eph := { y.eph with prevHash := hashOf (sl h 0x90 48) }
    job := { y.job with restoredRank := some (lf h 6 2 % 16384) } }) d

/-- CKPT_RESTORE (R359). -/
def execCkptRestore (m : Fin 64) : State → Host.Outcome State Fault Refusal := on <| partCommand 0x0606 m fun x pl d =>
  let (a, n) := (lf pl 0 8, lf pl 8 8)
  let h := hostRd d a 256
  if x.plan ≠ .loaded || x.job.st ≠ .none_ then answer m stNotReady 0 [] d
  else if n < 256 || !hostOk d a 256 then answer m stIntegrity 0 [] d
  else if n < 256 + ckptBodyLen h || !hostOk d (a + 256) (ckptBodyLen h) then answer m stIntegrity 0 [] d
  else
    let body := hostRd d (a + 256) (ckptBodyLen h)
    let ready := adpIn x (fun s => s = .ready)
    if !ckptValid h body then answer m stIntegrity 0 [] d
    else if some (hashOf (sl h 0x30 48)) ≠ x.info.map (·.hash) ||
        hashOf (sl h 0x60 48) ≠ ((activeMan x).map (·.hash)).getD 0 then answer m stDenied 0 [] d
    else if (List.range (lf h 0x24 4)).any (fun i =>
        !ready.any (fun r => r.2.2 = hashOf (sl body (64 * lf h 0x20 4 + 56 * i + 8) 48))) then answer m stNotReady 0 [] d
    else answer m stOk 0 [] (restore x h body d)

end Sys2Proof.Machine
end

