-- ==== Sys2Proof/Machine/Boundary.lean ====
section
/-!
DEFINITION. Orbit boundaries (R31 to R33, R94, R244, R266 to R268, R284, R285, R317 to R319, R324, R332, R334): what an orbit
that ends leaves, the boundary set that takes effect together at tick 0 of the next, and pacing pauses.
-/

namespace Sys2Proof.Machine

open Sys2Proof

/-! ### The orbit that ends -/

/-- The table for the next orbit is ready, and its placement is not STALE (R266). -/
def switches (x : Part) : Bool := x.srv.ready && (match x.srv.next with
  | .made _ => true
  | _ => false)

/-- MT at which the next orbit begins (R317): no earlier than the latest start of the orbit that ends, among the round-1 marks
held from plan neighbours, plus ORBIT_NS less PACE_NS. -/
def nextStart (x : Part) (d : Dev) : BitVec 64 :=
  let heard := (((getMark x (x.orbit - 1)).map (·.got)).getD []).filter (fun g =>
    g.2.1 = 1 && (facing x).any (fun e => e.1 = g.1))
  let orbitNs := (x.info.map (·.orbitLen)).getD 0 * period d.clk.step / grain
  BitVec.ofNat 64 (heard.foldl (fun a g => max a (lf g.2.2 8 8 + orbitNs - fld x.fab.timing.toNat 0 20)) d.mt.mt.toNat)

/-- The slots occupied in the orbit that ends are kept while its marks may still come (R325); the steps of an orbit that was not stale
wait for those marks (R245, R267, R277). -/
def noteSteps (pid : Nat) (start : BitVec 64) : Dev → Dev := withPart pid fun x d =>
  let d := modSrv pid (fun s => { s with occupied := (x.orbit, ((bankOf x).slots.filter (fun e => e.2.place.id ≠ 0)).foldl
    (fun a e => a ||| BitVec.ofNat 512 (2 ^ e.1)) 0) :: s.occupied.take 3 }) d
  if x.srv.staleNow then d
  else
    let ended (id : BitVec 32) : Nat := ((x.srv.gone.find? (fun g => g.1 = id)).map (·.2)).getD 0
    let new := ((bankOf x).slots.filter (fun e => e.2.place.id ≠ 0)).map (fun e =>
      (⟨x.orbit, e.1, e.2.place, start, BitVec.ofNat 40 (x.now % 2 ^ 40), ended e.2.place.id⟩ : Step))
    modSrv pid (fun s => { s with steps := s.steps ++ new }) d

/-- The MP reads and clears the status registers of a tile, with an ARITH and a SEQFLAGS record where they hold what the rules
watch (R67, R113). -/
def clearStatus (x : Part) (no : Nat) (d : Dev) : Dev :=
  let t := getTile d no
  let a := t.arithStatus
  let s := t.seqStatus
  let d := setTile d no { t with arithStatus := 0xFFFF0000#32, seqStatus := 0xFFFF0000#32 }
  let d := if a &&& arithWatch = 0 then d
    else ephRec x.pid 0x17 0xFFFF 0 (no + fld a.toNat 0 9 * 2 ^ 12 + fld a.toNat 16 16 * 2 ^ 21) d
  if s &&& seqWatch = 0 then d
  else ephRec x.pid 0x18 0xFFFF 0 (no + fld s.toNat 0 6 * 2 ^ 12 + fld s.toNat 16 16 * 2 ^ 18) d

/-- The tide excursions of the orbit that ends (R173), moon by moon. -/
def tideRecords (pid : Nat) (d : Dev) : Dev :=
  forEach d.clk.moons (fun e d => match tget e.2.excPending pid with
    | some n =>
      ephRec pid 0x12 0xFFFF 0 (e.1 + n % 2 ^ 32 * 2 ^ 6)
        (modMoon e.1 (fun m => { m with excPending := tdel m.excPending pid }) d)
    | none => d) d

/-- The ring digests close before the boundary set changes what they name (R285). -/
def boundaryDigest (pid : Nat) (stale : Bool) (ended : BitVec 32) : Dev → Dev := withPart pid fun x d =>
  let every := fld x.eph.digCfg.toNat 32 24
  let n := x.eph.digOrbits + 1
  let due := x.eph.held.isSome || (every ≠ 0 && every ≤ n) || (!stale && ((flipDue x x.orbit).isSome || adaptersDue x))
  let d := setPart pid { x with eph := { x.eph with digOrbits := n } } d
  if due then closeDigest pid ended d else d

/-! ### Slot tables and fences -/

/-- Take a slot out of every memory moon's fences. -/
def clearFence (s : Nat) : Dev → Dev :=
  forEach (List.range 4) (fun q => modMm q fun m => { m with
    slotFence := m.slotFence &&& ~~~BitVec.ofNat 512 (2 ^ s), ringIn := m.ringIn.filter (· ≠ s) })

/-- A module fences a slot of its own from tick 0 on (R268). -/
def fenceSlot (pid r : Nat) : Dev → Dev := withPart pid fun x d =>
  markFenced x r (forEach (List.range 4) (fun q => setFence q (slotAbs x r)) d)

/-- The slots that a module which cannot follow P(n + 1) fences (R268): those whose entry differs from its table, and every
slot where it has not received P(n + 1). -/
def unfollowed (x : Part) : List Nat :=
  let all := List.range (32 * nBlocks x)
  match x.srv.next with
  | .stale => []
  | .made t => all.filter (fun s => (tget t s).getD {} ≠ (slotEntry x s).place)
  | .none_ => all

/-- Fences at a boundary (R244): the fence of a slot ends with the first orbit whose table did not carry its request; the others
last, and stand in the marks of the new orbit. -/
def carryFences (pid : Nat) (old : Part) : Dev → Dev := withPart pid fun x d =>
  let fenced := (List.range (32 * nBlocks x)).filter (slotFenced d x)
  let ends (s : Nat) : Bool := old.srv.fenceEnds.contains s || (slotEntry old s).place.id = 0
  let d := forEach (fenced.filter ends) (fun s => clearFence (slotAbs x s)) d
  let last := fenced.filter (fun s => !ends s)
  modPart pid (fun y => { y with
    fab := { y.fab with fenced := last.foldl (fun a s => a ||| BitVec.ofNat 512 (2 ^ s)) 0 }
    srv := { y.srv with
      fenceEnds := last.filter (fun s => (slotEntry y s).place.id ≠ (slotEntry old s).place.id) } }) d

/-- The slot-table distributor at tick 0 (R266 to R268): the ready table comes into force, or the orbit is stale. -/
def switchTable (pid : Nat) (old : Part) : Dev → Dev := withPart pid fun x d =>
  let go := switches old
  let keep := isLeader old && (match old.srv.next with
    | .made _ => true
    | _ => false)
  let d := setPart pid { x with srv := { x.srv with
    bank := if go then !x.srv.bank else x.srv.bank, ready := false
    next := if !go && keep then x.srv.next else if x.srv.aheadStale then .stale else .none_
    fenceNext := [], parts := x.srv.ahead, ahead := [], aheadStale := false, stale := x.srv.staleNow, staleNow := !go
    staleCount := if go then x.srv.staleCount else satAdd x.srv.staleCount 1 } } d
  let d := carryFences pid old d
  let d := holdPlacement pid d
  if go then forEach old.srv.fenceNext (fenceSlot pid) d
  else
    let d := ephRec pid 0x11 0xFFFF 0 (if old.srv.next = .stale then 1 else 2) d
    if isLeader old then d else forEach (unfollowed old) (fenceSlot pid) d

/-- Ended requests whose REQ_ID no orbit in force or prepared carries are forgotten (R263). -/
def pruneGone (pid : Nat) : Dev → Dev := withPart pid fun x d =>
  setPart pid { x with srv := { x.srv with gone := x.srv.gone.filter (fun g => carried x g.1) } } d

/-- At tick 0 the pages that no carried request holds and that are not STATIC are unpinned (Table 9.3). -/
def unpinPages (pid : Nat) : Dev → Dev := withPart pid fun x d =>
  let held := ((bankOf x).slots.map (fun e => pagesOf (bankOf x) e.2)).flatten
  let free (p e : Nat) : Bool := x.mask.getLsbD (p / 65536) && ePinned e && !eStatic e && !held.contains p
  { d with cpt := d.cpt.map (fun e =>
    if free e.1 e.2.toNat then (e.1, BitVec.ofNat 64 (setBit e.2.toNat 1 false)) else e) }

/-! ### The rest of the boundary set -/

/-- Settled credits take effect (R279). -/
def applyCredits (pid : Nat) : Dev → Dev := withPart pid fun x d =>
  let set (e : Nat × Int) (d : Dev) : Dev :=
    let new : BitVec 128 := (budget d x e.1).extractLsb' 64 64 ++ BitVec.ofInt 64 e.2
    { d with budgets := tput d.budgets (budKey x e.1) new }
  let d := forEach x.srv.settled set d
  modSrv pid (fun s => { s with settled := [] }) d

/-- Detour conditions that are due are set (R332). -/
def applyRoutes (pid : Nat) : Dev → Dev := modPart pid fun x =>
  let due := (x.fab.detourDue.filter (fun e => !orbitBefore x.orbit e.1)).map (·.2)
  { x with fab := { x.fab with
    detour := due.foldl (· ||| ·) x.fab.detour, detourDue := x.fab.detourDue.filter (fun e => orbitBefore x.orbit e.1) } }

/-- A route epoch that is due switches at the boundary into its orbit, which every module does (R334): R33 does not name it among what a
stale orbit holds back. -/
def switchEpoch (pid : Nat) : Dev → Dev := modPart pid fun x =>
  match x.fab.switchAt with
  | some k =>
    if orbitBefore x.orbit k then x
    else { x with fab := { x.fab with mode := x.fab.mode ^^^ 0x200#32, switchAt := none, halfFree := some (k + 2) } }
  | none => x

/-- The boundary set (R33), held back whole in a stale orbit. -/
def boundarySet (pid : Nat) (orbit : BitVec 32) (d : Dev) : Dev :=
  unpinPages pid (applyRoutes pid (applyCredits pid (stepAdapters pid (boundaryFlip pid orbit d))))

/-! ### Tiles, ports and channels -/

/-- A running tile issues index 0 at tick 0 (R80). What a WAIT that still waits does is the model's choice: the spec does not say, and
the model drops it with its orbit (log 164). -/
def restartTile (now : Nat) (t : Tile) : Tile :=
  if t.mode ≠ .run then t
  else { t with pc := 0, loops := [], skipLeft := 0, wait := none, ended := false, nextIssue := now }

/-- A stream that has not ended with its orbit sets OVERRUN (R93, R94). -/
def overrun (t : Tile) : Tile := if t.mode = .run && !t.ended then setSeqMesh sqOverrun t else t

/-- The link queues of a tile are emptied (R324). -/
def emptyLinks (t : Tile) : Tile :=
  { t with queues := t.queues.map (fun e => if 28 ≤ e.1 then (e.1, { e.2 with count := 0, tags := [] }) else e) }

/-- Marks that are no longer needed are forgotten: those older than the last three orbits, but for orbits whose tokens or
checkpoint still wait. -/
def keepMark (x : Part) (m : MarkSet) : Bool :=
  !orbitBefore m.orbit (x.orbit - 3) || x.srv.steps.any (fun s => s.orbit = m.orbit) ||
    (x.job.ckpt.map (fun c => decide (c.orbit = m.orbit))).getD false

/-- A deferred retraining starts as the boundary window begins (R196). -/
def deferredRetrain (c : Nat) (d : Dev) : Dev :=
  let k := getChan d c
  if k.deferred && (k.retrainAt = 0 || k.retrainAt + msG 10 ≤ d.clk.wall) then enterRetrain c d else d

/-- The fabric at tick 0 (R319, R321, R324): the ended orbit's flags go, copies and receipt keys of orbits before the last are
released, entries two orbits old are abandoned, and the new orbit's open. -/
def fabricStart (pid : Nat) (old : Part) (d : Dev) : Dev :=
  let d := withPart pid (fun x d =>
    forEach (partPorts x) (fun p => modPort p (fun y => { y with
      slot := 0, hold := y.hold.filter (fun c => !orbitBefore c.orbit (x.orbit - 1)) })) d) d
  let d := if old.fab.abandonNow then forEach (listedTiles d old) (fun t => modTile t emptyLinks) d else d
  let d := modPart pid (fun x => { x with fab := { x.fab with
    abandonNow := false, allFence := false, late := false, handled := x.fab.handled.filter (fun k => !orbitBefore k.orbit (x.orbit - 2))
    floods := x.fab.floods.filter (fun k => !orbitBefore k.2.1 (x.orbit - 2)), marks := x.fab.marks.filter (keepMark x) } }) d
  withPart pid (fun x d =>
    modPart pid (fun y => { y with fab := { y.fab with open_ := y.fab.open_ ++ newEntries y } })
      (abandon pid (fun e => orbitBefore e.orbit (x.orbit - 1)) d)) d

/-- The new orbit's number and tick 0, with the hold limit that begins with it (R31, R37). -/
def nextOrbit (pid : Nat) : Dev → Dev := modPart pid fun x => { x with
  orbit := x.orbit + 1, tick := 0, orbits := x.orbits + 1, staged := false, holdUs := x.holdNext.getD x.holdUs, holdNext := none }

/-- A start later than now is a pacing pause (R317). -/
def beginPace (pid : Nat) (start : BitVec 64) (d : Dev) : Dev :=
  if d.mt.mt.toNat < start.toNat then
    modPart pid (fun x => { x with fab := { x.fab with pace := some d.clk.wall, paceMt := some start } }) d
  else d

/-- What happens at the end of an orbit's last tick: its steps, its level report, its round-1 mark and its records. -/
def closeOrbit (pid : Nat) (start : BitVec 64) (d : Dev) : Dev :=
  let d := withPart pid (fun x d => if isLeader x then settle pid d else d) d
  let d := formLevel pid (noteSteps pid start d)
  let d := withPart pid (fun x d => formRound1 pid x.orbit x.srv.staleNow start d) d
  let d := withPart pid (fun x d => forEach (listedTiles d x) (fun no d => clearStatus x no (modTile no overrun d)) d) d
  tideRecords pid d

/-- ORBIT_BOUNDARY (R33): the orbit ends with its last tick, and the next begins. -/
def orbitBoundary (pid : Nat) : Dev → Dev := withPart pid fun old d =>
  if !active old || old.plan ≠ .running || old.tick < (old.info.map (·.orbitLen)).getD 1 then d
  else
    let start := nextStart old d
    let d := nextOrbit pid (closeOrbit pid start d)
    match getPart d pid with
    | none => d
    | some x =>
      let d := boundaryDigest pid (!switches x) old.orbit d
      let d := switchTable pid x d
      let d := if switches x then boundarySet pid x.orbit d else d
      let d := fabricStart pid x (pruneGone pid (switchEpoch pid d))
      let d := forEach (listedTiles d x) (fun t => modTile t (restartTile x.now)) d
      let d := forEach (partChans x) deferredRetrain d
      ckptCapture pid (beginPace pid start d)

/-- ORBIT_BOUNDARY (R33). -/
def execOrbitBoundary (part : Fin 16) : State → Host.Outcome State Fault Refusal := on (whenMp (orbitBoundary part.val))

/-- PACING_END (R317): MT reaches the paced start, the tile moons resume, and the orbit begins. -/
def pacingEnd (pid : Nat) : Dev → Dev := withPart pid fun x d =>
  match x.fab.pace, x.fab.paceMt with
  | some w, some mt =>
    whenMt mt (fun d => modPart pid (fun y => { y with fab := { y.fab with
      pace := none, paceMt := none, paceWaitNs := y.fab.paceWaitNs + BitVec.ofNat 64 ((d.clk.wall - w) / grain) } })
      (resumeTiles d.clk.wall d)) d
  | _, _ => d

/-- PACING_END (R317). -/
def execPacingEnd (part : Fin 16) : State → Host.Outcome State Fault Refusal := on (whenAwake (pacingEnd part.val))

end Sys2Proof.Machine
end

