-- ==== Sys2Proof/Machine/Parts.lean ====
section
/-!
DEFINITION. Partitions and their plans (R22 to R27, R37, R105, R159, R385, R408): creating and destroying a partition, loading,
unloading, stopping, restarting and resuming a plan, the transit table and the hold limit.
-/

namespace Sys2Proof.Machine

open Sys2Proof

/-! ### The checks of a load -/

/-- Counts and instances of Table 1.2 are broken. -/
def secsMissing (img : List Byte) : Bool :=
  let of (ty : Nat) : List Nat := ((secs img).filter (fun s => s.ty = ty)).map (·.inst)
  let twice (l : List Nat) : Bool := (l.foldl insertNat []).length ≠ l.length
  (of 1).foldl insertNat [] ≠ planTiles img || twice (of 1) || [2, 3, 5, 6, 7, 8, 9].any (fun ty => of ty ≠ [0]) ||
    (of 4).any (fun i => 31 < i) || twice (of 4)

/-- FORMAT (Table 1.3). -/
def planFormat (img : List Byte) : Bool :=
  headBad img || (streams img).any (fun s => s.2.length % 16 ≠ 0) || onSec img 5 (depthBad img) || onSec img 2 (meshBad img) ||
    onSec img 3 (seamBad img) || (portSecs img).any (fun s => portBad img s.1 s.2) || onSec img 7 topoBad || onSec img 8 wrefBad

/-- Some plan of another partition is TIERED (R232). -/
def tieredElsewhere (d : Dev) (x : Part) : Bool :=
  d.parts.any (fun e => e.1 ≠ x.pid && (e.2.info.map (·.wref.tiered)).getD false)

/-- BLOCKS (Table 1.3). -/
def planOutside (d : Dev) (x : Part) (img : List Byte) : Bool :=
  let ports := 2 * planBlocks img
  planMask img ≠ x.mask || (blocksOf x.mask).any d.crater.force.blocks.contains || onSec img 2 (meshOutside img) ||
    onSec img 3 (seamOutside img) || (portSecs img).any (fun s => decide (ports ≤ lf s.2 0 2)) ||
    onSec img 7 (fun b => (topoTab b).any (fun e => decide (ports ≤ e.1 % 32))) ||
    onSec img 9 (fun b => (relocsOf b).any (fun r => r.kind = 3 && decide (ports ≤ r.addend))) ||
    (onSec img 8 (fun b => (wrefOf b).tiered) && tieredElsewhere d x)

/-- ORBIT (Table 1.3, R31, R32). -/
def planOrbitBad (img : List Byte) : Bool :=
  let n := planOrbitLen img
  let b := planBoundaryLen img
  n % 256 ≠ 0 || n < 16384 || 2 ^ 28 < n || b < 256 || min 65536 (n / 4) < b

/-- SIZE (Table 1.3). -/
def planSize (img : List Byte) : Bool :=
  (streams img).any (fun s => 65536 < s.2.length) || onSec img 5 depthSize || onSec img 8 (wrefSize img)

/-- The plan is STRICT and holds a relaxed reduction or a relaxed function (R71, R133). -/
def planRelaxed (img : List Byte) : Bool :=
  lf img 0x0A 1 = 0 && (bit (lf img 0x0B 1) 1 || (streams img).any (fun s => (streamCmds s.2).any (fun c => c.opc = 3 && bit c.ops 6)))

/-- The checks of Table 1.3 after STATE, in order: status and reason of the first that fails. -/
def planRefusal (d : Dev) (x : Part) (img : List Byte) : Option (Nat × Nat) :=
  if planFormat img then some (stBadArg, 0x01)
  else if hashOf (sl img 0x30 48) ≠ planHash img then some (stIntegrity, 0x09)
  else if lf img 6 2 ≠ 0x9216 || lf img 8 1 ≠ 0x42 || lf img 9 1 ≠ fld d.ident.ldr.toNat 16 8 then some (stBadArg, 0x02)
  else if planOutside d x img then some (stDenied, 0x03)
  else if secsMissing img then some (stBadArg, 0x04)
  else if planOrbitBad img then some (stBadArg, 0x06)
  else if 7 < lf img 0x18 1 then some (stBadArg, 0x0D)
  else if planSize img then some (stBadArg, 0x05)
  else if findSec img 6 0 ≠ some transitTable then some (stBadArg, 0x07)
  else if planRelaxed img then some (stDenied, 0x08)
  else if bit (lf img 0x0B 1) 0 && !diagOpen d then some (stDenied, 0x0C)
  else if onSec img 9 (fun b => b.length % 16 ≠ 0 || (relocsOf b).any (relocBad img)) then some (stBadArg, 0x0A)
  else none

/-! ### What a load installs -/

/-- The WAITs of a plan for a level (0 memory queues, 1 link queues): how many, and the sum of their budgets. -/
def planWaits (img : List Byte) (lvl : Nat) : Nat × Nat :=
  let ws := (streams img).flatMap (fun s => (streamCmds s.2).filter (fun c => c.opc = 0x14 && c.qa % 8 / 4 = lvl))
  (ws.length, (ws.map (·.issue)).foldl (· + ·) 0)

/-- The plan as the partition keeps it, from the relocated image. -/
def planOf (d : Dev) (x : Part) (img : List Byte) : PlanInfo := {
  mask := x.mask, relaxed := lf img 0x0A 1 = 1, tagged := bit (lf img 0x0B 1) 0, orbitLen := planOrbitLen img
  boundaryLen := planBoundaryLen img, maxStep := BitVec.ofNat 3 (lf img 0x18 1), hash := hashOf (sl img 0x30 48)
  wref := wrefOf ((findSec img 8 0).getD []), topo := topoOf ((findSec img 7 0).getD [])
  ports := (portSecs img).foldl (fun t s => tput t s.1 (portTabOf s.2)) [], waits := [(0, planWaits img 0), (1, planWaits img 1)]
  craterGen := d.crater.changes.length
  seams := (seamRuns ((findSec img 3 0).getD [])).map (fun e =>
    ⟨e.seam, e.dir, e.run.start, e.run.len, e.run.period, e.run.reps, e.lane, e.ch⟩) }

/-- A tile's command memory, queues, router runs and groups as the plan gives them (R23, R76, R146, R152, R156). -/
def installTile (img : List Byte) (no : Nat) (t : Tile) : Tile :=
  let qs := ((tileRecs ((findSec img 5 0).getD [])).find? (fun r => lf r 0 2 = no)).map recQueues
  let r := (meshRecs ((findSec img 2 0).getD [])).1.find? (fun r => r.tile = no)
  { t with
    cmem := cells 0 ((findSec img 1 no).getD []), cmemBad := []
    queues := ((qs.getD []).zipIdx.filter (fun q => q.1.depth ≠ 0)).map (fun q => (q.2, q.1))
    router := { t.router with runs := ((r.map (·.runs)).getD []).map runOf, groups := (r.map (·.groups)).getD 0 } }

/-- A plan that passed every check is installed, relocated, and the partition is LOADED (R23 to R26). -/
def installPlan (pid : Nat) (img : List Byte) : Dev → Dev := withPart pid fun x d =>
  let new := relocate img
  let d := forEach (planTiles img) (fun no => modTile no (installTile new no)) d
  setPart pid { x with plan := .loaded, info := some (planOf d x new) } d

/-- The plan's MAX_STEP stands below the tile step in force, or the one being changed to (R168). -/
def stepTooHigh (d : Dev) : Bool := decide (maxStep d < d.clk.step.toNat) || (d.clk.busy && decide (maxStep d < d.clk.tgt.toNat))

/-- PLAN_LOAD (R22 to R27, R168): a plan whose MAX_STEP lies below the tile step in force is answered once the step has come
down. -/
def execPlanLoad (m : Fin 64) : State → Host.Outcome State Fault Refusal := on <| partCommand 0x0201 m fun x pl d =>
  let (a, n) := (lf pl 0 8, lf pl 8 8)
  if x.plan ≠ .empty || d.glb.install then answer m stNotReady 0x0B [] d
  else if !hostOk d a n then answer m stIntegrity 0x09 [] d
  else match planRefusal d x (hostRd d a n) with
    | some (st, reason) => answer m st reason [] d
    | none =>
      let d := installPlan x.pid (hostRd d a n) d
      if stepTooHigh d then beginCmd m (settleStep false d) else answer m stOk 0 [] d

/-! ### Leaving STOPPED, and unloading -/

/-- A write of CLEAR to SEQ_CTRL (Table 3.10). -/
def clearTile (t : Tile) : Tile := if t.mode = .halted then { t with mode := .parked, resumable := false } else t

/-- The MP writes CLEAR to every HALTED tile of a partition (R26). -/
def clearHalted (pid : Nat) : Dev → Dev := withPart pid fun x d => forEach (listedTiles d x) (fun t => modTile t clearTile) d

/-- The partition's plan goes (R26, R222, R263): loads in progress and live requests end ABORTED, and the selector table goes
with the plan it was checked against. -/
def dropPlan (pid : Nat) (d : Dev) : Dev :=
  let d := clearHalted pid d
  let d := withPart pid (fun x d => forEach x.w.loads (fun l => failLoad pid l stAborted noShard (isHost l.pri)) d) d
  let d := withPart pid (fun x d => forEach x.srv.reqs (fun r d =>
    endReq pid r (r.slot.getD 0xFFFF) stAborted 1 (stampNow d x) d) d) d
  settleStep false (modPart pid (fun y => { y with
    plan := .empty, info := none, srv := { y.srv with sel := none, gone := [], steps := [] }, w := { y.w with flip := none } }) d)

/-- PLAN_UNLOAD (R26): the tick in which the partition stopped ends before the MP writes CLEAR. -/
def execPlanUnload (m : Fin 64) : State → Host.Outcome State Fault Refusal := on <| partCommand 0x0202 m fun x _ d =>
  if x.plan = .loaded || x.plan = .stopped then answer m stOk 0 [] (dropPlan x.pid (finishStop x.pid d))
  else answer m stDenied 0 [] d

/-- PART_STOP (R26). -/
def execPartStop (m : Fin 64) : State → Host.Outcome State Fault Refusal := on <| partCommand 0x0203 m fun x _ d =>
  if x.plan = .running then answer m stOk 0 [] (leaveRunning x.pid d) else answer m stDenied 0 [] d

/-- The crater map has changed in a partition's blocks since its plan was loaded (R26, R433). -/
def craterChanged (d : Dev) (x : Part) : Bool :=
  ((d.crater.changes.drop ((x.info.map (·.craterGen)).getD 0)).any (fun c => c &&& x.mask ≠ 0))

/-- PART_RESTART (R26). -/
def execPartRestart (m : Fin 64) : State → Host.Outcome State Fault Refusal := on <| partCommand 0x0204 m fun x _ d =>
  if x.plan ≠ .stopped then answer m stDenied 0 [] d
  else if craterChanged d x then answer m stOk 0 [0] (dropPlan x.pid (finishStop x.pid d))
  else answer m stOk 0 [1] (modPart x.pid (fun y => { y with plan := .loaded }) (clearHalted x.pid (finishStop x.pid d)))

/-- PART_RESUME (Table 3.10): a partition parked by a break goes on at the tick where it parked. -/
def execPartResume (m : Fin 64) : State → Host.Outcome State Fault Refusal := on <| partCommand 0x0205 m fun x _ d =>
  if !x.parked then answer m stDenied 0 [] d
  else
    let d := forEach (listedTiles d x) (fun no => modTile no (fun t =>
      if t.mode = .parked && t.resumable then { t with mode := .run, resumable := false } else t)) d
    answer m stOk 0 [] (modPart x.pid (fun y => { y with parked := false }) d)

/-- HOLD_LIMIT (R37): the limit takes effect at the next boundary. -/
def execHoldLimit (m : Fin 64) : State → Host.Outcome State Fault Refusal := on <| partCommand 0x0207 m fun x pl d =>
  let v := lf pl 0 4
  if v = 0 then answer m stOk 0 (toLe 4 (x.holdNext.getD x.holdUs)) d
  else if v < 100 || 100000 < v then answer m stBadArg 0 [] d
  else answer m stOk 0 (toLe 4 v) (modPart x.pid (fun y =>
    if y.plan = .running then { y with holdNext := some v } else { y with holdUs := v, holdNext := none }) d)

/-- TRANSIT_READ (R159). -/
def execTransitRead (m : Fin 64) : State → Host.Outcome State Fault Refusal := on <| command 0x0105 m fun pl d =>
  let a := lf pl 0 8
  if hostOk d a transitTable.length then answer m stOk 0 [] (hostWr a transitTable d) else answer m stIntegrity 0 [] d

/-! ### Partitions -/

/-- A tile as PART_CREATE leaves it (R408). -/
def createTile (t : Tile) : Tile :=
  { t with
    cmem := [], cmemBad := [], spad := [], spadBad := [], ctr0 := 0, ctr1 := 0, ctr2 := 0, ctr3 := 0, pred := 0, slotPred := 0
    slotStage := 0, slotOld := 0, queues := [], mat := {}, vec := {}, fn := {}, matPipe := [], vecPipe := [], fnPipe := [], eng := {}
    reqs := [] }

/-- A mask names a block that a partition holds or that the crater map marks unusable (R385). -/
def maskTaken (d : Dev) (mask : BitVec 16) : Bool :=
  d.parts.any (fun e => e.2.mask &&& mask ≠ 0) || (blocksOf mask).any d.crater.force.blocks.contains

/-- PART_CREATE (R385, R408): ports of the new partition whose EN is 1 start training. -/
def execPartCreate (m : Fin 64) : State → Host.Outcome State Fault Refusal := on <| command 0x0101 m fun pl d =>
  let mask := BitVec.ofNat 16 (lf pl 0 2)
  if mask = 0 || maskTaken d mask then answer m stDenied 0 [] d
  else if d.glb.install || d.crater.unconfirmed then answer m stNotReady 0 [] d
  else
    let pid := (blocksOf mask).headD 0
    let x : Part := { pid := pid, mask := mask }
    let d := setPart pid x { d with rot := tdel d.rot pid }
    let d := forEach (listedTiles d x) (fun t => modTile t createTile) d
    let d := forEach (partPorts x) (fun p d =>
      if (getPort d p).en && (getPort d p).st = .off then enterTraining p d else d) d
    answer m stOk 0 (toLe 1 pid) d

/-- The frames that a partition's context and weight pages hold: first byte and length. -/
def partFrames (d : Dev) (x : Part) : List (Nat × Nat) :=
  let inGddr (e : Nat) : Bool := eValid e && !eLoc e
  (d.cpt.filter (fun e => x.mask.getLsbD (e.1 / 65536) && inGddr e.2.toNat)).map (fun e => (eLocator e.2.toNat * 65536, 65536)) ++
    (d.wpt.filter (fun e => x.mask.getLsbD (e.1 / 16384) && inGddr e.2.toNat)).map (fun e => (eLocator e.2.toNat * 65536, 1048576))

/-- What an accepted PART_DESTROY does (R385). -/
def destroyPart (x : Part) (d : Dev) : Dev :=
  let ctx (i : Nat) : Bool := x.mask.getLsbD (i / 65536)
  let wgt (i : Nat) : Bool := x.mask.getLsbD (i / 16384)
  let d := { d with
    gddr := (partFrames d x).foldl (fun m f => zeroBs m f.1 f.2) d.gddr
    cpt := d.cpt.filter (fun e => !ctx e.1), cptBad := d.cptBad.filter (fun i => !ctx i)
    wpt := d.wpt.filter (fun e => !wgt e.1), wptBad := d.wptBad.filter (fun i => !wgt i)
    budgets := d.budgets.filter (fun e => !ctx e.1), parts := tdel d.parts x.pid }
  forEach (partPorts x) portOff d

/-- Something of a partition still stands in the way of its destruction (R385). -/
def partBusy (d : Dev) (x : Part) : Bool :=
  x.plan ≠ .empty || x.job.st ≠ .none_ || !x.w.loads.isEmpty ||
    (partPorts x).any (fun c => (getDma d c).st ≠ .idle)

/-- PART_DESTROY (R385); a number that names no partition is BAD_ARG. -/
def execPartDestroy (m : Fin 64) : State → Host.Outcome State Fault Refusal := on <| command 0x0102 m fun pl d =>
  match getPart d (lf pl 0 1) with
  | none => answer m stBadArg 0 [] d
  | some x => if partBusy d x then answer m stNotReady 0 [] d else answer m stOk 0 [] (destroyPart x d)

end Sys2Proof.Machine
end

