-- ==== Sys2Proof/Machine/Registers.lean ====
section
/-!
DEFINITION. The register spaces: BAR 0 (R374, R375) and the spaces of tiles (R112) and moons (R183), with their access
codes (R13), and the writes of command memory and scratchpad (R107, R143).
-/

namespace Sys2Proof.Machine

open Sys2Proof

/-! ### Registers and accesses -/

/-- A register: its offset, its bytes, what it reads as, what a read clears (RC), and what a write does, given the mask of
the bits written and their values. -/
structure Reg where
  off : Nat
  size : Nat
  rd : Nat
  clr : Dev → Dev := id
  wr : Nat → Nat → Dev → Dev := fun _ _ d => d

/-- A read-only register (R13). -/
def ro (off size v : Nat) : Reg := ⟨off, size, v, id, fun _ _ d => d⟩

/-- A register that a read clears (R13 RC). -/
def rc (off size v : Nat) (clr : Dev → Dev) : Reg := ⟨off, size, v, clr, fun _ _ d => d⟩

/-- The bits of a mask come from v, the others from old. -/
def mergeBits (old mask v : Nat) : Nat := old - (old &&& mask) + (v &&& mask)

/-- A register whose writes take the whole new value, unwritten bytes as they stand (R13 RW). -/
def rw (off size v : Nat) (wr : Nat → Dev → Dev) : Reg := ⟨off, size, v, id, fun mask x => wr (mergeBits v mask x)⟩

/-- A register whose writes take the bits written as 1 (R13 W1C, W1S and WO). -/
def w1 (off size v : Nat) (wr : Nat → Dev → Dev) : Reg := ⟨off, size, v, id, fun mask x => wr (x &&& mask)⟩

/-- A value moved from offset a to offset b, cut to n bytes. -/
def moveBytes (a b n v : Nat) : Nat := (if b ≤ a then v * 2 ^ (8 * (a - b)) else v / 2 ^ (8 * (b - a))) % 2 ^ (8 * n)

/-- An access of n bytes at offset o meets a register. -/
def touches (o n : Nat) (r : Reg) : Bool := decide (r.off < o + n) && decide (o < r.off + r.size)

/-- What a read returns: the registers it meets; every other byte is 0 (R12, R375). -/
def regsRead (l : List Reg) (o n : Nat) : Nat :=
  ((l.filter (touches o n)).map (fun r => moveBytes r.off o n r.rd)).foldl (· + ·) 0

/-- What a read clears (R13 RC). -/
def regsClear (l : List Reg) (o n : Nat) : Dev → Dev := forEach (l.filter (touches o n)) (fun r => r.clr)

/-- What a write does to the registers it meets. -/
def regsWrite (l : List Reg) (o n v : Nat) : Dev → Dev :=
  forEach (l.filter (touches o n)) (fun r => r.wr (moveBytes o r.off r.size (2 ^ (8 * n) - 1)) (moveBytes o r.off r.size v))

/-- Nanoseconds since a moment, where there is one. -/
def sinceNs (d : Dev) (t : Option Nat) : Nat := (t.map (fun w => (d.clk.wall - w) / grain)).getD 0

/-- A 64-bit counter of nanoseconds with the time that still counts. -/
def nsNow (d : Dev) (c : BitVec 64) (t : Option Nat) : Nat := (c.toNat + sinceNs d t) % 2 ^ 64

/-! ### Identity, global control, recovery, power (Tables 0.2, 15.3, 16.4, 18.9) -/

/-- The identity and revision register (R6, Table 0.2). -/
def identRegs (d : Dev) : List Reg :=
  [ro 0 4 0x01429216, ro 4 4 d.ident.fw.toNat, ro 8 4 d.ident.ldr.toNat, ro 12 4 0x00C03030]

/-- An IDE stream is active (Table 15.4). -/
def ideOn (d : Dev) (k : Nat) : Bool := ((tget d.sec.ide k).map (fun s => s.secure && !s.insecure)).getD false

/-- GLB_STATUS (Table 15.4). -/
def glbStatus (d : Dev) : Nat :=
  let ide := if d.glb.width = 0 then false else if d.glb.cxl then ideOn d 0 && ideOn d 1 && ideOn d 2 else ideOn d 0
  d.otp.lc.toNat + b2n d.glb.mpReady * 2 ^ 3 + b2n d.glb.shed * 2 ^ 4 + b2n d.glb.install * 2 ^ 5 + b2n d.glb.cxl * 2 ^ 6 +
    b2n ide * 2 ^ 7 + d.glb.width.toNat * 2 ^ 8 + d.glb.rate.toNat * 2 ^ 11

/-- An update of the global registers. -/
def modGlb (f : Glb → Glb) (d : Dev) : Dev := { d with glb := f d.glb }

/-- Mailbox commands ACCEPTED (Table 15.3). -/
def acceptedCount (d : Dev) : Nat := (d.mbx.filter (fun e => e.2.st = .accepted)).length

/-- Global control and status (Table 15.3). -/
def glbRegs (d : Dev) : List Reg :=
  [ro 0x00 4 (glbStatus d), ro 0x08 4 (d.glb.mpBusy.toNat + acceptedCount d % 256 * 2 ^ 16), ro 0x10 8 d.glb.heartbeat.toNat,
   ro 0x18 8 (nsNow d d.glb.shedNs d.glb.shedAt),
   rc 0x20 4 d.glb.bar0Err.toNat (modGlb fun g => { g with bar0Err := 0 }),
   rc 0x24 4 d.glb.cxlmPoison.toNat (modGlb fun g => { g with cxlmPoison := 0 }),
   rc 0x28 4 d.glb.cxlmWdrop.toNat (modGlb fun g => { g with cxlmWdrop := 0 })]

/-- An update of the recovery registers. -/
def modRcv (f : Rcv → Rcv) (d : Dev) : Dev := { d with rcv := f d.rcv }

/-- A write of RCV_CTRL (Table 16.4): COMMIT and ARM are taken, then GO. -/
def writeRcvCtrl (mask v : Nat) (d : Dev) : Dev :=
  let v2 := mergeBits (2 * b2n d.rcv.commit + 4 * b2n d.rcv.arm) mask v
  let d := modRcv (fun r => { r with commit := bit v2 1, arm := bit v2 2 }) d
  if bit (v &&& mask) 0 then writeGo d else d

/-- The recovery registers (R396, R397, Table 16.4). -/
def rcvRegs (d : Dev) : List Reg :=
  let waits := d.rcv.st = 1#3
  [ro 0x00 4 (d.rcv.st.toNat + d.rcv.reason.toNat * 2 ^ 8 + b2n d.rcv.arm * 2 ^ 16),
   rw 0x08 8 d.rcv.addr.toNat (fun v => modRcv fun r => if waits then { r with addr := BitVec.ofNat 64 (v / 4096 * 4096) } else r),
   rw 0x10 4 d.rcv.len.toNat (fun v => modRcv fun r => if waits then { r with len := BitVec.ofNat 32 v } else r),
   ⟨0x14, 4, b2n d.rcv.go + 2 * b2n d.rcv.commit + 4 * b2n d.rcv.arm, id, writeRcvCtrl⟩]

/-- THROTTLE (Table 18.9). -/
def throttleReg (d : Dev) : Nat :=
  d.clk.step.toNat + d.pwr.powerCeil.toNat * 2 ^ 3 + thermCeil d * 2 ^ 6 + b2n d.pwr.rangeActive * 2 ^ 9 +
    b2n d.pwr.phaseActive * 2 ^ 10 + d.pwr.phases % 64 * 2 ^ 11 + d.pwr.tideCeil.toNat * 2 ^ 17 + d.pwr.opLimit.toNat * 2 ^ 20

/-- The power and reset registers (R453, Table 18.9). -/
def pwrRegs (d : Dev) : List Reg :=
  [ro 0x00 4 d.pwr.rstCause.toNat, ro 0x04 4 d.pwr.startStatus.toNat,
   rc 0x08 4 d.pwr.hostResets.toNat (fun d => { d with pwr := { d.pwr with hostResets := 0 } }),
   ro 0x10 8 d.pwr.pwrIn.toNat, ro 0x18 8 d.pwr.temps.toNat, ro 0x20 4 (throttleReg d), ro 0x24 4 d.pwr.limit.toNat]

/-! ### MSI-X and mailboxes (R381, R382, R387) -/

/-- A write of a vector's control word: an unmasked pending vector sends its one message (R387). -/
def setMask (v : Nat) (mask : Bool) (d : Dev) : Dev :=
  let e := (tget d.msix v).getD {}
  let send := e.pending && !mask
  let d := { d with msix := tput d.msix v { e with mask := mask, pending := e.pending && mask } }
  if send then { d with out := { d.out with msgs := (v, e.addr, e.data) :: d.out.msgs } } else d

/-- An update of an MSI-X table entry. -/
def modVec (v : Nat) (f : MsixVec → MsixVec) (d : Dev) : Dev := { d with msix := tput d.msix v (f ((tget d.msix v).getD {})) }

/-- The MSI-X table entry at an offset of the table (PCI Express layout: address, data, mask). -/
def msixRegs (d : Dev) (o : Nat) : List Reg :=
  let v := o / 16
  if 130 ≤ v then [] else
  let e := (tget d.msix v).getD {}
  [rw (16 * v) 8 e.addr.toNat (fun x => modVec v fun e => { e with addr := BitVec.ofNat 64 x }),
   rw (16 * v + 8) 4 e.data.toNat (fun x => modVec v fun e => { e with data := BitVec.ofNat 32 x }),
   rw (16 * v + 12) 4 (b2n e.mask) (fun x => setMask v (bit x 0))]

/-- The MSI-X pending bits (Table 15.2). -/
def pbaRegs (d : Dev) : List Reg :=
  (List.range 3).map (fun k => ro (8 * k) 8 ((List.range 64).foldl (fun a i =>
    a + b2n ((tget d.msix (64 * k + i)).getD {}).pending * 2 ^ i) 0))

/-- MBX_STATUS.STATE (Table 15.6). -/
def mbxCode : MbxSt → Nat
  | .idle => 0
  | .posted => 1
  | .accepted => 2
  | .done => 3

/-- MBX_INFO (Table 15.6). -/
def mbxInfo (d : Dev) (m : Nat) : Nat :=
  m + m / 4 * 2 ^ 8 + (match partOfBlock d (m / 4) with
    | some x => x.pid * 2 ^ 12
    | none => 2 ^ 16)

/-- A write of the request area: taken in IDLE and DONE, else discarded and counted (Table 15.8). -/
def requestWrite (m o mask v : Nat) : Dev → Dev := modMbx m fun x =>
  if x.st = .idle || x.st = .done then { x with req := wrN x.req o 8 (mergeBits (rdN x.req o 8) mask v) }
  else { x with errReq := satAdd16 x.errReq 1 }

/-- The registers of a mailbox near an offset of its 4 KiB (Table 15.6). -/
def mbxRegs (d : Dev) (m o : Nat) : List Reg :=
  let x := getMbx d m
  let a := o / 8 * 8
  [w1 0x00 4 0 (fun v => if bit v 0 then post m else id), ro 0x04 4 (mbxCode x.st + x.seq.toNat * 2 ^ 16), ro 0x08 4 (mbxInfo d m),
   rc 0x0C 4 (x.errReq.toNat + x.errPost.toNat * 2 ^ 16) (modMbx m fun x => { x with errReq := 0, errPost := 0 })] ++
  (if 0x040 ≤ a && a < 0x800 then [⟨a, 8, rdN x.req (a - 0x040) 8, id, requestWrite m (a - 0x040)⟩]
   else if 0x800 ≤ a then [ro a 8 (rdN x.reply (a - 0x800) 8)] else [])

/-! ### DMA channels (R256, Tables 9.9 to 9.11) -/

/-- A write of DMA_CTRL: STOP_ON_ERR and EN, then ABORT, then RESUME. -/
def dmaCtrl (c v : Nat) (d : Dev) : Dev :=
  let d := modDma c (fun x => { x with stopOnErr := bit v 3 }) d
  let d := if bit v 0 || (getDma d c).en then dmaEn c (bit v 0) d else d
  let d := if bit v 1 then dmaAbort c d else d
  if bit v 2 then dmaResume c d else d

/-- A write of DMA_STATUS: CFG_ERR and the interrupt bits clear where 1 is written. -/
def dmaStatusClear (c v : Nat) : Dev → Dev := modDma c fun x => { x with
  cfgErr := x.cfgErr && !bit v 3, irqDone := x.irqDone && !bit v 4, irqErr := x.irqErr && !bit v 5
  irqAbort := x.irqAbort && !bit v 6 }

def dmaStCode : DmaSt → Nat
  | .idle => 0
  | .run => 1
  | .aborting => 2
  | .stopped => 3

/-- DMA_STATUS (Table 9.11). -/
def dmaStatus (x : Dma) : Nat :=
  dmaStCode x.st + b2n x.stallOwn * 2 ^ 2 + b2n x.cfgErr * 2 ^ 3 + b2n x.irqDone * 2 ^ 4 + b2n x.irqErr * 2 ^ 5 +
    b2n x.irqAbort * 2 ^ 6 + b2n x.lockWait.isSome * 2 ^ 7

/-- A write that only an IDLE channel takes (R256). -/
def dmaIdle (c : Nat) (f : Dma → Dma) : Dev → Dev := modDma c fun x => if x.st = .idle then f x else x

/-- The registers of a DMA channel (Table 9.9); bits 11:0 of RING_BASE are reserved and read 0. -/
def dmaRegs (d : Dev) (c : Nat) : List Reg :=
  let x := getDma d c
  [rw 0x00 8 x.ringBase.toNat (fun v => dmaIdle c fun x => { x with ringBase := BitVec.ofNat 64 (v / 4096 * 4096) }),
   rw 0x08 4 x.ringSize.toNat (fun v => dmaIdle c fun x => { x with ringSize := BitVec.ofNat 5 v }),
   rw 0x0C 4 x.tail.toNat (fun v => dmaTail c (BitVec.ofNat 16 v)),
   rw 0x10 4 x.head.toNat (fun v => dmaIdle c fun x => { x with head := BitVec.ofNat 16 v }),
   rw 0x14 4 (b2n x.en + 2 * b2n x.abort + 8 * b2n x.stopOnErr) (fun v => dmaCtrl c v),
   w1 0x18 4 (dmaStatus x) (dmaStatusClear c),
   ro 0x20 8 x.bytesMoved.toNat, ro 0x28 8 x.descDone.toNat, ro 0x30 8 x.lastErr.toNat,
   ro 0x38 8 (nsNow d x.lockWaitNs x.lockWait)]

/-! ### Fault and history registers (R418, Table 17.6) -/

/-- FLT_STATUS: FAULT_N is low while HOLD or the pulse drives it (R420); the group of a BIST_RUN is the first it runs. -/
def fltStatus (d : Dev) : Nat :=
  let f := d.flt
  b2n (f.hold || f.pulse.isSome) + 2 * b2n f.hold + 4 * b2n f.pulse.isSome + 8 * b2n f.sealed + 16 * b2n f.mpFailed +
    32 * b2n f.seFailed + 64 * b2n f.aliveRun + 128 * b2n d.bist.isSome +
    256 * ((d.bist.map (fun b => ((List.range 8).findIdx (fun g => b.groups.getLsbD g)) % 8)).getD 0)

/-- The 32 bytes of a history entry (Table 17.4). -/
def histBytes (e : HistEntry) : List Byte :=
  toLe 8 e.mt.toNat ++ toLe 4 e.orbit.toNat ++ toLe 5 e.ts.toNat ++ toLe 1 e.cls.toNat ++ toLe 2 e.source.toNat ++
    toLe 2 e.cause.toNat ++ toLe 1 e.part.toNat ++ toLe 1 e.seqLo.toNat ++ toLe 8 e.detail.toNat

/-- A write of HIST_TAIL: above HIST_HEAD it is discarded. -/
def histTail (v : Nat) (d : Dev) : Dev :=
  if d.flt.head.toNat < v then d else { d with flt := { d.flt with tail := BitVec.ofNat 64 v } }

/-- The fault registers near an offset (Table 17.6). -/
def fltRegs (d : Dev) (o : Nat) : List Reg :=
  let f := d.flt
  let a := o / 8 * 8
  [ro 0x00 4 (fltStatus d), ro 0x08 8 f.head.toNat, rw 0x10 8 f.tail.toNat histTail,
   rc 0x18 4 f.lost.toNat (fun d => { d with flt := { d.flt with lost := 0 } }), ro 0x20 8 f.notes.toNat,
   ro 0x28 8 f.degrades.toNat, ro 0x30 8 f.halts.toNat, ro 0x38 8 f.lastHalt.toNat, ro 0x40 8 f.firstSeal.toNat] ++
  (if 0x1000 ≤ a && a < 0x1800 then
    [ro a 8 (leNat (sl (((tget f.hist ((a - 0x1000) / 32)).map histBytes).getD []) (a % 32) 8))] else [])

/-! ### Serving windows and ephemeris control (R264, R282) -/

/-- SRV_STATUS (Table 10.4). -/
def srvStatus (x : Part) : Nat := b2n (x.job.st ≠ .none_ && isLeader x) + 2 * b2n x.srv.bank + 4 * b2n x.srv.stale

/-- A write that is taken only while ADMIT is 0 (Table 10.4). -/
def whileClosed (p : Nat) (f : Serving → Serving) : Dev → Dev := modSrv p fun s => if s.admitOn then s else f s

/-- The registers of a partition's serving window (Table 10.4). -/
def srvRegs (x : Part) : List Reg :=
  let p := x.pid
  let s := x.srv
  [rw 0x00 8 s.subBase.toNat (fun v => whileClosed p fun s => { s with subBase := BitVec.ofNat 64 (v / 4096 * 4096) }),
   rw 0x08 4 s.subSize.toNat (fun v => whileClosed p fun s => { s with subSize := BitVec.ofNat 32 (v % 32) }),
   rw 0x0C 4 s.subTail.toNat (fun v => modSrv p fun s => { s with subTail := BitVec.ofNat 16 v }),
   ro 0x10 4 s.subHead.toNat, rw 0x14 4 (b2n s.admitOn) (fun v => setAdmit p (bit v 0)), ro 0x18 4 (srvStatus x),
   ro 0x1C 4 s.reqs.length, ro 0x20 4 x.orbit.toNat, rc 0x24 4 s.staleCount.toNat (modSrv p fun s => { s with staleCount := 0 }),
   ro 0x28 4 (((bankOf x).slots.filter (fun e => e.2.place.id ≠ 0)).length)]

/-- An update of a partition's ephemeris. -/
def modEph (p : Nat) (f : Eph → Eph) : Dev → Dev := modPart p fun y => { y with eph := f y.eph }

/-- A write of EPH_CFG: taken while the partition is EMPTY; EN 0 to 1 starts both rings afresh, since EPH_HEAD and
DIGEST_SEQ count since EN and the first digest's PREV_HASH is 0 (R282, R284). -/
def writeEphCfg (p v : Nat) : Dev → Dev := modPart p fun y =>
  if y.plan ≠ .empty then y else
  let e := y.eph
  let starts := bit v 31 && !ephEn y
  { y with eph := { e with
    cfg := BitVec.ofNat 32 v &&& 0x9F0FFFFF#32, head := if starts then 0 else e.head, tail := if starts then 0 else e.tail
    gap := if starts then 0 else e.gap, digFrom := if starts then 0 else e.digFrom, recs := if starts then [] else e.recs
    held := if starts then none else e.held, digHead := if starts then 0 else e.digHead
    digTail := if starts then 0 else e.digTail, prevHash := if starts then 0 else e.prevHash } }

/-- A write of DIG_CFG: taken while the partition is EMPTY. -/
def writeDigCfg (p v : Nat) : Dev → Dev := modPart p fun y =>
  if y.plan ≠ .empty then y else { y with eph := { y.eph with digCfg := BitVec.ofNat 64 v &&& 0x00FFFFFF03FFFFFF#64 } }

/-- A write of DIG_TAIL: the MP writes a digest that was held back, once the ring has room (R283). -/
def writeDigTail (p v : Nat) (d : Dev) : Dev :=
  whenMp (writeDigest p) (modEph p (fun e => { e with digTail := BitVec.ofNat 64 v }) d)

/-- The ephemeris registers of a partition (Table 10.11). -/
def ephRegs (x : Part) : List Reg :=
  let p := x.pid
  let e := x.eph
  [rw 0x00 4 e.cfg.toNat (writeEphCfg p), ro 0x08 8 e.head.toNat,
   rw 0x10 8 e.tail.toNat (fun v => modEph p fun e => { e with tail := BitVec.ofNat 64 v }),
   rc 0x18 4 e.lost.toNat (modEph p fun e => { e with lost := 0 }), rw 0x20 8 e.digCfg.toNat (writeDigCfg p),
   ro 0x28 8 e.digHead.toNat, rw 0x30 8 e.digTail.toNat (writeDigTail p)]

/-! ### BAR 0 (R374, R375) -/

/-- The block of BAR 0 that holds an offset (Table 15.2): where it starts, and its registers. -/
def bar0Regs (d : Dev) (o : Nat) : Nat × List Reg :=
  let part (p : Nat) (f : Part → List Reg) : List Reg := ((getPart d p).map f).getD []
  if o < 0x1000 then (0, identRegs d)
  else if o < 0x1100 then (0x1000, glbRegs d)
  else if o < 0x1200 then (0x1100, rcvRegs d)
  else if o < 0x2000 then (0x1200, pwrRegs d)
  else if o < 0x8000 then (0, [])
  else if o < 0x9000 then (0x8000, msixRegs d (o - 0x8000))
  else if o < 0xA000 then (0x9000, pbaRegs d)
  else if o < 0x10000 then (0, [])
  else if o < 0x50000 then (o / 4096 * 4096, mbxRegs d (o / 4096 - 16) (o % 4096))
  else if o < 0x100000 then (0, [])
  else if o < 0x120000 then (o / 4096 * 4096, dmaRegs d (o / 4096 - 256))
  else if o < 0x200000 then (0, [])
  else if o < 0x300000 then (0x200000, fltRegs d (o - 0x200000))
  else if o < 0x400000 then (o / 65536 * 65536, part (o / 65536 - 48) srvRegs)
  else if o < 0x410000 then (o / 4096 * 4096, part (o / 4096 - 1024) ephRegs)
  else (0, [])

/-- An aligned access of 32 or 64 bits (R375). -/
def aligned (o n : Nat) : Bool := (n = 4 || n = 8) && o % n = 0

/-- Count an access that BAR 0 does not accept (R375). -/
def countBar0 : Dev → Dev := modGlb fun g => { g with bar0Err := satAdd g.bar0Err 1 }

/-- Answer a read with its data. -/
def readData (v : Nat) (d : Dev) : Dev := { d with out := { d.out with data := BitVec.ofNat 64 v } }

/-- A read of BAR 0: not aligned, it returns all ones and counts (R375). -/
def bar0Read (o n : Nat) (d : Dev) : Dev :=
  if !aligned o n then countBar0 (readData (2 ^ (8 * n) - 1) d) else
  let (b, l) := bar0Regs d o
  regsClear l (o - b) n (readData (regsRead l (o - b) n) d)

/-- DMA registers belong to units that stand still while the module is SEALED (R424). -/
def bar0Takes (d : Dev) (o : Nat) : Bool := !(0x100000 ≤ o && o < 0x200000) || awake d

/-- A write of BAR 0: not aligned, it is discarded and counts (R375). -/
def bar0Write (o n v : Nat) (d : Dev) : Dev :=
  if !aligned o n then countBar0 d
  else if !bar0Takes d o then d
  else
    let (b, l) := bar0Regs d o
    regsWrite l (o - b) n v d

/-- An access that reaches the open diagnostic window (R375, R400). -/
def diagHit (d : Dev) (sp : Space) (o n : Nat) : Bool :=
  sp = .bar0 && hwUp d && aligned o n && decide (0x1000000 ≤ o) && diagOpen d

/-! ### Tile registers (R112, Tables 3.11 to 3.14) -/

def modeCode : SeqMode → Nat
  | .parked => 0
  | .run => 1
  | .halted => 2
  | .frozen => 3

/-- TILE_LOC (Table 3.11). -/
def tileLoc (d : Dev) (t : Nat) : Nat :=
  t % 48 + t / 48 * 2 ^ 8 + tileQ t * 2 ^ 16 + tileR t * 2 ^ 24 +
    (physCol d.crater.force t).getD (Config.noColumn t).toNat * 2 ^ 32 + moonOfTile t * 2 ^ 40

/-- A tile's sequencer state; every tile is FROZEN while the module is SEALED (R105). -/
def tileMode (d : Dev) (x : Tile) : SeqMode := if d.flt.sealed then .frozen else x.mode

/-- SEQ_STATE (Table 3.12). -/
def seqState (d : Dev) (x : Tile) : Nat :=
  modeCode (tileMode d x) + b2n x.resumable * 2 ^ 2 + b2n x.brkHit * 2 ^ 3 + x.pc % 2 ^ 12 * 2 ^ 16 + x.loops.length % 8 * 2 ^ 32 +
    x.skipLeft % 2 ^ 8 * 2 ^ 40 + x.haltCause.toNat * 2 ^ 48

/-- A discarded MP write counts in CMEM_DISCARD and raises a NOTE; a command memory write leaves its command index (R107,
R108, R143). -/
def cmemDiscardEvent (t : Nat) (idx : Option Nat) (d : Dev) : Dev :=
  let d := modTile t (fun x => { x with
    cmemDiscard := BitVec.ofNat 32 (min (fld x.cmemDiscard.toNat 0 16 + 1) 0xFFFF +
      (idx.getD (fld x.cmemDiscard.toNat 16 12)) % 2 ^ 12 * 2 ^ 16) }) d
  raise 0 (0x100 + moonOfTile t) 0x0109 (((partOfTile d t).map (·.pid)).getD 0xFF) (t + idx.getD 0 % 2 ^ 12 * 2 ^ 12) d

/-- An MP write that a tile takes only while it is PARKED (R107, R108, R143). -/
def whenParked (t : Nat) (idx : Option Nat) (f : Tile → Tile) (d : Dev) : Dev :=
  if tileMode d (getTile d t) = .parked then modTile t f d else cmemDiscardEvent t idx d

/-- A write of BRK_CTRL.DBG_EN: 1 is taken only while the diagnostic window is open (R111). -/
def setDbgEn (v : Bool) (opened : Bool) (old : Bool) : Bool := v && (opened || old)

/-- A write of BRK_CTRL (Table 3.14). -/
def writeBrkCtrl (t v : Nat) (d : Dev) : Dev :=
  modTile t (fun x => { x with brkCtrl := BitVec.ofNat 64 (
    b2n (setDbgEn (bit v 0) (diagOpen d) (x.brkCtrl.getLsbD 0)) + fld v 1 3 * 2 + fld v 16 12 * 2 ^ 16 + fld v 32 12 * 2 ^ 32) }) d

/-- The registers of a tile (Table 3.11). -/
def tileRegs (d : Dev) (t : Nat) : List Reg :=
  let x := getTile d t
  let orbitTick := ((partOfTile d t).map (·.tick)).getD 0
  let park (f : Nat → Tile → Tile) (v : Nat) : Dev → Dev := whenParked t none (f v)
  [ro 0x00 8 (tileLoc d t), ro 0x08 8 (seqState d x), w1 0x10 4 0 (fun v => if bit v 0 then modTile t clearTile else id),
   ro 0x18 8 x.issueCount.toNat, ro 0x20 8 orbitTick, rw 0x28 8 x.brkCtrl.toNat (writeBrkCtrl t),
   rw 0x30 8 x.brkCount.toNat (fun v => modTile t fun x => { x with brkCount := BitVec.ofNat 48 v }), ro 0x38 8 x.brkTick.toNat,
   rw 0x40 4 x.ctr0.toNat (park fun v x => { x with ctr0 := BitVec.ofNat 32 v }),
   rw 0x44 4 x.ctr1.toNat (park fun v x => { x with ctr1 := BitVec.ofNat 32 v }),
   rw 0x48 4 x.ctr2.toNat (park fun v x => { x with ctr2 := BitVec.ofNat 32 v }),
   rw 0x4C 4 x.ctr3.toNat (park fun v x => { x with ctr3 := BitVec.ofNat 32 v }),
   rw 0x50 4 x.pred.toNat (park fun v x => { x with pred := BitVec.ofNat 4 v }),
   rw 0x58 8 x.slotPred.toNat (park fun v x => { x with slotPred := BitVec.ofNat 64 v }), ro 0x60 8 x.slotStage.toNat,
   w1 0x68 4 x.seqStatus.toNat (fun v => modTile t fun x => { x with seqStatus := clearFlags seqWatch (BitVec.ofNat 32 v) x.seqNew x.seqStatus }),
   rc 0x70 4 x.cmemDiscard.toNat (modTile t fun x => { x with cmemDiscard := x.cmemDiscard &&& 0x0FFF0000#32 }),
   ro 0x78 8 x.markLog.toNat,
   w1 0x80 4 x.arithStatus.toNat (fun v => modTile t fun x => { x with
     arithStatus := clearFlags arithWatch (BitVec.ofNat 32 v) x.arithNew x.arithStatus })] ++
  (List.range 32).map (fun n =>
    let q := (tget x.queues n).getD {}
    ro (0x100 + 4 * n) 4 (q.count % 2 ^ 16 + q.depth % 2 ^ 16 * 2 ^ 16))

/-! ### Moon registers (R161, R162, R183, R202, R247, R313, R339, R361) -/

/-- The tile moons in which a WAIT holds (R36). -/
def holdMoons (d : Dev) : List Nat :=
  unionNat [] ((d.tiles.filter (fun e => e.2.mode = .run && (e.2.wait.bind (·.hold)).isSome)).map (fun e => moonOfTile e.1))

/-- The tile moons whose clocks a PLL relock or a seam realignment stops (R179, R182). -/
def relockMoons (d : Dev) : List Nat :=
  tileMoons.filter (fun m => d.clk.pllDown.contains (quadOfMoon m) || ((seamGroup m).map d.clk.seamDown.contains).getD false)

/-- Ticks that a tile moon goes on for once the moons of a list stand still (R174): none with one of its seam group, 2 next to one,
4 elsewhere. -/
def leadLeft (stopped : List Nat) (m : Nat) : Nat :=
  if stopped.any (fun k => (stretchSet m).contains k) then 0
  else if stopped.any (fun k => (crossingMoons m).contains k) then 2 else 4

/-- A tile moon stands still in a pause of the lattice: a pacing pause stops every moon at once, another one as coupling spreads. -/
def moonRests (d : Dev) (m : Nat) : Bool :=
  let lead := if d.parts.any (fun e => e.2.fab.pace.isSome) then 0 else leadLeft (unionNat (holdMoons d) (relockMoons d)) m
  0 < (getMoon d m).restG || (latticePaused d && decide (tickEnd (getMoon d m) + lead * period d.clk.step ≤ d.clk.wall))

/-- CLK_STATUS.STATE (Table 6.8). -/
def moonState (d : Dev) (m : Nat) : Nat :=
  match (getMoon d m).st with
  | .notStarted => 3
  | .pausedCoupling => 1
  | .pausedSwitch => 2
  | .running =>
    if 36 ≤ m then (if m < 44 && d.clk.pllDown.contains (m - 32) then 2 else 0)
    else if (d.clk.busy && decide (d.clk.goAt ≤ d.clk.wall)) || (relockMoons d).contains m then 2
    else b2n (moonRests d m)

/-- PAUSE_NS (Table 6.7), with the pause that lasts. -/
def pauseNs (d : Dev) (m : Nat) : Nat :=
  let x := getMoon d m
  (x.pauseG + (if moonState d m = 1 || moonState d m = 2 then d.clk.wall - tickEnd x - x.restG else 0)) / grain

/-- CLK_STATUS (Table 6.8). -/
def clkStatus (d : Dev) (m : Nat) : Nat :=
  let x := getMoon d m
  moonState d m + (if m < 36 then d.clk.step.toNat else 0) * 2 ^ 2 + b2n x.stretching * 2 ^ 5 + b2n x.pllLock * 2 ^ 6 +
    b2n d.clk.refSel * 2 ^ 7 + b2n (d.clk.holdover || d.clk.freeRun) * 2 ^ 8 + b2n x.seamAligned * 2 ^ 9

/-- MOON_ID (Table 6.7). -/
def moonId (m : Nat) : Nat :=
  if m < 36 then m + quadOfMoon m * 2 ^ 12 + ((seamGroup m).getD 0xF) * 2 ^ 16
  else if m < 40 then m + 2 ^ 8 + (m - 36) * 2 ^ 12 + 0xF * 2 ^ 16
  else if m < 44 then m + 2 * 2 ^ 8 + (m - 40) * 2 ^ 12 + 0xF * 2 ^ 16
  else m + 3 * 2 ^ 8 + 0xF * 2 ^ 16

/-- A write of DROOP_CFG: a threshold out of range discards it; STRETCH_EN is writable to 0 only while the diagnostic window
is open (Table 6.9). -/
def writeDroop (m v : Nat) (d : Dev) : Dev :=
  let thr := fld v 0 7
  let tide := fld v 8 10
  if thr = 0 || 100 < thr || tide = 0 then d
  else modMoon m (fun x => { x with
    droopThr := BitVec.ofNat 7 thr, tideThr := BitVec.ofNat 10 tide, stretchEn := bit v 7 || (x.stretchEn && !diagOpen d) }) d

/-- The clock registers every moon has, and those of tile moons (Table 6.7). -/
def clockRegs (d : Dev) (m : Nat) : List Reg :=
  let x := getMoon d m
  [ro 0x00 4 (moonId m), ro 0x08 4 (clkStatus d m),
   rw 0x10 4 (x.droopThr.toNat + b2n x.stretchEn * 2 ^ 7 + x.tideThr.toNat * 2 ^ 8) (writeDroop m),
   ro 0x18 8 x.stretchCount.toNat, rc 0x20 4 x.tideExc.toNat (modMoon m fun x => { x with tideExc := 0 }),
   ro 0x60 8 x.latticeTick.toNat] ++
  (if m < 36 then
    [ro 0x28 8 (pauseNs d m % 2 ^ 64), rc 0x30 4 x.pauseCount.toNat (modMoon m fun x => { x with pauseCount := 0 }),
     rc 0x34 4 x.leadMax.toNat (modMoon m fun x => { x with leadMax := 0 })] ++
    (List.range 4).map (fun k => ro (0x40 + 4 * k) 4 ((tget x.xcal k).getD 0).toNat)
   else [])

/-- SLICE_MAP (R162). -/
def sliceMap (m : Nat) : Nat :=
  ((List.range 4).zip (moonBlocks m)).foldl (fun a e => a + e.2 * 2 ^ (4 * e.1) + 2 ^ (16 + e.1)) 0

/-- The mesh and wait counters of a tile moon's slices (Table 5.10, R162). -/
def sliceRegs (d : Dev) (m : Nat) : List Reg :=
  ro 0x7F0 4 (sliceMap m) :: (List.range 4).flatMap (fun s =>
    let x := getSlice d m s
    let b := 0x800 + 0x100 * s
    [ro b 8 x.meshBusy.toNat, rc (b + 0x08) 4 x.misdeliver.toNat (modSlice m s fun x => { x with misdeliver := 0 }),
     rc (b + 0x0C) 4 x.hperr.toNat (modSlice m s fun x => { x with hperr := 0 }),
     rc (b + 0x10) 4 x.perr.toNat (modSlice m s fun x => { x with perr := 0 }),
     ro (b + 0x18) 8 x.waitCount0.toNat, ro (b + 0x20) 8 x.waitCount1.toNat, ro (b + 0x28) 8 x.waitFill0.toNat,
     ro (b + 0x30) 8 x.waitFill1.toNat,
     rc (b + 0x38) 4 x.marginMin0.toNat (modSlice m s fun x => { x with marginMin0 := 0xFFFFFFFF#32 }),
     rc (b + 0x3C) 4 x.marginMin1.toNat (modSlice m s fun x => { x with marginMin1 := 0xFFFFFFFF#32 }),
     ro (b + 0x40) 8 x.holdNs0.toNat, ro (b + 0x48) 8 x.holdNs1.toNat,
     rc (b + 0x50) 4 x.holdCount.toNat (modSlice m s fun x => { x with holdCount := 0 })])

def chanStCode : ChanSt → Nat
  | .notTrained => 0
  | .up => 1
  | .retraining => 2
  | .down => 3
  | .disabled => 4

/-- The registers of a channel (Tables 7.4 and 7.5), at their offset in the moon. -/
def chanRegs (d : Dev) (c : Nat) : List Reg :=
  let x := getChan d c
  let b := 0x200 + 0x40 * (c % 12)
  [ro b 4 (chanStCode x.st + c / 3 * 2 ^ 3 + b2n x.deferred * 2 ^ 7 + x.temp.toNat * 2 ^ 8),
   rc (b + 0x04) 4 x.retrain.toNat (modChan c fun x => { x with retrain := 0 }), ro (b + 0x08) 8 x.rdBytes.toNat,
   ro (b + 0x10) 8 x.wrBytes.toNat, ro (b + 0x18) 8 (x.pinBytes / 128 % 2 ^ 64), ro (b + 0x20) 8 x.refreshNs.toNat,
   rc (b + 0x28) 4 x.crcRetry.toNat (modChan c fun x => { x with crcRetry := 0 }),
   rc (b + 0x2C) 4 x.eccCorr.toNat (modChan c fun x => { x with eccCorr := 0 }),
   rc (b + 0x30) 4 x.readFail.toNat (modChan c fun x => { x with readFail := 0 }),
   rc (b + 0x34) 4 x.qmax.toNat (modChan c fun x => { x with qmax := 0 }),
   ro (b + 0x38) 8 (nsNow d x.retrainNs (if x.st = .retraining then some x.retrainAt else none))]

/-- The moon-wide registers of a memory moon (Tables 7.6 and 9.5). A W1C of SLOT_FENCE reaches all four moons, which read the
same (R247). -/
def memMoonRegs (d : Dev) (q : Nat) : List Reg :=
  let x := getMm d q
  [rc 0x800 4 x.wbufMax.toNat (modMm q fun x => { x with wbufMax := 0 }), ro 0x808 8 x.otherBytes.toNat,
   ro 0x810 8 x.xqBytes.toNat, rc 0x818 4 x.reqqMax.toNat (modMm q fun x => { x with reqqMax := 0 }),
   rc 0x81C 4 x.reqqOvf.toNat (modMm q fun x => { x with reqqOvf := 0 }), ro 0x940 8 x.fenceFirst.toNat,
   rc 0x948 4 x.fenceCount.toNat (modMm q fun x => { x with fenceCount := 0 })] ++
  (List.range 8).map (fun k => w1 (0x900 + 8 * k) 8 (fld x.slotFence.toNat (64 * k) 64) (fun v =>
    forEach (((List.range 64).filter (bit v)).map (64 * k + ·)) clearFence))

/-- A write of PORT_CTRL (Table 11.15): EN, DARK, RETRAIN, FORCE_DOWN. -/
def portCtrl (p v : Nat) (d : Dev) : Dev :=
  let d := if bit v 0 ≠ (getPort d p).en then portEn p (bit v 0) d else d
  let d := if bit v 2 ≠ (getPort d p).darkBit then (if bit v 2 then setDark p d else clearDark p d) else d
  let d := if bit v 1 then portRetrain p d else d
  if bit v 3 then forceDown p d else d

/-- The registers of a port near an offset of the moon (Table 11.13). -/
def portRegs (d : Dev) (q o : Nat) : List Reg :=
  if o < 0x200 || 0xA00 ≤ o then [] else
  let k := (o - 0x200) / 0x100
  let p := 8 * q + k
  let b := 0x200 + 0x100 * k
  let y := getPort d p
  let bytes := portBytes d p
  (List.range 64).map (fun i =>
    let v := lf bytes (4 * i) 4
    if i = 1 then rw (b + 4) 4 v (portCtrl p)
    else if i = 2 then rw (b + 8) 4 (y.jobTag.toNat + y.jobEpoch.toNat * 2 ^ 16) (fun v => writeJobId p (BitVec.ofNat 32 v))
    else if i = 7 || (12 ≤ i && i ≤ 25) then rc (b + 4 * i) 4 v (modPort p (clearPort (· = 4 * i)))
    else ro (b + 4 * i) 4 v)

/-- A write of CLK_CTRL (Table 6.10): STEP_ERR clears where 1 is written; REF_PREF and REF_AUTO are taken; the target is taken
unless a step change is in progress, and GO starts one (R169, R170). -/
def writeClkCtrl (mask v : Nat) (d : Dev) : Dev :=
  let d := if bit (v &&& mask) 5 then { d with clk := { d.clk with stepErr := false } } else d
  let d := if bit mask 9 then setRefAuto (bit v 9) d else d
  let d := if bit mask 8 then selectRef (bit v 8) d else d
  let tgt := BitVec.ofNat 3 (mergeBits d.clk.tgt.toNat (mask % 8) v)
  if bit (v &&& mask) 3 then goStep tgt d
  else if d.clk.busy then d else { d with clk := { d.clk with tgt := tgt } }

/-- The clock control registers of MOON[44] (Tables 6.10 and 6.11). -/
def clkRegs (d : Dev) : List Reg :=
  let c := d.clk
  [⟨0x100, 4, c.tgt.toNat + 8 * b2n c.busy + 16 * b2n c.busy + 32 * b2n c.stepErr + 256 * b2n c.refPref + 512 * b2n c.refAuto,
    id, writeClkCtrl⟩,
   w1 0x108 4 c.events.toNat (fun v d => { d with clk := { d.clk with events := d.clk.events &&& ~~~BitVec.ofNat 32 v } })]

/-- The machine-time registers (Table 12.9). -/
def mtRegs (d : Dev) : List Reg :=
  [ro 0x380 8 d.mt.mt.toNat, ro 0x388 4 (d.mt.stratum.toNat + d.mt.parent.getD 0 * 2 ^ 8 + b2n d.mt.root * 2 ^ 13),
   ro 0x390 8 d.mt.offset.toNat]

/-- An update of a partition's fabric state that is made only while the partition is not RUNNING (R339). -/
def whileStill (p : Nat) (f : Fab → Fab) : Dev → Dev := modPart p fun y =>
  if y.plan = .running then y else { y with fab := f y.fab }

/-- A field of FAB_TIMING is outside its range: PACE_NS is 100 ns to 1 ms and LATE_INC_NS 4 to 200 us, and DRIFT_NS is at least PACE_NS
(R317, R322, Table 12.9). -/
def timingBad (v : Nat) : Bool :=
  fld v 0 20 < 100 || 1000000 < fld v 0 20 || fld v 20 20 < fld v 0 20 || fld v 40 18 < 4000 || 200000 < fld v 40 18

/-- A write of FAB_TIMING (Table 12.9): a field out of range discards it. -/
def writeTiming (p v : Nat) (d : Dev) : Dev :=
  if timingBad v then d
  else whileStill p (fun f => { f with timing := BitVec.ofNat 64 (v % 2 ^ 58) }) d

/-- A write of FAB_MODE (Table 12.9): MARK_ROUNDS out of range discards it; bit 9 is read only. -/
def writeMode (p v : Nat) (d : Dev) : Dev :=
  if fld v 0 7 < 2 || 64 < fld v 0 7 then d
  else whileStill p (fun f => { f with
    mode := BitVec.ofNat 32 (fld v 0 7 + b2n (bit v 8) * 2 ^ 8 + b2n (f.mode.getLsbD 9) * 2 ^ 9) }) d

def jobStCode : JobSt → Nat
  | .none_ => 0
  | .preparing => 1
  | .ready => 2
  | .armed => 3
  | .running => 4
  | .stopped => 5
  | .failed => 6

/-- An update of a partition's fabric counters. -/
def modFabReg (p : Nat) (f : Fab → Fab) : Dev → Dev := modPart p fun y => { y with fab := f y.fab }

/-- The fabric and job registers of a partition (Tables 12.9 and 13.9), at their offset in MOON[44]. -/
def fabRegs (d : Dev) (x : Part) : List Reg :=
  let p := x.pid
  let b := 0x400 + 0x80 * p
  let f := x.fab
  let j := x.job
  [rw b 8 f.timing.toNat (writeTiming p), rw (b + 0x08) 4 f.mode.toNat (writeMode p),
   rc (b + 0x30) 4 f.resendTx.toNat (modFabReg p fun f => { f with resendTx := 0 }),
   rc (b + 0x34) 4 f.receiptTx.toNat (modFabReg p fun f => { f with receiptTx := 0 }),
   rc (b + 0x38) 4 f.abandoned.toNat (modFabReg p fun f => { f with abandoned := 0 }),
   rc (b + 0x3C) 4 f.goneRx.toNat (modFabReg p fun f => { f with goneRx := 0 }),
   rc (b + 0x40) 4 f.cometDrop.toNat (modFabReg p fun f => { f with cometDrop := 0 }),
   rc (b + 0x44) 4 f.cometNoroute.toNat (modFabReg p fun f => { f with cometNoroute := 0 }),
   rc (b + 0x48) 4 f.markLag.toNat (modFabReg p fun f => { f with markLag := 0 }),
   ro (b + 0x50) 8 (nsNow d f.paceWaitNs f.pace),
   ro (b + 0x58) 4 (jobStCode j.st + j.lastFail.toNat * 2 ^ 8 + b2n j.ckpt.isSome * 2 ^ 16 + j.ckptStatus.toNat * 2 ^ 24),
   ro (b + 0x5C) 4 (j.tag.toNat + j.epoch.toNat * 2 ^ 16), ro (b + 0x60) 4 (j.rank + (j.modules - 1) * 2 ^ 16),
   ro (b + 0x64) 4 j.discOk.toNat, ro (b + 0x68) 4 j.discMissing.toNat, ro (b + 0x6C) 4 j.discMiswired.toNat,
   ro (b + 0x70) 4 j.discForeign.toNat, ro (b + 0x74) 4 j.discExtra.toNat, ro (b + 0x78) 8 j.ckptDone.toNat] ++
  (List.range 4).map (fun k => ro (b + 0x10 + 8 * k) 8 (fld f.detour.toNat (64 * k) 64))

/-- The registers of a moon near an offset. -/
def moonRegs (d : Dev) (m o : Nat) : List Reg :=
  clockRegs d m ++
  (if m < 36 then sliceRegs d m
   else if m < 40 then (List.range 12).flatMap (fun k => chanRegs d (12 * (m - 36) + k)) ++ memMoonRegs d (m - 36)
   else if m < 44 then portRegs d (m - 40) o
   else clkRegs d ++ mtRegs d ++ d.parts.flatMap (fun e => fabRegs d e.2))

/-! ### Memories and tables that the MP reaches (R76, R143, R235) -/

/-- A partition's plan holds a tile's command memory: nothing but the loader writes it until the plan is unloaded (R25). -/
def planHolds (d : Dev) (t : Nat) : Bool := ((partOfTile d t).map (fun x => x.info.isSome)).getD false

/-- An MP store of 64 bits into command memory (R25, R107). -/
def cmemWrite (t o : Nat) (v : BitVec 64) (d : Dev) : Dev :=
  if o % 8 ≠ 0 then d
  else if tileMode d (getTile d t) = .parked && planHolds d t then d
  else whenParked t (some (o / 16)) (fun x => { x with
    cmem := wrN x.cmem o 8 v.toNat, cmemBad := x.cmemBad.filter (fun a => decide (a < o) || decide (o + 8 ≤ a)) }) d

/-- An MP store of 64 bits into a scratchpad of 192 KiB (R142, R143). -/
def spadWrite (t o : Nat) (v : BitVec 64) (d : Dev) : Dev :=
  if o % 8 ≠ 0 || 196608 ≤ o then d
  else whenParked t none (fun x => { x with
    spad := wrN x.spad o 8 v.toNat, spadBad := x.spadBad.filter (fun a => decide (a < o) || decide (o + 8 ≤ a)) }) d

/-- The context page table entry that an MP store leaves (Table 9.1): DMA_LOCK, INCOMPLETE and RESUME_OFF stay, and a LOCKED page
does not become PINNED (R238). -/
def cptStored (old v : Nat) : Nat :=
  let v := if eLock old then setBit v 1 false else v
  mergeBits old 0xFFFFFFFF9F v

/-- The 64-bit words of a memory or table as registers, near an offset. -/
def wordRegs (d : Dev) (sp : Space) (o : Nat) : List Reg :=
  let a := o / 8 * 8
  match sp with
  | .commandMemory t =>
    if 65536 ≤ a then [] else [rw a 8 (rdN (getTile d t).cmem a 8) (fun v => cmemWrite t a (BitVec.ofNat 64 v))]
  | .scratchpad t =>
    if 196608 ≤ a then [] else [rw a 8 (rdN (getTile d t).spad a 8) (fun v => spadWrite t a (BitVec.ofNat 64 v))]
  | .contextTable =>
    let i := a / 8
    if 1048576 ≤ i then [] else [rw a 8 (cptE d i) (fun v d =>
      { setCpt i (cptStored (cptE d i) v) d with cptBad := d.cptBad.filter (· ≠ i) })]
  | .weightTable =>
    let i := a / 8
    if 262144 ≤ i then [] else [rw a 8 (wptE d i) (fun v d =>
      { d with wpt := tput d.wpt i (BitVec.ofNat 64 (v &&& 0xFFFFFFFF11)), wptBad := d.wptBad.filter (· ≠ i) })]
  | _ => []

/-- A read of n bytes meets a byte or an entry with bad parity, and the MP is told (R143, R238). -/
def badParity (d : Dev) (sp : Space) (o n : Nat) : Bool :=
  let within (a : Nat) : Bool := decide (o ≤ a) && decide (a < o + n)
  match sp with
  | .commandMemory t => (getTile d t).cmemBad.any within
  | .scratchpad t => (getTile d t).spadBad.any within
  | .contextTable => d.cptBad.contains (o / 8)
  | .weightTable => d.wptBad.contains (o / 8)
  | _ => false

/-! ### Configuration space and the HDM decoder (R11, R370, R371, R374) -/

/-- BAR 2 is there: the link has trained as CXL (R372). -/
def bar2There (d : Dev) : Bool := d.glb.cxl

/-- Configuration space: vendor, device, class code, revision, BAR 0 of 64 MiB, BAR 2 of 64 GiB, which reads as size 0 in PCIe
fallback, and the subsystem vendor ID. -/
def configRegs (d : Dev) : List Reg :=
  [ro 0x00 4 (Config.vendor.toNat + 0x9216 * 2 ^ 16), ro 0x08 4 (0x120000 * 2 ^ 8),
   rw 0x10 8 (d.cfg.bar0.toNat + 4) (fun v d => { d with cfg := { d.cfg with bar0 := BitVec.ofNat 64 (v / 2 ^ 26 * 2 ^ 26) } }),
   rw 0x18 8 (if bar2There d then d.cfg.bar2.toNat + 12 else 0) (fun v d =>
     if bar2There d then { d with cfg := { d.cfg with bar2 := BitVec.ofNat 64 (v / 2 ^ 36 * 2 ^ 36) } } else d),
   ro 0x2C 4 (Config.vendor.toNat + Config.subsystem.toNat * 2 ^ 16)]

/-- Configuration space near an offset: what the spec does not name there is the standards' (log entry 181). -/
def configNear (d : Dev) (o : Nat) : List Reg :=
  let a := o / 4 * 4
  let l := (configRegs d).filter (touches a 4)
  if l.isEmpty then [ro a 4 (Config.configSpace (a / 4)).toNat] else l

/-- COMMITTED of the HDM decoder's control. -/
def hdmLocked (c : HostCfg) : Bool := c.hdmCtrl.getLsbD 10

/-- A write of the HDM decoder's control: COMMIT takes a decoder of 64 GiB and one way, and no other (R370). -/
def writeHdmCtrl (v : Nat) (c : HostCfg) : HostCfg :=
  let ok := c.hdmSize = 0x1000000000#64 && fld v 4 4 = 0
  let st := if !bit v 9 then 0 else if ok then 2 ^ 10 else 2 ^ 11
  { c with hdmCtrl := BitVec.ofNat 32 (fld v 0 10 + st + b2n (bit v 12) * 2 ^ 12) }

/-- The HDM decoder, base, size and control; once committed it stands. -/
def hdmRegs (d : Dev) : List Reg :=
  let put (f : Nat → HostCfg → HostCfg) (v : Nat) (d : Dev) : Dev := if hdmLocked d.cfg then d else { d with cfg := f v d.cfg }
  [rw 0x10 8 d.cfg.hdmBase.toNat (put fun v c => { c with hdmBase := BitVec.ofNat 64 (v / 2 ^ 28 * 2 ^ 28) }),
   rw 0x18 8 d.cfg.hdmSize.toNat (put fun v c => { c with hdmSize := BitVec.ofNat 64 (v / 2 ^ 28 * 2 ^ 28) }),
   rw 0x20 4 d.cfg.hdmCtrl.toNat (put writeHdmCtrl)]

/-- The registers of the function that the host reaches over a trained link, outside its BARs. -/
def hostRegs (d : Dev) (sp : Space) (o : Nat) : List Reg :=
  match sp with
  | .config => configNear d o
  | .hdmDecoder => if d.glb.cxl then hdmRegs d else []
  | _ => []

/-- A dword access of the host to them. -/
def hostReg (sp : Space) (o n : Nat) (f : List Reg → Dev → Dev) (d : Dev) : Dev :=
  if linkUp d && n = 4 && o % 4 = 0 then f (hostRegs d sp o) d else d

/-! ### The rows -/

/-- The registers of a space that the MP reaches, near an offset. -/
def mpRegs (d : Dev) (sp : Space) (o : Nat) : List Reg :=
  match sp with
  | .bar0 => []
  | .tile t => tileRegs d t.val
  | .moon m => moonRegs d m.val o
  | s => wordRegs d s o

/-- A read by the MP: its data, and whether it reports a parity error. -/
def mpRead (sp : Space) (o n : Nat) (d : Dev) : Dev :=
  if !aligned o n then d
  else
    let d := freeTicks d
    let e := readData (regsRead (mpRegs d sp o) o n) d
    regsClear (mpRegs d sp o) o n { e with out := { e.out with parity := badParity d sp o n } }

/-- A read of a register (R13): an RC register clears. The host reads BAR 0, the MP the other spaces. -/
def regRead (sp : Space) (o n : Nat) : Dev → Dev :=
  match sp with
  | .bar0 => whenHost (bar0Read o n)
  | .config | .hdmDecoder => whenHost (hostReg sp o n (fun l => readData (regsRead l o n)))
  | s => whenMp (mpRead s o n)

/-- READ_CLEAR (R13). -/
def execReadClear (sp : Space) (off : BitVec 26) (wide : Bool) (s : State) : Host.Outcome State Fault Refusal :=
  let n := if wide then 8 else 4
  if diagHit s.dev sp off.toNat n then .refused .diagWindow else on (regRead sp off.toNat n) s

/-- A write of a register (R13), by its access code. -/
def regWrite (sp : Space) (o n v : Nat) : Dev → Dev :=
  match sp with
  | .bar0 => whenHost (bar0Write o n v)
  | .config | .hdmDecoder => whenHost (hostReg sp o n (fun l => regsWrite l o n v))
  | s => whenMp fun d => if !aligned o n then d else regsWrite (mpRegs d s o) o n v d

/-- REGISTER_WRITE (R13). -/
def execRegisterWrite (sp : Space) (off : BitVec 26) (bytes : Nat) (v : BitVec 64) (s : State) :
    Host.Outcome State Fault Refusal :=
  if diagHit s.dev sp off.toNat bytes then .refused .diagWindow else on (regWrite sp off.toNat bytes v.toNat) s

/-- COMMAND_MEMORY_WRITE (R107). -/
def execCommandMemoryWrite (tile : Fin 2304) (off : BitVec 16) (v : BitVec 64) : State → Host.Outcome State Fault Refusal :=
  on (whenMp (cmemWrite tile.val off.toNat v))

/-- SCRATCHPAD_WRITE (R143). -/
def execScratchpadWrite (tile : Fin 2304) (off : BitVec 18) (v : BitVec 64) : State → Host.Outcome State Fault Refusal :=
  on (whenMp (spadWrite tile.val off.toNat v))

/-- CLEAR (R105). -/
def execClear (tile : Fin 2304) : State → Host.Outcome State Fault Refusal := on (whenMp (modTile tile.val clearTile))

/-- A write of DBG_EN alone (R111). -/
def writeDbgEn (t : Nat) (v : Bool) (d : Dev) : Dev :=
  modTile t (fun x => { x with brkCtrl :=
    (x.brkCtrl &&& 0xFFFFFFFFFFFFFFFE#64) ||| BitVec.ofNat 64 (b2n (setDbgEn v (diagOpen d) (x.brkCtrl.getLsbD 0))) }) d

/-- DBG_EN (R111). -/
def execDbgEn (tile : Fin 2304) (v : Bool) : State → Host.Outcome State Fault Refusal := on (whenMp (writeDbgEn tile.val v))

end Sys2Proof.Machine
end

