-- ==== Sys2Proof/Machine/Dispatch.lean ====
section
/-!
DEFINITION. The one dispatch of the model: one arm for each command, each a direct call of the command's meaning.
-/

namespace Sys2Proof.Machine

/-- The effect of one command on everything but the queue of waiting commands. -/
def exec (i : Instr) (s : State) : Host.Outcome State Fault Refusal :=
  match i with
  | .nop tile => Sys2Proof.Machine.execNop tile s
  | .illOpc tile => Sys2Proof.Machine.execIllOpc tile s
  | .matq tile => Sys2Proof.Machine.execMatq tile s
  | .matqDrain tile => Sys2Proof.Machine.execMatqDrain tile s
  | .vecq tile => Sys2Proof.Machine.execVecq tile s
  | .funq tile => Sys2Proof.Machine.execFunq tile s
  | .send tile => Sys2Proof.Machine.execSend tile s
  | .recv tile => Sys2Proof.Machine.execRecv tile s
  | .load tile => Sys2Proof.Machine.execLoad tile s
  | .store tile => Sys2Proof.Machine.execStore tile s
  | .wait tile => Sys2Proof.Machine.execWait tile s
  | .waitRelease tile => Sys2Proof.Machine.execWaitRelease tile s
  | .holdEnd tile => Sys2Proof.Machine.execHoldEnd tile s
  | .holdLimitExpiry tile => Sys2Proof.Machine.execHoldLimitExpiry tile s
  | .cnt tile => Sys2Proof.Machine.execCnt tile s
  | .cmp tile => Sys2Proof.Machine.execCmp tile s
  | .skip tile => Sys2Proof.Machine.execSkip tile s
  | .rept tile => Sys2Proof.Machine.execRept tile s
  | .spld tile => Sys2Proof.Machine.execSpld tile s
  | .mark tile => Sys2Proof.Machine.execMark tile s
  | .brk tile => Sys2Proof.Machine.execBrk tile s
  | .breakPark part => Sys2Proof.Machine.execBreakPark part s
  | .orbitBoundary part => Sys2Proof.Machine.execOrbitBoundary part s
  | .pacingEnd part => Sys2Proof.Machine.execPacingEnd part s
  | .slotStageWrite part => Sys2Proof.Machine.execSlotStageWrite part s
  | .meshArrival tile => Sys2Proof.Machine.execMeshArrival tile s
  | .memoryDelivery tile q => Sys2Proof.Machine.execMemoryDelivery tile q s
  | .fenceReceive q => Sys2Proof.Machine.execFenceReceive q s
  | .storeWrite q idx => Sys2Proof.Machine.execStoreWrite q idx s
  | .refresh ch ns => Sys2Proof.Machine.execRefresh ch ns s
  | .routineRetraining ch => Sys2Proof.Machine.execRoutineRetraining ch s
  | .crcRetraining ch => Sys2Proof.Machine.execCrcRetraining ch s
  | .trainingPass ch => Sys2Proof.Machine.execTrainingPass ch s
  | .trainingFail ch => Sys2Proof.Machine.execTrainingFail ch s
  | .readCrcFail ch who err => Sys2Proof.Machine.execReadCrcFail ch who err s
  | .eccRead ch count => Sys2Proof.Machine.execEccRead ch count s
  | .deviceTemperatureRead ch temp => Sys2Proof.Machine.execDeviceTemperatureRead ch temp s
  | .tieredRead tile q corrected => Sys2Proof.Machine.execTieredRead tile q corrected s
  | .pageMap m => Sys2Proof.Machine.execPageMap m s
  | .pageUnmap m => Sys2Proof.Machine.execPageUnmap m s
  | .pageRead m => Sys2Proof.Machine.execPageRead m s
  | .dmaEn c v => Sys2Proof.Machine.execDmaEn c v s
  | .abort c => Sys2Proof.Machine.execAbort c s
  | .resume c => Sys2Proof.Machine.execResume c s
  | .tail c v => Sys2Proof.Machine.execTail c v s
  | .descriptorRead c => Sys2Proof.Machine.execDescriptorRead c s
  | .descriptorReadFail c => Sys2Proof.Machine.execDescriptorReadFail c s
  | .lockWaitEnd c => Sys2Proof.Machine.execLockWaitEnd c s
  | .burst c => Sys2Proof.Machine.execBurst c s
  | .hostCompletionTimeout c => Sys2Proof.Machine.execHostCompletionTimeout c s
  | .writeBack c => Sys2Proof.Machine.execWriteBack c s
  | .abortWriteBack c => Sys2Proof.Machine.execAbortWriteBack c s
  | .submit part => Sys2Proof.Machine.execSubmit part s
  | .admitWrite part v => Sys2Proof.Machine.execAdmitWrite part v s
  | .placement part => Sys2Proof.Machine.execPlacement part s
  | .stale part => Sys2Proof.Machine.execStale part s
  | .placementReceive part => Sys2Proof.Machine.execPlacementReceive part s
  | .slotTableBuild part => Sys2Proof.Machine.execSlotTableBuild part s
  | .tokenDelivery part => Sys2Proof.Machine.execTokenDelivery part s
  | .gap part => Sys2Proof.Machine.execGap part s
  | .weightLoad m => Sys2Proof.Machine.execWeightLoad m s
  | .shardFetchDone part m shard => Sys2Proof.Machine.execShardFetchDone part m shard s
  | .shardTimeout part m shard => Sys2Proof.Machine.execShardTimeout part m shard s
  | .weightFlip m => Sys2Proof.Machine.execWeightFlip m s
  | .weightRelease m => Sys2Proof.Machine.execWeightRelease m s
  | .adapterLoad m => Sys2Proof.Machine.execAdapterLoad m s
  | .adapterDelete m => Sys2Proof.Machine.execAdapterDelete m s
  | .installOpen m => Sys2Proof.Machine.execInstallOpen m s
  | .imageBegin m => Sys2Proof.Machine.execImageBegin m s
  | .blockWrite m => Sys2Proof.Machine.execBlockWrite m s
  | .imageCommit m => Sys2Proof.Machine.execImageCommit m s
  | .imageDelete m => Sys2Proof.Machine.execImageDelete m s
  | .installClose m => Sys2Proof.Machine.execInstallClose m s
  | .journalReplay => Sys2Proof.Machine.execJournalReplay s
  | .storeReady => Sys2Proof.Machine.execStoreReady s
  | .post m => Sys2Proof.Machine.execPost m s
  | .mpAccept m => Sys2Proof.Machine.execMpAccept m s
  | .auto m => Sys2Proof.Machine.execAuto m s
  | .shed => Sys2Proof.Machine.execShed s
  | .shedClear => Sys2Proof.Machine.execShedClear s
  | .partCreate m => Sys2Proof.Machine.execPartCreate m s
  | .partDestroy m => Sys2Proof.Machine.execPartDestroy m s
  | .timeRoot m => Sys2Proof.Machine.execTimeRoot m s
  | .stepLimit m => Sys2Proof.Machine.execStepLimit m s
  | .transitRead m => Sys2Proof.Machine.execTransitRead m s
  | .dirRead m => Sys2Proof.Machine.execDirRead m s
  | .planLoad m => Sys2Proof.Machine.execPlanLoad m s
  | .planUnload m => Sys2Proof.Machine.execPlanUnload m s
  | .partStop m => Sys2Proof.Machine.execPartStop m s
  | .partRestart m => Sys2Proof.Machine.execPartRestart m s
  | .partResume m => Sys2Proof.Machine.execPartResume m s
  | .levelReport m => Sys2Proof.Machine.execLevelReport m s
  | .holdLimit m => Sys2Proof.Machine.execHoldLimit m s
  | .selectorLoad m => Sys2Proof.Machine.execSelectorLoad m s
  | .reqCancel m => Sys2Proof.Machine.execReqCancel m s
  | .reqEclipse m => Sys2Proof.Machine.execReqEclipse m s
  | .reqResume m => Sys2Proof.Machine.execReqResume m s
  | .reqRemap m => Sys2Proof.Machine.execReqRemap m s
  | .budgetSet m => Sys2Proof.Machine.execBudgetSet m s
  | .rankWrite m => Sys2Proof.Machine.execRankWrite m s
  | .jobPrepare m => Sys2Proof.Machine.execJobPrepare m s
  | .jobGo m => Sys2Proof.Machine.execJobGo m s
  | .jobStop m => Sys2Proof.Machine.execJobStop m s
  | .ckptTake m => Sys2Proof.Machine.execCkptTake m s
  | .ckptRestore m => Sys2Proof.Machine.execCkptRestore m s
  | .routeSwitch m => Sys2Proof.Machine.execRouteSwitch m s
  | .portRead m => Sys2Proof.Machine.execPortRead m s
  | .portCtrl m => Sys2Proof.Machine.execPortCtrl m s
  | .bistRun m => Sys2Proof.Machine.execBistRun m s
  | .bistRunEnd find => Sys2Proof.Machine.execBistRunEnd find s
  | .craterRead m => Sys2Proof.Machine.execCraterRead m s
  | .escalationSet m => Sys2Proof.Machine.execEscalationSet m s
  | .faultHoldClear m => Sys2Proof.Machine.execFaultHoldClear m s
  | .tokenApply m => Sys2Proof.Machine.execTokenApply m s
  | .go tgt => Sys2Proof.Machine.execGo tgt s
  | .stepChangeResume ns => Sys2Proof.Machine.execStepChangeResume ns s
  | .refPref v => Sys2Proof.Machine.execRefPref v s
  | .droop moon sag => Sys2Proof.Machine.execDroop moon sag s
  | .tideExcursion moon => Sys2Proof.Machine.execTideExcursion moon s
  | .tideCeilingRaise => Sys2Proof.Machine.execTideCeilingRaise s
  | .couplingPause moon ns => Sys2Proof.Machine.execCouplingPause moon ns s
  | .referenceBad b => Sys2Proof.Machine.execReferenceBad b s
  | .referenceGood b => Sys2Proof.Machine.execReferenceGood b s
  | .holdoverExpiry => Sys2Proof.Machine.execHoldoverExpiry s
  | .pllLockLoss pll => Sys2Proof.Machine.execPllLockLoss pll s
  | .pllRelock pll => Sys2Proof.Machine.execPllRelock pll s
  | .pllFail pll => Sys2Proof.Machine.execPllFail pll s
  | .seamPhaseError g => Sys2Proof.Machine.execSeamPhaseError g s
  | .seamRealign g => Sys2Proof.Machine.execSeamRealign g s
  | .seamFail g => Sys2Proof.Machine.execSeamFail g s
  | .portEn port v => Sys2Proof.Machine.execPortEn port v s
  | .retrain port => Sys2Proof.Machine.execRetrain port s
  | .dark port v => Sys2Proof.Machine.execDark port v s
  | .forceDown port => Sys2Proof.Machine.execForceDown port s
  | .jobIdWrite port v => Sys2Proof.Machine.execJobIdWrite port v s
  | .laneAcquisitionTimeout port lane => Sys2Proof.Machine.execLaneAcquisitionTimeout port lane s
  | .trainingCell port cell => Sys2Proof.Machine.execTrainingCell port cell s
  | .trainTimeout port => Sys2Proof.Machine.execTrainTimeout port s
  | .packetReceived port cells => Sys2Proof.Machine.execPacketReceived port cells s
  | .deliveryPush port => Sys2Proof.Machine.execDeliveryPush port s
  | .streamAppend port => Sys2Proof.Machine.execStreamAppend port s
  | .slotStart port => Sys2Proof.Machine.execSlotStart port s
  | .cometSlot port => Sys2Proof.Machine.execCometSlot port s
  | .lockLoss port rx => Sys2Proof.Machine.execLockLoss port rx s
  | .lockRegain port rx => Sys2Proof.Machine.execLockRegain port rx s
  | .laneFailed port lane => Sys2Proof.Machine.execLaneFailed port lane s
  | .portOutageExpiry port => Sys2Proof.Machine.execPortOutageExpiry port s
  | .haloReq port lane => Sys2Proof.Machine.execHaloReq port lane s
  | .haloAck port lane => Sys2Proof.Machine.execHaloAck port lane s
  | .deskewDone port => Sys2Proof.Machine.execDeskewDone port s
  | .substTimeout port => Sys2Proof.Machine.execSubstTimeout port s
  | .farDownSeen port => Sys2Proof.Machine.execFarDownSeen port s
  | .laserOff port => Sys2Proof.Machine.execLaserOff port s
  | .dueSlotEnd port pos => Sys2Proof.Machine.execDueSlotEnd port pos s
  | .receipt part => Sys2Proof.Machine.execReceipt part s
  | .fabSecond part => Sys2Proof.Machine.execFabSecond part s
  | .orbitMark part => Sys2Proof.Machine.execOrbitMark part s
  | .checkpointWriteDone part => Sys2Proof.Machine.execCheckpointWriteDone part s
  | .markTimeout part => Sys2Proof.Machine.execMarkTimeout part s
  | .time part => Sys2Proof.Machine.execTime part s
  | .timeParentLoss => Sys2Proof.Machine.execTimeParentLoss s
  | .mgmt part => Sys2Proof.Machine.execMgmt part s
  | .discTimeout part => Sys2Proof.Machine.execDiscTimeout part s
  | .jobStart part => Sys2Proof.Machine.execJobStart part s
  | .faultEvent cls src cause part detail => Sys2Proof.Machine.execFaultEvent cls src cause part detail s
  | .pulseEnd => Sys2Proof.Machine.execPulseEnd s
  | .watchdog => Sys2Proof.Machine.execWatchdog s
  | .seFail => Sys2Proof.Machine.execSeFail s
  | .aliveToggle => Sys2Proof.Machine.execAliveToggle s
  | .recoveryGo find => Sys2Proof.Machine.execRecoveryGo find s
  | .ideIntegrity stream => Sys2Proof.Machine.execIdeIntegrity stream s
  | .getVersion => Sys2Proof.Machine.execGetVersion s
  | .getCapabilities => Sys2Proof.Machine.execGetCapabilities s
  | .negotiateAlgorithms asym hash dhe aead => Sys2Proof.Machine.execNegotiateAlgorithms asym hash dhe aead s
  | .getDigests => Sys2Proof.Machine.execGetDigests s
  | .getCertificate slot off len => Sys2Proof.Machine.execGetCertificate slot off len s
  | .challenge slot nonce => Sys2Proof.Machine.execChallenge slot nonce s
  | .getMeasurements index sign nonce => Sys2Proof.Machine.execGetMeasurements index sign nonce s
  | .keyExchange slot id share => Sys2Proof.Machine.execKeyExchange slot id share s
  | .finish id ok => Sys2Proof.Machine.execFinish id ok s
  | .keyUpdate id => Sys2Proof.Machine.execKeyUpdate id s
  | .heartbeat id => Sys2Proof.Machine.execHeartbeat id s
  | .endSession id => Sys2Proof.Machine.execEndSession id s
  | .setEndpointId eid => Sys2Proof.Machine.execSetEndpointId eid s
  | .getEndpointId => Sys2Proof.Machine.execGetEndpointId s
  | .getMctpVersionSupport ty => Sys2Proof.Machine.execGetMctpVersionSupport ty s
  | .getMessageTypeSupport => Sys2Proof.Machine.execGetMessageTypeSupport s
  | .identRead => Sys2Proof.Machine.execIdentRead s
  | .sensorRead => Sys2Proof.Machine.execSensorRead s
  | .powerLimit watts => Sys2Proof.Machine.execPowerLimit watts s
  | .faultSummary => Sys2Proof.Machine.execFaultSummary s
  | .quiesce => Sys2Proof.Machine.execQuiesce s
  | .inputRise => Sys2Proof.Machine.execInputRise s
  | .internalResetRelease find => Sys2Proof.Machine.execInternalResetRelease find s
  | .inputRange out => Sys2Proof.Machine.execInputRange out s
  | .inputFall => Sys2Proof.Machine.execInputFall s
  | .holdUpEnd => Sys2Proof.Machine.execHoldUpEnd s
  | .overvoltage => Sys2Proof.Machine.execOvervoltage s
  | .railFail k => Sys2Proof.Machine.execRailFail k s
  | .powerMeasurement mv ca watts core => Sys2Proof.Machine.execPowerMeasurement mv ca watts core s
  | .powerCeilingRaise => Sys2Proof.Machine.execPowerCeilingRaise s
  | .thermalRead t ok => Sys2Proof.Machine.execThermalRead t ok s
  | .sensorFail sensor => Sys2Proof.Machine.execSensorFail sensor s
  | .vcoreUv => Sys2Proof.Machine.execVcoreUv s
  | .vcoreOv => Sys2Proof.Machine.execVcoreOv s
  | .vcoreOcp => Sys2Proof.Machine.execVcoreOcp s
  | .phaseFail => Sys2Proof.Machine.execPhaseFail s
  | .rstN ns => Sys2Proof.Machine.execRstN ns s
  | .perstN => Sys2Proof.Machine.execPerstN s
  | .windowRead off len => Sys2Proof.Machine.execWindowRead off len s
  | .windowWrite off bytes => Sys2Proof.Machine.execWindowWrite off bytes s
  | .windowTimeout off len => Sys2Proof.Machine.execWindowTimeout off len s
  | .snoop => Sys2Proof.Machine.execSnoop s
  | .biasFlip => Sys2Proof.Machine.execBiasFlip s
  | .commandMemoryWrite tile off v => Sys2Proof.Machine.execCommandMemoryWrite tile off v s
  | .scratchpadWrite tile off v => Sys2Proof.Machine.execScratchpadWrite tile off v s
  | .clear tile => Sys2Proof.Machine.execClear tile s
  | .dbgEn tile v => Sys2Proof.Machine.execDbgEn tile v s
  | .readClear sp off wide => Sys2Proof.Machine.execReadClear sp off wide s
  | .registerWrite sp off bytes v => Sys2Proof.Machine.execRegisterWrite sp off bytes v s
  | .hostLinkTrained cxl width rate => Sys2Proof.Machine.execHostLinkTrained cxl width rate s
  | .manifestReadDone part m => Sys2Proof.Machine.execManifestReadDone part m s
  | .manifestReadTimeout part m => Sys2Proof.Machine.execManifestReadTimeout part m s
  | .retrainingDeferralExpiry ch => Sys2Proof.Machine.execRetrainingDeferralExpiry ch s
  | .runningEntryCleanUpDone part => Sys2Proof.Machine.execRunningEntryCleanUpDone part s
  | .ideKeyManagement id stream => Sys2Proof.Machine.execIdeKeyManagement id stream s
  | .doeDiscovery index => Sys2Proof.Machine.execDoeDiscovery index s
  | .ieee11491Instruction ins => Sys2Proof.Machine.execIeee11491Instruction ins s
  | .bar0ErrRead off bytes => Sys2Proof.Machine.execBar0ErrRead off bytes s
  | .heartbeatIncrement busy => Sys2Proof.Machine.execHeartbeatIncrement busy s

end Sys2Proof.Machine
end

