-- ==== Sys2Proof/Machine/Step.lean ====
section
/-!
DEFINITION. One step of the block: the waiting command at the front has its effect, with the rest of the queue left waiting; with
nothing waiting, time passes (`idle`, DESIGN CHOICE).
-/

namespace Sys2Proof.Machine

open Sys2Proof

/-- One step: the command at the front of the queue, or the passing of time where none waits. -/
def step (s : State) : Host.Outcome State Fault Refusal :=
  match s.pending with
  | [] => on idle s
  | c :: rest => exec c { s with pending := rest }

/-- The state with the command that a word spells at the front of its queue; as it stands where the word spells none. -/
def State.withFetchWord (s : State) (nbits w : Nat) : State :=
  match decodeTableWord nbits w with
  | some c => { s with pending := c :: s.pending }
  | none => s

end Sys2Proof.Machine
end

