-- ==== Sys2Proof/Safety.lean ====
section
/-!
DEFINITION. What counts as a safe state and a safe run, and the words the statements use: a command that completes, what it
leaves alone, a tile command that issues, and a mailbox command whose turn it is.
-/

namespace Sys2Proof.Machine

open Sys2Proof

/-! ### Safe states and runs -/

/-- Every byte memory of the module is in its canonical form. -/
def Dev.memWf (d : Dev) : Prop :=
  Mem.wf d.host = true ∧ Mem.wf d.gddr = true ∧ Mem.wf d.store.bytes = true ∧
  (∀ t, Mem.wf (getTile d t).cmem = true ∧ Mem.wf (getTile d t).spad = true) ∧
  ∀ m, Mem.wf (getMbx d m).req = true ∧ Mem.wf (getMbx d m).reply = true

/-- Every partition stands in the table of partitions under its own number (R385). -/
def Dev.partsWf (d : Dev) : Prop := ∀ p x, getPart d p = some x → x.pid = p

/-- A step is safe where it answers a next state: no meaning raises a fault, and only an access of the open diagnostic window is
refused. -/
def safeStep (s : State) : Prop := ∃ t, step s = .next t

/-- A run of so many steps is safe. -/
def safeRun : Nat → State → Prop
  | 0, _ => True
  | n + 1, s => ∃ t, step s = .next t ∧ safeRun n t

/-! ### Completion and frames -/

/-- A command completes: its answer is a next state, with the queue as it stands and a module of which P holds. -/
def Answers (c : Instr) (s : State) (P : Dev → Prop) : Prop := ∃ d, exec c s = .next { s with dev := d } ∧ P d

/-- A command completes with this module. -/
def Gives (c : Instr) (s : State) (d : Dev) : Prop := exec c s = .next { s with dev := d }

/-- What an event leaves that comes at a moment: where that moment has come, it happens in this module; where it has not and wall time
may pass to it, it happens in the module at that moment. -/
def AtDue (w : Nat) (d : Dev) (P : Dev → Prop) : Prop :=
  (w ≤ d.clk.wall → P d) ∧ (d.clk.wall < w → mayPass w d = true → P (passTo w d))

/-- A moment has not come, and wall time does not pass to it. -/
def NotYet (w : Nat) (d : Dev) : Prop := d.clk.wall < w ∧ mayPass w d = false

/-- One tile may differ, and nothing else of the module does. -/
def onlyTile (no : Nat) (d e : Dev) : Prop := { e with tiles := d.tiles } = d ∧ ∀ u, u ≠ no → getTile e u = getTile d u

/-- One mailbox, and the interrupt its answer raises, may differ, and nothing else of the module does. -/
def onlyMbx (m : Nat) (d e : Dev) : Prop :=
  { e with mbx := d.mbx, msix := d.msix, out := d.out } = d ∧ ∀ n, n ≠ m → getMbx e n = getMbx d n

/-- An event has entered the fault history as the next entry there: its class, source and cause stand in it (R416, R417). -/
def Entered (cls src cause : Nat) (d e : Dev) : Prop :=
  ∃ h, tget e.flt.hist (d.flt.head.toNat % 64) = some h ∧ h.cls = BitVec.ofNat 2 cls ∧ h.source = BitVec.ofNat 12 src ∧
    h.cause = BitVec.ofNat 16 cause

/-- The fault history holds an event of this class, source and cause. -/
def Noted (cls src cause : Nat) (e : Dev) : Prop :=
  ∃ k h, tget e.flt.hist k = some h ∧ h.cls = BitVec.ofNat 2 cls ∧ h.source = BitVec.ofNat 12 src ∧ h.cause = BitVec.ofNat 16 cause

/-! ### Tile commands -/

/-- A tile fetches a word with this opcode in the tick it is due, and neither its predicate nor a shadow skips it; `always` is said
of REPT and MARK, which nothing skips (R80, R84, R85). -/
def Issues (opc : Nat) (always : Bool) (no : Nat) (x : Part) (d : Dev) : Prop :=
  awake d = true ∧ partOfTile d no = some x ∧ active x = true ∧ issueDue x (getTile d no) = true ∧
  (getTile d no).pc ≤ 4095 ∧ fetchBad (getTile d no) = false ∧ (fetch (getTile d no)).opc = opc ∧
  (always = true ∨ ((getTile d no).skipLeft = 0 ∧ predTrue (getTile d no) (fetch (getTile d no)).pred = true))

/-- The tile with the issue counted, past the command's slot (R80, R109). -/
def passed (x : Part) (t : Tile) : Tile :=
  passSlot x (fetch t).issue (counted t)

/-- No break fires at this issue by count or by tag (R109). -/
def Unbroken (t : Tile) : Prop := breakMatch (counted t) (fetch t) = false

/-- A tile command issues, with no break at this issue. -/
def Runs (opc : Nat) (always : Bool) (no : Nat) (x : Part) (d : Dev) : Prop :=
  Issues opc always no x d ∧ Unbroken (getTile d no)

/-! ### Mailbox commands -/

/-- It is the turn of a mailbox's command, and no mailbox-level check refuses it (R380 to R383). -/
def Turn (code m : Nat) (d : Dev) : Prop := isTurn d code m = true ∧ rqRefusal d m = none ∧ isFull d m = false

/-- The same, for a command of partition scope: the partition of the mailbox's block. -/
def PartTurn (code m : Nat) (x : Part) (d : Dev) : Prop := Turn code m d ∧ partOfBlock d (m / 4) = some x

/-- A mailbox holds the answer to its command, with this status (R382, Table 0.5). -/
def Answered (m st : Nat) (e : Dev) : Prop := (getMbx e m).st = .done ∧ rdN (getMbx e m).reply 6 1 = st

/-- A mailbox's command has begun and stays ACCEPTED until its event (R384). -/
def Begun (m : Nat) (e : Dev) : Prop := (getMbx e m).st = .accepted ∧ (getMbx e m).begun = true

/-- The payload of a mailbox's request. -/
def payload (d : Dev) (m : Nat) : List Byte := rqPayload (getMbx d m)

end Sys2Proof.Machine
end

