-- ==== Sys2Proof/Certificates/Slice0/Obligations.lean ====
section
/-!
DEFINITION. What this row states of the CM-9216 model, for the provers. A statement holds of every state, whether or not a run
from reset comes to it.
-/

open Sys2Proof Sys2Proof.Machine

/-! ### The block and its queue -/

/-- Model (DESIGN CHOICE, log entries 1 and 5): a step takes the command at the front of the queue, and its answer is the command's on
the rest of the queue; with no command waiting it answers a next state, and a module that is off, held in reset or SEALED then stays
as it is. -/
def Obligations.StepRunsFrontCommand : Prop :=
  (∀ (c : Instr) (rest : List Instr) (d : Dev), step ⟨c :: rest, d⟩ = exec c ⟨rest, d⟩) ∧
  ∀ d : Dev, step ⟨[], d⟩ = .next ⟨[], idle d⟩ ∧ (awake d = false → idle d = d)

/-- No command touches the commands that wait behind it, no command faults, and only a register access that meets the open
diagnostic window is refused (R375, R400); such an access always is. -/
def Obligations.CommandsKeepTheQueue : Prop :=
  ∀ (c : Instr) (s : State), (∀ t, exec c s = .next t → t.pending = s.pending) ∧ (∀ f, exec c s ≠ .fault f) ∧
    ∀ r, exec c s = .refused r ↔ r = .diagWindow ∧
      ((∃ sp off wide, c = .readClear sp off wide ∧ diagHit s.dev sp off.toNat (if wide then 8 else 4) = true) ∨
       ∃ sp off n v, c = .registerWrite sp off n v ∧ diagHit s.dev sp off.toNat n = true)

/-! ### Tile commands (chapter 3) -/

/-- R84: a command of whatever opcode that its predicate or a shadow skips occupies its slot and does nothing else; R79: one with
a reserved operand is treated as skipped and sets BADOP; R109: a break that matches fires beside whatever the command did. Said
of the operation that every tile command is issued with. -/
def Obligations.SkippedAndReservedCommands : Prop :=
  ∀ (opc no : Nat) (always : Bool) (bad : TileCmd → Tile → Bool) (eff : Effect) (x : Part) (d : Dev),
    let t := getTile d no
    partOfTile d no = some x → active x = true → issueDue x t = true → t.pc ≤ 4095 → fetchBad t = false →
    (fetch t).opc = opc →
    (Unbroken t → (t.skipLeft ≠ 0 ∨ predTrue t (fetch t).pred = false) →
      issueCmd opc false bad eff no d = setTile d no (passed x t)) ∧
    (Unbroken t → Issues opc always no x d → bad (fetch t) t = true →
      issueCmd opc always bad eff no d = setTile d no (passSlot x (fetch t).issue (setSeq t.pc sqBadop (counted t))) ∧
      (getTile (issueCmd opc always bad eff no d) no).seqStatus.getLsbD 5 = true) ∧
    (breakMatch (counted t) (fetch t) = true → Issues opc always no x d → bad (fetch t) t = false →
      issueCmd opc always bad eff no d = fireBreak no x (eff (fetch t) x no (setTile d no (passed x t))))

/-- R79, R83, R91 to R93, R95, Tables 3.2 to 3.6: NOP, CNT, CMP, SKIP and SPLD, each with the tile past its slot and nothing else
changed; SPLD copies what stood before the distributor's write of tick 128 up to that tick; REPT opens its body on the blocks open at its
issue, or runs it once with NEST where four are open; MARK ends the orbit's stream, or stamps. -/
def Obligations.ControlCommandsOfATile : Prop :=
  ∀ (s : State) (no : Fin 2304) (x : Part),
    let t := getTile s.dev no.val
    let c := fetch t
    let imm := BitVec.ofNat 32 (fld c.ops 32 32)
    (Runs 0x00 false no.val x s.dev → Gives (.nop no) s (setTile s.dev no.val (passed x t))) ∧
    (Runs 0x20 false no.val x s.dev → fld c.ops 2 2 ≠ 3 → fld c.ops 6 26 = 0 →
      Gives (.cnt no) s (setTile s.dev no.val (setCtr (fld c.ops 0 2)
        (if fld c.ops 2 2 = 0 then imm else if fld c.ops 2 2 = 1 then getCtr t (fld c.ops 0 2) + imm
         else getCtr t (fld c.ops 4 2)) (passed x t)))) ∧
    (Runs 0x21 false no.val x s.dev → fld c.ops 4 3 ≤ 4 → fld c.ops 10 22 = 0 →
      let a := getCtr t (fld c.ops 2 2)
      let b := if bit c.ops 7 then getCtr t (fld c.ops 8 2) else imm
      let r := if fld c.ops 4 3 = 0 then a == b else if fld c.ops 4 3 = 1 then a != b
        else if fld c.ops 4 3 = 2 then decide (a < b) else if fld c.ops 4 3 = 3 then decide (b ≤ a) else (a &&& b) != 0
      Gives (.cmp no) s (setTile s.dev no.val
        { passed x t with pred := BitVec.ofNat 4 (setBit t.pred.toNat (fld c.ops 0 2) r) })) ∧
    (Runs 0x22 false no.val x s.dev → fld c.ops 8 56 = 0 →
      Gives (.skip no) s (setTile s.dev no.val { passed x t with skipLeft := fld c.ops 0 8 })) ∧
    (Runs 0x24 false no.val x s.dev → Gives (.spld no) s (setTile s.dev no.val { passed x t with
      slotPred := if x.staged = true ∧ x.tick ≤ 128 then t.slotOld else t.slotStage })) ∧
    (Runs 0x23 true no.val x s.dev → fld c.ops 24 40 = 0 →
      let last := min (t.pc + fld c.ops 0 8 + 1) 4095
      (t.loops.length < 4 → t.pc < 4095 → Gives (.rept no) s (setTile s.dev no.val { passed x t with
        pc := t.pc + 1, loops := ⟨t.pc + 1, last, fld c.ops 8 16 + 1⟩ :: t.loops })) ∧
      (t.loops.length < 4 → t.pc = 4095 → Gives (.rept no) s (setTile s.dev no.val (passed x t))) ∧
      (4 ≤ t.loops.length → t.pc < 4095 → Gives (.rept no) s (setTile s.dev no.val { setSeq t.pc sqNest (passed x t) with
        pc := t.pc + 1, loops := stretchLoop last t.loops })) ∧
      (4 ≤ t.loops.length → t.pc = 4095 → Gives (.rept no) s (setTile s.dev no.val (setSeq t.pc sqNest (passed x t))))) ∧
    (Runs 0x30 true no.val x s.dev → fld c.ops 1 15 = 0 → fld c.ops 32 32 = 0 →
      (bit c.ops 0 = false →
        Gives (.mark no) s (setTile s.dev no.val { passed x t with pc := 0, ended := true, loops := [], skipLeft := 0 })) ∧
      (bit c.ops 0 = true → Gives (.mark no) s (setTile s.dev no.val { passed x t with
        markLog := BitVec.ofNat 64 (x.now % 2 ^ 40 + fld c.ops 16 16 * 2 ^ 40 + 2 ^ 63) })))

/-- R117, R122, Tables 4.1, 4.5, 4.8: MATQ, VECQ and FUNQ hand their unit the command in force from their issue tick on; an earlier
command of the unit pops nothing more; CLR empties ACC and a drain comes at its first push tick.
Readings of the model that it rests on: log entries 63, 67 and 68. -/
def Obligations.ComputeCommandsStartTheirUnit : Prop :=
  ∀ (s : State) (no : Fin 2304) (x : Part),
    let t := getTile s.dev no.val
    let c := fetch t
    (Runs 0x01 false no.val x s.dev → matBad c.ops = false → ∃ d m, Gives (.matq no) s d ∧
      d = setTile s.dev no.val { passed x t with mat := m } ∧
      m.acc = (if bit c.ops 61 then [] else t.mat.acc) ∧ m.stat = [] ∧ m.latch = (if bit c.ops 63 then t.mat.latch else []) ∧
      (∃ k, m.cur = some k ∧ k.start = x.now ∧ k.qa = c.qa ∧ k.qb = c.qb ∧ k.fa = fld c.ops 32 4 ∧ k.fb = fld c.ops 36 4 ∧
        k.kb = fld c.ops 40 10 + 1 ∧ k.cols = fld c.ops 50 5 + 1 ∧
        m.drain = if bit c.ops 62 then
          some ⟨x.now + matLw k + matS k + 7, BitVec.ofNat 32 c.ops, k.cols, fld c.ops 55 6 + 1, c.qd, t.pc⟩ else none)) ∧
    (Runs 0x02 false no.val x s.dev → vecBad c.ops = false → ∃ v, Gives (.vecq no) s
      (setTile s.dev no.val { passed x t with vec := v }) ∧
      (fld c.ops 16 16 = 0 → v.cur = none) ∧ (fld c.ops 16 16 ≠ 0 → ∃ k, v.cur = some k ∧ k.start = x.now ∧
        k.op = fld c.ops 0 6 ∧ k.n = fld c.ops 16 16 ∧ k.popped = 0 ∧ k.qa = c.qa ∧ k.qb = c.qb ∧ k.qd = c.qd ∧
        k.fi = fld c.ops 8 4 ∧ k.fo = fld c.ops 12 4 ∧ k.imm = BitVec.ofNat 32 (fld c.ops 32 32))) ∧
    (Runs 0x03 false no.val x s.dev → funBad c.ops = false → ∃ v, Gives (.funq no) s
      (setTile s.dev no.val { passed x t with fn := v }) ∧
      (fld c.ops 16 16 = 0 → v.cur = none) ∧ (fld c.ops 16 16 ≠ 0 → ∃ k, v.cur = some k ∧ k.start = x.now ∧
        k.fn = fld c.ops 0 6 ∧ k.n = fld c.ops 16 16 ∧ k.popped = 0 ∧ k.qa = c.qa ∧ k.qb = c.qb ∧ k.qd = c.qd ∧
        k.fi = fld c.ops 8 4 ∧ k.fo = fld c.ops 12 4))

/-- R82, R100, R101, R103: SEND and RECV start their engine, with ENG_OVL where it was still carrying out a command; WAIT watches
its queue from its issue tick to its release tick, its budget later.
Readings of the model that it rests on: log entries 69 and 77. -/
def Obligations.MovementCommandsStartTheirEngine : Prop :=
  ∀ (s : State) (no : Fin 2304) (x : Part),
    let t := getTile s.dev no.val
    let c := fetch t
    let n := fld c.ops 0 16
    (Runs 0x10 false no.val x s.dev → fld c.ops 33 2 ≠ 3 → fld c.ops 43 21 = 0 → ∃ d, Gives (.send no) s d ∧
      onlyTile no.val s.dev d ∧
      (getTile d no.val).eng = { t.eng with send := if n = 0 then none else some ⟨n, BitVec.ofNat 64 c.ops, c.qa, t.pc⟩ } ∧
      (t.eng.send = none → getTile d no.val = { passed x t with eng := (getTile d no.val).eng }) ∧
      (∀ e, t.eng.send = some e → e.left ≠ 0 → (getTile d no.val).seqStatus.getLsbD 4 = true)) ∧
    (Runs 0x11 false no.val x s.dev → fld c.ops 16 48 = 0 → ∃ d, Gives (.recv no) s d ∧
      onlyTile no.val s.dev d ∧
      (getTile d no.val).eng = { t.eng with recv := if n = 0 then none else some ⟨n, 24 + c.qa % 8, c.qd, t.pc⟩ } ∧
      (t.eng.recv = none → getTile d no.val = { passed x t with eng := (getTile d no.val).eng }) ∧
      (∀ e, t.eng.recv = some e → e.left ≠ 0 → (getTile d no.val).seqStatus.getLsbD 4 = true)) ∧
    (Runs 0x14 false no.val x s.dev → fld c.ops 16 48 = 0 → ∃ w, Gives (.wait no) s
      (setTile s.dev no.val { passed x t with wait := some w }) ∧
      w.q = 24 + c.qa % 8 ∧ w.n = n ∧ w.issue = x.now ∧ w.release = x.now + c.issue ∧ w.hold = none ∧
      w.met = if n ≤ (getQ t w.q).count then some x.now else none)

/-- R109, R110: BRK fires a break while DBG_EN and CMD_EN are 1 and else acts as NOP; a break sets BRK_HIT and, where none is set
yet, the partition's break tick, which every listed tile of it records in BRK_TICK; from 16 ticks after it on the partition parks, with
its running tiles RESUMABLE. -/
def Obligations.BreaksParkThePartition : Prop :=
  ∀ (s : State) (no : Fin 2304) (x : Part),
    let t := getTile s.dev no.val
    (Runs 0x31 false no.val x s.dev → getPart s.dev x.pid = some x →
      (t.brkCtrl.getLsbD 0 = true → t.brkCtrl.getLsbD 3 = true → ∃ d, Gives (.brk no) s d ∧
        (getTile d no.val).brkHit = true ∧ getPart d x.pid = some { x with brk := some (x.brk.getD ⟨x.now⟩) } ∧
        { d with tiles := s.dev.tiles, parts := s.dev.parts } = s.dev ∧
        (x.brk = none → ∀ u, tget s.dev.tiles u ≠ none → x.mask.getLsbD (blockOfTile u) = true →
          (getTile d u).brkTick = BitVec.ofNat 40 (x.now % 2 ^ 40))) ∧
      (t.brkCtrl.getLsbD 0 = false ∨ t.brkCtrl.getLsbD 3 = false →
        Gives (.brk no) s (setTile s.dev no.val (passed x t)))) ∧
    ∀ (p : Fin 16) (y : Part) (b : BreakSt), awake s.dev = true → getPart s.dev p.val = some y → y.brk = some b →
      y.plan = .running → b.at_ + 16 ≤ y.now → ∃ d, Gives (.breakPark p) s d ∧
        getPart d p.val = some { y with brk := none, parked := true } ∧
        { d with tiles := s.dev.tiles, parts := s.dev.parts } = s.dev ∧
        ∀ u, tget s.dev.tiles u ≠ none → y.mask.getLsbD (blockOfTile u) = true → (getTile s.dev u).mode = .run →
          (getTile d u).mode = .parked ∧ (getTile d u).resumable = true

/-- R77, R79, R105: a fetch with bad parity, whatever the opcode, and a word whose opcode no row of Table 3.2 lists, issue nothing:
a HALT with its cause is entered, FAULT_N goes low, and the partition leaves RUNNING; at the end of the tick in hand (`parkTiles`) the
tile is HALTED, and every other tile of the partition that ran is PARKED. Premise: the invariant of EveryStepKeepsThePartitions. -/
def Obligations.BadFetchesHaltTheTile : Prop :=
  ∀ (s : State) (no : Fin 2304) (x : Part),
    let t := getTile s.dev no.val
    let halted (cause : Nat) (d : Dev) : Prop :=
      (getTile d no.val).halting = true ∧ (getTile d no.val).mode = .run ∧
      (getTile d no.val).haltCause = BitVec.ofNat 8 cause ∧ (getTile d no.val).pc = t.pc ∧
      d.flt.halts = s.dev.flt.halts + 1 ∧ d.flt.hold = true ∧ d.flt.pulse = some (s.dev.clk.wall + usG 10) ∧
      Entered 2 (0x100 + moonOfTile no.val) (0x100 + cause) s.dev d ∧ ∃ y, getPart d x.pid = some y ∧ y.plan = .stopped ∧
        y.stopping = true ∧ y.lastOrbit = x.orbit
    awake s.dev = true → s.dev.partsWf → x.pid < 16 → partOfTile s.dev no.val = some x → getPart s.dev x.pid = some x →
    x.plan = .running → active x = true → issueDue x t = true → t.pc ≤ 4095 →
    (∀ u, tget s.dev.tiles u ≠ none → x.mask.getLsbD (blockOfTile u) = true → (getTile s.dev u).mode = .run →
      (getTile (parkTiles x.pid s.dev) u).mode = if (getTile s.dev u).halting then .halted else .parked) ∧
    (fetchBad t = true → (∃ d, Gives (.illOpc no) s d ∧ halted 1 d) ∧ ∃ d, Gives (.nop no) s d ∧ halted 1 d ∧
      ∀ (opc : Nat) (always : Bool) (bad : TileCmd → Tile → Bool) (eff : Effect), issueCmd opc always bad eff no.val s.dev = d) ∧
    (fetchBad t = false → listedOpc (fetch t).opc = false → ∃ d, Gives (.illOpc no) s d ∧ halted 2 d)

/-! ### WAITs, the mesh, memory (chapters 1, 5, 7, 9) -/

/-- R35, R36, R161, R324: at its release tick a WAIT whose count is met, or that an abandoned transfer frees, releases, is counted by its
level in its moon's slice and changes nothing else; one whose count is not met holds from this moment, on a memory queue with no other
effect at all.
Readings of the model that it rests on: log entry 6. -/
def Obligations.WaitsReleaseOrHold : Prop :=
  ∀ (s : State) (no : Fin 2304) (x : Part) (w : WaitSt),
    let t := getTile s.dev no.val
    let sl (d : Dev) := getSlice d (moonOfTile no.val) (sliceOf no.val)
    awake s.dev = true → partOfTile s.dev no.val = some x → active x = true → t.mode = .run → t.wait = some w →
    x.now = w.release → w.hold = none →
    ((waitMet t w || abandonFrees x w) = true → ∃ d, Gives (.waitRelease no) s d ∧ getTile d no.val = { t with wait := none } ∧
      (w.q < 28 → (sl d).waitCount0 = (sl s.dev).waitCount0 + 1 ∧ (sl d).waitCount1 = (sl s.dev).waitCount1) ∧
      (28 ≤ w.q → (sl d).waitCount1 = (sl s.dev).waitCount1 + 1 ∧ (sl d).waitCount0 = (sl s.dev).waitCount0) ∧
      (sl d).holdCount = (sl s.dev).holdCount ∧ { d with tiles := s.dev.tiles, clk := s.dev.clk } = s.dev ∧
      ∀ u, u ≠ no.val → getTile d u = getTile s.dev u) ∧
    (waitMet t w = false → w.q < 28 → x.stopping = false → Gives (.waitRelease no) s
      (setTile s.dev no.val { t with wait := some { w with hold := some s.dev.clk.wall } })) ∧
    (waitMet t w = false → abandonFrees x w = false → x.stopping = false → ∃ d, Gives (.waitRelease no) s d ∧
      (getTile d no.val).wait = some { w with hold := some s.dev.clk.wall })

/-- R36, R37, R161: a hold ends once the count is there, or an abandoned transfer frees it: the WAIT releases and is counted with its
hold's time, its moon rests up to now, and the orbit of every running partition is late. A hold that outlasts the partition's hold limit
ends at that limit with a HALT with the cause of R37, and the tile is HALTED, or will be as its tick ends. Premise: the invariant of
EveryStepKeepsThePartitions. Readings of the model that it rests on: log entries 71 and 72. -/
def Obligations.HoldsEndOrHalt : Prop :=
  ∀ (s : State) (no : Fin 2304) (x : Part) (w : WaitSt) (start : Nat),
    let t := getTile s.dev no.val
    let m := moonOfTile no.val
    let ns := BitVec.ofNat 64 ((s.dev.clk.wall - start) / grain)
    let sl (d : Dev) := getSlice d m (sliceOf no.val)
    awake s.dev = true → s.dev.partsWf → partOfTile s.dev no.val = some x → t.wait = some w → w.hold = some start →
    ((waitMet t w || abandonFrees x w) = true → ∃ d, Gives (.holdEnd no) s d ∧ getTile d no.val = { t with wait := none } ∧
      (sl d).holdCount = (sl s.dev).holdCount + 1 ∧
      (w.q < 28 → (sl d).holdNs0 = (sl s.dev).holdNs0 + ns ∧ (sl d).waitCount0 = (sl s.dev).waitCount0 + 1) ∧
      (28 ≤ w.q → (sl d).holdNs1 = (sl s.dev).holdNs1 + ns ∧ (sl d).waitCount1 = (sl s.dev).waitCount1 + 1) ∧
      (getMoon d m).restTill = max (getMoon s.dev m).restTill s.dev.clk.wall ∧
      (∀ p y, getPart s.dev p = some y → y.plan = .running → ∃ z, getPart d p = some z ∧ z.fab.late = true) ∧
      d.clk.wall = s.dev.clk.wall ∧ ∀ u, u ≠ no.val → getTile d u = getTile s.dev u) ∧
    (waitMet t w = false → abandonFrees x w = false → t.mode = .run → AtDue (start + usG x.holdUs) s.dev fun e =>
      ∃ d, Gives (.holdLimitExpiry no) s d ∧ ((getTile d no.val).halting = true ∨ (getTile d no.val).mode = .halted) ∧
      (getTile d no.val).wait = none ∧ start + usG x.holdUs ≤ d.clk.wall ∧ d.clk.wall = e.clk.wall ∧
      d.flt.halts = s.dev.flt.halts + 1 ∧ Entered 2 (0x100 + m) 0x0107 s.dev d) ∧
    (waitMet t w = false → abandonFrees x w = false → NotYet (start + usG x.holdUs) s.dev → Gives (.holdLimitExpiry no) s s.dev)

/-- R150, R155, R191, R192, R198, R244: an element that arrives for a tile enters its plan queue, cut or padded to its width; a LOAD's next
element enters its memory queue, zeros where its slot is fenced; a write-buffer element is written to the bytes of its pieces and no other
byte of GDDR7, and one with bad parity is a HALT; a fence on the ring takes hold.
Readings of the model that it rests on: log entries 3 and 78. -/
def Obligations.MovementsOfDataLand : Prop :=
  ∀ (s : State) (no : Fin 2304) (q : Fin 4), awake s.dev = true →
    (∀ (x : Part) (i : MeshIn), let t := getTile s.dev no.val
      partOfTile s.dev no.val = some x → active x = true → t.mode = .run →
      t.router.arrivals.find? (fun i => decide (i.at_ ≤ x.now)) = some i → hdrBad i.word = false →
      meshMine no.val t i.word = true → i.word.dq < 24 → hasRoom (getQ t i.word.dq) = true →
      ∃ d, Gives (.meshArrival no) s d ∧ (getTile d no.val).router.arrivals = t.router.arrivals.erase i ∧
        (let y := getQ t i.word.dq
         (getQ (getTile d no.val) i.word.dq).count = y.count + 1 ∧
         rdBs (getTile d no.val).spad (slotAddr y y.pushed) (elemWidth y.wcode) = padTo (elemWidth y.wcode) i.word.data) ∧
        { d with tiles := s.dev.tiles, clk := s.dev.clk } = s.dev ∧ ∀ u, u ≠ no.val → getTile d u = getTile s.dev u) ∧
    (∀ (x : Part) (r : MemReq), let t := getTile s.dev no.val
      let y := getQ t (24 + q.val)
      let ps := slicePieces r.pieces (r.done * r.width) r.width
      partOfTile s.dev no.val = some x → oldestLoad t q.val = some r → hasRoom y = true → olderStore s.dev x r.orbit = false →
      (reqVoid s.dev x no.val r = false → granuleWaits s.dev no.val r.id ps = false → ps.all (pieceReady s.dev) = true →
        ∃ d, Gives (.memoryDelivery no q) s d ∧ (getQ (getTile d no.val) (24 + q.val)).count = y.count + 1 ∧
          (getQ (getTile d no.val) (24 + q.val)).pushed = y.pushed + 1 ∧
          rdBs (getTile d no.val).spad (slotAddr y y.pushed) (elemWidth y.wcode) =
            padTo (elemWidth y.wcode) (ps.flatMap (pieceBytes s.dev)) ∧
          { d with tiles := s.dev.tiles, chans := s.dev.chans, mm := s.dev.mm } = s.dev ∧
          ∀ u, u ≠ no.val → getTile d u = getTile s.dev u) ∧
      (reqVoid s.dev x no.val r = true →
        ∃ d, Gives (.memoryDelivery no q) s d ∧ (getQ (getTile d no.val) (24 + q.val)).count = y.count + 1 ∧
          rdBs (getTile d no.val).spad (slotAddr y y.pushed) (elemWidth y.wcode) = List.replicate (elemWidth y.wcode) 0)) ∧
    (∀ (k : Nat) (w : WbEntry), (getMm s.dev q.val).wbuf[k]? = some w →
      ((getMm s.dev q.val).wbuf.take k).any (fun v => v.tile = w.tile && v.pieces.any (fun a => w.pieces.any (sameGranule a))) =
        false →
      (getTile s.dev w.tile).reqs.any (fun r => !r.isStore && decide (r.id < w.req) &&
        (restPieces r).any (fun a => w.pieces.any (sameGranule a))) = false →
      w.pieces.all (pieceReady s.dev) = true →
      (w.badPar = false → ∃ d, Gives (.storeWrite q k) s d ∧ (getMm d q.val).wbuf = (getMm s.dev q.val).wbuf.eraseIdx k ∧
        d.gddr = writePieces w.pieces w.bytes s.dev.gddr ∧
        { d with mm := s.dev.mm, gddr := s.dev.gddr, chans := s.dev.chans, cpt := s.dev.cpt } = s.dev ∧
        ∀ a, (∀ p ∈ w.pieces, ∀ b, p.loc = .gddr b → a < b ∨ b + p.len ≤ a) → rdB d.gddr a = rdB s.dev.gddr a) ∧
      (w.badPar = true → ∃ d, Gives (.storeWrite q k) s d ∧ (getMm d q.val).wbuf = (getMm s.dev q.val).wbuf.eraseIdx k ∧
        Entered 2 (0x340 + q.val) 0x0307 s.dev d)) ∧
    (∀ f r, (getMm s.dev q.val).ringIn = f :: r → ∃ d, Gives (.fenceReceive q) s d ∧ (getMm d q.val).ringIn = r ∧
      (getMm d q.val).slotFence = (getMm s.dev q.val).slotFence ||| BitVec.ofNat 512 (2 ^ f) ∧ { d with mm := s.dev.mm } = s.dev ∧
      ∀ o, o ≠ q.val → getMm d o = getMm s.dev o)

/-- R82, R104, R188, R189: a LOAD or STORE whose address is good and meets no bad page takes the next entry of its tile's request
queue at its issue tick; a STORE also starts its engine, and one it ends gives up its entry, with ENG_OVL.
Readings of the model that it rests on: log entries 74 and 76. -/
def Obligations.LoadAndStoreTakeAnEntry : Prop :=
  ∀ (s : State) (no : Fin 2304) (x : Part) (pieces : List Piece) (slot : Option Nat),
    let t := getTile s.dev no.val
    let c := fetch t
    let e (store : Bool) : MemReq := {
      id := t.reqNext, isStore := store, q := c.qd % 4, len := fld c.ops 42 16, width := moveWidth t store c, done := 0
      pieces := pieces, orbit := x.orbit, slot := slot, idx := t.pc }
    fld c.ops 42 16 ≠ 0 → t.reqs.length < 32 →
    (Runs 0x12 false no.val x s.dev → moveBad c.ops (moveWidth t false c) false = false → (getQ t (24 + c.qd % 4)).depth ≠ 0 →
      resolveReq s.dev x (tileQ no.val) c.ops (moveWidth t false c) false = .ok pieces slot none 0 →
      ∃ d, Gives (.load no) s d ∧ (getTile d no.val).reqs = t.reqs ++ [e false] ∧ (getTile d no.val).eng = t.eng ∧
        { d with tiles := s.dev.tiles, mm := s.dev.mm, chans := s.dev.chans } = s.dev ∧
        ∀ u, u ≠ no.val → getTile d u = getTile s.dev u) ∧
    (Runs 0x13 false no.val x s.dev → moveBad c.ops (moveWidth t true c) true = false →
      resolveReq s.dev x (tileQ no.val) c.ops (moveWidth t true c) true = .ok pieces slot none 0 →
      ∃ d, Gives (.store no) s d ∧
        (getTile d no.val).reqs = t.reqs.filter (fun r => !(t.eng.store.any (fun k => r.isStore && r.id = k.req))) ++ [e true] ∧
        (t.eng.store ≠ none → (getTile d no.val).seqStatus.getLsbD 4 = true) ∧
        (getTile d no.val).eng = { t.eng with store := some ⟨fld c.ops 42 16, c.qa, t.pc, t.reqNext⟩ } ∧
        { d with tiles := s.dev.tiles, mm := s.dev.mm } = s.dev ∧ ∀ u, u ≠ no.val → getTile d u = getTile s.dev u)

/-- R31, R33, R80, R93, R95, R123, R317: a drain begins at its first push tick; the slot predicate bits of every tile that the
selector table names are staged at tick 128, once; an orbit ends behind its last tick and the next begins at tick 0, every tile
that runs at index 0; a paced start ends its pause once MT has reached it. Premise of the boundary: the invariant of
EveryStepKeepsThePartitions. Readings of the model that it rests on: log entries 73, 164 and 174. -/
def Obligations.TheOrbitTurns : Prop :=
  ∀ (s : State),
    (∀ (no : Fin 2304) (x : Part) (k : MatDrain), let t := getTile s.dev no.val
      awake s.dev = true → partOfTile s.dev no.val = some x → active x = true → t.mode = .run → issueDue x t = false →
      t.mat.drain = some k → k.at_ = x.now → ∃ d, Gives (.matqDrain no) s d ∧ onlyTile no.val s.dev d ∧
        (getTile d no.val).mat = { t.mat with drain := none } ∧
        (getTile d no.val).matPipe = t.matPipe ++ (drainAll t.mat k).zipIdx.map (fun p => ⟨x.now + p.2, k.qd, p.1.1, k.idx⟩)) ∧
    (∀ (p : Fin 16) (x : Part), awake s.dev = true → getPart s.dev p.val = some x → active x = true → x.tick = 128 →
      x.staged = false → ∃ d, Gives (.slotStageWrite p) s d ∧ getPart d p.val = some { x with staged := true } ∧
        { d with tiles := s.dev.tiles, parts := s.dev.parts } = s.dev ∧
        (∀ u, tget s.dev.tiles u ≠ none → x.mask.getLsbD (blockOfTile u) = true →
          (getTile d u).slotOld = (getTile s.dev u).slotStage) ∧
        ∀ g t sels, x.srv.sel = some g → (g.tiles.map (·.1)).Nodup → (t, sels) ∈ g.tiles → sels.length ≤ 64 →
          ∀ j v, sels[j]? = some v → (getTile d t).slotStage.getLsbD j = selBit x v) ∧
    (∀ (p : Fin 16) (x : Part), mpUp s.dev = true → s.dev.partsWf → getPart s.dev p.val = some x → x.plan = .running →
      active x = true → (x.info.map (·.orbitLen)).getD 1 ≤ x.tick → ∃ d y, Gives (.orbitBoundary p) s d ∧ getPart d p.val = some y ∧
        y.orbit = x.orbit + 1 ∧ y.tick = 0 ∧ y.orbits = x.orbits + 1 ∧ y.staged = false) ∧
    (∀ (p : Fin 16) (x : Part) (w : Nat) (mt : BitVec 64), awake s.dev = true → getPart s.dev p.val = some x →
      x.fab.pace = some w → x.fab.paceMt = some mt →
      let ends : Prop := ∃ d y, Gives (.pacingEnd p) s d ∧ getPart d p.val = some y ∧
        y.fab.pace = none ∧ y.fab.paceMt = none ∧ y.orbit = x.orbit ∧ y.tick = x.tick ∧
        { d with clk := s.dev.clk, mt := s.dev.mt, parts := s.dev.parts } = s.dev
      (mt.toNat ≤ s.dev.mt.mt.toNat → ends) ∧
      (s.dev.mt.mt.toNat < mt.toNat → mayPass (s.dev.clk.wall + nsG (mt.toNat - s.dev.mt.mt.toNat)) s.dev = true → ends))

/-! ### GDDR7 channels and the CXL.mem window (chapters 7, 15) -/

/-- R195, R196, R201: a routine retraining is put off while the partition that owns the channel runs, for 5 ms at most, and starts 10 ms
after the last at the earliest; more than 16 CRC retries within 1 ms start one at once; it takes an UP channel to RETRAINING, a pass takes
it back UP, and the third failure in succession takes it DOWN, with a HALT and its contents lost.
Readings of the model that it rests on: log entries 80 and 82. -/
def Obligations.ChannelsTrainAndFail : Prop :=
  ∀ (s : State) (ch : Fin 48), awake s.dev = true →
    let k := getChan s.dev ch.val
    let rested : Prop := k.retrainAt = 0 ∨ k.retrainAt + msG 10 ≤ s.dev.clk.wall
    (k.st = .up → k.deferred = false → chanRuns s.dev ch.val = true → AtDue (retrainDue k) s.dev fun e =>
      Gives (.routineRetraining ch) s (modChan ch.val (fun y => { y with deferred := true, deferAt := e.clk.wall }) e)) ∧
    (k.st = .up → k.deferred = false → NotYet (retrainDue k) s.dev → Gives (.routineRetraining ch) s s.dev) ∧
    (k.st = .up → rested → chanRuns s.dev ch.val = false → (k.deferred = true ∨ retrainDue k ≤ s.dev.clk.wall) →
      ∃ d, Gives (.routineRetraining ch) s d ∧ (getChan d ch.val).st = .retraining ∧ (getChan d ch.val).deferred = false ∧
        (getChan d ch.val).retrain = k.retrain + 1 ∧ Entered 0 (0x300 + ch.val) 0x0301 s.dev d) ∧
    (k.st = .up → k.deferred = true → rested → AtDue (k.deferAt + msG 5) s.dev fun e =>
      ∃ d, Gives (.retrainingDeferralExpiry ch) s d ∧ (getChan d ch.val).st = .retraining ∧ (getChan d ch.val).deferred = false ∧
        (getChan d ch.val).retrainAt = e.clk.wall) ∧
    (k.st = .up → manyRetries s.dev ch.val = true → ∃ d, Gives (.crcRetraining ch) s d ∧ (getChan d ch.val).st = .retraining ∧
      (getChan d ch.val).retrain = k.retrain + 1 ∧ (getChan d ch.val).retrainAt = s.dev.clk.wall ∧
      Entered 0 (0x300 + ch.val) 0x0301 s.dev d) ∧
    (manyRetries s.dev ch.val = false → Gives (.crcRetraining ch) s s.dev) ∧
    (k.st = .retraining → Gives (.trainingPass ch) s (modChan ch.val (fun y => { y with
      st := .up, trainTemp := y.temp, trainAt := s.dev.clk.wall, trainFails := 0
      retrainNs := y.retrainNs + BitVec.ofNat 64 ((s.dev.clk.wall - k.retrainAt) / grain) }) s.dev)) ∧
    (k.st = .retraining → k.trainFails < 2 → Gives (.trainingFail ch) s
      (modChan ch.val (fun y => { y with trainFails := y.trainFails + 1 }) s.dev)) ∧
    (k.st = .retraining → 2 ≤ k.trainFails → ∃ d, Gives (.trainingFail ch) s d ∧ (getChan d ch.val).st = .down ∧
      (∀ a, chanOf a = ch.val → mpUp s.dev = false → rdB d.gddr a = 0) ∧
      d.crater.pend.channels = insertNat s.dev.crater.pend.channels ch.val ∧ Entered 2 (0x300 + ch.val) 0x0304 s.dev d)

/-- R195 to R197, R233, R234: the time in refresh is counted; an access that fails its CRC is tried three times more and then fails
with a HALT, and a read that is uncorrectable fails at once; a LOAD whose access fails is never delivered; corrections are counted and
raise a NOTE; the device temperature is taken; the store controller's bytes take the place of the first tiered piece of a LOAD, and an
uncorrectable read of a piece of no slot is a HALT. Readings of the model that it rests on: log entry 87. -/
def Obligations.ChannelReadsAndCounts : Prop :=
  ∀ (s : State) (ch : Fin 48), awake s.dev = true →
    let k := getChan s.dev ch.val
    (∀ ns, k.st = .up → Gives (.refresh ch ns) s
      (modChan ch.val (fun c => { c with refreshNs := c.refreshNs + BitVec.ofNat 64 ns }) s.dev)) ∧
    (∀ g, chanServes s.dev ch.val = true → k.crcTries < 3 → Gives (.readCrcFail ch .other ⟨g, false⟩) s
      (modChan ch.val (fun y => { y with crcTries := y.crcTries + 1, retries := (s.dev.clk.wall :: y.retries).take 17 }) s.dev)) ∧
    (∀ g uncorr, chanServes s.dev ch.val = true → (uncorr = true ∨ 3 ≤ k.crcTries) →
      ∃ d, Gives (.readCrcFail ch .other ⟨g, uncorr⟩) s d ∧ (getChan d ch.val).crcTries = 0 ∧
      (getChan d ch.val).readFail = k.readFail + 1 ∧ d.flt.halts = s.dev.flt.halts + 1 ∧ Entered 2 (0x300 + ch.val) 0x0303 s.dev d) ∧
    (∀ (no : Fin 2304) (q : Fin 4) (r : MemReq) (g : BitVec 11), chanServes s.dev ch.val = true →
      oldestLoad (getTile s.dev no.val) q.val = some r → accessAt s.dev ch.val (.tile no q) ≠ none →
      ∃ d, Gives (.readCrcFail ch (.tile no q) ⟨g, true⟩) s d ∧ (∀ z ∈ (getTile d no.val).reqs, z.id ≠ r.id) ∧
        (getChan d ch.val).readFail = k.readFail + 1 ∧ Entered 2 (0x300 + ch.val) 0x0303 s.dev d) ∧
    (∀ n, 0 < n → AtDue (k.eccAt + msG 1) s.dev fun e =>
      ∃ d, Gives (.eccRead ch n) s d ∧ (getChan d ch.val).eccCorr = k.eccCorr + BitVec.ofNat 32 n ∧
        (getChan d ch.val).eccAt = e.clk.wall ∧ Entered 0 (0x300 + ch.val) 0x0302 s.dev d) ∧
    (AtDue (k.eccAt + msG 1) s.dev fun e =>
      Gives (.eccRead ch 0) s (modChan ch.val (fun y => { y with eccAt := e.clk.wall }) e)) ∧
    (∀ temp, AtDue (k.tempAt + msG 1) s.dev fun e =>
      Gives (.deviceTemperatureRead ch temp) s (modChan ch.val (fun y => { y with tempAt := e.clk.wall, temp := temp }) e)) ∧
    (∀ temp, NotYet (k.tempAt + msG 1) s.dev → Gives (.deviceTemperatureRead ch temp) s s.dev) ∧
    (∀ (no : Fin 2304) (q : Fin 4) (corrected : Bool) (x : Part) (r : MemReq) (a page : Nat) (ctx : Bool) (n : Nat)
      (rest : List Piece),
      partOfTile s.dev no.val = some x → oldestLoad (getTile s.dev no.val) q.val = some r →
      r.pieces = ⟨n, .tier a page ctx⟩ :: rest →
      (∀ b, storeRd s.dev a n = some b → ∃ d, Gives (.tieredRead no q corrected) s d ∧
        (∃ r', oldestLoad (getTile d no.val) q.val = some r' ∧ r'.id = r.id ∧ r'.pieces = ⟨n, .served b⟩ :: rest) ∧
        (corrected = false → s.dev.store.soft = [] → onlyTile no.val s.dev d)) ∧
      (storeRd s.dev a n = none → ctx = false → ∃ d, Gives (.tieredRead no q corrected) s d ∧ Entered 2 0x440 0x0403 s.dev d) ∧
      (storeRd s.dev a n = none → ctx = true → r.slot = none →
        ∃ d, Gives (.tieredRead no q corrected) s d ∧ Entered 2 (0x340 + tileQ no.val) 0x0308 s.dev d))

/-- R376 to R378, R407: a window read gives the page's bytes; a bad page, or a stream that carries no traffic, gives poisoned data and is
counted, a write to it or to a pinned, locked or ring page is discarded and counted; a good write reaches its bytes and no other; a read
that its channel cannot serve waits, and ends poisoned at its timeout.
Readings of the model that it rests on: log entry 88. -/
def Obligations.WindowReadsAndWrites : Prop :=
  ∀ (s : State) (off : BitVec 36), windowUp s.dev = true →
    let i := off.toNat / 65536
    let o := off.toNat % 65536
    let a := eLocator (cptE s.dev i) * 65536 + o
    (∀ len, windowBad s.dev i = false → memSecure s.dev = true → chanServes s.dev (chanOf a) = true → o + len ≤ 65536 →
      ∃ d, Gives (.windowRead off len) s d ∧ d.out.poison = false ∧ d.out.bytes = rdBs s.dev.gddr a len ∧
        { d with out := s.dev.out, chans := s.dev.chans, mm := s.dev.mm } = s.dev) ∧
    (∀ len, windowBad s.dev i = false → memSecure s.dev = true → chanServes s.dev (chanOf a) = false →
      Gives (.windowRead off len) s s.dev) ∧
    (∀ len, windowBad s.dev i = true ∨ memSecure s.dev = false → ∃ d, Gives (.windowRead off len) s d ∧ d.out.poison = true ∧ d.out.bytes = [] ∧
      d.glb.cxlmPoison = s.dev.glb.cxlmPoison + 1 ∧ { d with out := s.dev.out, glb := s.dev.glb } = s.dev) ∧
    (∀ bs, windowBad s.dev i = false → ePinned (cptE s.dev i) = false → eLock (cptE s.dev i) = false → ringPage s.dev i = false →
      memSecure s.dev = true → (getChan s.dev (chanOf a)).st ≠ .down → o + bs.length ≤ 65536 →
      ∃ d, Gives (.windowWrite off bs) s d ∧ rdBs d.gddr a bs.length = bs ∧
        (∀ b, b < a ∨ a + bs.length ≤ b → rdB d.gddr b = rdB s.dev.gddr b) ∧
        { d with gddr := s.dev.gddr, chans := s.dev.chans, mm := s.dev.mm } = s.dev) ∧
    (∀ bs, windowBad s.dev i = true ∨ ePinned (cptE s.dev i) = true ∨ eLock (cptE s.dev i) = true ∨ ringPage s.dev i = true ∨
        memSecure s.dev = false ∨ (getChan s.dev (chanOf a)).st = .down →
      Gives (.windowWrite off bs) s { s.dev with glb := { s.dev.glb with cxlmWdrop := s.dev.glb.cxlmWdrop + 1 } }) ∧
    (∀ len, len ≠ 0 → windowBad s.dev i = false → chanServes s.dev (chanOf a) = false →
      ∃ d, Gives (.windowTimeout off len) s d ∧ d.out.poison = true ∧ d.out.bytes = [] ∧ s.dev.clk.wall ≤ d.clk.wall ∧
        d.glb.cxlmPoison = s.dev.glb.cxlmPoison + 1 ∧
        { d with out := s.dev.out, glb := s.dev.glb, clk := s.dev.clk, mt := s.dev.mt } = s.dev)

/-! ### Context pages and DMA channels (chapter 9) -/

/-- R239, Tables 9.3 and 9.4: PAGE_MAP and PAGE_UNMAP work through their pages in index order until one fails and reply with what
they did; a page of GDDR7 takes the lowest free frame of the next channel in rotation, written to 0, and a page index outside the
partition, already mapped, or in use, has the status of its case. PAGE_READ replies with the entries.
Readings of the model that it rests on: log entry 86. -/
def Obligations.PageCommands : Prop :=
  ∀ (s : State) (m : Fin 64) (x : Part),
    let pl := payload s.dev m.val
    let first := lf pl 0 4
    let n := lf pl 4 2
    (PartTurn 0x0401 m.val x s.dev → 1 ≤ n → n ≤ 507 → lf pl 6 1 < 8 → ∃ st l e, (st, l, e) = mapPages x.pid (lf pl 6 1) n first
      (lf pl 8 4) [] s.dev ∧ Gives (.pageMap m) s (answer m.val st 0 (toLe 2 l.length ++ [0#8, 0#8] ++ l.flatMap (toLe 4)) e)) ∧
    (PartTurn 0x0402 m.val x s.dev → 1 ≤ n → n ≤ 1024 → ∃ st k e, (st, k, e) = unmapPages x n first 0 s.dev ∧
      Gives (.pageUnmap m) s (answer m.val st 0 (toLe 2 k) e)) ∧
    (PartTurn 0x0403 m.val x s.dev → 1 ≤ n → n ≤ 254 → first + n ≤ 1048576 →
      (∀ i, i < n → x.mask.getLsbD ((first + i) / 65536) = true) →
      Gives (.pageRead m) s (answer m.val stOk 0 ((List.range n).flatMap (fun i => toLe 8 (cptE s.dev (first + i)))) s.dev)) ∧
    (∀ (d : Dev) (p i u f : Nat), getPart d p = some x → i < 1048576 → x.mask.getLsbD (i / 65536) = true →
      eValid (cptE d i) = false → freeFrame d x = some f → f < 2 ^ 32 →
      ∃ e, mapPage p i 2 u d = (stOk, f, e) ∧ cptE e i = 1 + 8 + f * 256 ∧
        (∀ a, f * 65536 ≤ a → a < f * 65536 + 65536 → rdB e.gddr a = 0) ∧
        (∀ a, a < f * 65536 ∨ f * 65536 + 65536 ≤ a → rdB e.gddr a = rdB d.gddr a) ∧ ∀ j, j ≠ i → cptE e j = cptE d j) ∧
    (∀ (d : Dev) (p i u fl : Nat), getPart d p = some x →
      (1048576 ≤ i ∨ x.mask.getLsbD (i / 65536) = false → mapPage p i fl u d = (stDenied, 0, d) ∧ unmapPage x i d = (stDenied, d)) ∧
      (i < 1048576 → x.mask.getLsbD (i / 65536) = true →
        (eValid (cptE d i) = true → (ePinned (cptE d i) || eLock (cptE d i)) = false → mapPage p i fl u d = (stBadArg, 0, d)) ∧
        (eValid (cptE d i) = true → (ePinned (cptE d i) || eLock (cptE d i)) = true →
          ∃ st, (st = stBusy ∨ st = stBadArg) ∧ mapPage p i fl u d = (st, 0, { d with free := d.free + 1 })) ∧
        (eValid (cptE d i) = false → unmapPage x i d = (stBadArg, d)) ∧
        (eValid (cptE d i) = true → (ePinned (cptE d i) || eLock (cptE d i)) = true → unmapPage x i d = (stBusy, d)) ∧
        (eValid (cptE d i) = true → (ePinned (cptE d i) || eLock (cptE d i)) = false →
          (unmapPage x i d).1 = stOk ∧ cptE (unmapPage x i d).2 i = 0 ∧ (unmapPage x i d).2.gddr = d.gddr)))

/-- R254 to R256, Table 9.8: EN starts an IDLE channel whose ring is well formed and reports any other as a configuration error; EN 0
aborts the descriptor in hand, or makes the channel IDLE; ABORT stops a channel without a descriptor at once; RESUME goes on;
TAIL is taken within the ring. The host's accesses arrive while its stream carries traffic.
Readings of the model that it rests on: log entry 35. -/
def Obligations.DmaRegistersAct : Prop :=
  ∀ (s : State) (c : Fin 32), awake s.dev = true → ioSecure s.dev = true →
    let x := getDma s.dev c.val
    let good := 1 ≤ x.ringSize.toNat ∧ x.ringSize.toNat ≤ 16 ∧ x.ringBase.toNat % 4096 = 0 ∧
      (dmaPart s.dev c.val).isSome = true ∧ s.dev.crater.force.dma.contains c.val = false
    (x.st = .idle → good → Gives (.dmaEn c true) s
      (modDma c.val (fun x => { x with en := true, st := .run, stallOwn := false }) s.dev)) ∧
    (x.st = .idle → ¬ good → Gives (.dmaEn c true) s (modDma c.val (fun x => { x with en := false, cfgErr := true }) s.dev)) ∧
    (x.st ≠ .idle → Gives (.dmaEn c true) s s.dev) ∧
    (x.st = .run → x.cur.isSome = true → ∃ d, Gives (.dmaEn c false) s d ∧ (getDma d c.val).st = .aborting ∧
      (getDma d c.val).en = false ∧ { d with dma := s.dev.dma } = s.dev) ∧
    (x.st = .run → x.cur = none → ∃ d, Gives (.dmaEn c false) s d ∧ (getDma d c.val).st = .idle ∧ (getDma d c.val).en = false) ∧
    (x.st = .run → x.cur.isSome = true → Gives (.abort c) s (modDma c.val (fun x => { x with abort := true, st := .aborting }) s.dev)) ∧
    (x.st = .run → x.cur = none → ∃ d, Gives (.abort c) s d ∧ getDma d c.val = { x with st := .stopped, irqAbort := true } ∧
      { d with dma := s.dev.dma, msix := s.dev.msix, out := s.dev.out } = s.dev) ∧
    (x.st = .stopped → Gives (.resume c) s (modDma c.val (fun x => { x with st := .run, stallOwn := false }) s.dev)) ∧
    (∀ v : BitVec 16, v.toNat < 2 ^ x.ringSize.toNat →
      Gives (.tail c v) s (modDma c.val (fun x => { x with tail := v, stallOwn := false }) s.dev)) ∧
    (∀ v : BitVec 16, 2 ^ x.ringSize.toNat ≤ v.toNat → Gives (.tail c v) s (modDma c.val (fun x => { x with cfgErr := true }) s.dev)) ∧
    ∀ k, k ≠ c.val → ∀ v d, (Gives (.dmaEn c v) s d ∨ Gives (.abort c) s d ∨ Gives (.resume c) s d) → getDma d k = getDma s.dev k

/-- R249 to R254, R462: a channel at its HEAD reads the descriptor there and takes the lock of its first page, or waits for OWN; a
read that fails stops the channel; a lock that is free ends the wait; a burst moves up to the next 4 KiB boundary of either
address and writes nothing else of GDDR7; a host completion that does not come ends the descriptor TIMEOUT; an ended descriptor is
written back, HEAD moves on, and an aborted one leaves the channel STOPPED.
Readings of the model that it rests on: log entries 89, 90 and 92. -/
def Obligations.DmaMovesDescriptors : Prop :=
  ∀ (s : State) (c : Fin 32), awake s.dev = true →
    let k := getDma s.dev c.val
    let a := k.ringBase.toNat + 32 * k.head.toNat
    let l := hostRd s.dev a 32
    (readsHead k = true → ioSecure s.dev = true → hostOk s.dev a 32 = true → bit (lf l 31 1) 7 = false →
      Gives (.descriptorRead c) s (modDma c.val (fun x => { x with stallOwn := true }) s.dev)) ∧
    (∀ pt, readsHead k = true → ioSecure s.dev = true → hostOk s.dev a 32 = true → bit (lf l 31 1) 7 = true → xferBad l = false →
      dmaPart s.dev c.val = some pt → pt.mask.getLsbD (xferPage (xferOf l) / 65536) = true → xferPage (xferOf l) < 1048576 →
      let e := cptE s.dev (xferPage (xferOf l))
      eValid e = true → ePinned e = false → eLock e = false → ePoison e = false → s.dev.cptBad.contains (xferPage (xferOf l)) = false →
      (eLoc e = false ∨ (xferOf l).toHost = true) →
      ∃ d, Gives (.descriptorRead c) s d ∧ (getDma d c.val).cur = some { xferOf l with lock := some (xferPage (xferOf l)) } ∧
        eLock (cptE d (xferPage (xferOf l))) = true ∧ { d with dma := s.dev.dma, cpt := s.dev.cpt } = s.dev) ∧
    (readsHead k = true → ∃ d, Gives (.descriptorReadFail c) s d ∧ (getDma d c.val).st = .stopped ∧ (getDma d c.val).irqErr = true ∧
      (getDma d c.val).cur = none ∧ (getDma d c.val).head = k.head ∧
      (getDma d c.val).lastErr.toNat % 2 ^ 16 = k.head.toNat ∧
      ((getDma d c.val).lastErr.toNat / 2 ^ 16 = stTimeout ∨ (getDma d c.val).lastErr.toNat / 2 ^ 16 = stIntegrity)) ∧
    (∀ t y, k.lockWait = some t → k.cur = some y → eLock (cptE s.dev (xferPage y)) = false → ∃ d, Gives (.lockWaitEnd c) s d ∧
      (getDma d c.val).lockWait = none ∧
      (getDma d c.val).lockWaitNs = k.lockWaitNs + BitVec.ofNat 64 ((s.dev.clk.wall - t) / grain)) ∧
    (∀ x p, k.cur = some x → x.lock = some p → k.st = .run → x.ended = none → ioSecure s.dev = true → x.toHost = false →
      eLoc (cptE s.dev p) = false → chanServes s.dev (chanOf (eLocator (cptE s.dev p) * 65536 + xferOff x)) = true →
      hostOk s.dev ((x.host + x.moved) / 64 * 64) (outward 64 (x.host + x.moved) (burstLen x)) = true →
      ∃ d, Gives (.burst c) s d ∧
        let g := eLocator (cptE s.dev p) * 65536 + xferOff x
        rdBs d.gddr g (burstLen x) = hostRd s.dev (x.host + x.moved) (burstLen x) ∧ d.host = s.dev.host ∧
        (∀ b, b < g ∨ g + burstLen x ≤ b → rdB d.gddr b = rdB s.dev.gddr b) ∧
        (getDma d c.val).bytesMoved = k.bytesMoved + BitVec.ofNat 64 (burstLen x) ∧
        ∃ y, (getDma d c.val).cur = some y ∧ y.moved = x.moved + burstLen x) ∧
    (∀ x p, k.cur = some x → x.lock = some p → k.st = .run → x.ended = none → ioSecure s.dev = true → x.toHost = true →
      eLoc (cptE s.dev p) = false → chanServes s.dev (chanOf (eLocator (cptE s.dev p) * 65536 + xferOff x)) = true →
      hostOk s.dev (x.host + x.moved) (burstLen x) = true →
      ∃ d, Gives (.burst c) s d ∧ d.gddr = s.dev.gddr ∧
        rdBs d.host (x.host + x.moved) (burstLen x) = rdBs s.dev.gddr (eLocator (cptE s.dev p) * 65536 + xferOff x) (burstLen x) ∧
        (∀ b, b < x.host + x.moved ∨ x.host + x.moved + burstLen x ≤ b → rdB d.host b = rdB s.dev.host b) ∧
        ∃ y, (getDma d c.val).cur = some y ∧ y.moved = x.moved + burstLen x) ∧
    (∀ x p, k.cur = some x → x.ended = none → x.lock = some p → ∃ d, Gives (.hostCompletionTimeout c) s d ∧
      ∃ y, (getDma d c.val).cur = some y ∧ y.ended = some (BitVec.ofNat 8 stTimeout) ∧ y.lock = none) ∧
    (∀ x st, k.cur = some x → x.ended = some st → k.st = .run → hostOk s.dev (a + 24) 8 = true → ∃ d, Gives (.writeBack c) s d ∧
      rdBs d.host (a + 24) 8 = backBytes x st.toNat ∧ (∀ b, b < a + 24 ∨ a + 32 ≤ b → rdB d.host b = rdB s.dev.host b) ∧
      (getDma d c.val).cur = none ∧ (getDma d c.val).head.toNat = (k.head.toNat + 1) % 2 ^ k.ringSize.toNat % 2 ^ 16 ∧
      (getDma d c.val).descDone = k.descDone + 1 ∧
      ((getDma d c.val).st = .stopped ↔ (st.toNat ≠ stOk ∧ k.stopOnErr = true))) ∧
    (∀ x, k.cur = some x → x.ended = none → k.st = .aborting → hostOk s.dev (a + 24) 8 = true → ∃ d, Gives (.abortWriteBack c) s d ∧
      rdBs d.host (a + 28) 1 = toLe 1 stAborted ∧ (getDma d c.val).cur = none ∧ (getDma d c.val).irqAbort = true ∧
      (getDma d c.val).st = if k.en then .stopped else .idle)

/-! ### Mailboxes (chapter 15) -/

/-- R382, Tables 15.6 and 15.7: an answer leaves its mailbox in DONE with STATUS, REASON, the request's OPCODE, SEQ and TAG and the
payload in its reply area; it changes no other mailbox, raises the mailbox's vector and does nothing else. -/
def Obligations.AnswersStandInTheReplyArea : Prop :=
  ∀ (d : Dev) (m st reason : Nat) (pl : List Byte), st < 256 → reason < 256 → pl.length ≤ 1968 →
    let e := answer m st reason pl d
    let x := getMbx d m
    let y := getMbx e m
    onlyMbx m d e ∧ y.st = .done ∧ y.begun = false ∧ y.req = x.req ∧ rdN y.reply 0 2 = rqOpcode x ∧ rdN y.reply 2 2 = rqSeq x ∧
    rdN y.reply 4 2 = pl.length ∧ rdN y.reply 6 1 = st ∧ rdN y.reply 7 1 = reason ∧ rdN y.reply 8 8 = rqTag x ∧
    rdBs y.reply 16 pl.length = pl ∧ (∀ a, 16 + pl.length ≤ a → rdB y.reply a = rdB x.reply a) ∧ e = raiseVec (2 + m) (modMbx m (fun _ => y) d)

/-- R381, Table 15.9: whatever the command, a mailbox whose turn it is is refused with BAD_ARG for an OPCODE that no row lists, with
BAD_ARG for a wrong length or a reserved byte, with DENIED where no partition holds its block, and with BUSY where the MP's
accepted commands are at their limit; none of these has an effect on anything but the mailbox.
Readings of the model that it rests on: log entries 37 and 38. -/
def Obligations.MailboxLevelRefusals : Prop :=
  ∀ (code m : Nat) (f : List Byte → Dev → Dev) (d : Dev), isTurn d code m = true →
    (∀ st reason, rqRefusal d m = some (st, reason) → command code m f d = answer m st reason [] d) ∧
    (rqShape (getMbx d m) = none → rqRefusal d m = some (stBadArg, 0xF3)) ∧
    (∀ isPart len res, rqShape (getMbx d m) = some (isPart, len, res) →
      (rqLen (getMbx d m) ≠ len → rqRefusal d m = some (stBadArg, 0xF4)) ∧
      (rqLen (getMbx d m) = len → len ≤ 1968 → rqRes (getMbx d m) = 0 → res = [] →
        rqRefusal d m = if isPart && (partOfBlock d (m / 4)).isNone then some (stDenied, 0xF5) else none)) ∧
    (rqRefusal d m = none → isFull d m = true → command code m f d = answer m stBusy 0xF2 [] d)

/-- R380 to R383: a doorbell posts the request of an IDLE or DONE mailbox and is discarded and counted in the other states; the MP
takes a posted command; one that stands POSTED is answered BUSY by the hardware 18 us after its doorbell; SHED answers every
posted command BUSY and clears 100 us after the last wait that set it or held it.
Readings of the model that it rests on: log entry 42. -/
def Obligations.MailboxesPostAndTake : Prop :=
  ∀ (s : State) (m : Fin 64),
    let x := getMbx s.dev m.val
    (hwUp s.dev = true → ioSecure s.dev = true → (x.st = .posted ∨ x.st = .accepted) →
      Gives (.post m) s (modMbx m.val (fun x => { x with errPost := satAdd16 x.errPost 1 }) s.dev)) ∧
    (hwUp s.dev = true → ioSecure s.dev = true → (x.st = .idle ∨ x.st = .done) → s.dev.glb.shed = true →
      ∃ d, Gives (.post m) s d ∧ Answered m.val stBusy d) ∧
    (hwUp s.dev = true → ioSecure s.dev = true → (x.st = .idle ∨ x.st = .done) → s.dev.glb.shed = false → ∃ d, Gives (.post m) s d ∧
      getMbx d m.val = { x with st := .posted, seq := BitVec.ofNat 16 (rqSeq x), postAt := s.dev.clk.wall, order := s.dev.glb.posts, begun := false } ∧
      { d with mbx := s.dev.mbx, glb := s.dev.glb } = s.dev ∧ d.glb = { s.dev.glb with posts := s.dev.glb.posts + 1 }) ∧
    (x.st = .posted → mpUp s.dev = true → s.dev.glb.shed = false → rqRefusal s.dev m.val = none → isFull s.dev m.val = false →
      Gives (.mpAccept m) s (modMbx m.val (fun x => { x with st := .accepted }) s.dev)) ∧
    (hwUp s.dev = true → x.st = .posted → AtDue (x.postAt + usG 18) s.dev fun e =>
      Gives (.auto m) s (answer m.val stBusy 0xF1 [] e)) ∧
    (hwUp s.dev = true → x.st = .posted → NotYet (x.postAt + usG 18) s.dev → Gives (.auto m) s s.dev) ∧
    (mpUp s.dev = true → s.dev.glb.shed = true → Gives .shed s { s.dev with glb := { s.dev.glb with shedWait := some s.dev.clk.wall } }) ∧
    (mpUp s.dev = true → s.dev.glb.shed = false → ∃ d, Gives .shed s d ∧ d.glb.shed = true ∧ d.glb.shedAt = some s.dev.clk.wall ∧
      ∀ k, tget s.dev.mbx k ≠ none → (getMbx s.dev k).st = .posted → (getMbx d k).st = .done) ∧
    (∀ t w, mpUp s.dev = true → s.dev.glb.shedAt = some t → s.dev.glb.shedWait = some w → AtDue (w + usG 100) s.dev fun e =>
      Gives .shedClear s { e with glb := { e.glb with
        shed := false, shedAt := none, shedWait := none, shedNs := e.glb.shedNs + BitVec.ofNat 64 ((e.clk.wall - t) / grain) } })

/-! ### Partitions and plans (chapters 1, 15) -/

/-- R22 to R26, R168, R385, R408: creating, loading, stopping, restarting, unloading and destroying a partition; what a plan that
passed every check installs, with its reply once the tile step has come down to its MAX_STEP; a refused load changes nothing but the
mailbox; a stopped partition's tiles end the tick in hand. Premise of PART_STOP: the invariant of EveryStepKeepsThePartitions.
Readings of the model that it rests on: log entries 37, 117, 119, 120 and 122. -/
def Obligations.PartitionAndPlanCommands : Prop :=
  ∀ (s : State) (m : Fin 64) (x : Part),
    let d := s.dev
    let pl := payload d m.val
    (Turn 0x0101 m.val d → let mask := BitVec.ofNat 16 (lf pl 0 2)
      mask ≠ 0 → maskTaken d mask = false → d.glb.install = false → d.crater.unconfirmed = false → ∃ e, Gives (.partCreate m) s e ∧
        getPart e ((blocksOf mask).headD 0) = some { pid := (blocksOf mask).headD 0, mask := mask } ∧
        (∀ t, tget d.tiles t ≠ none → mask.getLsbD (blockOfTile t) = true →
          (getTile e t).cmem = [] ∧ (getTile e t).spad = [] ∧ (getTile e t).ctr0 = 0 ∧ (getTile e t).pred = 0) ∧ e.gddr = d.gddr) ∧
    (Turn 0x0102 m.val d → getPart d (lf pl 0 1) = some x → x.pid = lf pl 0 1 → partBusy d x = false →
      (∀ f ∈ d.parts, f.1 ≠ x.pid → f.2.mask &&& x.mask = 0) → ∃ e, Gives (.partDestroy m) s e ∧
      getPart e x.pid = none ∧ (∀ i, x.mask.getLsbD (i / 65536) = true → cptE e i = 0) ∧
      ∀ i, x.mask.getLsbD (i / 65536) = false → cptE e i = cptE d i) ∧
    (PartTurn 0x0201 m.val x d → let (a, n) := (lf pl 0 8, lf pl 8 8)
      x.plan = .empty → d.glb.install = false → hostOk d a n = true →
      (∀ st reason, planRefusal d x (hostRd d a n) = some (st, reason) → Gives (.planLoad m) s (answer m.val st reason [] d)) ∧
      (planRefusal d x (hostRd d a n) = none → getPart d x.pid = some x →
        stepTooHigh (installPlan x.pid (hostRd d a n) d) = false → ∃ e y, Gives (.planLoad m) s e ∧ getPart e x.pid = some y ∧
          y.plan = .loaded ∧ y.info.isSome = true ∧ Answered m.val stOk e) ∧
      (planRefusal d x (hostRd d a n) = none → stepTooHigh (installPlan x.pid (hostRd d a n) d) = true →
        ∃ e, Gives (.planLoad m) s e ∧ Begun m.val e)) ∧
    (PartTurn 0x0202 m.val x d → (x.plan = .loaded ∨ x.plan = .stopped) → getPart d x.pid = some x → ∃ e y, Gives (.planUnload m) s e ∧
      Answered m.val stOk e ∧ getPart e x.pid = some y ∧ y.plan = .empty ∧ y.info = none ∧ y.srv.sel = none) ∧
    (PartTurn 0x0202 m.val x d → (x.plan = .empty ∨ x.plan = .running) → Gives (.planUnload m) s (answer m.val stDenied 0 [] d)) ∧
    (PartTurn 0x0203 m.val x d → d.partsWf → x.plan = .running → getPart d x.pid = some x → ∃ e y, Gives (.partStop m) s e ∧
      Answered m.val stOk e ∧ getPart e x.pid = some y ∧ y.plan = .stopped ∧ y.lastOrbit = x.orbit ∧ y.parked = false ∧
      y.stopping = (active x && decide (x.tick < (x.info.map (·.orbitLen)).getD 0)) ∧
      (y.stopping = false → ∀ t, tget d.tiles t ≠ none → x.mask.getLsbD (blockOfTile t) = true → (getTile d t).mode = .run →
        (getTile e t).mode = (if (getTile d t).halting then .halted else .parked) ∧ (getTile e t).wait = none)) ∧
    (PartTurn 0x0203 m.val x d → x.plan ≠ .running → Gives (.partStop m) s (answer m.val stDenied 0 [] d)) ∧
    (PartTurn 0x0204 m.val x d → x.plan = .stopped → craterChanged d x = false → getPart d x.pid = some x →
      ∃ e y, Gives (.partRestart m) s e ∧ getPart e x.pid = some y ∧ y.plan = .loaded ∧
        (x.stopping = false → y = { x with plan := .loaded }) ∧ rdBs (getMbx e m.val).reply 16 1 = [1]) ∧
    (PartTurn 0x0204 m.val x d → x.plan = .stopped → craterChanged d x = true → getPart d x.pid = some x →
      ∃ e y, Gives (.partRestart m) s e ∧ getPart e x.pid = some y ∧ y.plan = .empty ∧ rdBs (getMbx e m.val).reply 16 1 = [0]) ∧
    (PartTurn 0x0205 m.val x d → x.parked = true → getPart d x.pid = some x → ∃ e, Gives (.partResume m) s e ∧
      getPart e x.pid = some { x with parked := false } ∧ ∀ t, tget d.tiles t ≠ none → x.mask.getLsbD (blockOfTile t) = true →
        (getTile d t).mode = .parked → (getTile d t).resumable = true → (getTile e t).mode = .run)

/-- R37, R159, R163, R171, R386: the reports and settings that a mailbox reads and writes: the hold limit in range takes effect
at the next boundary of a running partition and at once in another, the level report is the last one formed, the transit table
and the store's directory are written to host memory, and the step limit in force is the reply.
Readings of the model that it rests on: log entries 40, 121 and 123. -/
def Obligations.ReportsAndLimits : Prop :=
  ∀ (s : State) (m : Fin 64) (x : Part),
    let d := s.dev
    let pl := payload d m.val
    let v := lf pl 0 4
    (PartTurn 0x0207 m.val x d → v = 0 → Gives (.holdLimit m) s (answer m.val stOk 0 (toLe 4 (x.holdNext.getD x.holdUs)) d)) ∧
    (PartTurn 0x0207 m.val x d → 100 ≤ v → v ≤ 100000 → getPart d x.pid = some x → ∃ e y, Gives (.holdLimit m) s e ∧ getPart e x.pid = some y ∧
      (x.plan = .running → y = { x with holdNext := some v }) ∧ (x.plan ≠ .running → y = { x with holdUs := v, holdNext := none }) ∧
      rdN (getMbx e m.val).reply 16 4 = v) ∧
    (PartTurn 0x0207 m.val x d → (0 < v ∧ v < 100 ∨ 100000 < v) → Gives (.holdLimit m) s (answer m.val stBadArg 0 [] d)) ∧
    (PartTurn 0x0206 m.val x d → x.level.body ≠ [] →
      Gives (.levelReport m) s (answer m.val stOk 0 (toLe 4 x.level.orbit.toNat ++ x.level.body) d)) ∧
    (Turn 0x0105 m.val d → hostOk d (lf pl 0 8) transitTable.length = true → ∃ e, Gives (.transitRead m) s e ∧
      rdBs e.host (lf pl 0 8) transitTable.length = transitTable ∧ (getMbx e m.val).st = .done ∧
      ∀ a, a < lf pl 0 8 ∨ lf pl 0 8 + transitTable.length ≤ a → rdB e.host a = rdB d.host a) ∧
    (Turn 0x0106 m.val d → storeReady d = true → hostOk d (lf pl 0 8) 6144 = true → ∃ e, Gives (.dirRead m) s e ∧
      rdBs e.host (lf pl 0 8) 6144 = (List.range 64).flatMap (dirEntry d) ∧
      (∀ a, a < lf pl 0 8 ∨ lf pl 0 8 + 6144 ≤ a → rdB e.host a = rdB d.host a) ∧
      rdN (getMbx e m.val).reply 16 1 = (d.store.imgs.filter (fun e => e.2.committed)).length % 256) ∧
    (Turn 0x0104 m.val d → lf pl 0 1 ≤ 7 →
      let e := { d with pwr := { d.pwr with opLimit := BitVec.ofNat 3 (lf pl 0 1) } }
      (stepAbove e = false → Gives (.stepLimit m) s (answer m.val stOk 0 (toLe 1 d.clk.step.toNat) e)) ∧
      (stepAbove e = true → d.clk.busy = true → Gives (.stepLimit m) s (beginCmd m.val e)) ∧
      (wantStep e < d.clk.step.toNat → d.clk.busy = false → ∃ f, Gives (.stepLimit m) s f ∧ (getMbx f m.val).st = .accepted ∧
        (getMbx f m.val).begun = true ∧ f.clk.busy = true ∧ f.clk.tgt = BitVec.ofNat 3 (wantStep e)))

/-! ### Faults, self-test and recovery (chapters 16 and 17) -/

/-- R410, R416, R417, R420, R424: an event of any class is entered in the history under the number HIST_HEAD had, counted by its
class, and acts by its class: HALT and SEAL drive FAULT_N low with HOLD and a pulse of 10 us, HALT takes every RUNNING partition it
names out of RUNNING (in states with the invariant of EveryStepKeepsThePartitions), SEAL sets SEALED, freezes every sequencer and leaves
the rails up to VFIX alone; nothing is taken out of the history but the entries 64 back.
Readings of the model that it rests on: log entries 22 and 29. -/
def Obligations.FaultEventsActByTheirClass : Prop :=
  ∀ (s : State) (cls : BitVec 2) (src : BitVec 12) (cause : BitVec 16) (part : BitVec 8) (detail : BitVec 64), hwUp s.dev = true →
    let d := s.dev
    ∃ e, Gives (.faultEvent cls src cause part detail) s e ∧ Entered cls.toNat src.toNat cause.toNat d e ∧
      (∀ k, k < 64 → k ≠ d.flt.head.toNat % 64 → k ≠ (d.flt.head.toNat + 1) % 64 → k ≠ (d.flt.head.toNat + 2) % 64 →
        tget e.flt.hist k = tget d.flt.hist k) ∧
      (2 ≤ cls.toNat → e.flt.hold = true ∧ e.flt.pulse = some (d.clk.wall + usG 10) ∧ e.flt.head = d.flt.head + 1) ∧
      (cls = 0 → e.flt.notes = d.flt.notes + 1) ∧
      (cls = 1 → e.flt.degrades = d.flt.degrades + 1 ∧
        ((getEsc d src.toNat).degLimit = 0 → e.flt.halts = d.flt.halts ∧ e.flt.hold = d.flt.hold ∧ e.flt.pulse = d.flt.pulse)) ∧
      (cls = 2 → e.flt.halts = d.flt.halts + 1 ∧ e.flt.lastHalt = d.flt.head ∧ e.flt.sealed = d.flt.sealed ∧
        ∀ x, d.partsWf → part ≠ 0xFF → getPart d part.toNat = some x → x.plan = .running →
          ∃ y, getPart e part.toNat = some y ∧ y.plan = .stopped ∧ y.lastOrbit = x.orbit) ∧
      (cls = 3 → e.flt.sealed = true ∧ (∀ t, tget d.tiles t ≠ none → (getTile e t).mode = .frozen) ∧ e.pwr.rails = d.pwr.rails &&& 7#8 ∧ e.glb.mpReady = false ∧ e.sec.sessions = [] ∧
        e.flt.firstSeal = if d.flt.firstSeal = 0xFFFFFFFFFFFFFFFF#64 then d.flt.head else d.flt.firstSeal) ∧
      e.host = d.host ∧ e.otp = d.otp ∧ e.flash = d.flash ∧ e.store = d.store ∧ e.wpt = d.wpt

/-- R414, R415, Table 15.10: ESCALATION_SET gives a range of sources their limits and windows and starts their counts afresh; the
NOTE that brings a source's count to NOTE_LIMIT in its window raises a DEGRADE with cause ESCALATED from that source, next in
the history, and its count starts again; one short of the limit, or with NOTE_LIMIT 0, raises nothing further. -/
def Obligations.NotesEscalate : Prop :=
  (∀ (s : State) (m : Fin 64), Turn 0x0703 m.val s.dev →
    let pl := payload s.dev m.val
    let first := lf pl 0 2
    let n := lf pl 2 2
    1 ≤ n → first + n ≤ 0x1000 → (∀ i, i < n → 1 ≤ (first + i) / 256 ∧ (first + i) / 256 ≤ 9) →
    1 ≤ lf pl 6 2 → lf pl 6 2 ≤ 60000 → 1 ≤ lf pl 10 2 → lf pl 10 2 ≤ 60000 →
    ∃ e, Gives (.escalationSet m) s e ∧ (∀ i, i < n → getEsc e (first + i) =
        { noteLimit := lf pl 4 2, noteWindow := lf pl 6 2, degLimit := lf pl 8 2, degWindow := lf pl 10 2 }) ∧
      (∀ k, k < first ∨ first + n ≤ k → getEsc e k = getEsc s.dev k) ∧ (getMbx e m.val).st = .done ∧
      { e with mbx := s.dev.mbx, flt := s.dev.flt, msix := s.dev.msix, out := s.dev.out } = s.dev ∧
      { e.flt with esc := s.dev.flt.esc } = s.dev.flt) ∧
  ∀ (d : Dev) (src cause part detail : Nat),
    let x := getEsc d src
    let fresh := x.noteStart + x.noteWindow * 1000000 ≤ d.mt.mt.toNat ∨ x.noteCount = 0
    let e := raise 0 src cause part detail d
    (x.noteLimit = 0 → e.flt.degrades = d.flt.degrades ∧ e.flt.head = d.flt.head + 1) ∧
    (x.noteLimit ≠ 0 → ¬ fresh → x.noteCount + 1 < x.noteLimit →
      e.flt.degrades = d.flt.degrades ∧ (getEsc e src).noteCount = x.noteCount + 1 ∧ (getEsc e src).noteStart = x.noteStart) ∧
    (1 < x.noteLimit → fresh →
      e.flt.degrades = d.flt.degrades ∧ (getEsc e src).noteCount = 1 ∧ (getEsc e src).noteStart = d.mt.mt.toNat) ∧
    (x.noteLimit ≠ 0 → (fresh ∧ x.noteLimit = 1) ∨ (¬ fresh ∧ x.noteCount + 1 = x.noteLimit) →
      e.flt.degrades = d.flt.degrades + 1 ∧ (getEsc e src).noteCount = 0 ∧
      ∃ h, tget e.flt.hist ((d.flt.head + 1).toNat % 64) = some h ∧ h.cls = 1 ∧ h.source = BitVec.ofNat 12 src ∧ h.cause = 1)

/-- R420 to R423: the pulse of FAULT_N ends 10 us after its latest entry; FAULT_HOLD_CLEAR clears HOLD where it names a later
number than the last HALT's, and is refused otherwise and while SEALED; the watchdog's expiry sets MP_FAILED and enters a HALT; a
failure of the SE sets SE_FAILED and seals the module; ALIVE changes level every 500 us within 1%, or stops low. -/
def Obligations.FaultLogicTimersAndHold : Prop :=
  ∀ (s : State) (m : Fin 64),
    let d := s.dev
    let arg := lf (payload d m.val) 0 8
    let last := d.flt.lastHalt
    let ok := last = 0xFFFFFFFFFFFFFFFF#64 ∨ last.toNat < arg
    (∀ t, d.flt.pulse = some t → AtDue t d fun e => Gives .pulseEnd s { e with flt := { e.flt with pulse := none } }) ∧
    (∀ t, d.flt.pulse = some t → NotYet t d → Gives .pulseEnd s d) ∧
    (Turn 0x0704 m.val d → ok →
      Gives (.faultHoldClear m) s (answer m.val stOk 0 (toLe 8 last.toNat) { d with flt := { d.flt with hold := false } })) ∧
    (Turn 0x0704 m.val d → ¬ ok → Gives (.faultHoldClear m) s (answer m.val stNotReady 0 (toLe 8 last.toNat) d)) ∧
    (hwUp d = true → d.flt.sealed = true → (getMbx d m.val).st = .posted → rqOpcode (getMbx d m.val) = 0x0704 →
      Gives (.faultHoldClear m) s (answer m.val stDenied 0 (toLe 8 last.toNat) d)) ∧
    (awake d = true → d.flt.mpFailed = false → ∃ e, Gives .watchdog s e ∧ e.flt.mpFailed = true ∧ e.flt.aliveStop = true ∧
      Entered 2 0x701 0x0701 d e ∧ e.flt.hold = true ∧ mpUp e = false) ∧
    (awake d = true → ∃ e, Gives .seFail s e ∧ e.flt.seFailed = true ∧ e.flt.sealed = true ∧ Entered 3 0x800 0x0801 d e ∧
      awake e = false) ∧
    (d.pwr.inputOn = true → d.flt.aliveRun = true → ∃ ns, 495000 ≤ ns ∧ ns ≤ 505000 ∧ AtDue (d.flt.aliveAt + nsG ns) d fun e =>
      Gives .aliveToggle s { e with free := e.free + 1, flt := if d.flt.aliveStop = true
        then { e.flt with alive := false, aliveRun := false }
        else { e.flt with alive := !d.flt.alive, aliveAt := d.flt.aliveAt + nsG ns } })

/-- R427 to R431, R434: BIST_RUN is taken with no partition in the module and no installation open, holds its mailbox ACCEPTED and
runs the tile moons at step 3; its end marks every unit found to have failed in the map in force, keeps the marks there were where
it does not rebuild them, empties the pending map, writes a slot and answers OK; CRATER_READ writes both maps to host memory.
Readings of the model that it rests on: log entries 30, 32 and 33. -/
def Obligations.SelfTestAndCraterMap : Prop :=
  ∀ (s : State) (m : Fin 64) (r : BistRun) (find : Findings),
    let d := s.dev
    let pl := payload d m.val
    let groups := BitVec.ofNat 8 (lf pl 0 1)
    (Turn 0x0701 m.val d → groups ≠ 0 → lf pl 1 1 ≤ 1 → lf pl 2 1 = 0 → lf pl 3 1 = 0 → d.otp.lc ≠ 4#3 → d.bist = none →
      (d.parts ≠ [] → Gives (.bistRun m) s (answer m.val stNotReady 0 [] d)) ∧
      (d.parts = [] → d.glb.install = false → lf pl 1 1 = 1 → groups &&& ~~~ (fullAllowed d) ≠ 0 →
        Gives (.bistRun m) s (answer m.val stDenied 0 [] d)) ∧
      (d.parts = [] → d.glb.install = false → (lf pl 1 1 = 0 ∨ groups &&& ~~~ (fullAllowed d) = 0) →
        ∃ e, Gives (.bistRun m) s e ∧ e.bist = some ⟨m.val, groups, lf pl 1 1 = 1, false⟩ ∧ e.clk.step = 3#3 ∧
          (getMbx e m.val).st = .accepted ∧ (getMbx e m.val).begun = true ∧
          { e with bist := d.bist, clk := d.clk, sec := d.sec, mbx := d.mbx, pwr := d.pwr } = d)) ∧
    (mpUp d = true → d.bist = some r → (find.faultLogic = false ∨ r.groups.getLsbD 7 = false) → ∃ e, Gives (.bistRunEnd find) s e ∧
      e.bist = none ∧ e.crater.pend = {} ∧
      (∀ t ∈ find.tiles, r.groups.getLsbD (t / 600) = true → t ∈ e.crater.force.tiles) ∧
      (∀ c ∈ find.channels, r.groups.getLsbD 4 = true → c ∈ e.crater.force.channels) ∧
      (∀ c ∈ find.dma, r.groups.getLsbD 7 = true → c ∈ e.crater.force.dma) ∧
      (r.rebuild = false → (∀ t, t ∈ d.crater.force.tiles ∨ t ∈ d.crater.pend.tiles → t ∈ e.crater.force.tiles) ∧
        ∀ c, c ∈ d.crater.force.channels ∨ c ∈ d.crater.pend.channels → c ∈ e.crater.force.channels) ∧
      (let slot := mapSlot e.crater.force {} e.crater.seq e.crater.unconfirmed
       e.flash.map0 = some slot ∨ e.flash.map1 = some slot) ∧
      ((getMbx d r.mbx).begun = true → (getMbx e r.mbx).st = .done ∧ rdN (getMbx e r.mbx).reply 6 1 = stOk)) ∧
    (Turn 0x0702 m.val d → hostOk d (lf pl 0 8) 768 = true → ∃ e, Gives (.craterRead m) s e ∧
      rdBs e.host (lf pl 0 8) 384 = craterBytes d.crater.force ∧ rdBs e.host (lf pl 0 8 + 384) 384 = craterBytes d.crater.pend ∧
      (∀ a, a < lf pl 0 8 ∨ lf pl 0 8 + 768 ≤ a → rdB e.host a = rdB d.host a) ∧
      rdN (getMbx e m.val).reply 16 8 = d.crater.seq.toNat ∧ rdN (getMbx e m.val).reply 6 1 = stOk)

/-- R394, R396 to R398: in recovery wait, or once GO is written there, the image that lies in host memory is checked; one that cannot be
read, or fails a check of Table 16.3, leaves the module in recovery wait with its reason; one that passes is started from the host, or written to the boot flash
first where COMMIT is set, burning the SVN in the states that raise it.
Readings of the model that it rests on: log entries 24 and 25. -/
def Obligations.RecoveryStartsAnImage : Prop :=
  ∀ (s : State) (find : Findings), awake s.dev = true → (s.dev.rcv.go = true ∨ (s.dev.rcv.st = 1#3 ∧ s.dev.otp.lc ≠ 4#3)) →
    let d := s.dev
    let a := d.rcv.addr.toNat
    let n := d.rcv.len.toNat
    let img := hostRd d a n
    let wait (r : Nat) : Dev := { d with rcv := { d.rcv with st := 1#3, go := false, reason := BitVec.ofNat 8 r } }
    (hostOk d a n = false → Gives (.recoveryGo find) s (wait 0x0A)) ∧
    (hostOk d a n = true → ∀ r, checkImage d img = some r → Gives (.recoveryGo find) s (wait r)) ∧
    (hostOk d a n = true → checkImage d img = none → d.rcv.commit = true → d.flash.bad = true → Gives (.recoveryGo find) s (wait 0x0B)) ∧
    (hostOk d a n = true → checkImage d img = none → (d.rcv.commit = true → d.flash.bad = false) → ∃ e, Gives (.recoveryGo find) s e ∧
      e.rcv.st = (if d.rcv.commit then 0#3 else 4#3) ∧ e.rcv.reason = 0 ∧ e.rcv.go = false ∧ e.rcv.running = some (img.take 0x50, true) ∧
      e.flash.image = (if d.rcv.commit then img else d.flash.image) ∧
      e.otp.svn = (if d.rcv.commit = true ∧ d.otp.svn < lf img 0x14 4 ∧ (d.otp.lc = 1#3 ∨ d.otp.lc = 2#3) then lf img 0x14 4 else d.otp.svn) ∧
      e.otp.lc = d.otp.lc ∧ e.host = d.host ∧
      (find.zeroFail = false → find.faultLogic = false → e.glb.mpReady = true ∧ e.flt.sealed = false))

/-! ### The module, its host link and its time (chapters 12, 15, 18) -/

/-- R330, R331, R372, R373, R375, R376, R449: TIME_ROOT makes and unmakes the root of machine time; the host link's width and rate
are reported; a host reset clears the link, MSI-X and the sessions and counts; snoops miss and bias flips are refused; the MP's
heartbeat moves on every millisecond; a read that BAR 0 does not accept returns all ones and counts.
Readings of the model that it rests on: log entries 17 and 53. -/
def Obligations.HostLinkAndTimeRoot : Prop :=
  ∀ (s : State) (m : Fin 64) (cxl : Bool) (width rate : BitVec 3) (busy : BitVec 10) (off : BitVec 26) (bytes : Nat),
    let d := s.dev
    let pl := payload d m.val
    (Turn 0x0103 m.val d → lf pl 0 1 = 1 → ∃ mt, Gives (.timeRoot m) s (answer m.val stOk 0 [] { d with mt := mt }) ∧ mt.root = true ∧
      mt.stratum = 0 ∧ mt.parent = none ∧ mt.slew = 0 ∧
      (lf pl 8 8 ≠ 0 → (∀ e ∈ d.parts, e.2.job.st = .none_) → mt.mt = BitVec.ofNat 64 (lf pl 8 8)) ∧
      ((lf pl 8 8 = 0 ∨ ∃ e ∈ d.parts, e.2.job.st ≠ .none_) → mt.mt = d.mt.mt)) ∧
    (Turn 0x0103 m.val d → lf pl 0 1 = 0 → ∃ mt, Gives (.timeRoot m) s (answer m.val stOk 0 [] { d with mt := mt }) ∧
      mt.root = false ∧ mt.mt = d.mt.mt) ∧
    (Turn 0x0103 m.val d → 1 < lf pl 0 1 → Gives (.timeRoot m) s (answer m.val stBadArg 0 [] d)) ∧
    (awake d = true → width = 4 → rate = 3 → Gives (.hostLinkTrained cxl width rate) s
      { d with glb := { d.glb with cxl := cxl, width := width, rate := rate } }) ∧
    (awake d = true → linkWidth width = true → linkRate rate = true → (width ≠ 4 ∨ rate ≠ 3) → ∃ e, Gives (.hostLinkTrained cxl width rate) s e ∧ Entered 0 0x720 0x0702 d e ∧
      e.glb = { d.glb with cxl := cxl, width := width, rate := rate }) ∧
    (d.pwr.inputOn = true → d.pwr.resetHeld = false → ∃ e, Gives .perstN s e ∧ e.glb.width = 0 ∧ e.glb.rate = 0 ∧ e.glb.cxl = false ∧
      e.msix = [] ∧ e.sec.sessions = [] ∧ e.sec.ide = [] ∧ e.pwr = { d.pwr with hostResets := satAdd d.pwr.hostResets 1 } ∧
      e.cfg = {} ∧ { e with glb := d.glb, msix := d.msix, sec := d.sec, pwr := d.pwr, cfg := d.cfg } = d) ∧
    (awake d = true → Gives .snoop s { d with out := { d.out with miss := true } }) ∧
    (awake d = true → Gives .biasFlip s { d with out := { d.out with refused := true } }) ∧
    (mpUp d = true → AtDue (d.glb.beatAt + msG 1) d fun e => Gives (.heartbeatIncrement busy) s
      { e with glb := { e.glb with heartbeat := e.glb.heartbeat + 1, mpBusy := busy, beatAt := d.glb.beatAt + msG 1 } }) ∧
    (mpUp d = true → NotYet (d.glb.beatAt + msG 1) d → Gives (.heartbeatIncrement busy) s d) ∧
    (d.pwr.inputOn = true → d.pwr.resetHeld = false → ioSecure d = true → ¬ ((bytes = 4 ∨ bytes = 8) ∧ off.toNat % bytes = 0) →
      Gives (.bar0ErrRead off bytes) s { d with
        out := { d.out with data := 0xFFFFFFFFFFFFFFFF#64 }, glb := { d.glb with bar0Err := satAdd d.glb.bar0Err 1 } })

/-! ### Serving (chapter 10) -/

/-- R260, R262, R264, Tables 10.1 and 10.2: ADMIT opens and closes submission, and stays closed in a life-cycle state that does not
serve; while it is open the descriptor at SUB_HEAD becomes a WAITING request or is refused, and SUB_HEAD moves on either way; what is
accepted names a free REQ_ID, valid pages of the partition and a deadline that has not passed. (Where a page's bytes come from the store
with a correction, a NOTE goes before: states without such code words are meant.)
Readings of the model that it rests on: log entries 124 and 125. -/
def Obligations.SubmissionsAreTakenInOrder : Prop :=
  ∀ (s : State) (p : Fin 16) (v : Bool) (x : Part), getPart s.dev p.val = some x → x.pid = p.val →
    let d := s.dev
    let h (n : Nat) := x.srv.subHead.toNat % n
    let a (n : Nat) := x.srv.subBase.toNat + 64 * h n
    let b (n : Nat) := hostRd d (a n) 64
    (hwUp d = true → ioSecure d = true → (v = false ∨ (1 ≤ d.otp.lc.toNat ∧ d.otp.lc.toNat ≤ 3)) →
      Gives (.admitWrite p v) s (setPart p.val { x with srv := { x.srv with admitOn := v } } d)) ∧
    (hwUp d = true → ioSecure d = true → v = true → (d.otp.lc = 0 ∨ 3 < d.otp.lc.toNat) → Gives (.admitWrite p v) s d) ∧
    (mpUp d = true → x.srv.admitOn = false → Gives (.submit p) s d) ∧
    (∀ n, mpUp d = true → d.store.soft = [] → x.srv.admitOn = true → subRing x = some n → h n ≠ x.srv.subTail.toNat % n → ∃ e y, Gives (.submit p) s e ∧
      getPart e p.val = some y ∧ y.srv.subHead = BitVec.ofNat 16 ((h n + 1) % n) ∧ e.host = d.host ∧ e.cpt = d.cpt ∧ y.w = x.w ∧
      (hostOk d (a n) 64 = false ∨ (checkDesc d x (b n)).1 ≠ stOk → y.srv.reqs = x.srv.reqs) ∧
      (hostOk d (a n) 64 = true → (checkDesc d x (b n)).1 = stOk → ∃ r, y.srv.reqs = x.srv.reqs ++ [r] ∧ r.st = .waiting ∧
        r.id = BitVec.ofNat 32 (lf (b n) 0 4) ∧ r.customer = lf (b n) 4 2 ∧ r.priority = fld (lf (b n) 6 1) 0 3 ∧
        r.prompt = lf (b n) 12 4 ∧ r.maxNew = lf (b n) 16 4 ∧ r.deadline = BitVec.ofNat 64 (lf (b n) 24 8) ∧
        r.pages = (checkDesc d x (b n)).2 ∧ r.prefilled = 0 ∧ r.delivered = 0)) ∧
    ∀ (c : List Byte) (l : List Nat), checkDesc d x c = (stOk, l) → lf c 0 4 ≠ 0 ∧
      getReq x (BitVec.ofNat 32 (lf c 0 4)) = none ∧ l.length = lf c 40 4 ∧ x.srv.sel.isSome = true ∧ (activeMan x).isSome = true ∧
      (∀ i ∈ l, x.mask.getLsbD (i / 65536) = true ∧ eValid (cptE d i) = true) ∧ (lf c 24 8 = 0 ∨ d.mt.mt.toNat ≤ lf c 24 8)

/-- R263, R265, R273 to R275, R338: in the first half of an orbit the leader forms the next placement: cancelled requests end, what
it places was neither held nor fenced, and the tokens of one orbit stay within TOKEN_CAP; a leader that is late sends STALE; another
module holds the placement once it has every part of it, keeps the requests it places and lets none of the others run on.
Readings of the model that it rests on: log entries 128, 130 and 132. -/
def Obligations.PlacementsAreFormedOrStale : Prop :=
  ∀ (s : State) (p : Fin 16) (x : Part), mpUp s.dev = true → getPart s.dev p.val = some x → x.pid = p.val →
    let half := (x.info.map (·.orbitLen)).getD 0 / 2
    (∀ sel, isLeader x = true → x.plan = .running → x.entering = false → x.srv.next = .none_ → x.srv.nextFor ≠ x.orbit + 1 →
      x.tick < half → x.srv.steps = [] → x.srv.sel = some sel → ∃ e y t, Gives (.placement p) s e ∧ getPart e p.val = some y ∧
        y.srv.next = .made t ∧ y.srv.nextFor = x.orbit + 1 ∧ (t.map (fun k => k.2.chunk)).sum ≤ sel.tokenCap ∧
        (∀ k v, tget t k = some v → ∃ r ∈ x.srv.reqs, r.id = v.id ∧ r.held = false ∧ r.fenced = false ∧ r.cancel = false) ∧
        ∀ r ∈ x.srv.reqs, r.cancel = true → ∀ q ∈ y.srv.reqs, q.id ≠ r.id) ∧
    (isLeader x = true → x.plan = .running → x.entering = false → x.srv.next = .none_ → x.srv.nextFor ≠ x.orbit + 1 → half ≤ x.tick →
      x.fab.floods.contains (2, x.orbit + 1, 0) = false → ∃ e y, Gives (.stale p) s e ∧ getPart e p.val = some y ∧
        y.srv.next = .stale ∧ y.fab.floods.contains (2, x.orbit + 1, 0) = true ∧ y.srv.reqs = x.srv.reqs) ∧
    (∀ k, x.fab.inbox.find? (fun k => pType k.pkt = 5 && lf k.pkt.payload 0 1 = 1) = some k →
      let pl := k.pkt.payload
      let z := { x with srv := { x.srv with parts := tput x.srv.parts (lf pl 1 1) (pl.drop 8) } }
      BitVec.ofNat 32 (lf pl 4 4) = x.orbit + 1 → x.fab.floods.contains (1, x.orbit + 1, lf pl 1 1) = false →
      ∃ e y, Gives (.placementReceive p) s e ∧ getPart e p.val = some y ∧ y.fab.inbox = x.fab.inbox.erase k ∧
        (placeWhole z = none → y.srv = z.srv) ∧
        ∀ t, placeWhole z = some t → x.srv.next = .none_ →
          y.srv.next = .made t ∧ y.srv.nextFor = x.orbit + 1 ∧ y.srv.parts = [] ∧
          (∀ q ∈ y.srv.reqs, ∃ r ∈ x.srv.reqs, r.id = q.id) ∧
          (∀ r ∈ x.srv.reqs, t.any (fun k => k.2.id = r.id) = true → r ∈ y.srv.reqs) ∧
          ∀ q ∈ y.srv.reqs, t.any (fun k => k.2.id = q.id) = false → q.st ≠ .running ∧ q.cancel = false)

/-- R240, R241, R266: the table of the next orbit is written into the bank that is not in force and marked ready; the bank in force
stays as it is, the table carries nothing but the placement's entries, and in a single-module job every page of it is pinned. R95, R272:
no tile's predicates change before tick 128.
Readings of the model that it rests on: log entries 135 and 137. -/
def Obligations.SlotTablesAreBuiltAside : Prop :=
  ∀ (s : State) (p : Fin 16) (x : Part) (t : Tab PlaceEntry), getPart s.dev p.val = some x → x.pid = p.val →
    (mpUp s.dev = true → x.plan = .running → x.srv.ready = false → x.srv.next = .made t → ∃ e y, Gives (.slotTableBuild p) s e ∧
      getPart e p.val = some y ∧ y.srv.ready = true ∧ y.srv.bank = x.srv.bank ∧ bankOf y = bankOf x ∧
      (otherBank y).orbit = x.srv.nextFor ∧ (∀ k v, tget (otherBank y).slots k = some v → (k, v.place) ∈ t) ∧
      (x.job.modules ≤ 1 → ∀ k v, tget (otherBank y).slots k = some v → ∀ i ∈ pagesOf (otherBank y) v, ePinned (cptE e i) = true) ∧
      (∀ i, ePinned (cptE s.dev i) = true → ePinned (cptE e i) = true)) ∧
    (awake s.dev = true → x.tick ≠ 128 → Gives (.slotStageWrite p) s s.dev)

/-- R245, R263, R277, R283: the steps of the oldest orbit that waits are taken once its marks are complete; where those fence the whole
orbit nothing is delivered; a decoding step counts one more token for its request, or ends the request where the token is its
STOP_TOKEN; a token whose record the ring cannot take is not delivered; without complete marks nothing happens. The GAP record goes out
once the ring has room. Readings of the model that it rests on: log entries 136 and 166. -/
def Obligations.TokensWaitForTheirMarks : Prop :=
  ∀ (s : State) (p : Fin 16) (x : Part), mpUp s.dev = true → getPart s.dev p.val = some x → x.pid = p.val → x.job.ckpt = none →
    let d := s.dev
    (x.srv.steps = [] → Gives (.tokenDelivery p) s d) ∧
    (∀ t rest, x.srv.steps = t :: rest → (∀ m, getMark x t.orbit = some m → m.complete = false) → Gives (.tokenDelivery p) s d) ∧
    (∀ t rest m, x.srv.steps = t :: rest → getMark x t.orbit = some m → m.complete = true → ∃ e y, Gives (.tokenDelivery p) s e ∧
      getPart e p.val = some y ∧ (∀ u ∈ y.srv.steps, u.orbit ≠ t.orbit) ∧ (m.allFence = true → y.srv.reqs = x.srv.reqs)) ∧
    (∀ t m r tok, x.srv.steps = [t] → getMark x t.orbit = some m → m.complete = true → m.allFence = false → m.fence.getLsbD t.slot = false →
      t.ended = 0 → t.place.cond.getLsbD 2 = false → getReq x t.place.id = some r → voided r t.orbit = false → r.deadline = 0 →
      tokenLost x d = false → tokenAt d r.pages (stepPos t.place) = (tok, d) → ∃ e y, Gives (.tokenDelivery p) s e ∧ getPart e p.val = some y ∧ y.srv.steps = [] ∧
        (r.stop.toNat ≠ tok → r.delivered + 1 < r.maxNew → y.srv.reqs = x.srv.reqs.map (fun q =>
          if q.id = r.id then { q with prefilled := r.prompt, delivered := r.delivered + 1 } else q)) ∧
        (r.stop.toNat = tok ∨ r.maxNew ≤ r.delivered + 1 → ∀ q ∈ y.srv.reqs, q.id ≠ r.id)) ∧
    (∀ t m r, x.srv.steps = [t] → getMark x t.orbit = some m → m.complete = true → m.allFence = false → m.fence.getLsbD t.slot = false →
      t.ended = 0 → t.place.cond.getLsbD 2 = false → getReq x t.place.id = some r → voided r t.orbit = false → tokenLost x d = true →
      ∃ e y, Gives (.tokenDelivery p) s e ∧ getPart e p.val = some y ∧ y.srv.steps = [] ∧ y.srv.reqs = x.srv.reqs.map (fun q =>
        if q.id = r.id then { q with voidTo := some x.orbit, fenced := true } else q)) ∧
    (ephOpen x = true → x.eph.gap ≠ 0 → ∃ e y, Gives (.gap p) s e ∧ getPart e p.val = some y ∧
      y.eph.gap = 0 ∧ y.eph.head = x.eph.head + 1 ∧ y.srv = x.srv)

/-- R263, R271, R275, R276, R278: the commands of a partition's serving engine. A command that names a request acts on that request
and no other; one that is not live is BAD_ARG; BUDGET_SET writes its customers' entries and no other; SELECTOR_LOAD takes a
well-formed table while the plan is LOADED.
Readings of the model that it rests on: log entries 126 and 127. -/
def Obligations.ServingCommands : Prop :=
  ∀ (s : State) (m : Fin 64) (x : Part), getPart s.dev x.pid = some x →
    let d := s.dev
    let pl := payload d m.val
    let id := BitVec.ofNat 32 (lf pl 0 4)
    let with_ (f : Req → Req) : Part :=
      { x with srv := { x.srv with reqs := x.srv.reqs.map (fun q => if q.id = id then f q else q) } }
    let gone (c : Instr) : Prop := getReq x id = none → Gives c s (answer m.val stBadArg 0 [] d)
    (PartTurn 0x0502 m.val x d → gone (.reqCancel m) ∧ ((getReq x id).isSome = true →
      Gives (.reqCancel m) s (answer m.val stOk 0 [] (setPart x.pid (with_ fun q => { q with cancel := true }) d)))) ∧
    (PartTurn 0x0503 m.val x d → gone (.reqEclipse m) ∧ ((getReq x id).isSome = true →
      Gives (.reqEclipse m) s (answer m.val stOk 0 [] (setPart x.pid (with_ fun q => { q with held := true }) d)))) ∧
    (PartTurn 0x0504 m.val x d → gone (.reqResume m) ∧ ((getReq x id).isSome = true →
      Gives (.reqResume m) s (answer m.val stOk 0 [] (setPart x.pid (with_ fun q => { q with held := false }) d)))) ∧
    (PartTurn 0x0505 m.val x d → gone (.reqRemap m) ∧ ∀ r l, getReq x id = some r →
      (r.st ≠ .eclipsed → Gives (.reqRemap m) s (answer m.val stBusy 0 [] d)) ∧
      (r.st = .eclipsed → 1 ≤ lf pl 4 4 → lf pl 4 4 ≤ 32768 → pageList d (lf pl 8 8) (lf pl 4 4) = some l → pagesGood d x l = true →
        Gives (.reqRemap m) s (answer m.val stOk 0 [] (setPart x.pid (with_ fun q => { q with pages := l }) d)))) ∧
    (PartTurn 0x0506 m.val x d → let first := lf pl 0 2
      let n := lf pl 2 2
      1 ≤ n → n ≤ 122 → first + n ≤ 1024 * nBlocks x → (∀ i, i < n → lf pl (8 + 16 * i + 15) 1 % 128 = 0) →
      ∃ e, Gives (.budgetSet m) s e ∧ Answered m.val stOk e ∧
        (∀ i, i < n → tget e.budgets (budKey x (first + i)) = some (BitVec.ofNat 128 (lf pl (8 + 16 * i) 16))) ∧
        ∀ k, (∀ i, i < n → k ≠ budKey x (first + i)) → tget e.budgets k = tget d.budgets k) ∧
    (PartTurn 0x0501 m.val x d → ∀ i, x.info = some i →
      (x.plan ≠ .loaded → Gives (.selectorLoad m) s (answer m.val stDenied 0 [] d)) ∧
      (x.plan = .loaded → lf pl 8 4 ≤ 0x48 + 132 * 2304 → hostOk d (lf pl 0 8) (lf pl 8 4) = true →
        selectorBad x i (hostRd d (lf pl 0 8) (lf pl 8 4)) = false → Gives (.selectorLoad m) s (answer m.val stOk 0 []
          (setPart x.pid { x with srv := { x.srv with sel := some (selectorOf (hostRd d (lf pl 0 8) (lf pl 8 4))) } } d))))

/-! ### Weights and the weight store (chapter 8) -/

/-- R208, R222, R224, R229, R231: WEIGHT_LOAD and ADAPTER_LOAD begin a load, which stays ACCEPTED with its slot LOADING or its area
held, and starts with the manifest of its primary source; ADAPTER_DELETE closes a handle; a flip makes the VERIFIED slot ACTIVE at once
while the plan does not run and waits for its boundary while it does; a released slot is EMPTY, and the release of an ACTIVE one, which
takes a plan that does not run, restarts with FORCE the requests that hold it and is refused without.
Readings of the model that it rests on: log entries 141, 142, 144 and 147. -/
def Obligations.WeightCommands : Prop :=
  ∀ (s : State) (m : Fin 64) (force : Bool) (x : Part), getPart s.dev x.pid = some x →
    let d := s.dev
    let pl := payload d m.val
    let slot := lf pl 0 1
    let h := BitVec.ofNat 32 (lf pl 0 4)
    let loading (l : Load) : Bool := match l.target with
      | .adapter k _ => k = h
      | .copy _ => false
    let begun (c : Instr) (t : LoadTarget) (rank : Nat) (pri alt : Source) : Prop := ∃ e y l, Gives c s e ∧ Begun m.val e ∧
      getPart e x.pid = some y ∧ y.w.loads = x.w.loads ++ [l] ∧ l.mbx = m.val ∧ l.target = t ∧ l.rank = rank ∧ l.pri = pri ∧ l.alt = alt ∧
      l.manAt = some d.clk.wall ∧ l.man = none ∧ l.shards = [] ∧ (∀ k, t = .copy k → (getCopy y k).st = .loading) ∧
      y.w.adapters = x.w.adapters ∧ y.srv = x.srv
    (PartTurn 0x0310 m.val x d →
      let refusal := loadRefusal d x (lf pl 2 2) (lf pl 4 1) (lf pl 5 1) (lf pl 8 8) (lf pl 16 8)
      let r := x.info.map (·.wref)
      (∀ st, refusal = some st → Gives (.weightLoad m) s (answer m.val st 0 (toLe 4 noShard) d)) ∧
      (refusal = none → (slot = 0 ∨ slot = 1 ∧ (r.map (·.double)) = some true) → (r.map (·.tiered)) = some false →
        ((getCopy x slot).st = .loading → Gives (.weightLoad m) s (answer m.val stBusy 0 (toLe 4 noShard) d)) ∧
        ((getCopy x slot).st = .empty → begun (.weightLoad m) (.copy slot) (lf pl 2 2) (sourceOf (lf pl 4 1) (lf pl 8 8))
          (sourceOf (lf pl 5 1) (lf pl 16 8))))) ∧
    (PartTurn 0x0313 m.val x d → ∀ i a,
      loadRefusal d x (lf pl 4 2) (lf pl 6 1) (lf pl 7 1) (lf pl 8 8) (lf pl 16 8) = none → x.info = some i → h ≠ 0 →
      x.w.loads.any loading = false →
      (freeArea x i.wref = none → Gives (.adapterLoad m) s (answer m.val stNotReady 0 (toLe 4 noShard ++ [0xFF#8]) d)) ∧
      (freeArea x i.wref = some a → begun (.adapterLoad m) (.adapter h a) (lf pl 4 2) (sourceOf (lf pl 6 1) (lf pl 8 8))
        (sourceOf (lf pl 7 1) (lf pl 16 8)))) ∧
    (PartTurn 0x0314 m.val x d →
      (x.w.loads.any loading = true → Gives (.adapterDelete m) s (answer m.val stBusy 0 [] d)) ∧
      (x.w.loads.any loading = false → x.w.adapters.any (fun a => a.handle = h) = false →
        Gives (.adapterDelete m) s (answer m.val stBadArg 0 [] d)) ∧
      (x.w.loads.any loading = false → x.w.adapters.any (fun a => a.handle = h) = true → x.plan = .running → ∃ e y,
        Gives (.adapterDelete m) s e ∧ Answered m.val stOk e ∧ getPart e x.pid = some y ∧
        y.w = { x.w with adapters := x.w.adapters.map (fun a => if a.handle = h then { a with deleting := true } else a) })) ∧
    (PartTurn 0x0311 m.val x d → ∀ i man, x.info = some i → x.w.flip = none → (getCopy x (flipSlot x)).st = .verified →
      (getCopy x (flipSlot x)).man = some man → matchesPlan i.wref man = true →
      (x.plan = .running → lf pl 4 1 ≤ 1 → 1 ≤ lf pl 8 4 → lf pl 8 4 ≤ 2 ^ 24 → ∃ e, Gives (.weightFlip m) s e ∧ Answered m.val stOk e ∧
        getPart e x.pid = some { x with w := { x.w with flip := some ⟨h, lf pl 4 1 = 1, lf pl 8 4, flipSlot x⟩ } }) ∧
      (x.plan ≠ .running → ∃ e y, Gives (.weightFlip m) s e ∧ Answered m.val stOk e ∧ getPart e x.pid = some y ∧
        getCopy y (flipSlot x) = { getCopy x (flipSlot x) with st := .active } ∧ y.w.sel = flipSlot x ∧ y.w.flip = none ∧
        ((getCopy x (1 - flipSlot x)).st = .active → getCopy y (1 - flipSlot x) = { getCopy x (1 - flipSlot x) with st := .retiring }))) ∧
    (PartTurn 0x0312 m.val x d → (slot = 0 ∨ slot = 1) →
      ((getCopy x slot).st = .verified ∨ (getCopy x slot).st = .retiring → ∃ e y, Gives (.weightRelease ⟨m, force⟩) s e ∧
        Answered m.val stOk e ∧ getPart e x.pid = some y ∧ getCopy y slot = {} ∧ getCopy y (1 - slot) = getCopy x (1 - slot)) ∧
      ((getCopy x slot).st = .active → x.plan ≠ .running → force = true ∨ holders x slot = [] → ∃ e y, Gives (.weightRelease ⟨m, force⟩) s e ∧
        Answered m.val stOk e ∧ getPart e x.pid = some y ∧ getCopy y slot = {} ∧ getCopy y (1 - slot) = getCopy x (1 - slot) ∧
        (∀ q ∈ y.srv.reqs, q.copy ≠ some slot) ∧ ((x.srv.reqs.map (·.id)).Nodup → ∀ q ∈ x.srv.reqs, q.copy = some slot →
          ∃ r, getReq y q.id = some r ∧
          r.st = .waiting ∧ r.delivered = 0 ∧ r.prefilled = 0 ∧ r.prompt = q.prompt + q.delivered ∧ r.before = q.before + q.delivered)) ∧
      ((getCopy x slot).st = .active → x.plan = .running ∨ (force = false ∧ holders x slot ≠ []) →
        Gives (.weightRelease ⟨m, force⟩) s (answer m.val stNotReady 0 [] d)) ∧
      ((getCopy x slot).st = .loading → Gives (.weightRelease ⟨m, force⟩) s (answer m.val stBusy 0 [] d)) ∧
      ((getCopy x slot).st = .empty → Gives (.weightRelease ⟨m, force⟩) s (answer m.val stNotReady 0 [] d)))

/-- R222, R223, Table 8.8: a manifest that checks fills the entries of its slot's pages; one that fails, with no other source left,
ends the load; a shard whose bytes hash to its entry is done, and the last one makes the slot VERIFIED and the load OK; a shard that
fails with no other source, or does not come within 10 s, ends the load with its number and empties the slot. A STORE source whose image
does not hold the rank counts as none. (Where the store corrects a code word that a load reads, a NOTE goes before: states without such
code words are meant.)
Readings of the model that it rests on: log entries 145 and 146. -/
def Obligations.LoadsEndVerifiedOrFailed : Prop :=
  ∀ (s : State) (p : Fin 16) (m : Fin 64) (idx : Nat) (x : Part) (l : Load) (k : Nat), mpUp s.dev = true →
    getPart s.dev p.val = some x → x.pid = p.val → getLoad x m.val = some l → l.target = .copy k → s.dev.store.soft = [] →
    let d := s.dev
    let failed (c : Instr) (st shard : Nat) : Prop := ∃ e y, Gives c s e ∧ getPart e p.val = some y ∧ Answered m.val st e ∧
      rdN (getMbx e m.val).reply 16 4 = shard % 2 ^ 32 ∧ getCopy y k = {} ∧ getLoad y m.val = none
    (∀ t man es i d2, l.manAt = some t → l.man = none → l.useAlt = false → readManifest d (readSource d l.pri) = .ok (man, es) →
      rankless l.pri man l.rank = false → x.info = some i → manifestRefusal x i.wref l man = none →
      (∃ q ∈ es, q.1 = l.rank ∧ q.2.done = false) →
      (let shards := (es.filter (fun e => e.1 = l.rank)).map (·.2)
       fillPages x (copyFirst i.wref k) i.wref.resident (tierUnit d l.pri shards) i.wref.copyPages 0 d = some d2) →
      ∃ e y, Gives (.manifestReadDone p m) s e ∧ getPart e p.val = some y ∧ (getCopy y k).man = some man ∧
        (getCopy y k).first = copyFirst i.wref k ∧ (getCopy y k).pages = i.wref.copyPages ∧
        (getCopy y k).st = .loading ∧ (∃ q, getLoad y m.val = some q ∧ q.man = some man ∧ q.manAt = none) ∧ e.wpt = d2.wpt) ∧
    (∀ t st, l.manAt = some t → l.man = none → l.useAlt = false → l.alt = .none_ → l.priStatus = none →
      (readManifest d (readSource d l.pri) = .error st → st < 256 → failed (.manifestReadDone p m) st noShard) ∧
      AtDue (t + msG 10000) d (fun d => ∃ e y, Gives (.manifestReadTimeout p m) s e ∧ getPart e p.val = some y ∧ Answered m.val stTimeout e ∧
        rdN (getMbx e m.val).reply 16 4 = noShard % 2 ^ 32 ∧ getCopy y k = {} ∧ getLoad y m.val = none ∧ e.clk = d.clk) ∧
      (NotYet (t + msG 10000) d → Gives (.manifestReadTimeout p m) s d) ∧
      ∀ man es, readManifest d (readSource d l.pri) = .ok (man, es) → rankless l.pri man l.rank = true →
        failed (.manifestReadDone p m) (ranklessStatus x) noShard) ∧
    (∀ t st, l.manAt = some t → l.man = none → l.useAlt = false → l.alt ≠ .none_ → readManifest d (readSource d l.pri) = .error st →
      ∃ e, Gives (.manifestReadDone p m) s e ∧ getPart e p.val = some { x with w := { x.w with loads := x.w.loads.map (fun q =>
        if q.mbx = l.mbx then { l with useAlt := true, priStatus := some (BitVec.ofNat 8 st), manAt := some d.clk.wall } else q) } }) ∧
    (∀ t man es, l.manAt = some t → l.man = none → l.useAlt = false → l.alt ≠ .none_ →
      readManifest d (readSource d l.pri) = .ok (man, es) → rankless l.pri man l.rank = true → ∃ e y q, Gives (.manifestReadDone p m) s e ∧
        getPart e p.val = some y ∧ getLoad y m.val = some q ∧ q.pri = l.alt ∧ q.alt = .none_ ∧ q.useAlt = false ∧
        q.manAt = some d.clk.wall) ∧
    ∀ sh, l.shards.find? (fun q => q.idx = idx && q.fetchAt.isSome) = some sh →
      let got := if ((l.man.map (rankless l.pri · l.rank)).getD true) = true then none else readSource d l.pri sh.imgOff sh.len
      (∀ b, sh.fromAlt = false → got = some b → sha384 b = sh.hash →
        (putShard l { sh with done := true, fetchAt := none }).shards.all (·.done) = true →
        ∃ e y, Gives (.shardFetchDone p m idx) s e ∧ getPart e p.val = some y ∧ Answered m.val stOk e ∧
          (getCopy y k).st = .verified ∧ getLoad y m.val = none) ∧
      (sh.fromAlt = false → l.alt = .none_ → (∀ b, got = some b → sha384 b ≠ sh.hash) →
        failed (.shardFetchDone p m idx) stIntegrity sh.idx) ∧
      AtDue (sh.fetchAt.getD 0 + msG 10000) d (fun d => ∃ e y, Gives (.shardTimeout p m idx) s e ∧ getPart e p.val = some y ∧
        Answered m.val stTimeout e ∧ rdN (getMbx e m.val).reply 16 4 = sh.idx % 2 ^ 32 ∧ getCopy y k = {} ∧ getLoad y m.val = none ∧
        e.clk = d.clk) ∧
      (NotYet (sh.fetchAt.getD 0 + msG 10000) d → Gives (.shardTimeout p m idx) s d)

/-- R204, R207 to R212, R451, Table 8.3: the installation commands need STORE_READY and open installation mode; an image begins with
an empty slot, takes its blocks position by position on free store blocks, is committed whole, and is deleted with its blocks; each
leaves its journal record in both copies, of 32 bytes with their CRC-32C. The replay rebuilds the directory from the valid records, once.
(Where the store corrects a code word that a commit reads back, a NOTE goes before: a commit without one is meant.)
Readings of the model that it rests on: log entry 41. -/
def Obligations.TheStoreInstallsImages : Prop :=
  ∀ (s : State) (m : Fin 64) (i : ImgSlot),
    let d := s.dev
    let pl := payload d m.val
    let slot := lf pl 0 1
    let shut := storeReady d = false ∨ d.glb.install = false
    let ready := storeReady d = true ∧ d.glb.install = true
    let no : Dev := answer m.val stNotReady 0 [] d
    (Turn 0x0301 m.val d → d.otp.lc ≠ 4#3 → d.otp.lc ≠ 2#3 → storeReady d = true → allEmpty d = true →
      Gives (.installOpen m) s (answer m.val stOk 0 [] { d with glb := { d.glb with install := true } })) ∧
    (Turn 0x0301 m.val d → d.otp.lc = 4#3 → Gives (.installOpen m) s (answer m.val stDenied 0 [] d)) ∧
    (Turn 0x0302 m.val d → shut → Gives (.imageBegin m) s no) ∧ (Turn 0x0303 m.val d → shut → Gives (.blockWrite m) s no) ∧
    (Turn 0x0304 m.val d → shut → Gives (.imageCommit m) s no) ∧ (Turn 0x0305 m.val d → shut → Gives (.imageDelete m) s no) ∧
    (Turn 0x0306 m.val d → shut → Gives (.installClose m) s no) ∧
    (Turn 0x0306 m.val d → ready →
      Gives (.installClose m) s (answer m.val stOk 0 [] { d with glb := { d.glb with install := false } })) ∧
    (Turn 0x0302 m.val d → ready → slot ≤ 63 → getImg d slot = none → 1 ≤ lf pl 4 4 → lf pl 4 4 ≤ 29794 → ∃ e, Gives (.imageBegin m) s e ∧
      Answered m.val stOk e ∧ getImg e slot = some ⟨lf pl 4 4, [], false, none⟩ ∧ (∀ k, k ≠ slot → getImg e k = getImg d k) ∧
      (∃ r, e.store.jrnA = d.store.jrnA ++ [jrnBytes r] ∧ e.store.jrnB = d.store.jrnB ++ [jrnBytes r] ∧ r.seq = nextSeq d.store ∧
        r.kind = 0x03 ∧ r.image = slot ∧ r.index = lf pl 4 4) ∧
      e.store.bytes = d.store.bytes) ∧
    (∀ b, Turn 0x0303 m.val d → ready → getImg d slot = some i → i.committed = false → lf pl 4 4 < i.positions →
      tget i.blocks (lf pl 4 4) = none → 1 ≤ lf pl 8 4 → lf pl 8 4 ≤ 2 ^ 26 → d.store.stopping = false →
      hostOk d (lf pl 16 8) (lf pl 8 4) = true → freeBlock d = some b → d.store.failing.contains b = false → ∃ e, Gives (.blockWrite m) s e ∧
        Answered m.val stOk e ∧ rdN (getMbx e m.val).reply 16 4 = b ∧
        getImg e slot = some { i with blocks := tput i.blocks (lf pl 4 4) b } ∧
        rdBs e.store.bytes (b * 2 ^ 26) (lf pl 8 4) = hostRd d (lf pl 16 8) (lf pl 8 4) ∧
        ∀ a, a < b * 2 ^ 26 ∨ (b + 1) * 2 ^ 26 ≤ a → rdB e.store.bytes a = rdB d.store.bytes a) ∧
    (∀ man es, Turn 0x0304 m.val d → ready → getImg d slot = some i → i.committed = false → i.positions ≤ firstUnwritten i →
      readManifest d (imgRd d i) = .ok (man, es) → badShard d i man es = none → d.store.soft = [] → ∃ e,
        Gives (.imageCommit m) s e ∧ Answered m.val stOk e ∧ getImg e slot = some { i with committed := true, man := some man } ∧ (∀ k, k ≠ slot → getImg e k = getImg d k)) ∧
    (Turn 0x0304 m.val d → ready → getImg d slot = some i → i.committed = false → firstUnwritten i < i.positions →
      Gives (.imageCommit m) s (answer m.val stIntegrity 0 (toLe 4 0xFFFFFFFF) d)) ∧
    (Turn 0x0305 m.val d → ready → getImg d slot = some i → d.store.stopping = false → ∃ e, Gives (.imageDelete m) s e ∧
      Answered m.val stOk e ∧ (∀ k, k ≠ slot → getImg e k = getImg d k) ∧
      (∃ l : List JrnRec, e.store.jrnA = d.store.jrnA ++ l.map jrnBytes ∧ e.store.jrnB = d.store.jrnB ++ l.map jrnBytes ∧
        ∃ r ∈ l, r.kind = 0x05 ∧ r.image = slot) ∧
      ∀ b ∈ i.blocks, ∀ a, b.2 * 2 ^ 26 ≤ a → a < (b.2 + 1) * 2 ^ 26 → rdB e.store.bytes a = 0) ∧
    (awake d = true → d.glb.mpReady = true → d.store.replayed = false → ∃ e, Gives .journalReplay s e ∧ e.store.replayed = true ∧
      ∀ k, (getImg e k).map (fun i => (i.positions, i.blocks, i.committed)) =
        (tget ((validRecs d.store).foldl replayRec []) k).map (fun i => (i.positions, i.blocks, i.committed))) ∧
    (awake d = true → d.store.replayed = true → Gives .journalReplay s d) ∧
    (awake d = true → d.store.replayed = true →
      Gives .storeReady s { d with pwr := { d.pwr with startStatus := d.pwr.startStatus ||| 0x10000#32 } })

/-! ### Jobs and marks (chapters 12 and 13) -/

/-- R334, R345, R348 to R353, R355, Tables 13.3 and 15.10: the commands of a partition's job: the rank table's entries, job
preparation with its checks, the start time, the end of the job, the order to take a checkpoint, the restart from one, and the switch
of the route epoch.
Readings of the model that it rests on: log entries 150, 151, 153, 154 and 155. -/
def Obligations.JobCommands : Prop :=
  ∀ (s : State) (m : Fin 64) (x : Part), s.dev.partsWf → getPart s.dev x.pid = some x →
    let d := s.dev
    let pl := payload d m.val
    let entry (i : Nat) := leNat (hostRd d (lf pl 8 8 + 4 * i) 4)
    let rankKey (i : Nat) := lf pl 0 1 * 16384 + lf pl 2 2 + i
    let n := lf pl 4 2
    let reply := toLe 2 (lf pl 4 2) ++ toLe 2 0x9216 ++ toLe 1 0x42 ++ toLe 3 0
    let k := BitVec.ofNat 32 (lf pl 0 4)
    (PartTurn 0x0601 m.val x d → lf pl 0 1 ≤ 1 → 1 ≤ n → n ≤ 1024 → lf pl 2 2 + n ≤ 16384 →
      (rankDenied d (lf pl 0 1) = true → Gives (.rankWrite m) s (answer m.val stDenied 0 [] d)) ∧
      (rankDenied d (lf pl 0 1) = false → hostOk d (lf pl 8 8) (4 * n) = true → (∀ i, i < n → rankBad x (entry i) = false) →
        ∃ e, Gives (.rankWrite m) s e ∧ Answered m.val stOk e ∧
          (∀ i, i < n → tget e.ranks (rankKey i) = some (BitVec.ofNat 32 (entry i))) ∧
          ∀ j, (∀ i, i < n → j ≠ rankKey i) → tget e.ranks j = tget d.ranks j)) ∧
    (PartTurn 0x0602 m.val x d →
      (∀ st, prepareRefusal d x pl = some st → Gives (.jobPrepare m) s (answer m.val st 0 reply d)) ∧
      (prepareRefusal d x pl = none → ∃ e y i, Gives (.jobPrepare m) s e ∧ Answered m.val stOk e ∧ getPart e x.pid = some y ∧
        x.info = some i ∧ y.job.tag = BitVec.ofNat 16 (lf pl 0 2) ∧ y.job.epoch = BitVec.ofNat 16 (lf pl 2 2) ∧
        y.job.rank = lf pl 4 2 ∧ y.job.modules = i.topo.modules ∧ y.job.discMs = (if lf pl 6 2 = 0 then 500 else lf pl 6 2))) ∧
    (PartTurn 0x0603 m.val x d → ∀ t, x.job.st = .ready → d.mt.stratum ≠ 0xFF#8 → d.mt.since = some t → t + msG 100 ≤ d.clk.wall →
      (lf pl 8 8 < d.mt.mt.toNat + 1000000 → Gives (.jobGo m) s (answer m.val stLate 0 [] d)) ∧
      (d.mt.mt.toNat + 1000000 ≤ lf pl 8 8 → Gives (.jobGo m) s (answer m.val stOk 0 [] (setPart x.pid { x with
        job := { x.job with st := .armed, startOrbit := k, startMt := BitVec.ofNat 64 (lf pl 8 8) } } d)))) ∧
    (PartTurn 0x0603 m.val x d → (x.job.st ≠ .ready ∨ d.mt.stratum = 0xFF#8) →
      Gives (.jobGo m) s (answer m.val stNotReady 0 [] d)) ∧
    (PartTurn 0x0604 m.val x d →
      (x.job.st = .none_ → Gives (.jobStop m) s (answer m.val stOk 0 [] d)) ∧
      (x.job.st ≠ .none_ → ∃ e y, Gives (.jobStop m) s e ∧ Answered m.val stOk e ∧ getPart e x.pid = some y ∧ y.job.st = .none_ ∧
        y.plan ≠ .running)) ∧
    (PartTurn 0x0605 m.val x d →
      (x.job.st ≠ .running → Gives (.ckptTake m) s (answer m.val stNotReady 0 [] d)) ∧
      (x.job.st = .running → x.job.ckpt.isSome = true → Gives (.ckptTake m) s (answer m.val stBusy 0 [] d)) ∧
      (x.job.st = .running → x.job.ckpt = none → orbitBefore x.orbit k = true → lf pl 16 8 % 4096 = 0 →
        x.job.ckptMax.toNat < lf pl 8 8 → 256 ≤ lf pl 24 8 → Gives (.ckptTake m) s (answer m.val stOk 0 [] (setPart x.pid { x with
          job := { x.job with ckpt := some ⟨k, BitVec.ofNat 64 (lf pl 8 8), lf pl 16 8, lf pl 24 8, none, none⟩ } } d)))) ∧
    (PartTurn 0x0606 m.val x d →
      let (a, len) := (lf pl 0 8, lf pl 8 8)
      let h := hostRd d a 256
      let body := hostRd d (a + 256) (ckptBodyLen h)
      x.plan = .loaded → x.job.st = .none_ → 256 + ckptBodyLen h ≤ len → hostOk d a 256 = true →
      hostOk d (a + 256) (ckptBodyLen h) = true →
      (ckptValid h body = false → Gives (.ckptRestore m) s (answer m.val stIntegrity 0 [] d)) ∧
      (ckptValid h body = true → some (hashOf (sl h 0x30 48)) = x.info.map (·.hash) →
        hashOf (sl h 0x60 48) = ((activeMan x).map (·.hash)).getD 0 → lf h 0x24 4 = 0 → ∃ e y, Gives (.ckptRestore m) s e ∧
          Answered m.val stOk e ∧ getPart e x.pid = some y ∧ y.srv.restarts.length = lf h 0x20 4 ∧
          y.eph.prevHash = hashOf (sl h 0x90 48) ∧ y.job.restoredRank = some (lf h 6 2 % 16384) ∧ y.srv.reqs = x.srv.reqs)) ∧
    (PartTurn 0x0607 m.val x d →
      (x.job.rank = 0 → x.fab.mode.getLsbD 8 = true → orbitBefore k (x.orbit + 2) = false → ∃ e y, Gives (.routeSwitch m) s e ∧
        Answered m.val stOk e ∧ getPart e x.pid = some y ∧ y.fab.switchAt = some k) ∧
      (x.job.rank ≠ 0 ∨ x.fab.mode.getLsbD 8 = false ∨ orbitBefore k (x.orbit + 2) = true →
        Gives (.routeSwitch m) s (answer m.val stDenied 0 [] d)))

/-- R97, R348, R350, R351, R460: an ARMED job starts its plan when MT reaches START_MT: RUNNING at tick 0 of START_ORBIT, held until
the clean-up is done; with that done every listed tile starts at index 0 with nothing left of an earlier run; discovery that has not
found every neighbour in its time fails the job with every port dark.
Readings of the model that it rests on: log entries 151, 152 and 157. -/
def Obligations.JobsStartTheirPlan : Prop :=
  ∀ (s : State) (p : Fin 16) (x : Part), s.dev.partsWf → getPart s.dev p.val = some x →
    let d := s.dev
    let bad := (facing x).filter (fun e => !x.job.discOk.getLsbD e.1)
    let wait (d : Dev) := d.clk.wall + nsG (x.job.startMt.toNat - d.mt.mt.toNat)
    (mpUp d = true → x.job.st = .armed → x.plan = .loaded →
      x.job.startMt.toNat ≤ d.mt.mt.toNat ∨ mayPass (wait d) d = true → ∃ e y, Gives (.jobStart p) s e ∧ getPart e p.val = some y ∧
      y.plan = .running ∧ y.job.st = .running ∧ y.orbit = x.job.startOrbit ∧ y.tick = 0 ∧ y.now = 0 ∧ y.entering = true ∧
      y.srv.bank0 = {} ∧ y.srv.bank1 = {} ∧ y.fab.open_ = newEntries y ∧ x.job.startMt.toNat ≤ e.mt.mt.toNat ∧ e.mt.started = true ∧
      e.tiles = d.tiles) ∧
    (mpUp d = true → d.mt.mt.toNat < x.job.startMt.toNat → mayPass (wait d) d = false → Gives (.jobStart p) s d) ∧
    (mpUp d = true → (x.job.st ≠ .armed ∨ x.plan ≠ .loaded) → Gives (.jobStart p) s d) ∧
    (awake d = true → x.plan = .running → x.entering = true → ∃ e y, Gives (.runningEntryCleanUpDone p) s e ∧
      getPart e p.val = some y ∧ y.entering = false ∧ y.now = x.now ∧
      (∀ t, tget d.tiles t ≠ none → x.mask.getLsbD (blockOfTile t) = true → getTile e t = startTile (getTile d t)) ∧
      ∀ t, x.mask.getLsbD (blockOfTile t) = false → getTile e t = getTile d t) ∧
    (mpUp d = true → x.job.st = .preparing → bad ≠ [] → AtDue (x.job.discAt + msG x.job.discMs) d fun _ => ∃ e y,
      Gives (.discTimeout p) s e ∧ getPart e p.val = some y ∧ y.job.st = .failed ∧
      (∀ q ∈ partPorts x, (getPort e q).darkBit = true) ∧ (y.job.lastFail = 1 ∨ y.job.lastFail = 3)) ∧
    (mpUp d = true → x.job.st = .preparing → NotYet (x.job.discAt + msG x.job.discMs) d → Gives (.discTimeout p) s d) ∧
    (mpUp d = true → x.job.st ≠ .preparing → Gives (.discTimeout p) s d)

/-- R245, R327, R328, R355, R357: a mark received leaves the inbox and its fences hold at once; marks that are not complete by half an
orbit halt the partition; a captured checkpoint is written to its buffer with COMMIT, its number is reported and the job interrupt
raised; one that cannot be written reports INTEGRITY and leaves host memory as it was.
Readings of the model that it rests on: log entries 113, 115 and 155. -/
def Obligations.MarksAndCheckpoints : Prop :=
  ∀ (s : State) (p : Fin 16) (x : Part), getPart s.dev p.val = some x → x.pid = p.val →
    let d := s.dev
    (∀ k, awake d = true → x.fab.inbox.find? (fun e => pType e.pkt = 4) = some k → ∃ e y, Gives (.orbitMark p) s e ∧
      getPart e p.val = some y ∧ y.fab.inbox = x.fab.inbox.erase k ∧
      (∀ r, r < 32 * nBlocks x → bit (lf k.pkt.payload 16 64) r = true → isFenced e 0 (slotAbs x r) = true) ∧
      (getMark y (BitVec.ofNat 32 (lf k.pkt.payload 0 4))).isSome = true ∧ e.tiles = d.tiles) ∧
    (awake d = true → x.fab.inbox.find? (fun e => pType e.pkt = 4) = none → x.job.ckpt = none → Gives (.orbitMark p) s d) ∧
    (awake d = true → x.plan = .running → marksOpen x = true → (x.info.map (·.orbitLen)).getD 0 / 2 ≤ x.tick → ∃ e y,
      Gives (.markTimeout p) s e ∧ Entered 2 (0x560 + p.val) 0x0509 d e ∧ getPart e p.val = some y ∧ y.plan = .stopped) ∧
    (awake d = true → (x.plan ≠ .running ∨ marksOpen x = false) → Gives (.markTimeout p) s d) ∧
    ∀ o seq addr size img, mpUp d = true → x.job.ckpt = some ⟨o, seq, addr, size, some img, none⟩ → 256 ≤ img.length →
      (img.length ≤ size → hostOk d addr img.length = true → ∃ e y, Gives (.checkpointWriteDone p) s e ∧ getPart e p.val = some y ∧
        y.job = { x.job with ckpt := none, ckptStatus := 0, ckptDone := seq, ckptMax := seq } ∧
        rdN e.host (addr + 0xF8) 8 = seq.toNat ∧ rdBs e.host addr 0xF8 = img.take 0xF8 ∧
        (∀ a, a < addr ∨ addr + img.length ≤ a → rdB e.host a = rdB d.host a)) ∧
      (size < img.length ∨ hostOk d addr img.length = false → ∃ e y, Gives (.checkpointWriteDone p) s e ∧
        getPart e p.val = some y ∧ y.job.ckpt = none ∧ y.job.ckptDone = x.job.ckptDone ∧ e.host = d.host ∧
        y.job.ckptStatus = if size < img.length then 2 else 6)

/-! ### Clocks (chapter 6) -/

/-- R168 to R171, Tables 6.3 and 6.10: GO raises the core voltage to that of the lowest of the target and the ceilings where it stands
lower and starts a step change to it, or sets STEP_ERR; the change ends after its pause, counted from the tick boundary that GO waits for,
with the new step in force, the core voltage its own, the next tick of every tile moon no earlier, and the STEP_LIMIT commands that wait
answered; a step above a ceiling changes again at once; the tide ceiling rises by one after a quiet second.
Readings of the model that it rests on: log entries 49, 80, 183 and 186. -/
def Obligations.StepChanges : Prop :=
  ∀ (s : State) (tgt : BitVec 3) (ns : Nat), s.dev.partsWf →
    let d := s.dev
    let k := min (min tgt.toNat (ceilings d)) (maxStep d)
    let w := max d.clk.wall (d.clk.goAt + nsG ns)
    (awake d = true → (d.clk.busy = true ∨ maxStep d < tgt.toNat) →
      Gives (.go tgt) s { d with clk := { d.clk with stepErr := true } }) ∧
    (awake d = true → d.clk.busy = false → tgt.toNat ≤ maxStep d → Gives (.go tgt) s { d with
      pwr := { d.pwr with vcore := max d.pwr.vcore (stepMv k) }
      clk := { d.clk with
        target := tgt, tgt := BitVec.ofNat 3 k, busy := true, throttle := false, goAt := max d.clk.wall (latestEnd d) } }) ∧
    (awake d = true → d.clk.busy = true → 500 ≤ ns → ns ≤ 2000 → ∃ e, Gives (.stepChangeResume ns) s e ∧ e.clk.step = d.clk.tgt ∧
      e.clk.wall = w ∧ w ≤ e.clk.resumeAt ∧ (d.clk.late = false → e.pwr.vcore = stepMv d.clk.tgt.toNat) ∧
      e.clk.busy = (decide (wantStep d < d.clk.tgt.toNat) || (d.clk.late && decide (d.clk.tgt.toNat < wantStep d))) ∧
      (∀ m, getMoon e m = getMoon d m) ∧ (e.clk.busy = false → ∀ k x, tget d.mbx k = some x → x.st = .accepted → x.begun = true →
        rqOpcode x = 0x0104 → Answered k stOk e) ∧ e.tiles = d.tiles ∧ e.host = d.host) ∧
    (awake d = true → (d.clk.busy = false ∨ ns < 500 ∨ 2000 < ns) → Gives (.stepChangeResume ns) s d) ∧
    (mpUp d = true → d.pwr.tideCeil ≠ 7 → AtDue (d.clk.tideQuiet + msG 1000) d fun d => ∃ e, Gives .tideCeilingRaise s e ∧
      { e.pwr with vcore := d.pwr.vcore } = { d.pwr with tideCeil := d.pwr.tideCeil + 1 } ∧ e.clk.wall = d.clk.wall ∧
      e.clk.tideQuiet = d.clk.wall ∧ e.clk.step = d.clk.step) ∧
    (mpUp d = true → d.pwr.tideCeil ≠ 7 → NotYet (d.clk.tideQuiet + msG 1000) d → Gives .tideCeilingRaise s d) ∧
    (mpUp d = true → d.pwr.tideCeil = 7 → Gives .tideCeilingRaise s d)

/-- R170, R172 to R175, Table 6.7: a droop deeper than the threshold stretches the next period of its moon and of every moon of its seam
group, and each that begins while it lasts, and none in a switch pause; a tick whose period is stretched lasts two of them; a run of 1,024
periods with more than TIDE_THR stretched ones is an excursion, counted and entered as a NOTE; no tile moon begins a tick before the
crossing rule, the spread rule and the rest of its seam group let it, and a coupling pause is counted in its moon alone.
Readings of the model that it rests on: log entries 79, 184 and 185. -/
def Obligations.TidesAndPauses : Prop :=
  ∀ (s : State) (moon : Fin 45) (tile : Fin 36) (mv ps ns : Nat), awake s.dev = true →
    let d := s.dev
    let m := moon.val
    let x := getMoon d m
    let g := min (nsG ns) (nextBegin d tile - tickEnd (getMoon d tile))
    let deep := 2 * x.droopThr.toNat < mv
    (m < 36 → d.clk.busy = true → Gives (.droop moon ⟨mv, ps⟩) s d) ∧ (¬ deep → Gives (.droop moon ⟨mv, ps⟩) s d) ∧
    (deep → (36 ≤ m ∨ d.clk.busy = false) → x.stretchEn = true → ∃ e, Gives (.droop moon ⟨mv, ps⟩) s e ∧
      (∀ k ∈ stretchSet m, (getMoon e k).stretchNext = true ∧ d.clk.wall + ps * grain / 1000 ≤ (getMoon e k).droopTill) ∧
      (∀ k, k < 36 → k ∉ stretchSet m → getMoon e k = getMoon d k) ∧ e.clk.wall = d.clk.wall ∧ { e with clk := d.clk } = d) ∧
    (40 ≤ m → x.stretchEn = false → Gives (.droop moon ⟨mv, ps⟩) s d) ∧
    (m < 36 → d.clk.busy = false → x.stretchEn = false → ∃ e, Gives (.droop moon ⟨mv, ps⟩) s e ∧
      (∀ t, moonOfTile t ≠ m → getTile e t = getTile d t) ∧ { e with tiles := d.tiles, free := d.free } = d) ∧
    (∀ p at_ y, (y.stretchNext = true ∨ at_ < y.droopTill → (moonTick p 1 at_ y).dur = 2 * p ∧ (moonTick p 1 at_ y).stretching = true ∧
        (moonTick p 1 at_ y).stretchCount = y.stretchCount + 1) ∧
      (y.stretchNext = false → y.droopTill ≤ at_ → (moonTick p 1 at_ y).dur = p ∧ (moonTick p 1 at_ y).stretching = false ∧
        (moonTick p 1 at_ y).stretchCount = y.stretchCount)) ∧
    (∀ st y, (y.runPeriods = 1023 → (countPeriods 1 st y).runPeriods = 0 ∧ (countPeriods 1 st y).runStretched = 0 ∧
        (countPeriods 1 st y).excDue = y.excDue + b2n (decide (y.tideThr.toNat < y.runStretched + b2n st))) ∧
      (y.runPeriods < 1023 → (countPeriods 1 st y).runPeriods = y.runPeriods + 1 ∧ (countPeriods 1 st y).excDue = y.excDue ∧
        (countPeriods 1 st y).runStretched = y.runStretched + b2n st)) ∧
    ((getMoon (freeTicks d) m).excDue ≠ 0 → ∃ e, Gives (.tideExcursion moon) s e ∧ (getMoon e m).tideExc = satAdd x.tideExc 1 ∧
      (getMoon e m).excDue + 1 = (getMoon (freeTicks d) m).excDue ∧ e.clk.tideQuiet = d.clk.wall ∧ Entered 0 (0x200 + m) 0x0201 d e) ∧
    ((getMoon (freeTicks d) m).excDue = 0 → Gives (.tideExcursion moon) s (freeTicks d)) ∧
    (tickEnd (getMoon d tile) ≤ nextBegin d tile ∧ (∀ k ∈ stretchSet tile, nextBegin d k = nextBegin d tile) ∧
      (∀ k ∈ crossingMoons tile, begun (getMoon d k) 1 + period d.clk.step ≤ nextBegin d tile) ∧
      ∀ k, k < 36 → begun (getMoon d k) 3 + 2 * period d.clk.step ≤ nextBegin d tile) ∧
    (latticePaused d = true ∨ clocksRun d = false → Gives (.couplingPause tile ns) s d) ∧
    (latticePaused d = false → clocksRun d = true → ∃ e, Gives (.couplingPause tile ns) s e ∧
      (getMoon e tile).pauseG = (getMoon d tile).pauseG + (g - (getMoon d tile).restG) ∧
      ((getMoon d tile).restG = 0 → 0 < g → (getMoon e tile).pauseCount = satAdd (getMoon d tile).pauseCount 1) ∧
      (∀ k, k ≠ tile.val → getMoon e k = getMoon d k) ∧ { e with clk := d.clk } = d)

/-- R182, Tables 6.6 and 6.10: the PLLs follow the preferred reference while it is good, the other one with REF_AUTO, hold over without
one, and run free after 10 ms, without lock; each change sets its bit of CLK_EVENTS and, where the reference in use is lost, a DEGRADE is
entered; a reference good again for 1 ms is followed by PLLs that have none.
Readings of the model that it rests on: log entries 80, 183 and 186. -/
def Obligations.ReferencesAreFollowed : Prop :=
  ∀ (s : State) (b : Bool), awake s.dev = true →
    let d := s.dev
    let bad := if b then 2 else 1
    let good := (tget d.clk.refBadAt (b2n b)).getD 0 + msG 1
    (refBad d b = true ∨ d.clk.refSel = b → Gives (.refPref b) s { d with clk := { d.clk with refPref := b } }) ∧
    (refBad d b = false → d.clk.refSel ≠ b → ∃ e, Gives (.refPref b) s e ∧ e.clk.refSel = b ∧ e.clk.refPref = b ∧
      e.clk.holdover = false ∧ e.clk.freeRun = false ∧ e.clk.events = d.clk.events ||| 4#32) ∧
    (refBad d b = true → Gives (.referenceBad b) s d) ∧
    (refBad d b = false → refBad d (!b) = true → ∃ e, Gives (.referenceBad b) s e ∧ refBad e b = true ∧ e.clk.holdover = true ∧
      e.clk.holdoverAt = some d.clk.wall ∧ e.clk.events = d.clk.events ||| BitVec.ofNat 32 bad ||| 8#32 ∧ Entered 1 0x22C 0x0202 d e) ∧
    (refBad d b = false → refBad d (!b) = false → d.clk.refSel = b → d.clk.refAuto = true → ∃ e, Gives (.referenceBad b) s e ∧
      refBad e b = true ∧ e.clk.refSel = !b ∧ e.clk.holdover = false ∧
      e.clk.events = d.clk.events ||| BitVec.ofNat 32 bad ||| 4#32 ∧ Entered 1 0x22C 0x0202 d e) ∧
    (refBad d b = false → refBad d (!b) = false → d.clk.refSel = b → d.clk.refAuto = false → ∃ e, Gives (.referenceBad b) s e ∧
      refBad e b = true ∧ e.clk.refSel = b ∧ e.clk.holdover = true ∧
      e.clk.events = d.clk.events ||| BitVec.ofNat 32 bad ||| 8#32 ∧ Entered 1 0x22C 0x0202 d e) ∧
    (refBad d b = false → refBad d (!b) = false → d.clk.refSel ≠ b → ∃ e, Gives (.referenceBad b) s e ∧ refBad e b = true ∧
      e.clk.refSel = d.clk.refSel ∧ e.clk.events = d.clk.events ||| BitVec.ofNat 32 bad ∧ e.flt = d.flt) ∧
    (refBad d b = false → Gives (.referenceGood b) s d) ∧
    (refBad d b = true → AtDue good d fun d => ∃ e, Gives (.referenceGood b) s e ∧ refBad e b = false ∧
      refBad e (!b) = refBad d (!b) ∧ e.clk.wall = d.clk.wall ∧ e.flt = d.flt ∧
      (d.clk.refSel = b → e.clk.holdover = false ∧ e.clk.freeRun = false ∧ e.clk.refSel = b) ∧
      (d.clk.refSel ≠ b → refBad d (!b) = true → d.clk.freeRun = true → e.clk.freeRun = false ∧ e.clk.refSel = b)) ∧
    (refBad d b = true → NotYet good d → Gives (.referenceGood b) s d) ∧
    (∀ t, d.clk.holdoverAt = some t → NotYet (t + msG 10) d → Gives .holdoverExpiry s d) ∧
    (d.clk.holdoverAt = none → Gives .holdoverExpiry s d) ∧
    (∀ t, d.clk.holdoverAt = some t → AtDue (t + msG 10) d fun d => ∃ e, Gives .holdoverExpiry s e ∧ e.clk.freeRun = true ∧
      e.clk.holdoverAt = none ∧ e.clk.events = d.clk.events ||| 16#32 ∧
      ∀ p, p < 12 → d.clk.pllDown.contains p = false → ∀ m ∈ pllMoons p, (getMoon e m).pllLock = false)

/-- R179, R182: a PLL that loses lock enters a NOTE, its moons stand without it until it relocks, a die's with their seam groups not
aligned, and a memory moon's channels retrain then; a tile PLL that does not relock, and a seam group that does not realign, in 100 us,
halt the running partitions; a seam that realigned enters a NOTE.
Readings of the model that it rests on: log entries 80, 81 and 83. -/
def Obligations.PllsAndSeams : Prop :=
  ∀ (s : State) (pll : Fin 12) (g : Fin 9), awake s.dev = true →
    let d := s.dev
    let p := pll.val
    let down := d.clk.pllDown.contains p
    let torn := d.clk.seamDown.contains g.val
    let lost := (tget d.clk.pllAt p).getD d.clk.wall
    let tear := (tget d.clk.seamAt g.val).getD d.clk.wall
    (down = false → ∃ e, Gives (.pllLockLoss pll) s e ∧ p ∈ e.clk.pllDown ∧ (∀ m ∈ pllMoons p, (getMoon e m).pllLock = false) ∧
      (p < 4 → ∀ k ∈ dieGroups p, ∀ m ∈ groupMoons k, (getMoon e m).seamAligned = false) ∧
      (∀ m, m ∉ pllMoons p → getMoon e m = getMoon d m ∨
        (p < 4 ∧ (∃ k ∈ dieGroups p, m ∈ groupMoons k) ∧ getMoon e m = { getMoon d m with seamAligned := false })) ∧
      Entered 0 (pllSrc p) 0x0203 d e) ∧
    (down = true → Gives (.pllLockLoss pll) s d) ∧
    (down = true → ∃ e, Gives (.pllRelock pll) s e ∧ p ∉ e.clk.pllDown ∧ (∀ m ∈ pllMoons p, (getMoon e m).pllLock = !d.clk.freeRun) ∧
      (p < 4 → e.clk.wall ≤ max d.clk.wall (lost + usG 120)) ∧ d.clk.wall ≤ e.clk.wall ∧
      (4 ≤ p → p < 8 → ∀ c, c / 12 = p - 4 → (getChan d c).st = .up → (getChan e c).st = .retraining)) ∧
    (down = false → Gives (.pllRelock pll) s d) ∧
    (down = true → p < 4 → AtDue (lost + usG 100) d fun d => ∃ e, Gives (.pllFail pll) s e ∧ Entered 2 (pllSrc p) 0x0204 d e ∧
      e.flt.hold = true) ∧
    (down = true → p < 4 → NotYet (lost + usG 100) d → Gives (.pllFail pll) s d) ∧
    (down = false ∨ 4 ≤ p → Gives (.pllFail pll) s d) ∧
    (torn = false → ∃ e, Gives (.seamPhaseError g) s e ∧ g.val ∈ e.clk.seamDown ∧
      (∀ m ∈ groupMoons g, (getMoon e m).seamAligned = false) ∧ { e with clk := d.clk } = d) ∧
    (torn = true → Gives (.seamPhaseError g) s d) ∧
    (torn = true → ∃ e, Gives (.seamRealign g) s e ∧ g.val ∉ e.clk.seamDown ∧ (∀ m ∈ groupMoons g, (getMoon e m).seamAligned = true) ∧
      d.clk.wall ≤ e.clk.wall ∧ e.clk.wall ≤ max d.clk.wall (tear + usG 20) ∧ Entered 0 (0x240 + groupSeam g) 0x0205 d e) ∧
    (torn = true → ∃ e, Gives (.seamFail g) s e ∧ Entered 2 (0x240 + groupSeam g) 0x0206 d e ∧
      e.clk.wall = max d.clk.wall (tear + usG 100)) ∧
    (torn = false → Gives (.seamRealign g) s d ∧ Gives (.seamFail g) s d)

/-! ### Ports (chapter 11) -/

/-- R307, R308, Tables 11.9, 11.10 and 11.15: what the controls of a port do, and its training: a lit port starts anew in TRAINING (DARK
where DARK is set), lanes fail after 20 ms, one failed data lane gives its stripe to the halo lane and two take the port DOWN, and the
1,024th matching cell takes it UP; while it trains it sends its own training cell in the time of each it receives. Said for ports whose
partition runs no job and prepares none.
Readings of the model that it rests on: log entries 95, 96, 97, 99 and 100. -/
def Obligations.PortsTrain : Prop :=
  ∀ (s : State) (port : Fin 32) (lane : Fin 5) (v : BitVec 32) (c : List Byte), awake s.dev = true →
    (∀ x, portPart s.dev port.val = some x → x.job.st ≠ .running ∧ x.job.st ≠ .preparing) →
    let d := s.dev
    let p := port.val
    let y := getPort d p
    let trains (c : Instr) (dark : Bool) : Prop :=
      (craterLanes d p ≠ 0b11111#5 → ∃ e, Gives c s e ∧ (getPort e p).st = (if dark then .dark else .training) ∧
        (getPort e p).laneLock = 0 ∧ (getPort e p).laneUse = 0 ∧ (getPort e p).matchCells = 0 ∧ (getPort e p).lasers = true ∧
        (getPort e p).laneFailed = craterLanes d p ∧ (getPort e p).trainAt = d.clk.wall) ∧
      (craterLanes d p = 0b11111#5 → dark = false → ∃ e, Gives c s e ∧ (getPort e p).st = .down ∧ (getPort e p).downCause = 4)
    let f := y.laneFailed ||| laneBit lane
    let same := lf c 0 2 = y.jobTag.toNat ∧ lf c 2 2 = y.jobEpoch.toNat
    (∃ e, Gives (.portEn port false) s e ∧ (getPort e p).st = .off ∧ (getPort e p).en = false ∧ (getPort e p).lasers = false) ∧
    (y.st = .off → (portPart d p).isSome = true → trains (.portEn port true) y.darkBit) ∧
    (y.st ≠ .off → Gives (.portEn port true) s (modPort p (fun y => { y with en := true }) d)) ∧
    (y.st ≠ .off → y.st ≠ .training → trains (.retrain port) y.darkBit) ∧
    (y.st = .off ∨ y.st = .training → Gives (.retrain port) s d) ∧
    (∃ e, Gives (.dark port true) s e ∧ (getPort e p).darkBit = true ∧
      (getPort e p).st = if y.st = .training ∨ y.st = .up then .dark else y.st) ∧
    (y.st = .dark → trains (.dark port false) false) ∧
    (y.st ≠ .dark → Gives (.dark port false) s (modPort p (fun y => { y with darkBit := false }) d)) ∧
    (y.st ≠ .off → trains (.jobIdWrite port v) y.darkBit ∧ ∃ e, Gives (.jobIdWrite port v) s e ∧
      (getPort e p).jobTag.toNat = v.toNat % 65536 ∧ (getPort e p).jobEpoch.toNat = v.toNat / 65536) ∧
    (y.st = .off → Gives (.jobIdWrite port v) s (modPort p (fun y =>
      { y with jobTag := v.setWidth 16, jobEpoch := (v >>> 16).setWidth 16 }) d)) ∧
    (y.st = .up ∨ y.st = .subst → ∃ e, Gives (.forceDown port) s e ∧ (getPort e p).st = .down ∧ (getPort e p).downCause = 5 ∧
      (getPort e p).sendDown = true ∧ (getPort e p).downDecl = some d.clk.wall ∧ Noted 1 (0x500 + p) 0x0505 e) ∧
    (y.st ≠ .up → y.st ≠ .subst → Gives (.forceDown port) s d) ∧
    (y.st = .training → (y.laneLock ||| y.laneFailed).getLsbD lane = false → NotYet (y.trainAt + msG 20) d →
      Gives (.laneAcquisitionTimeout port lane) s d) ∧
    (y.st = .training → (y.laneLock ||| y.laneFailed).getLsbD lane = false → AtDue (y.trainAt + msG 20) d fun _ => ∃ e,
      Gives (.laneAcquisitionTimeout port lane) s e ∧ (getPort e p).laneFailed = f ∧
      (y.laneLock ||| f = 0b11111#5 → 2 ≤ (laneList f).length → (getPort e p).st = .down ∧ (getPort e p).downCause = 4) ∧
      (y.laneLock ||| f = 0b11111#5 → laneList f = [lane.val] → lane.val < 4 → (getPort e p).st = .training ∧
        (getPort e p).haloUsed = true ∧ (getPort e p).haloStripe.toNat = lane.val ∧
        (getPort e p).laneUse = 0b11111#5 &&& ~~~ laneBit lane)) ∧
    (y.st = .training → y.laneUse ≠ 0 → same → (y.jobTag = 0 ∨ bit (lf c 7 1) 0 = false ∨ y.darkBit = true) → ∃ e,
      Gives (.trainingCell port c) s e ∧ (getPort e p).matchCells = 0 ∧ (getPort e p).st = .training) ∧
    (y.st = .training → y.laneUse ≠ 0 → same → y.jobTag ≠ 0 → bit (lf c 7 1) 0 = true → y.darkBit = false →
      (y.matchCells + 1 < 1024 → ∃ e, Gives (.trainingCell port c) s e ∧ (getPort e p).matchCells = y.matchCells + 1 ∧
        (getPort e p).st = .training ∧ (getPort e p).farSerial = BitVec.ofNat 64 (lf c 8 8) ∧ (getPort e p).trainSent = fillCell e p) ∧
      (y.matchCells + 1 = 1024 → y.haloUsed = false → ∃ e, Gives (.trainingCell port c) s e ∧ (getPort e p).st = .up)) ∧
    (y.st = .training → y.laneUse ≠ 0 → ¬ same → ∃ e, Gives (.trainingCell port c) s e ∧ (getPort e p).matchCells = 0 ∧
      (getPort e p).foreign = true ∧ (getPort e p).st = .training) ∧
    (y.st = .training → AtDue (y.trainAt + msG 50) d fun d =>
      Gives (.trainTimeout port) s (modPort p (fun y => { y with trainTimeout := true }) d)) ∧
    (y.st ≠ .training ∨ NotYet (y.trainAt + msG 50) d → Gives (.trainTimeout port) s d)

/-- R305 to R307: a lane whose segments lose it its lock starts its 4 us, and the loss of every lane in use within 1 us suspends that
rule for 110 us; a data lane that fails on an UP port starts halo substitution, a second failure takes the port DOWN; the far end's
request starts the substitution of the transmit direction and is acknowledged once; the end of deskew takes the port UP on the halo
lane; 120 us without it, the outage's expiry and the far end's DOWN take it DOWN; its lasers go out 10 us after that.
Readings of the model that it rests on: log entries 98, 104 and 183. -/
def Obligations.LanesAndSubstitution : Prop :=
  ∀ (s : State) (port : Fin 32) (lane : Fin 5) (segs : List (BitVec 16)) (power : BitVec 16), awake s.dev = true →
    (∀ x, portPart s.dev port.val = some x → x.job.st ≠ .preparing) →
    let d := s.dev
    let p := port.val
    let y := getPort d p
    let loss := Instr.lockLoss port ⟨lane, segs, power⟩
    let down (c : Instr) (cause : Nat) (_ : Dev) : Prop := ∃ e, Gives c s e ∧ (getPort e p).st = .down ∧
      (getPort e p).downCause = BitVec.ofNat 3 cause ∧ Noted 1 (0x500 + p) 0x0505 e
    (y.laneLock.getLsbD lane = false ∨ losesLock segs = false →
      Gives loss s (modPort p (fun y => { y with rxPower := tput y.rxPower lane power }) d)) ∧
    (y.laneLock.getLsbD lane = true → losesLock segs = true → ∃ e, Gives loss s e ∧ { e with ports := d.ports } = d ∧
      (∀ q, q ≠ p → getPort e q = getPort d q) ∧ let z := getPort e p
      z.laneLock = y.laneLock &&& ~~~ laneBit lane ∧ z.st = y.st ∧ tget z.rxPower lane = some power ∧
      (watched y = true → y.laneFailed.getLsbD lane = false → tget z.lostAt lane = some d.clk.wall ∧
        (y.outageAt = none → (z.outageAt.isSome = true ↔
          ∀ k ∈ laneList y.laneUse, ∃ t, tget z.lostAt k = some t ∧ d.clk.wall ≤ t + usG 1)))) ∧
    (∀ t, y.st = .up → y.laneLock.getLsbD lane = false → gainsLock segs = true → tget y.lostAt lane = some t → y.outageAt = none →
      d.clk.wall < t + usG 4 → ∃ e, Gives (.lockRegain port ⟨lane, segs, power⟩) s e ∧ (getPort e p).laneLock = y.laneLock ||| laneBit lane ∧ (getPort e p).st = .up ∧
        (getPort e p).laneLockloss = satAdd y.laneLockloss 1 ∧ tget (getPort e p).lostAt lane = none) ∧
    (∀ t s, y.st = .up → y.laneLock.getLsbD lane = false → gainsLock segs = true → tget y.lostAt lane = some t → y.outageAt = some s →
      s + usG 110 < d.clk.wall → down (.lockRegain port ⟨lane, segs, power⟩) 1 d) ∧
    (∀ t, tget y.lostAt lane = some t → y.st = .up → y.outageAt = none → lane.val < 4 → y.laneUse.getLsbD 4 = false → y.haloFail = false →
      AtDue (t + usG 4) d fun d => ∃ e, Gives (.laneFailed port lane) s e ∧ (getPort e p).st = .subst ∧ (getPort e p).rxSubst = true ∧
        (getPort e p).haloReq = true ∧ (getPort e p).reqLane.toNat = lane.val ∧ (getPort e p).substAt = some d.clk.wall ∧
        (getPort e p).laneFailed = y.laneFailed ||| laneBit lane) ∧
    (∀ t, tget y.lostAt lane = some t → y.st = .up → y.outageAt = none → lane.val < 4 → (y.laneUse.getLsbD 4 = true ∨ y.haloFail = true) →
      AtDue (t + usG 4) d (down (.laneFailed port lane) 1)) ∧
    (∀ t, tget y.lostAt lane = some t → NotYet (t + usG 4) d → Gives (.laneFailed port lane) s d) ∧
    (tget y.lostAt lane = none → Gives (.laneFailed port lane) s d) ∧
    (∀ t, y.outageAt = some t → watched y = true → AtDue (t + usG 110) d (down (.portOutageExpiry port) 1)) ∧
    (∀ t, y.outageAt = some t → NotYet (t + usG 110) d → Gives (.portOutageExpiry port) s d) ∧
    (y.outageAt = none → Gives (.portOutageExpiry port) s d) ∧
    (watched y = true → lane.val ≤ 3 → y.haloAck = false → ∃ e, Gives (.haloReq port lane) s e ∧ (getPort e p).haloAck = true ∧
      (getPort e p).ackLane.toNat = lane.val ∧ (getPort e p).haloUsed = true ∧ (getPort e p).st = .subst ∧ (getPort e p).txSubst = true ∧
      Noted 1 (0x500 + p) 0x0503 e) ∧
    (y.haloAck = true ∨ watched y = false → Gives (.haloReq port lane) s d) ∧
    (y.st = .subst → y.rxSubst = true → y.reqLane.toNat = lane.val →
      Gives (.haloAck port lane) s (modPort p (fun y => { y with deskew := true }) d)) ∧
    (∀ t, y.st = .subst → y.deskew = true → y.substAt = some t → t + usG 120 < d.clk.wall → down (.deskewDone port) 2 d) ∧
    (∀ t, y.st = .subst → y.deskew = true → y.substAt = some t → d.clk.wall ≤ t + usG 120 → ∃ e, Gives (.deskewDone port) s e ∧ (getPort e p).rxSubst = false ∧
      (getPort e p).haloUsed = true ∧ (getPort e p).haloStripe = y.reqLane ∧ (getPort e p).substAt = none ∧
      (getPort e p).laneUse = (y.laneUse &&& ~~~ laneBit y.reqLane.toNat) ||| laneBit 4 ∧
      (getPort e p).st = if y.darkBit then .dark else .up) ∧
    (y.deskew = false → Gives (.deskewDone port) s d) ∧
    (∀ t, y.substAt = some t → y.st = .subst → AtDue (t + usG 120) d (down (.substTimeout port) 2)) ∧
    (∀ t, y.substAt = some t → NotYet (t + usG 120) d → Gives (.substTimeout port) s d) ∧
    (y.substAt = none → Gives (.substTimeout port) s d) ∧
    (watched y = true → down (.farDownSeen port) 3 d) ∧ (watched y = false → Gives (.farDownSeen port) s d) ∧
    (∀ t, y.downDecl = some t → y.st = .down → AtDue (t + usG 10) d fun d => Gives (.laserOff port) s
      (modPort p (fun y => { y with lasers := false, sendDown := false, downDecl := none }) d)) ∧
    (∀ t, y.downDecl = some t → NotYet (t + usG 10) d → Gives (.laserOff port) s d) ∧
    (y.downDecl = none → Gives (.laserOff port) s d)

/-- R295, R297, R300, R303, R304, R314, Tables 11.8 and 12.1: what a port does with the cells of a packet, row by row of the receive
table; a delivered packet's elements enter their link queue; elements fill stream buffers and an overflow halts; a source slot sends its
bytes, or halts where they are not there; a comet slot sends what stands first for it; port registers are read through the mailbox.
Readings of the model that it rests on: log entries 101, 102 and 103. -/
def Obligations.PacketsMove : Prop :=
  ∀ (s : State) (port : Fin 32) (cells : List Byte) (x : Part), awake s.dev = true → portPart s.dev port.val = some x →
    getPart s.dev x.pid = some x →
    let d := s.dev
    let p := port.val
    let y := getPort d p
    let g := gather (cellsOf cells.length cells)
    let rx := Instr.packetReceived port cells
    let drops (n : Port → BitVec 32) : Prop := ∃ e, Gives rx s e ∧ n (getPort e p) = satAdd (n y) 1 ∧ (getPort e p).deliv = y.deliv ∧
      (getPort e p).relay = y.relay ∧ (getPort e p).pktRx = y.pktRx
    let receives := y.st = .up ∨ (y.st = .subst ∧ y.rxSubst = false)
    (¬ receives → Gives rx s d) ∧ (receives → g = .crc → drops (·.dropCrc16)) ∧ (receives → g = .seq → drops (·.dropSeq)) ∧
    (∀ pkt r, receives → g = .packet pkt r →
      (pTag pkt ≠ y.jobTag.toNat → drops (·.dropForeign)) ∧
      (pTag pkt = y.jobTag.toNat → (r = true ∨ badFormat pkt = true) → drops (·.dropFormat)) ∧
      (pTag pkt = y.jobTag.toNat → r = false → badFormat pkt = false → pMc pkt = false → pDest pkt = x.job.rank →
        (e2eOk pkt = false → drops (·.dropE2e)) ∧
        (e2eOk pkt = true → pType pkt ≠ 1 → ∃ e z, Gives rx s e ∧ getPart e x.pid = some z ∧
          z.fab.inbox = x.fab.inbox ++ [⟨logPort x p, pkt, d.mt.mt⟩] ∧ e.tiles = d.tiles) ∧
        (e2eOk pkt = true → pType pkt = 1 →
          x.fab.open_.find? (fun e => e.orbit.toNat = pOrbit pkt && e.src = pSrc pkt && e.transfer = pTransfer pkt) = none →
          drops (·.dropUnexp)))) ∧
    (∀ v, y.deliv = some v → linkRoom d v.pkt = true → ∃ e, Gives (.deliveryPush port) s e ∧
      (getPort e p).deliv = none ∧ onlyTile (pTile v.pkt) { d with ports := e.ports } e ∧
      (let q := getQ (getTile d (pTile v.pkt)) (28 + pLq v.pkt)
       (getQ (getTile e (pTile v.pkt)) (28 + pLq v.pkt)).count = q.count + v.pkt.payload.length / elemWidth q.wcode)) ∧
    (y.deliv = none → Gives (.deliveryPush port) s d) ∧
    (∀ m r, y.toStream = m :: r → (getStream y m.stream ++ m.bytes).length ≤ 8192 → ∃ e, Gives (.streamAppend port) s e ∧
      (getPort e p).toStream = r ∧ getStream (getPort e p) m.stream = getStream y m.stream ++ m.bytes ∧ { e with ports := d.ports } = d) ∧
    (∀ m r, y.toStream = m :: r → 8192 < (getStream y m.stream ++ m.bytes).length → ∃ e, Gives (.streamAppend port) s e ∧
      (getPort e p).toStream = r ∧ (getPort e p).streams = y.streams ∧ Entered 2 (0x500 + p) 0x0506 d e) ∧
    (∀ tab, portTab x p = some tab →
      let j := x.tick / slotTicks x p
      active x = true → slotBegins d x p j = true →
      (j % 16 ≠ 15 → tab.outs.find? (fun e => e.slot = j && condHolds x e.cond e.cbit) = none →
        Gives (.slotStart port) s (modPort p (fun y => { y with slot := j + 1 }) d)) ∧
      (∀ o, j % 16 ≠ 15 → tab.outs.find? (fun e => e.slot = j && condHolds x e.cond e.cbit) = some o → o.forward = false → sends y = true →
        (o.len ≤ (getStream y o.stream).length → ∃ e, Gives (.slotStart port) s e ∧ (getPort e p).slot = j + 1 ∧
          getStream (getPort e p) o.stream = (getStream y o.stream).drop o.len ∧
          ((streamBad y o.stream).any (fun k => decide (k < o.len)) = false → ∃ pkt, (getPort e p).sent = pkt :: y.sent ∧
            pkt.payload = (getStream y o.stream).take o.len)) ∧
        ((getStream y o.stream).length < o.len → ∃ e, Gives (.slotStart port) s e ∧ (getPort e p).sent = y.sent ∧
          (getPort e p).slotShort = satAdd y.slotShort 1 ∧ Entered 2 (0x500 + p) 0x0507 d e)) ∧
      (j % 16 = 15 → latticePaused d = false → x.job.st = .running → ∃ e, Gives (.cometSlot port) s e ∧ (getPort e p).slot = j + 1 ∧
        (getPort e p).cometNo = j / 16 + 1 ∧ (getPort e p).cometAt = d.clk.wall ∧
        (getPort e p).sent = if sends y = false then y.sent else match pickComet x d p (j / 16) with
          | some k => k.2 :: y.sent
          | none => y.sent)) ∧
    (x.job.st = .ready ∨ x.job.st = .armed → let step := 16 * slotTicks x p * period d.clk.step
      (NotYet (y.cometAt + step) d → Gives (.cometSlot port) s d) ∧ AtDue (y.cometAt + step) d fun d => ∃ e, Gives (.cometSlot port) s e ∧
        (getPort e p).cometNo = y.cometNo + (d.clk.wall - y.cometAt) / step) ∧
    ∀ (m : Fin 64) (l : Nat), physPort x l = some p → l < 2 * nBlocks x → lf (payload d m.val) 0 1 = l →
      (PartTurn 0x0608 m.val x d → ∃ e, Gives (.portRead m) s e ∧ Answered m.val stOk e ∧
        rdBs (getMbx e m.val).reply 16 256 = portBytes d p ∧ getPort e p = clearPort (fun _ => true) y) ∧
      (PartTurn 0x0609 m.val x d → lf (payload d m.val) 1 1 = 1 → x.job.st ≠ .none_ → x.job.st ≠ .failed →
        Gives (.portCtrl m) s (answer m.val stDenied 0 [] d)) ∧
      (PartTurn 0x0609 m.val x d → lf (payload d m.val) 1 1 = 1 → (x.job.st = .none_ ∨ x.job.st = .failed) → y.st ≠ .off → y.st ≠ .training →
        craterLanes d p ≠ 0b11111#5 → ∃ e, Gives (.portCtrl m) s e ∧ Answered m.val stOk e ∧ (getPort e p).st = if y.darkBit then .dark else .training) ∧
      (PartTurn 0x0609 m.val x d → lf (payload d m.val) 1 1 = 2 → y.st = .up → ∃ e, Gives (.portCtrl m) s e ∧ Answered m.val stOk e ∧
        (getPort e p).st = .down)

/-! ### The fabric (chapter 12) -/

/-- R320 to R322, R324, R330, R337: an entry whose due slot has passed is missing with every other of its orbit and source; a receipt
is served once, and a GONE answer closes what it lists; an entry still open LATE_INC_NS after its second round halts; the module
follows its time parent, stepping before its first job and slewing after; a management message is acted on once and flooded on.
Readings of the model that it rests on: log entries 107, 109 and 111. -/
def Obligations.FabricKeepsThePlan : Prop :=
  ∀ (s : State) (p : Fin 16) (x : Part), getPart s.dev p.val = some x → x.pid = p.val →
    let d := s.dev
    let first (f : Packet → Bool) := x.fab.inbox.find? (fun e => f e.pkt)
    let without (k : Received) : Part := { x with fab := { x.fab with inbox := x.fab.inbox.erase k } }
    (∀ (port : Fin 32) (pos : Nat) (e : Inbound), awake d = true → portPart d port.val = some x → x.plan = .running →
      x.fab.open_.find? (fun e => e.lport = logPort x port.val && e.pos = pos && !e.missing && duePassed x e) = some e →
      ∃ e' y, Gives (.dueSlotEnd port pos) s e' ∧ getPart e' p.val = some y ∧ y.fab.open_ = x.fab.open_.map (fun f =>
        if f.orbit = e.orbit ∧ f.src = e.src ∧ f.missing = false ∧ duePassed x f = true then { f with missing := true } else f)) ∧
    (awake d = true → first (fun k => pType k = 2) = none → Gives (.receipt p) s d) ∧
    (∀ k, awake d = true → first (fun k => pType k = 2) = some k →
      let pl := k.pkt.payload
      let key (e : Nat × Nat × Nat) : RcptKey := ⟨pSrc k.pkt, BitVec.ofNat 32 (lf pl 0 4), e.2.2, lf pl 4 1⟩
      (bit (lf pl 5 1) 1 = true → ∃ e y, Gives (.receipt p) s e ∧ getPart e p.val = some y ∧ y.fab.inbox = x.fab.inbox.erase k ∧
        y.fab.goneRx = satAdd x.fab.goneRx 1 ∧ ∀ f ∈ y.fab.open_, ¬ (f.orbit.toNat = lf pl 0 4 ∧ f.src = pSrc k.pkt ∧
          ∃ q ∈ receiptEntries pl, q.1 = f.lport ∧ q.2.1 = f.pos)) ∧
      (bit (lf pl 5 1) 1 = false → ∃ e y, Gives (.receipt p) s e ∧ getPart e p.val = some y ∧ y.fab.inbox = x.fab.inbox.erase k ∧
        (∀ q ∈ receiptEntries pl, key q ∈ y.fab.handled) ∧
        ((∀ q ∈ receiptEntries pl, key q ∈ x.fab.handled) → e.ports = d.ports))) ∧
    (∀ t e, awake d = true → x.plan = .running → firstAsked x.fab.open_ = some (t, e) →
      e ∈ x.fab.open_ ∧ e.round2At = some t ∧ (∀ f ∈ x.fab.open_, ∀ u, f.round2At = some u → t ≤ u) ∧
      (NotYet (t + nsG (lateInc x)) d → Gives (.fabSecond p) s d) ∧ AtDue (t + nsG (lateInc x)) d fun d => ∃ f y, Gives (.fabSecond p) s f ∧
        Entered 2 (0x560 + p.val) 0x0508 d f ∧ getPart f p.val = some y ∧ y.plan = .stopped) ∧
    (awake d = true → (∀ e ∈ x.fab.open_, e.round2At = none) → Gives (.fabSecond p) s d) ∧
    (∀ k, awake d = true → first (fun k => pType k = 3) = some k →
      (d.mt.root = true → Gives (.time p) s (setPart p.val (without k) d)) ∧
      (d.mt.root = false → (takeParent d).mt.parent.isSome = true → physPort x k.lport = (takeParent d).mt.parent →
        lf k.pkt.payload 8 8 ≠ 0 →
        let o := timeOffset (lf k.pkt.payload 8 8) (lf k.pkt.payload 16 8) (lf k.pkt.payload 0 8) k.rx.toNat
        ∃ e, Gives (.time p) s e ∧ e.mt.offset = BitVec.ofInt 64 o ∧
          (d.mt.started = true → e.mt.slew = -o ∧ e.mt.mt = d.mt.mt) ∧
          (d.mt.started = false → e.mt.slew = 0 ∧ e.mt.mt = BitVec.ofInt 64 (d.mt.mt.toNat - o)))) ∧
    (awake d = true → d.mt.root = true → Gives .timeParentLoss s d) ∧
    (awake d = true → d.mt.root = false → bestParent d = none → let w := d.mt.lostAt.getD d.clk.wall + msG 10
      (NotYet w (takeParent d) → Gives .timeParentLoss s (takeParent d)) ∧ AtDue w (takeParent d) fun d => Gives .timeParentLoss s
        { d with mt := { d.mt with stratum := 0xFF#8, slew := 0, since := none } }) ∧
    (∀ q, awake d = true → d.mt.root = false → bestParent d = some q → Gives .timeParentLoss s (takeParent d) ∧
      (takeParent d).mt.parent = some q) ∧
    ∀ k, mpUp d = true → first (fun k => pType k = 5 && lf k.payload 0 1 ≠ 1) = some k →
      let pl := k.pkt.payload
      let seen := x.fab.floods.contains (lf pl 0 1, BitVec.ofNat 32 (lf pl 4 4), lf pl 1 1)
      (seen = true → Gives (.mgmt p) s (setPart p.val (without k) d)) ∧
      (seen = false → ∃ e y, Gives (.mgmt p) s e ∧ getPart e p.val = some y ∧ y.fab.inbox = x.fab.inbox.erase k ∧
        (lf pl 0 1, BitVec.ofNat 32 (lf pl 4 4), lf pl 1 1) ∈ y.fab.floods ∧
        (lf pl 0 1 = 2 → BitVec.ofNat 32 (lf pl 4 4) = x.orbit + 1 → y.srv.next = .stale) ∧
        (lf pl 0 1 = 3 → y.fab.switchAt = some (BitVec.ofNat 32 (lf pl 8 4))))

/-! ### Security and the sideband (chapters 15, 16 and 18) -/

/-- R399 to R403, Tables 16.6 to 16.8: OP 0 issues a nonce in place of any before; a token is refused by the first check it fails,
and uses up the nonce where it got as far as the nonce's check; an accepted one is noted in the fault history, is answered with
the life-cycle state, and has the effect of its KIND; KINDs 2 to 4 leave the life-cycle state as it is, and the others leave no PENDING
word behind.
Readings of the model that it rests on: log entries 57 and 58. -/
def Obligations.TokensMoveTheLifeCycle : Prop :=
  ∀ (s : State) (m : Fin 64), Turn 0x0705 m.val s.dev →
    let d := s.dev
    let pl := payload d m.val
    let a := lf pl 8 8
    let t := hostRd d a 272
    let kind := lf t 6 1
    let spent (d : Dev) : Dev := { d with sec := { d.sec with nonce := none } }
    (lf pl 0 1 = 0 → ∃ v : BitVec 128, Gives (.tokenApply m) s
      (answer m.val stOk 0 (toLe 16 v.toNat) { d with free := d.free + 1, sec := { d.sec with nonce := some v } })) ∧
    (1 < lf pl 0 1 → Gives (.tokenApply m) s (answer m.val stBadArg 0 [] d)) ∧
    (lf pl 0 1 = 1 → hostOk d a 272 = false → Gives (.tokenApply m) s (answer m.val stIntegrity 0 [] d)) ∧
    (lf pl 0 1 = 1 → hostOk d a 272 = true →
      (∀ st r used, checkToken d 272 false t = (some (st, r), used) →
        Gives (.tokenApply m) s (answer m.val st r [] (if used then spent d else d))) ∧
      ((checkToken d 272 false t).1 = none → ∃ e, Gives (.tokenApply m) s e ∧ Answered m.val stOk e ∧ e.sec.nonce = none ∧
        rdN (getMbx e m.val).reply 16 1 = e.otp.lc.toNat ∧ Entered 0 0x700 0x0703 d e ∧ e.host = d.host ∧
        (kind = 2 → e.sec.diag = true) ∧ (kind = 3 → e.sec.bistScope = some (BitVec.ofNat 8 (lf t 0x20 1))) ∧
        (kind = 4 → d.flash.macOk = true → lf t 0x31 1 = 0 → tget e.flash.msk (lf t 0x30 1) = some (keyOf (sl t 0x50 96)) ∧
          ∀ k, k ≠ lf t 0x30 1 → tget e.flash.msk k = tget d.flash.msk k) ∧
        (kind = 4 → d.flash.macOk = true → lf t 0x31 1 ≠ 0 → tget e.flash.msk (lf t 0x30 1) = none) ∧
        (kind < 5 → e.otp = d.otp ∧ e.store = d.store ∧ e.flash.cert = d.flash.cert) ∧
        (kind = 5 → e.otp.lc = 2#3 ∧ e.otp.owner = some d.otp.owners.length ∧ e.store = d.store ∧
          tget e.otp.owners d.otp.owners.length = some (keyHash (keyOf (sl t 0x50 96)))) ∧
        (kind = 6 → e.otp.lc = 1#3 ∧ e.otp.owner = none ∧ e.flash.msk = [] ∧ e.store.imgs = []) ∧
        (kind = 7 → e.otp.lc = 3#3 ∧ e.otp.owner = none ∧ e.flash.msk = [] ∧ e.store.imgs = []) ∧
        (kind = 8 → e.otp.lc = 4#3 ∧ e.otp.owner = none ∧ e.flash.msk = [] ∧ e.flash.cert = [] ∧ e.store.imgs = [] ∧
          e.store.bytes = [] ∧ e.otp.seed = BitVec.allOnes 384) ∧
        (kind = 9 → e.otp.lc = 1#3 ∧ e.flash.cert = hostRd d (a + 272) 4096) ∧
        (5 ≤ kind → kind ≤ 9 → e.otp.pending = none)))

/-- R404 to R406, Tables 16.5 and 16.9: the SPDM exchange goes GET_VERSION, GET_CAPABILITIES, NEGOTIATE_ALGORITHMS, then the rest; a
request out of that order is an unexpected request; none is answered while the responder does not run or in BLANK or VOID (GET_VERSION
in BLANK apart); at most four sessions are open; what runs inside a session needs one that FINISH has completed.
Readings of the model that it rests on: log entries 55 and 57. -/
def Obligations.AttestationFollowsItsExchange : Prop :=
  ∀ (s : State) (asym hash : BitVec 32) (dhe aead off len : BitVec 16) (slot index : BitVec 8) (nonce : BitVec 256)
      (id : BitVec 32) (half : BitVec 16) (share : BitVec 768) (sign ok : Bool) (st : Fin 3),
    let d := s.dev
    let answered := mpUp d = true ∧ d.otp.lc ≠ 0#3 ∧ d.otp.lc ≠ 4#3
    let inside : List Instr := [.finish id ok, .keyUpdate id, .heartbeat id, .endSession id, .ideKeyManagement id st]
    let rows : List (Instr × Nat) := [(.getCapabilities, 1), (.negotiateAlgorithms asym hash dhe aead, 2), (.getDigests, 3),
      (.getCertificate slot off len, 3), (.challenge slot nonce, 3), (.getMeasurements index sign nonce, 3),
      (.keyExchange slot half share, 3)] ++ inside.map (fun c => (c, 3))
    let ready := answered ∧ d.sec.spdm = 3#2
    let fails (c : Instr) (code : Byte) : Prop := Gives c s (respond (spdmError code) d)
    let hello (l : List Byte) (n : BitVec 2) : Dev := respond l { d with sec := { d.sec with spdm := n } }
    (∀ c ∈ rows, (¬ answered → Gives c.1 s (respond [] d)) ∧ (answered → d.sec.spdm.toNat < c.2 → fails c.1 4)) ∧
    (mpUp d = true → d.otp.lc ≠ 4#3 → Gives .getVersion s (hello [0x10, 0x04, 0, 0, 0, 1, 0x00, 0x12] 1#2)) ∧
    (mpUp d = false ∨ d.otp.lc = 4#3 → Gives .getVersion s (respond [] d)) ∧
    (answered → 1 ≤ d.sec.spdm.toNat → ∃ l, Gives .getCapabilities s (hello ([0x12, 0x61, 0, 0] ++ l) 2#2)) ∧
    (answered → 2 ≤ d.sec.spdm.toNat → let good := asym.getLsbD 7 && hash.getLsbD 1 && dhe.getLsbD 4 && aead.getLsbD 1
      (good = true → Gives (.negotiateAlgorithms asym hash dhe aead) s
        (hello ([0x12, 0x63, 0, 0] ++ toLe 4 0x80 ++ toLe 4 2 ++ toLe 2 0x10 ++ toLe 2 2) 3#2)) ∧
      (good = false → fails (.negotiateAlgorithms asym hash dhe aead) 1)) ∧
    (ready → Gives .getDigests s (respond ([0x12, 0x01, 0, 1] ++ hashBytes (sha384 d.flash.cert)) d)) ∧
    (ready → slot = 0 → off.toNat ≤ d.flash.cert.length → ∃ n, Gives (.getCertificate slot off len) s
      (respond ([0x12, 0x02, 0, 0] ++ toLe 2 n ++ toLe 2 (d.flash.cert.length - off.toNat - n) ++
        (d.flash.cert.drop off.toNat).take len.toNat) d) ∧ n = min len.toNat (d.flash.cert.length - off.toNat)) ∧
    (ready → slot ≠ 0 → fails (.getCertificate slot off len) 1 ∧ fails (.challenge slot nonce) 1 ∧ fails (.keyExchange slot half share) 1) ∧
    (ready → slot = 0 → ∃ (v : BitVec 256) (sig : BitVec 768), Gives (.challenge slot nonce) s (respond ([0x12, 0x03, 0, 1] ++
      hashBytes (sha384 d.flash.cert) ++ toLe 32 v.toNat ++ sigBytes sig) { d with free := d.free + 2 })) ∧
    (ready → 1 ≤ index.toNat → index.toNat < 32 → ∀ b, measBlock d index.toNat = some b →
      let l := [0x12, 0x60, 0, 0, 1] ++ toLe 3 (b.length + 7) ++ measRaw d index.toNat
      (sign = false → Gives (.getMeasurements index sign nonce) s (respond l d)) ∧
      (sign = true → ∃ sig : BitVec 768, Gives (.getMeasurements index sign nonce) s
        (respond (l ++ sigBytes sig) { d with free := d.free + 1 }))) ∧
    (ready → 1 ≤ index.toNat → index.toNat < 255 → measBlock d index.toNat = none → fails (.getMeasurements index sign nonce) 1) ∧
    (ready → slot = 0 → 4 ≤ d.sec.sessions.length → fails (.keyExchange slot half share) 3) ∧
    (ready → slot = 0 → d.sec.sessions.length < 4 → ∃ (e : Dev) (v : BitVec 16), Gives (.keyExchange slot half share) s e ∧
      e.sec = { d.sec with sessions := d.sec.sessions ++ [⟨v ++ half, false, 0⟩] } ∧
      e.out.resp.take 6 = [0x12, 0x64, 0, 0] ++ toLe 2 v.toNat ∧ { e with sec := d.sec, out := d.out, free := d.free } = d) ∧
    (ready → d.sec.sessions.find? (fun x => x.id = id) = none → ∀ c ∈ inside, fails c 2) ∧
    (ready → ∀ x, d.sec.sessions.find? (fun x => x.id = id) = some x → x.established = false →
      (∀ c ∈ inside.drop 1, fails c 4) ∧
      (ok = true → Gives (.finish id ok) s (respond [0x12, 0x65, 0, 0] (modSession id (fun x => { x with established := true }) d))) ∧
      (ok = false → Gives (.finish id ok) s (respond (spdmError 6) (dropSession id d)))) ∧
    (ready → ∀ x, d.sec.sessions.find? (fun x => x.id = id) = some x → x.established = true →
      fails (.finish id ok) 4 ∧ Gives (.heartbeat id) s (respond [0x12, 0x68, 0, 0] d) ∧
      Gives (.keyUpdate id) s (respond [0x12, 0x69, 0, 0] (modSession id (fun x => { x with updates := x.updates + 1 }) d)) ∧
      Gives (.endSession id) s (respond [0x12, 0x6C, 0, 0] (dropSession id d)) ∧
      ∃ e, Gives (.ideKeyManagement id st) s e ∧ e.sec.sessions = d.sec.sessions ∧ (∀ k, k ≠ st.val → tget e.sec.ide k = tget d.sec.ide k) ∧
        ∃ k, tget e.sec.ide st.val = some ⟨true, false, k⟩)

/-- R370, R388, R389, R407, R443, R457, Table 15.13: what the sideband, MCTP control, DOE discovery and the IEEE 1149.1 port answer; the
sideband's messages carry the vendor ID; it is BUSY while SHED is set and silent where the MP does not run; QUIESCE takes every partition out of RUNNING; a power limit
from 500 W to 2,800 W is taken; an IDE integrity failure makes its stream insecure and raises a DEGRADE; EXTEST acts as BYPASS while
any partition exists.
Readings of the model that it rests on: log entries 14, 55, 59 and 60. -/
def Obligations.OutOfBandAnswers : Prop :=
  ∀ (s : State) (watts : BitVec 16) (eid ty index : BitVec 8) (st : Fin 3) (ins : JtagOp),
    let d := s.dev
    let open_ := mpUp d = true ∧ d.glb.shed = false
    let side : List Instr := [.identRead, .sensorRead, .powerLimit watts, .faultSummary, .quiesce]
    let mctpRows : List Instr := [.setEndpointId eid, .getEndpointId, .getMctpVersionSupport ty, .getMessageTypeSupport]
    let temp (k : Nat) : Nat := fld d.pwr.temps.toNat (8 * k) 8
    let x := (tget d.sec.ide st.val).getD {}
    (∀ c ∈ side ++ mctpRows ++ [.doeDiscovery index], mpUp d = false → Gives c s (respond [] d)) ∧
    (∀ c ∈ side, mpUp d = true → d.glb.shed = true → Gives c s (fromVendor (respond [1] d))) ∧
    (open_ → Gives .identRead s (fromVendor (respond ([0] ++ toLe 4 0x01429216 ++ toLe 4 d.ident.fw.toNat ++ toLe 4 d.ident.ldr.toNat ++
      toLe 4 0x00C03030) d))) ∧
    (open_ → Gives .sensorRead s (fromVendor (respond ([0] ++ toLe 6 d.pwr.pwrIn.toNat ++
      toLe 1 (((List.range 5).map temp).foldl max 0) ++ toLe 1 (temp 5)) d))) ∧
    (open_ → 500 ≤ watts.toNat → watts.toNat ≤ 2800 → ∃ e, Gives (.powerLimit watts) s e ∧ e.out.resp = [0] ∧
      e.pwr.limit.toNat = watts.toNat ∧ { e with pwr := d.pwr, out := d.out } = d) ∧
    (open_ → (watts.toNat < 500 ∨ 2800 < watts.toNat) → Gives (.powerLimit watts) s (fromVendor (respond [2] d))) ∧
    (open_ → ∀ cls src mt, d.flt.last = some (cls, src, mt) →
      Gives .faultSummary s (fromVendor (respond ([0] ++ toLe 1 cls.toNat ++ toLe 2 src.toNat ++ toLe 8 mt.toNat) d))) ∧
    (open_ → d.partsWf → ∃ e, Gives .quiesce s e ∧
      (∀ p y, getPart d p = some y → ∃ z, getPart e p = some z ∧ z.plan = if y.plan = .running then .stopped else y.plan) ∧
      e.out.resp = [if d.pwr.startStatus.getLsbD 16 then 0 else 4] ∧ e.out.vendor = some Config.vendor) ∧
    (mpUp d = true → eid ≠ 0 → eid ≠ 0xFF →
      Gives (.setEndpointId eid) s (respond [1, 0, 0, eid, 0] { d with sec := { d.sec with eid := eid } })) ∧
    (mpUp d = true → (eid = 0 ∨ eid = 0xFF) → Gives (.setEndpointId eid) s (respond [1, 2] d)) ∧
    (mpUp d = true → Gives .getEndpointId s (respond [2, 0, d.sec.eid, 0, 0] d)) ∧
    (mpUp d = true → (ty = 0 ∨ ty = 5 ∨ ty = 0x7E ∨ ty = 0xFF) → ∃ l, Gives (.getMctpVersionSupport ty) s (respond ([4, 0] ++ l) d)) ∧
    (mpUp d = true → ty ≠ 0 → ty ≠ 5 → ty ≠ 0x7E → ty ≠ 0xFF → Gives (.getMctpVersionSupport ty) s (respond [4, 0x80] d)) ∧
    (mpUp d = true → Gives .getMessageTypeSupport s (respond [5, 0, 3, 0x00, 0x05, 0x7E] d)) ∧
    (mpUp d = true → index.toNat < 3 → Gives (.doeDiscovery index) s
      (respond [1, 0, index, if index = 2 then 0 else index + 1] d)) ∧
    (mpUp d = true → 3 ≤ index.toNat → Gives (.doeDiscovery index) s (respond [0xFF, 0xFF, 0xFF, 0] d)) ∧
    (awake d = true → x.secure = true → ∃ e, Gives (.ideIntegrity st) s e ∧ tget e.sec.ide st.val = some ⟨false, true, x.keys⟩ ∧
      Entered 1 0x804 0x0803 d e) ∧
    (awake d = true → x.secure = false → Gives (.ideIntegrity st) s d) ∧
    (d.pwr.rails.getLsbD 1 = true → ∃ e, Gives (.ieee11491Instruction ins) s e ∧ { e with jtag := d.jtag, out := d.out } = d ∧
      e.jtag = (if ins = .extest ∧ d.parts ≠ [] then .bypass else ins) ∧
      (ins = .idcode → e.out.jtag >>> 28 = 0x1#32 ∧ (e.out.jtag >>> 12).setWidth 16 = 0x9216#16 ∧ e.out.jtag.getLsbD 0 = true)) ∧
    (d.pwr.rails.getLsbD 1 = false → Gives (.ieee11491Instruction ins) s d)

/-! ### Power, reset and start-up (chapter 18) -/

/-- R438 to R440, R447 to R452: the input's rise brings the reset values with what no reset takes away; its fall starts the hold-up,
whose end, like an overvoltage, leaves nothing volatile; a rail that does not come up after VFIX seals the module; RST_N resets it from
10 us on, which the scratchpads outlast, and is ignored below 1 us (a reset while GO with COMMIT is carried out may leave the flash and the
SVN half way); the release of internal reset ends in recovery wait or with the MP ready.
Readings of the model that it rests on: log entries 19, 20 and 23. -/
def Obligations.PowerOnResetAndStartUp : Prop :=
  ∀ (s : State) (k : Fin 8) (ns : Nat) (find : Findings),
    let d := s.dev
    let kept (e : Dev) : Prop := (d.rcv.go = false → e.otp = d.otp ∧ e.flash = d.flash) ∧ e.rom = d.rom ∧
      e.store.bytes = d.store.bytes ∧ e.store.jrnA = d.store.jrnA ∧ e.store.jrnB = d.store.jrnB ∧ e.store.retired = d.store.retired ∧
      e.host = d.host
    let gone (e : Dev) : Prop := e.parts = [] ∧ e.gddr = [] ∧ e.cpt = [] ∧ e.wpt = [] ∧ e.ports = [] ∧ e.chans = [] ∧
      e.mbx = [] ∧ e.dma = [] ∧ e.ranks = [] ∧ e.sec = {} ∧ e.glb = {} ∧ e.store.imgs = [] ∧ e.store.replayed = false
    let held := d.pwr.inputOn = true ∧ d.pwr.resetHeld = true ∧ d.pwr.rails = 0xFF#8
    let falls := d.pwr.fallAt + usG 1000
    (d.pwr.inputOn = false → ∃ e, Gives .inputRise s e ∧ kept e ∧ gone e ∧ e.tiles = [] ∧ e.pwr = {} ∧ e.flt = {} ∧ e.rcv = {} ∧
      ∀ t, d.pwr.offAt = some t → t + msG 1000 ≤ e.clk.wall) ∧
    (d.pwr.inputOn = true → Gives .inputRise s d) ∧
    (d.pwr.inputOn = true → d.pwr.holdUp = false → Gives .inputFall s { d with
      pwr := { d.pwr with holdUp := true, fallAt := d.clk.wall }, store := { d.store with stopping := true } }) ∧
    (d.pwr.inputOn = false ∨ d.pwr.holdUp = true → Gives .inputFall s d) ∧
    (d.pwr.holdUp = true → ∃ n, n ≤ 1000000 ∧ (NotYet (falls + nsG n) d → Gives .holdUpEnd s d) ∧ AtDue (falls + nsG n) d fun d =>
      ∃ e, Gives .holdUpEnd s e ∧ kept e ∧ gone e ∧ e.tiles = [] ∧ e.pwr.inputOn = false ∧ e.pwr.rails = 0 ∧ e.flt = {} ∧
        e.clk.wall = d.clk.wall ∧ e.pwr.offAt = some d.clk.wall) ∧
    (d.pwr.holdUp = false → Gives .holdUpEnd s d) ∧
    (d.pwr.inputOn = true → ∃ e, Gives .overvoltage s e ∧ kept e ∧ gone e ∧ e.tiles = [] ∧ e.pwr.inputOn = false ∧ e.pwr.rails = 0 ∧ e.flt = {} ∧
      e.clk.wall = d.clk.wall) ∧
    (d.pwr.inputOn = false → Gives .overvoltage s d) ∧
    (held → d.pwr.rstCause.getLsbD 0 = true →
      (k.val < 3 → ∃ e, Gives (.railFail k) s e ∧ e.pwr.rails.toNat = 2 ^ k.val - 1 ∧ e.flt = d.flt ∧ { e with pwr := d.pwr } = d ∧
        (e.pwr.startStatus >>> 20).toNat = (if k.val = 0 then 1 else 2)) ∧
      (3 ≤ k.val → ∃ e, Gives (.railFail k) s e ∧ e.pwr.rails = 7#8 ∧ e.flt.sealed = true ∧ (e.pwr.startStatus >>> 20).toNat = 3 ∧
        Entered 3 (if k.val = 6 then 0x901 else 0x900) 0x0903 d e)) ∧
    (¬ (held ∧ d.pwr.rstCause.getLsbD 0 = true) → Gives (.railFail k) s d) ∧
    (d.pwr.inputOn = true → 10000 ≤ ns → ∃ e, Gives (.rstN ns) s e ∧ kept e ∧ gone e ∧ e.pwr.resetHeld = true ∧
      e.pwr.rails = d.pwr.rails ∧ e.pwr.rstCause.getLsbD 1 = true ∧ e.pwr.rstCause.getLsbD 2 = d.rcv.arm ∧
      e.pwr.rstCause.getLsbD 3 = d.flt.sealed ∧ e.rcv = { arm := d.rcv.arm } ∧ e.flt.hist = d.flt.hist ∧ e.flt.head = d.flt.head ∧
      e.flt.sealed = d.flt.sealed ∧ e.flt.hold = (d.flt.sealed && d.flt.hold) ∧ e.flt.mpFailed = false ∧
      ∀ t, getTile e t = { spad := (getTile d t).spad, spadBad := (getTile d t).spadBad }) ∧
    (d.pwr.inputOn = false ∨ ns < 1000 → Gives (.rstN ns) s (letPass (nsG ns) d)) ∧
    (d.pwr.inputOn = true → 1000 ≤ ns → ns < 10000 → ∃ e, Gives (.rstN ns) s e ∧
      ((e.parts = d.parts ∧ e.flt = d.flt ∧ e.pwr = d.pwr) ∨ (gone e ∧ e.pwr.resetHeld = true))) ∧
    (held → d.flt.sealed = false → ∃ e, Gives (.internalResetRelease find) s e ∧ e.pwr.resetHeld = false ∧ e.flt.aliveRun = true ∧
      d.clk.wall + msG 1 ≤ e.clk.wall ∧ (∀ t, d.otp.pending = some t → e.otp.lc = t ∧ e.otp.pending = none) ∧
      (d.otp.pending = none → e.otp = d.otp ∧
        (d.rcv.arm = true → e.rcv = { d.rcv with st := 1#3, reason := 0, arm := false } ∧ e.glb = d.glb) ∧
        (d.rcv.arm = false → ∀ r, bootReason d = some r → e.rcv = { d.rcv with st := 1#3, reason := BitVec.ofNat 8 r } ∧ e.glb = d.glb) ∧
        (d.rcv.arm = false → bootReason d = none → find.bootLate = true → e.rcv = { d.rcv with st := 1#3, reason := 0 } ∧ e.glb = d.glb) ∧
        (d.rcv.arm = false → bootReason d = none → find.bootLate = false → e.rcv.st = 0 ∧ e.rcv.running = some ((flashImage d).take 0x50, false) ∧
          e.ident.fw = BitVec.ofNat 32 (lf (flashImage d) 0x0C 3 + 2 ^ 31) ∧
          (find.faultLogic = false → find.zeroFail = true → e.flt.sealed = true ∧ e.glb.mpReady = false) ∧
          (find.faultLogic = false → find.zeroFail = false → e.glb.mpReady = true ∧ e.flt.sealed = false ∧
            ∀ i, 3 ≤ i → i ≤ 10 → e.pwr.startStatus.getLsbD i = true)))) ∧
    (¬ held ∨ d.flt.sealed = true → Gives (.internalResetRelease find) s d)

/-- R438, R443 to R446, R171, Table 18.4: power and temperature in service. Each event lowers the ceiling that its rule gives it and
the MP brings the tile step to the lowest of its target and the ceilings; ten measurements in a row over the limit lower the power
ceiling, 100 ms below 90% of it raise it again; a trip and an overvoltage or overcurrent of VCORE seal the module, and an undervoltage
stops every running partition.
Readings of the model that it rests on: log entries 26, 27 and 28. -/
def Obligations.CeilingsInService : Prop :=
  ∀ (s : State) (mv ca watts core : BitVec 16) (t : BitVec 40) (ok : BitVec 5) (sn : Fin 5) (k : Nat),
    let d := s.dev
    let p := d.pwr
    let settled (e : Dev) : Prop := mpUp d = true → e.clk.busy = true ∨ e.clk.step.toNat = wantStep e
    let meas := Instr.powerMeasurement mv ca watts core
    let tooMuch := p.limit.toNat < watts.toNat
    let temp (k : Nat) : Nat := if k = 5 then (hottest d).2 else if ok.getLsbD k = true then fld t.toNat (8 * k) 8
      else fld p.temps.toNat (8 * k) 8
    let reads (k : Nat) : Prop := k < 6 ∧ (k = 5 ∨ ok.getLsbD k = true)
    let therm := Instr.thermalRead t ok
    (awake d = true → ∃ e, Gives (.inputRange true) s e ∧ Entered 1 0x900 0x0901 d e ∧ settled e ∧
      { e.pwr with vcore := p.vcore } = { p with
      rangeActive := true, rangeCeil := if 2000 < fld p.pwrIn.toNat 32 16 then lower3 d.clk.step else d.clk.step }) ∧
    (awake d = true → ∃ e, Gives (.inputRange false) s e ∧ settled e ∧
      { e.pwr with vcore := p.vcore } = { p with rangeActive := false, rangeCeil := 7 } ∧
      { e with pwr := d.pwr, clk := d.clk } = d) ∧
    (awake d = true → NotYet (p.measAt + usG 100) d → Gives meas s d) ∧
    (awake d = true → AtDue (p.measAt + usG 100) d fun d => ∃ e, Gives meas s e ∧ e.pwr.pwrIn = core ++ watts ++ ca ++ mv ∧
      e.pwr.measAt = d.clk.wall ∧
      (¬ tooMuch → e.pwr.overRun = 0 ∧ e.pwr.powerCeil = p.powerCeil ∧ e.flt = d.flt ∧
        (e.pwr.belowAt = if watts.toNat * 10 < p.limit.toNat * 9 then some (p.belowAt.getD d.clk.wall) else none)) ∧
      (tooMuch → e.pwr.exceeded.getLsbD d.clk.step.toNat = true ∧ e.pwr.belowAt = none) ∧
      (tooMuch → d.clk.busy = true → e.pwr.overRun = p.overRun ∧ e.pwr.powerCeil = p.powerCeil) ∧
      (tooMuch → d.clk.busy = false → p.rangeActive = false → p.overRun + 1 < 10 →
        e.pwr.overRun = p.overRun + 1 ∧ e.pwr.powerCeil = p.powerCeil ∧ e.flt = d.flt) ∧
      (tooMuch → d.clk.busy = false → p.rangeActive = false → 10 ≤ p.overRun + 1 → d.clk.step ≠ 0 →
        e.pwr.overRun = 0 ∧ e.pwr.powerCeil = lower3 p.powerCeil ∧ Entered 0 0x900 0x0902 d e ∧ settled e) ∧
      (tooMuch → d.clk.busy = false → p.rangeActive = false → 10 ≤ p.overRun + 1 → d.clk.step = 0 → e.pwr.powerCeil = p.powerCeil ∧
        e.pwr.limitFault = true ∧ (p.limitFault = false → Entered 1 0x700 0x0704 d e)) ∧
      (p.rangeActive = true → 2000 < watts.toNat → d.clk.busy = false → e.pwr.rangeCeil = lower3 p.rangeCeil)) ∧
    (∀ w, mpUp d = true → p.belowAt = some w → NotYet (w + msG 100) d → Gives .powerCeilingRaise s d) ∧
    (∀ w, mpUp d = true → p.belowAt = some w → AtDue (w + msG 100) d fun d => ∃ e, Gives .powerCeilingRaise s e ∧
      e.pwr.belowAt = some d.clk.wall ∧ e.pwr.powerCeil =
        (if p.powerCeil = 7 ∨ p.exceeded.getLsbD (p.powerCeil.toNat + 1) = true then p.powerCeil else p.powerCeil + 1)) ∧
    (mpUp d = true → p.belowAt = none → Gives .powerCeilingRaise s d) ∧
    (mpUp d = true → NotYet (p.thermAt + msG 1) d → Gives therm s d) ∧
    (mpUp d = true → AtDue (p.thermAt + msG 1) d fun d => ∃ e, Gives therm s e ∧ e.pwr.thermAt = d.clk.wall ∧
      (∀ i, i < 6 → fld e.pwr.temps.toNat (8 * i) 8 = temp i) ∧ e.pwr.sensorBad = p.sensorBad.filter (fun i => !ok.getLsbD i) ∧
      (reads k → tripT k < temp k → e.flt.sealed = true) ∧
      ((∀ i, reads i → temp i ≤ hotT i) → e.flt = d.flt ∧ p.thermCeil.toNat ≤ e.pwr.thermCeil.toNat) ∧
      (∀ w, reads k → hotT k < temp k → temp k ≤ tripT k → tget p.hotAt k = some w → w + msG 10 ≤ d.clk.wall →
        e.pwr.thermCeil.toNat ≤ p.thermCeil.toNat - 1) ∧
      (∀ w, (∀ i, i < 6 → temp i < coolT i) → p.coolAt = some w → w + msG 100 ≤ d.clk.wall →
        e.pwr.thermCeil.toNat = min 7 (p.thermCeil.toNat + 1) ∧ settled e)) ∧
    (mpUp d = true → ∃ e, Gives (.sensorFail sn) s e ∧ Entered 1 (0x910 + sn.val) 0x0908 d e ∧ sn.val ∈ e.pwr.sensorBad ∧
      thermCeil e ≤ 4 ∧ settled e) ∧
    (awake d = true → d.partsWf → ∃ e, Gives .vcoreUv s e ∧ Entered 2 0x901 0x0904 d e ∧ e.flt.hold = true ∧
      ∀ q y, getPart d q = some y → ∃ z, getPart e q = some z ∧ z.plan = if y.plan = .running then .stopped else y.plan) ∧
    (awake d = true → ∃ e, Gives .vcoreOv s e ∧ Entered 3 0x901 0x0905 d e ∧ e.flt.sealed = true ∧ e.pwr.rails = p.rails &&& 7#8) ∧
    (awake d = true → ∃ e, Gives .vcoreOcp s e ∧ Entered 3 0x901 0x0906 d e ∧ e.flt.sealed = true ∧ e.pwr.rails = p.rails &&& 7#8) ∧
    (awake d = true → ∃ e, Gives .phaseFail s e ∧ Entered 1 0x901 0x0907 d e ∧ e.pwr.phaseActive = true ∧ e.pwr.phases = p.phases - 1 ∧
      wantStep e ≤ 5 ∧ settled e)

/-! ### Register spaces (chapters 3, 6 and 15) -/

/-- R13, R25, R105, R107, R111, R142, R143, R374, R375, R387, R417, Tables 15.3 and 15.8: the MP stores into a tile's command memory,
scratchpad and counters only while the tile is PARKED, and a store that comes otherwise is discarded, counted and noted; CLEAR takes a
HALTED tile to PARKED; DBG_EN is set only with the window open; a host access that is not aligned is counted, one that reads an RC
register clears it, and one that writes a read-only register has no effect; every access outside the diagnostic window completes.
Readings of the model that it rests on: log entries 22, 44, 45, 50, 51 and 54. -/
def Obligations.RegistersReadAndWrite : Prop :=
  ∀ (s : State) (tile : Fin 2304) (m : Fin 64) (sp : Space) (co : BitVec 16) (so : BitVec 18) (ro : BitVec 26) (v : BitVec 64) (b wide : Bool)
      (bytes : Nat),
    let d := s.dev
    let no := tile.val
    let t := getTile d no
    let x := getMbx d m.val
    let n := if wide then 8 else 4
    let reach := hwUp d = true ∧ ioSecure d = true
    let refusedAt (c : Instr) : Prop := ∃ e, Gives c s e ∧ Entered 0 (0x100 + moonOfTile no) 0x0109 d e ∧
      (getTile e no).cmem = t.cmem ∧ (getTile e no).spad = t.spad ∧ (getTile e no).ctr0 = t.ctr0 ∧
      fld (getTile e no).cmemDiscard.toNat 0 16 = min (fld t.cmemDiscard.toNat 0 16 + 1) 0xFFFF
    (mpUp d = true → co.toNat % 8 = 0 → t.mode = .parked → planHolds d no = false → ∃ e, Gives (.commandMemoryWrite tile co v) s e ∧
      onlyTile no d e ∧ rdN (getTile e no).cmem co.toNat 8 = v.toNat ∧
      (∀ a, a < co.toNat ∨ co.toNat + 8 ≤ a → rdB (getTile e no).cmem a = rdB t.cmem a) ∧
      { getTile e no with cmem := t.cmem, cmemBad := t.cmemBad } = t) ∧
    (mpUp d = true → t.mode = .parked → planHolds d no = true → Gives (.commandMemoryWrite tile co v) s d) ∧
    (mpUp d = true → co.toNat % 8 = 0 → t.mode ≠ .parked → refusedAt (.commandMemoryWrite tile co v)) ∧
    (mpUp d = true → so.toNat % 8 = 0 → so.toNat < 196608 → t.mode = .parked → ∃ e, Gives (.scratchpadWrite tile so v) s e ∧
      onlyTile no d e ∧ rdN (getTile e no).spad so.toNat 8 = v.toNat ∧
      (∀ a, a < so.toNat ∨ so.toNat + 8 ≤ a → rdB (getTile e no).spad a = rdB t.spad a) ∧
      { getTile e no with spad := t.spad, spadBad := t.spadBad } = t) ∧
    (mpUp d = true → so.toNat % 8 = 0 → so.toNat < 196608 → t.mode ≠ .parked → refusedAt (.scratchpadWrite tile so v)) ∧
    (mpUp d = true → ∃ e, Gives (.clear tile) s e ∧ onlyTile no d e ∧
      (t.mode = .halted → (getTile e no).mode = .parked) ∧ (t.mode ≠ .halted → getTile e no = t)) ∧
    (mpUp d = true → ∃ e, Gives (.dbgEn tile b) s e ∧ onlyTile no d e ∧
      (getTile e no).brkCtrl.getLsbD 0 = (b && (diagOpen d || t.brkCtrl.getLsbD 0)) ∧
      (∀ i, 1 ≤ i → (getTile e no).brkCtrl.getLsbD i = t.brkCtrl.getLsbD i) ∧ { getTile e no with brkCtrl := t.brkCtrl } = t) ∧
    (diagHit d sp ro.toNat n = false → ∃ e, Gives (.readClear sp ro wide) s e ∧ (sp = .bar0 → e.tiles = d.tiles ∧ e.gddr = d.gddr ∧ e.host = d.host)) ∧
    (diagHit d sp ro.toNat bytes = false → ∃ e, Gives (.registerWrite sp ro bytes v) s e) ∧
    (reach → ∃ e, Gives (.readClear .bar0 0 false) s e ∧ e.out.data = 0x01429216#64 ∧ { e with out := d.out } = d) ∧
    (reach → ∃ e, Gives (.readClear .bar0 0x1020 false) s e ∧ e.out.data = d.glb.bar0Err.setWidth 64 ∧
      e.glb = { d.glb with bar0Err := 0 } ∧ { e with out := d.out, glb := d.glb } = d) ∧
    (reach → ¬ (ro.toNat % n = 0) → ∃ e, Gives (.readClear .bar0 ro wide) s e ∧ e.out.data = BitVec.ofNat 64 (2 ^ (8 * n) - 1) ∧
      e.glb = { d.glb with bar0Err := satAdd d.glb.bar0Err 1 }) ∧
    (reach → ro.toNat < 16 → aligned ro.toNat bytes = true → Gives (.registerWrite .bar0 ro bytes v) s d) ∧
    (reach → aligned ro.toNat bytes = false →
      Gives (.registerWrite .bar0 ro bytes v) s { d with glb := { d.glb with bar0Err := satAdd d.glb.bar0Err 1 } }) ∧
    (reach → ∀ i, i < 248 → ro.toNat = 0x10040 + 4096 * m.val + 8 * i →
      ((x.st = .idle ∨ x.st = .done) → ∃ e, Gives (.registerWrite .bar0 ro 8 v) s e ∧ onlyMbx m.val d e ∧
        rdN (getMbx e m.val).req (8 * i) 8 = v.toNat ∧
        ∀ a, a < 8 * i ∨ 8 * i + 8 ≤ a → rdB (getMbx e m.val).req a = rdB x.req a) ∧
      ((x.st = .posted ∨ x.st = .accepted) → Gives (.registerWrite .bar0 ro 8 v) s
        (modMbx m.val (fun x => { x with errReq := satAdd16 x.errReq 1 }) d))) ∧
    (reach → v.toNat ≤ d.flt.head.toNat → Gives (.registerWrite .bar0 0x200010 8 v) s { d with flt := { d.flt with tail := v } }) ∧
    (reach → d.flt.head.toNat < v.toNat → Gives (.registerWrite .bar0 0x200010 8 v) s d) ∧
    (mpUp d = true → ∃ e, Gives (.readClear (.tile tile) 0x68 false) s e ∧ e.out.data = t.seqStatus.setWidth 64 ∧
      { e with out := d.out } = freeTicks d) ∧
    (mpUp d = true → ro.toNat % 8 = 0 → ro.toNat < 196608 → ∃ e, Gives (.readClear (.scratchpad tile) ro true) s e ∧
      e.out.data = BitVec.ofNat 64 (rdN t.spad ro.toNat 8) ∧ { e with out := d.out } = freeTicks d ∧
      e.out.parity = t.spadBad.any (fun a => decide (ro.toNat ≤ a) && decide (a < ro.toNat + 8))) ∧
    (mpUp d = true → t.mode = .parked →
      Gives (.registerWrite (.tile tile) 0x40 4 v) s (modTile no (fun t => { t with ctr0 := v.setWidth 32 }) d)) ∧
    (mpUp d = true → t.mode ≠ .parked → refusedAt (.registerWrite (.tile tile) 0x40 4 v)) ∧
    (mpUp d = true → Gives (.registerWrite (.tile tile) 0x68 4 v) s
      (modTile no (fun t => { t with seqStatus := clearFlags seqWatch (v.setWidth 32) t.seqNew t.seqStatus }) d))

/-! ### The whole module -/

/-- R13, R448, R450, Tables 3.11, 15.3, 17.6 and 18.9: right after module reset nothing waits, every tile is PARKED with nothing listed in its
memories (log entry 8), no partition exists, every mailbox is IDLE, no fault has been recorded, the ceilings stand at 7 and the power limit at
2,800 W; every memory is in its canonical form and every partition under its own number. What the spec gives no reset value for is
left out.
Readings of the model that it rests on: log entries 13 and 18. -/
def Obligations.ResetLeavesTheModuleAtRest : Prop :=
  let d := State.reset.dev
  State.reset.pending = [] ∧ d.memWf ∧ d.partsWf ∧ d.parts = [] ∧
  (∀ t, (getTile d t).mode = .parked ∧ (getTile d t).cmem = [] ∧ (getTile d t).spad = [] ∧ (getTile d t).seqStatus.extractLsb' 0 16 = 0) ∧
  (∀ m, (getMbx d m).st = .idle) ∧ (∀ p, (getPort d p).st = .off) ∧ (∀ c, (getDma d c).st = .idle ∧ (getDma d c).en = false) ∧
  d.flt.head = 0 ∧ d.flt.hold = false ∧ d.flt.sealed = false ∧ d.flt.lastHalt = 0xFFFFFFFFFFFFFFFF#64 ∧
  d.flt.firstSeal = 0xFFFFFFFFFFFFFFFF#64 ∧ (∀ k, (getEsc d k).noteLimit = 32 ∧ (getEsc d k).noteWindow = 100 ∧ (getEsc d k).degLimit = 0 ∧
    (getEsc d k).degWindow = 1000) ∧
  d.pwr.limit.toNat = 2800 ∧ d.pwr.tideCeil = 7 ∧ d.pwr.opLimit = 7 ∧ d.pwr.resetHeld = true ∧ d.glb.mpReady = false ∧
  (∀ v, ((tget d.msix v).getD {}).mask = true) ∧ ∀ i, cptE d i = 0

/-- R142, R186, R204, R373, R382: whatever is commanded, and with nothing commanded, every byte memory of the module (host memory, GDDR7, the weight store, every tile's
command memory and scratchpad, every mailbox's request and reply) keeps its canonical form (the form is the model's choice, log
entry 8). -/
def Obligations.EveryStepKeepsTheMemories : Prop :=
  ∀ (s t : State), s.dev.memWf → step s = .next t → t.dev.memWf

/-- R385: whatever is commanded, and with nothing commanded, every partition goes on standing under its own number. -/
def Obligations.EveryStepKeepsThePartitions : Prop :=
  ∀ (s t : State), s.dev.partsWf → step s = .next t → t.dev.partsWf

/-- R424: while SEALED is set no command clears it but the input's rise, the end of the hold-up or an overvoltage (which only a power cycle
brings), and none of the units that stand still changes what it holds: GDDR7, host memory, the weight store, the fuses, the boot
ROM and flash, the weight page table, the rank and budget tables, the channels and the memory moons. RST_N resets the
module and leaves it SEALED.
Readings of the model that it rests on: log entry 22. -/
def Obligations.ASealedModuleStandsStill : Prop :=
  ∀ (c : Instr) (s t : State), s.dev.flt.sealed = true → exec c s = .next t → c ≠ .inputRise → c ≠ .holdUpEnd → c ≠ .overvoltage →
    let d := s.dev
    let e := t.dev
    e.flt.sealed = true ∧ e.host = d.host ∧ e.otp = d.otp ∧ e.rom = d.rom ∧ e.flash = d.flash ∧ e.store.bytes = d.store.bytes ∧
    ((∀ ns, c ≠ .rstN ns) → e.gddr = d.gddr ∧ e.wpt = d.wpt ∧ e.ranks = d.ranks ∧ e.budgets = d.budgets ∧ e.chans = d.chans ∧
      e.mm = d.mm ∧ { e.store with stopping := d.store.stopping } = d.store)

/-- R291 to R294: a packet whose header's LENGTH is that of its payload, of at most 4,096 bytes, comes out of its own cells as it went
in, with no reserved bit set; a header's fields read back as it was made with them, and its end-to-end check holds. -/
def Obligations.PacketsSurviveTheirCells : Prop :=
  (∀ p : Packet, p.hdr.length = 32 → p.payload.length ≤ 4096 → lf p.hdr 6 2 = p.payload.length →
    gather (cellsOf (packetCells p).length (packetCells p)) = .packet p false) ∧
  ∀ (dest src ty flags orbit transfer deliv tile tag mask : Nat) (l : List Byte), dest < 16384 → src < 16384 → 1 ≤ ty → ty ≤ 5 →
    flags < 16 → orbit < 2 ^ 32 → transfer < 2 ^ 24 → deliv < 64 → tile < 4096 → tag < 65536 → mask < 2 ^ 64 → l.length ≤ 4096 →
    let p := mkPacket dest src ty flags orbit transfer deliv tile tag mask l
    p.hdr.length = 32 ∧ p.payload = l ∧ pDest p = dest ∧ pSrc p = src ∧ pType p = ty ∧ pFlags p = flags ∧ pLength p = l.length ∧
    pOrbit p = orbit ∧ pTransfer p = transfer ∧ pWcode p = deliv % 16 ∧ pLq p = deliv / 16 ∧ pTile p = tile ∧ pTag p = tag ∧
    pMask p = mask ∧ badFormat p = false ∧ e2eOk p = true ∧
    gather (cellsOf (packetCells p).length (packetCells p)) = .packet p false
end

