-- ==== Sys2Proof/Laws/State.lean ====
section
/-!
SUPPORT. What each named update of the module leaves alone: one lemma for each field, true by unfolding, so that no proof
unfolds a record update.
-/

namespace Sys2Proof.Machine

open Sys2Proof

/-! ### A command's outcome -/

theorem on_eq (f : Dev → Dev) (s : State) : on f s = .next { s with dev := f s.dev } := rfl

theorem on_next {f : Dev → Dev} {s t : State} (h : on f s = .next t) : t = { s with dev := f s.dev } := by
  cases h; rfl

theorem on_pending {f : Dev → Dev} {s t : State} (h : on f s = .next t) : t.pending = s.pending := by
  cases h; rfl

/-! ### setTile -/

@[simp] theorem setTile_clk (d : Dev) (k : Nat) (x : Tile) : (setTile d k x).clk = d.clk := rfl
@[simp] theorem setTile_mt (d : Dev) (k : Nat) (x : Tile) : (setTile d k x).mt = d.mt := rfl
@[simp] theorem setTile_chans (d : Dev) (k : Nat) (x : Tile) : (setTile d k x).chans = d.chans := rfl
@[simp] theorem setTile_mm (d : Dev) (k : Nat) (x : Tile) : (setTile d k x).mm = d.mm := rfl
@[simp] theorem setTile_dma (d : Dev) (k : Nat) (x : Tile) : (setTile d k x).dma = d.dma := rfl
@[simp] theorem setTile_ports (d : Dev) (k : Nat) (x : Tile) : (setTile d k x).ports = d.ports := rfl
@[simp] theorem setTile_parts (d : Dev) (k : Nat) (x : Tile) : (setTile d k x).parts = d.parts := rfl
@[simp] theorem setTile_mbx (d : Dev) (k : Nat) (x : Tile) : (setTile d k x).mbx = d.mbx := rfl
@[simp] theorem setTile_glb (d : Dev) (k : Nat) (x : Tile) : (setTile d k x).glb = d.glb := rfl
@[simp] theorem setTile_ident (d : Dev) (k : Nat) (x : Tile) : (setTile d k x).ident = d.ident := rfl
@[simp] theorem setTile_rcv (d : Dev) (k : Nat) (x : Tile) : (setTile d k x).rcv = d.rcv := rfl
@[simp] theorem setTile_pwr (d : Dev) (k : Nat) (x : Tile) : (setTile d k x).pwr = d.pwr := rfl
@[simp] theorem setTile_otp (d : Dev) (k : Nat) (x : Tile) : (setTile d k x).otp = d.otp := rfl
@[simp] theorem setTile_rom (d : Dev) (k : Nat) (x : Tile) : (setTile d k x).rom = d.rom := rfl
@[simp] theorem setTile_flash (d : Dev) (k : Nat) (x : Tile) : (setTile d k x).flash = d.flash := rfl
@[simp] theorem setTile_crater (d : Dev) (k : Nat) (x : Tile) : (setTile d k x).crater = d.crater := rfl
@[simp] theorem setTile_flt (d : Dev) (k : Nat) (x : Tile) : (setTile d k x).flt = d.flt := rfl
@[simp] theorem setTile_sec (d : Dev) (k : Nat) (x : Tile) : (setTile d k x).sec = d.sec := rfl
@[simp] theorem setTile_jtag (d : Dev) (k : Nat) (x : Tile) : (setTile d k x).jtag = d.jtag := rfl
@[simp] theorem setTile_store (d : Dev) (k : Nat) (x : Tile) : (setTile d k x).store = d.store := rfl
@[simp] theorem setTile_cfg (d : Dev) (k : Nat) (x : Tile) : (setTile d k x).cfg = d.cfg := rfl
@[simp] theorem setTile_msix (d : Dev) (k : Nat) (x : Tile) : (setTile d k x).msix = d.msix := rfl
@[simp] theorem setTile_host (d : Dev) (k : Nat) (x : Tile) : (setTile d k x).host = d.host := rfl
@[simp] theorem setTile_hostBad (d : Dev) (k : Nat) (x : Tile) : (setTile d k x).hostBad = d.hostBad := rfl
@[simp] theorem setTile_gddr (d : Dev) (k : Nat) (x : Tile) : (setTile d k x).gddr = d.gddr := rfl
@[simp] theorem setTile_cpt (d : Dev) (k : Nat) (x : Tile) : (setTile d k x).cpt = d.cpt := rfl
@[simp] theorem setTile_wpt (d : Dev) (k : Nat) (x : Tile) : (setTile d k x).wpt = d.wpt := rfl
@[simp] theorem setTile_cptBad (d : Dev) (k : Nat) (x : Tile) : (setTile d k x).cptBad = d.cptBad := rfl
@[simp] theorem setTile_wptBad (d : Dev) (k : Nat) (x : Tile) : (setTile d k x).wptBad = d.wptBad := rfl
@[simp] theorem setTile_rot (d : Dev) (k : Nat) (x : Tile) : (setTile d k x).rot = d.rot := rfl
@[simp] theorem setTile_ranks (d : Dev) (k : Nat) (x : Tile) : (setTile d k x).ranks = d.ranks := rfl
@[simp] theorem setTile_budgets (d : Dev) (k : Nat) (x : Tile) : (setTile d k x).budgets = d.budgets := rfl
@[simp] theorem setTile_bist (d : Dev) (k : Nat) (x : Tile) : (setTile d k x).bist = d.bist := rfl
@[simp] theorem setTile_out (d : Dev) (k : Nat) (x : Tile) : (setTile d k x).out = d.out := rfl
@[simp] theorem setTile_free (d : Dev) (k : Nat) (x : Tile) : (setTile d k x).free = d.free := rfl

/-! ### modTile -/

@[simp] theorem modTile_clk (d : Dev) (k : Nat) (f : Tile → Tile) : (modTile k f d).clk = d.clk := rfl
@[simp] theorem modTile_mt (d : Dev) (k : Nat) (f : Tile → Tile) : (modTile k f d).mt = d.mt := rfl
@[simp] theorem modTile_chans (d : Dev) (k : Nat) (f : Tile → Tile) : (modTile k f d).chans = d.chans := rfl
@[simp] theorem modTile_mm (d : Dev) (k : Nat) (f : Tile → Tile) : (modTile k f d).mm = d.mm := rfl
@[simp] theorem modTile_dma (d : Dev) (k : Nat) (f : Tile → Tile) : (modTile k f d).dma = d.dma := rfl
@[simp] theorem modTile_ports (d : Dev) (k : Nat) (f : Tile → Tile) : (modTile k f d).ports = d.ports := rfl
@[simp] theorem modTile_parts (d : Dev) (k : Nat) (f : Tile → Tile) : (modTile k f d).parts = d.parts := rfl
@[simp] theorem modTile_mbx (d : Dev) (k : Nat) (f : Tile → Tile) : (modTile k f d).mbx = d.mbx := rfl
@[simp] theorem modTile_glb (d : Dev) (k : Nat) (f : Tile → Tile) : (modTile k f d).glb = d.glb := rfl
@[simp] theorem modTile_ident (d : Dev) (k : Nat) (f : Tile → Tile) : (modTile k f d).ident = d.ident := rfl
@[simp] theorem modTile_rcv (d : Dev) (k : Nat) (f : Tile → Tile) : (modTile k f d).rcv = d.rcv := rfl
@[simp] theorem modTile_pwr (d : Dev) (k : Nat) (f : Tile → Tile) : (modTile k f d).pwr = d.pwr := rfl
@[simp] theorem modTile_otp (d : Dev) (k : Nat) (f : Tile → Tile) : (modTile k f d).otp = d.otp := rfl
@[simp] theorem modTile_rom (d : Dev) (k : Nat) (f : Tile → Tile) : (modTile k f d).rom = d.rom := rfl
@[simp] theorem modTile_flash (d : Dev) (k : Nat) (f : Tile → Tile) : (modTile k f d).flash = d.flash := rfl
@[simp] theorem modTile_crater (d : Dev) (k : Nat) (f : Tile → Tile) : (modTile k f d).crater = d.crater := rfl
@[simp] theorem modTile_flt (d : Dev) (k : Nat) (f : Tile → Tile) : (modTile k f d).flt = d.flt := rfl
@[simp] theorem modTile_sec (d : Dev) (k : Nat) (f : Tile → Tile) : (modTile k f d).sec = d.sec := rfl
@[simp] theorem modTile_jtag (d : Dev) (k : Nat) (f : Tile → Tile) : (modTile k f d).jtag = d.jtag := rfl
@[simp] theorem modTile_store (d : Dev) (k : Nat) (f : Tile → Tile) : (modTile k f d).store = d.store := rfl
@[simp] theorem modTile_cfg (d : Dev) (k : Nat) (f : Tile → Tile) : (modTile k f d).cfg = d.cfg := rfl
@[simp] theorem modTile_msix (d : Dev) (k : Nat) (f : Tile → Tile) : (modTile k f d).msix = d.msix := rfl
@[simp] theorem modTile_host (d : Dev) (k : Nat) (f : Tile → Tile) : (modTile k f d).host = d.host := rfl
@[simp] theorem modTile_hostBad (d : Dev) (k : Nat) (f : Tile → Tile) : (modTile k f d).hostBad = d.hostBad := rfl
@[simp] theorem modTile_gddr (d : Dev) (k : Nat) (f : Tile → Tile) : (modTile k f d).gddr = d.gddr := rfl
@[simp] theorem modTile_cpt (d : Dev) (k : Nat) (f : Tile → Tile) : (modTile k f d).cpt = d.cpt := rfl
@[simp] theorem modTile_wpt (d : Dev) (k : Nat) (f : Tile → Tile) : (modTile k f d).wpt = d.wpt := rfl
@[simp] theorem modTile_cptBad (d : Dev) (k : Nat) (f : Tile → Tile) : (modTile k f d).cptBad = d.cptBad := rfl
@[simp] theorem modTile_wptBad (d : Dev) (k : Nat) (f : Tile → Tile) : (modTile k f d).wptBad = d.wptBad := rfl
@[simp] theorem modTile_rot (d : Dev) (k : Nat) (f : Tile → Tile) : (modTile k f d).rot = d.rot := rfl
@[simp] theorem modTile_ranks (d : Dev) (k : Nat) (f : Tile → Tile) : (modTile k f d).ranks = d.ranks := rfl
@[simp] theorem modTile_budgets (d : Dev) (k : Nat) (f : Tile → Tile) : (modTile k f d).budgets = d.budgets := rfl
@[simp] theorem modTile_bist (d : Dev) (k : Nat) (f : Tile → Tile) : (modTile k f d).bist = d.bist := rfl
@[simp] theorem modTile_out (d : Dev) (k : Nat) (f : Tile → Tile) : (modTile k f d).out = d.out := rfl
@[simp] theorem modTile_free (d : Dev) (k : Nat) (f : Tile → Tile) : (modTile k f d).free = d.free := rfl

/-! ### setMoon -/

@[simp] theorem setMoon_tiles (d : Dev) (k : Nat) (x : Moon) : (setMoon d k x).tiles = d.tiles := rfl
@[simp] theorem setMoon_mt (d : Dev) (k : Nat) (x : Moon) : (setMoon d k x).mt = d.mt := rfl
@[simp] theorem setMoon_chans (d : Dev) (k : Nat) (x : Moon) : (setMoon d k x).chans = d.chans := rfl
@[simp] theorem setMoon_mm (d : Dev) (k : Nat) (x : Moon) : (setMoon d k x).mm = d.mm := rfl
@[simp] theorem setMoon_dma (d : Dev) (k : Nat) (x : Moon) : (setMoon d k x).dma = d.dma := rfl
@[simp] theorem setMoon_ports (d : Dev) (k : Nat) (x : Moon) : (setMoon d k x).ports = d.ports := rfl
@[simp] theorem setMoon_parts (d : Dev) (k : Nat) (x : Moon) : (setMoon d k x).parts = d.parts := rfl
@[simp] theorem setMoon_mbx (d : Dev) (k : Nat) (x : Moon) : (setMoon d k x).mbx = d.mbx := rfl
@[simp] theorem setMoon_glb (d : Dev) (k : Nat) (x : Moon) : (setMoon d k x).glb = d.glb := rfl
@[simp] theorem setMoon_ident (d : Dev) (k : Nat) (x : Moon) : (setMoon d k x).ident = d.ident := rfl
@[simp] theorem setMoon_rcv (d : Dev) (k : Nat) (x : Moon) : (setMoon d k x).rcv = d.rcv := rfl
@[simp] theorem setMoon_pwr (d : Dev) (k : Nat) (x : Moon) : (setMoon d k x).pwr = d.pwr := rfl
@[simp] theorem setMoon_otp (d : Dev) (k : Nat) (x : Moon) : (setMoon d k x).otp = d.otp := rfl
@[simp] theorem setMoon_rom (d : Dev) (k : Nat) (x : Moon) : (setMoon d k x).rom = d.rom := rfl
@[simp] theorem setMoon_flash (d : Dev) (k : Nat) (x : Moon) : (setMoon d k x).flash = d.flash := rfl
@[simp] theorem setMoon_crater (d : Dev) (k : Nat) (x : Moon) : (setMoon d k x).crater = d.crater := rfl
@[simp] theorem setMoon_flt (d : Dev) (k : Nat) (x : Moon) : (setMoon d k x).flt = d.flt := rfl
@[simp] theorem setMoon_sec (d : Dev) (k : Nat) (x : Moon) : (setMoon d k x).sec = d.sec := rfl
@[simp] theorem setMoon_jtag (d : Dev) (k : Nat) (x : Moon) : (setMoon d k x).jtag = d.jtag := rfl
@[simp] theorem setMoon_store (d : Dev) (k : Nat) (x : Moon) : (setMoon d k x).store = d.store := rfl
@[simp] theorem setMoon_cfg (d : Dev) (k : Nat) (x : Moon) : (setMoon d k x).cfg = d.cfg := rfl
@[simp] theorem setMoon_msix (d : Dev) (k : Nat) (x : Moon) : (setMoon d k x).msix = d.msix := rfl
@[simp] theorem setMoon_host (d : Dev) (k : Nat) (x : Moon) : (setMoon d k x).host = d.host := rfl
@[simp] theorem setMoon_hostBad (d : Dev) (k : Nat) (x : Moon) : (setMoon d k x).hostBad = d.hostBad := rfl
@[simp] theorem setMoon_gddr (d : Dev) (k : Nat) (x : Moon) : (setMoon d k x).gddr = d.gddr := rfl
@[simp] theorem setMoon_cpt (d : Dev) (k : Nat) (x : Moon) : (setMoon d k x).cpt = d.cpt := rfl
@[simp] theorem setMoon_wpt (d : Dev) (k : Nat) (x : Moon) : (setMoon d k x).wpt = d.wpt := rfl
@[simp] theorem setMoon_cptBad (d : Dev) (k : Nat) (x : Moon) : (setMoon d k x).cptBad = d.cptBad := rfl
@[simp] theorem setMoon_wptBad (d : Dev) (k : Nat) (x : Moon) : (setMoon d k x).wptBad = d.wptBad := rfl
@[simp] theorem setMoon_rot (d : Dev) (k : Nat) (x : Moon) : (setMoon d k x).rot = d.rot := rfl
@[simp] theorem setMoon_ranks (d : Dev) (k : Nat) (x : Moon) : (setMoon d k x).ranks = d.ranks := rfl
@[simp] theorem setMoon_budgets (d : Dev) (k : Nat) (x : Moon) : (setMoon d k x).budgets = d.budgets := rfl
@[simp] theorem setMoon_bist (d : Dev) (k : Nat) (x : Moon) : (setMoon d k x).bist = d.bist := rfl
@[simp] theorem setMoon_out (d : Dev) (k : Nat) (x : Moon) : (setMoon d k x).out = d.out := rfl
@[simp] theorem setMoon_free (d : Dev) (k : Nat) (x : Moon) : (setMoon d k x).free = d.free := rfl

/-! ### modMoon -/

@[simp] theorem modMoon_tiles (d : Dev) (k : Nat) (f : Moon → Moon) : (modMoon k f d).tiles = d.tiles := rfl
@[simp] theorem modMoon_mt (d : Dev) (k : Nat) (f : Moon → Moon) : (modMoon k f d).mt = d.mt := rfl
@[simp] theorem modMoon_chans (d : Dev) (k : Nat) (f : Moon → Moon) : (modMoon k f d).chans = d.chans := rfl
@[simp] theorem modMoon_mm (d : Dev) (k : Nat) (f : Moon → Moon) : (modMoon k f d).mm = d.mm := rfl
@[simp] theorem modMoon_dma (d : Dev) (k : Nat) (f : Moon → Moon) : (modMoon k f d).dma = d.dma := rfl
@[simp] theorem modMoon_ports (d : Dev) (k : Nat) (f : Moon → Moon) : (modMoon k f d).ports = d.ports := rfl
@[simp] theorem modMoon_parts (d : Dev) (k : Nat) (f : Moon → Moon) : (modMoon k f d).parts = d.parts := rfl
@[simp] theorem modMoon_mbx (d : Dev) (k : Nat) (f : Moon → Moon) : (modMoon k f d).mbx = d.mbx := rfl
@[simp] theorem modMoon_glb (d : Dev) (k : Nat) (f : Moon → Moon) : (modMoon k f d).glb = d.glb := rfl
@[simp] theorem modMoon_ident (d : Dev) (k : Nat) (f : Moon → Moon) : (modMoon k f d).ident = d.ident := rfl
@[simp] theorem modMoon_rcv (d : Dev) (k : Nat) (f : Moon → Moon) : (modMoon k f d).rcv = d.rcv := rfl
@[simp] theorem modMoon_pwr (d : Dev) (k : Nat) (f : Moon → Moon) : (modMoon k f d).pwr = d.pwr := rfl
@[simp] theorem modMoon_otp (d : Dev) (k : Nat) (f : Moon → Moon) : (modMoon k f d).otp = d.otp := rfl
@[simp] theorem modMoon_rom (d : Dev) (k : Nat) (f : Moon → Moon) : (modMoon k f d).rom = d.rom := rfl
@[simp] theorem modMoon_flash (d : Dev) (k : Nat) (f : Moon → Moon) : (modMoon k f d).flash = d.flash := rfl
@[simp] theorem modMoon_crater (d : Dev) (k : Nat) (f : Moon → Moon) : (modMoon k f d).crater = d.crater := rfl
@[simp] theorem modMoon_flt (d : Dev) (k : Nat) (f : Moon → Moon) : (modMoon k f d).flt = d.flt := rfl
@[simp] theorem modMoon_sec (d : Dev) (k : Nat) (f : Moon → Moon) : (modMoon k f d).sec = d.sec := rfl
@[simp] theorem modMoon_jtag (d : Dev) (k : Nat) (f : Moon → Moon) : (modMoon k f d).jtag = d.jtag := rfl
@[simp] theorem modMoon_store (d : Dev) (k : Nat) (f : Moon → Moon) : (modMoon k f d).store = d.store := rfl
@[simp] theorem modMoon_cfg (d : Dev) (k : Nat) (f : Moon → Moon) : (modMoon k f d).cfg = d.cfg := rfl
@[simp] theorem modMoon_msix (d : Dev) (k : Nat) (f : Moon → Moon) : (modMoon k f d).msix = d.msix := rfl
@[simp] theorem modMoon_host (d : Dev) (k : Nat) (f : Moon → Moon) : (modMoon k f d).host = d.host := rfl
@[simp] theorem modMoon_hostBad (d : Dev) (k : Nat) (f : Moon → Moon) : (modMoon k f d).hostBad = d.hostBad := rfl
@[simp] theorem modMoon_gddr (d : Dev) (k : Nat) (f : Moon → Moon) : (modMoon k f d).gddr = d.gddr := rfl
@[simp] theorem modMoon_cpt (d : Dev) (k : Nat) (f : Moon → Moon) : (modMoon k f d).cpt = d.cpt := rfl
@[simp] theorem modMoon_wpt (d : Dev) (k : Nat) (f : Moon → Moon) : (modMoon k f d).wpt = d.wpt := rfl
@[simp] theorem modMoon_cptBad (d : Dev) (k : Nat) (f : Moon → Moon) : (modMoon k f d).cptBad = d.cptBad := rfl
@[simp] theorem modMoon_wptBad (d : Dev) (k : Nat) (f : Moon → Moon) : (modMoon k f d).wptBad = d.wptBad := rfl
@[simp] theorem modMoon_rot (d : Dev) (k : Nat) (f : Moon → Moon) : (modMoon k f d).rot = d.rot := rfl
@[simp] theorem modMoon_ranks (d : Dev) (k : Nat) (f : Moon → Moon) : (modMoon k f d).ranks = d.ranks := rfl
@[simp] theorem modMoon_budgets (d : Dev) (k : Nat) (f : Moon → Moon) : (modMoon k f d).budgets = d.budgets := rfl
@[simp] theorem modMoon_bist (d : Dev) (k : Nat) (f : Moon → Moon) : (modMoon k f d).bist = d.bist := rfl
@[simp] theorem modMoon_out (d : Dev) (k : Nat) (f : Moon → Moon) : (modMoon k f d).out = d.out := rfl
@[simp] theorem modMoon_free (d : Dev) (k : Nat) (f : Moon → Moon) : (modMoon k f d).free = d.free := rfl

/-! ### modSlice -/

@[simp] theorem modSlice_tiles (d : Dev) (k j : Nat) (f : MoonSlice → MoonSlice) : (modSlice k j f d).tiles = d.tiles := rfl
@[simp] theorem modSlice_mt (d : Dev) (k j : Nat) (f : MoonSlice → MoonSlice) : (modSlice k j f d).mt = d.mt := rfl
@[simp] theorem modSlice_chans (d : Dev) (k j : Nat) (f : MoonSlice → MoonSlice) : (modSlice k j f d).chans = d.chans := rfl
@[simp] theorem modSlice_mm (d : Dev) (k j : Nat) (f : MoonSlice → MoonSlice) : (modSlice k j f d).mm = d.mm := rfl
@[simp] theorem modSlice_dma (d : Dev) (k j : Nat) (f : MoonSlice → MoonSlice) : (modSlice k j f d).dma = d.dma := rfl
@[simp] theorem modSlice_ports (d : Dev) (k j : Nat) (f : MoonSlice → MoonSlice) : (modSlice k j f d).ports = d.ports := rfl
@[simp] theorem modSlice_parts (d : Dev) (k j : Nat) (f : MoonSlice → MoonSlice) : (modSlice k j f d).parts = d.parts := rfl
@[simp] theorem modSlice_mbx (d : Dev) (k j : Nat) (f : MoonSlice → MoonSlice) : (modSlice k j f d).mbx = d.mbx := rfl
@[simp] theorem modSlice_glb (d : Dev) (k j : Nat) (f : MoonSlice → MoonSlice) : (modSlice k j f d).glb = d.glb := rfl
@[simp] theorem modSlice_ident (d : Dev) (k j : Nat) (f : MoonSlice → MoonSlice) : (modSlice k j f d).ident = d.ident := rfl
@[simp] theorem modSlice_rcv (d : Dev) (k j : Nat) (f : MoonSlice → MoonSlice) : (modSlice k j f d).rcv = d.rcv := rfl
@[simp] theorem modSlice_pwr (d : Dev) (k j : Nat) (f : MoonSlice → MoonSlice) : (modSlice k j f d).pwr = d.pwr := rfl
@[simp] theorem modSlice_otp (d : Dev) (k j : Nat) (f : MoonSlice → MoonSlice) : (modSlice k j f d).otp = d.otp := rfl
@[simp] theorem modSlice_rom (d : Dev) (k j : Nat) (f : MoonSlice → MoonSlice) : (modSlice k j f d).rom = d.rom := rfl
@[simp] theorem modSlice_flash (d : Dev) (k j : Nat) (f : MoonSlice → MoonSlice) : (modSlice k j f d).flash = d.flash := rfl
@[simp] theorem modSlice_crater (d : Dev) (k j : Nat) (f : MoonSlice → MoonSlice) : (modSlice k j f d).crater = d.crater := rfl
@[simp] theorem modSlice_flt (d : Dev) (k j : Nat) (f : MoonSlice → MoonSlice) : (modSlice k j f d).flt = d.flt := rfl
@[simp] theorem modSlice_sec (d : Dev) (k j : Nat) (f : MoonSlice → MoonSlice) : (modSlice k j f d).sec = d.sec := rfl
@[simp] theorem modSlice_jtag (d : Dev) (k j : Nat) (f : MoonSlice → MoonSlice) : (modSlice k j f d).jtag = d.jtag := rfl
@[simp] theorem modSlice_store (d : Dev) (k j : Nat) (f : MoonSlice → MoonSlice) : (modSlice k j f d).store = d.store := rfl
@[simp] theorem modSlice_cfg (d : Dev) (k j : Nat) (f : MoonSlice → MoonSlice) : (modSlice k j f d).cfg = d.cfg := rfl
@[simp] theorem modSlice_msix (d : Dev) (k j : Nat) (f : MoonSlice → MoonSlice) : (modSlice k j f d).msix = d.msix := rfl
@[simp] theorem modSlice_host (d : Dev) (k j : Nat) (f : MoonSlice → MoonSlice) : (modSlice k j f d).host = d.host := rfl
@[simp] theorem modSlice_hostBad (d : Dev) (k j : Nat) (f : MoonSlice → MoonSlice) : (modSlice k j f d).hostBad = d.hostBad := rfl
@[simp] theorem modSlice_gddr (d : Dev) (k j : Nat) (f : MoonSlice → MoonSlice) : (modSlice k j f d).gddr = d.gddr := rfl
@[simp] theorem modSlice_cpt (d : Dev) (k j : Nat) (f : MoonSlice → MoonSlice) : (modSlice k j f d).cpt = d.cpt := rfl
@[simp] theorem modSlice_wpt (d : Dev) (k j : Nat) (f : MoonSlice → MoonSlice) : (modSlice k j f d).wpt = d.wpt := rfl
@[simp] theorem modSlice_cptBad (d : Dev) (k j : Nat) (f : MoonSlice → MoonSlice) : (modSlice k j f d).cptBad = d.cptBad := rfl
@[simp] theorem modSlice_wptBad (d : Dev) (k j : Nat) (f : MoonSlice → MoonSlice) : (modSlice k j f d).wptBad = d.wptBad := rfl
@[simp] theorem modSlice_rot (d : Dev) (k j : Nat) (f : MoonSlice → MoonSlice) : (modSlice k j f d).rot = d.rot := rfl
@[simp] theorem modSlice_ranks (d : Dev) (k j : Nat) (f : MoonSlice → MoonSlice) : (modSlice k j f d).ranks = d.ranks := rfl
@[simp] theorem modSlice_budgets (d : Dev) (k j : Nat) (f : MoonSlice → MoonSlice) : (modSlice k j f d).budgets = d.budgets := rfl
@[simp] theorem modSlice_bist (d : Dev) (k j : Nat) (f : MoonSlice → MoonSlice) : (modSlice k j f d).bist = d.bist := rfl
@[simp] theorem modSlice_out (d : Dev) (k j : Nat) (f : MoonSlice → MoonSlice) : (modSlice k j f d).out = d.out := rfl
@[simp] theorem modSlice_free (d : Dev) (k j : Nat) (f : MoonSlice → MoonSlice) : (modSlice k j f d).free = d.free := rfl

/-! ### modChan -/

@[simp] theorem modChan_tiles (d : Dev) (k : Nat) (f : Chan → Chan) : (modChan k f d).tiles = d.tiles := rfl
@[simp] theorem modChan_clk (d : Dev) (k : Nat) (f : Chan → Chan) : (modChan k f d).clk = d.clk := rfl
@[simp] theorem modChan_mt (d : Dev) (k : Nat) (f : Chan → Chan) : (modChan k f d).mt = d.mt := rfl
@[simp] theorem modChan_mm (d : Dev) (k : Nat) (f : Chan → Chan) : (modChan k f d).mm = d.mm := rfl
@[simp] theorem modChan_dma (d : Dev) (k : Nat) (f : Chan → Chan) : (modChan k f d).dma = d.dma := rfl
@[simp] theorem modChan_ports (d : Dev) (k : Nat) (f : Chan → Chan) : (modChan k f d).ports = d.ports := rfl
@[simp] theorem modChan_parts (d : Dev) (k : Nat) (f : Chan → Chan) : (modChan k f d).parts = d.parts := rfl
@[simp] theorem modChan_mbx (d : Dev) (k : Nat) (f : Chan → Chan) : (modChan k f d).mbx = d.mbx := rfl
@[simp] theorem modChan_glb (d : Dev) (k : Nat) (f : Chan → Chan) : (modChan k f d).glb = d.glb := rfl
@[simp] theorem modChan_ident (d : Dev) (k : Nat) (f : Chan → Chan) : (modChan k f d).ident = d.ident := rfl
@[simp] theorem modChan_rcv (d : Dev) (k : Nat) (f : Chan → Chan) : (modChan k f d).rcv = d.rcv := rfl
@[simp] theorem modChan_pwr (d : Dev) (k : Nat) (f : Chan → Chan) : (modChan k f d).pwr = d.pwr := rfl
@[simp] theorem modChan_otp (d : Dev) (k : Nat) (f : Chan → Chan) : (modChan k f d).otp = d.otp := rfl
@[simp] theorem modChan_rom (d : Dev) (k : Nat) (f : Chan → Chan) : (modChan k f d).rom = d.rom := rfl
@[simp] theorem modChan_flash (d : Dev) (k : Nat) (f : Chan → Chan) : (modChan k f d).flash = d.flash := rfl
@[simp] theorem modChan_crater (d : Dev) (k : Nat) (f : Chan → Chan) : (modChan k f d).crater = d.crater := rfl
@[simp] theorem modChan_flt (d : Dev) (k : Nat) (f : Chan → Chan) : (modChan k f d).flt = d.flt := rfl
@[simp] theorem modChan_sec (d : Dev) (k : Nat) (f : Chan → Chan) : (modChan k f d).sec = d.sec := rfl
@[simp] theorem modChan_jtag (d : Dev) (k : Nat) (f : Chan → Chan) : (modChan k f d).jtag = d.jtag := rfl
@[simp] theorem modChan_store (d : Dev) (k : Nat) (f : Chan → Chan) : (modChan k f d).store = d.store := rfl
@[simp] theorem modChan_cfg (d : Dev) (k : Nat) (f : Chan → Chan) : (modChan k f d).cfg = d.cfg := rfl
@[simp] theorem modChan_msix (d : Dev) (k : Nat) (f : Chan → Chan) : (modChan k f d).msix = d.msix := rfl
@[simp] theorem modChan_host (d : Dev) (k : Nat) (f : Chan → Chan) : (modChan k f d).host = d.host := rfl
@[simp] theorem modChan_hostBad (d : Dev) (k : Nat) (f : Chan → Chan) : (modChan k f d).hostBad = d.hostBad := rfl
@[simp] theorem modChan_gddr (d : Dev) (k : Nat) (f : Chan → Chan) : (modChan k f d).gddr = d.gddr := rfl
@[simp] theorem modChan_cpt (d : Dev) (k : Nat) (f : Chan → Chan) : (modChan k f d).cpt = d.cpt := rfl
@[simp] theorem modChan_wpt (d : Dev) (k : Nat) (f : Chan → Chan) : (modChan k f d).wpt = d.wpt := rfl
@[simp] theorem modChan_cptBad (d : Dev) (k : Nat) (f : Chan → Chan) : (modChan k f d).cptBad = d.cptBad := rfl
@[simp] theorem modChan_wptBad (d : Dev) (k : Nat) (f : Chan → Chan) : (modChan k f d).wptBad = d.wptBad := rfl
@[simp] theorem modChan_rot (d : Dev) (k : Nat) (f : Chan → Chan) : (modChan k f d).rot = d.rot := rfl
@[simp] theorem modChan_ranks (d : Dev) (k : Nat) (f : Chan → Chan) : (modChan k f d).ranks = d.ranks := rfl
@[simp] theorem modChan_budgets (d : Dev) (k : Nat) (f : Chan → Chan) : (modChan k f d).budgets = d.budgets := rfl
@[simp] theorem modChan_bist (d : Dev) (k : Nat) (f : Chan → Chan) : (modChan k f d).bist = d.bist := rfl
@[simp] theorem modChan_out (d : Dev) (k : Nat) (f : Chan → Chan) : (modChan k f d).out = d.out := rfl
@[simp] theorem modChan_free (d : Dev) (k : Nat) (f : Chan → Chan) : (modChan k f d).free = d.free := rfl

/-! ### modMm -/

@[simp] theorem modMm_tiles (d : Dev) (k : Nat) (f : MemMoon → MemMoon) : (modMm k f d).tiles = d.tiles := rfl
@[simp] theorem modMm_clk (d : Dev) (k : Nat) (f : MemMoon → MemMoon) : (modMm k f d).clk = d.clk := rfl
@[simp] theorem modMm_mt (d : Dev) (k : Nat) (f : MemMoon → MemMoon) : (modMm k f d).mt = d.mt := rfl
@[simp] theorem modMm_chans (d : Dev) (k : Nat) (f : MemMoon → MemMoon) : (modMm k f d).chans = d.chans := rfl
@[simp] theorem modMm_dma (d : Dev) (k : Nat) (f : MemMoon → MemMoon) : (modMm k f d).dma = d.dma := rfl
@[simp] theorem modMm_ports (d : Dev) (k : Nat) (f : MemMoon → MemMoon) : (modMm k f d).ports = d.ports := rfl
@[simp] theorem modMm_parts (d : Dev) (k : Nat) (f : MemMoon → MemMoon) : (modMm k f d).parts = d.parts := rfl
@[simp] theorem modMm_mbx (d : Dev) (k : Nat) (f : MemMoon → MemMoon) : (modMm k f d).mbx = d.mbx := rfl
@[simp] theorem modMm_glb (d : Dev) (k : Nat) (f : MemMoon → MemMoon) : (modMm k f d).glb = d.glb := rfl
@[simp] theorem modMm_ident (d : Dev) (k : Nat) (f : MemMoon → MemMoon) : (modMm k f d).ident = d.ident := rfl
@[simp] theorem modMm_rcv (d : Dev) (k : Nat) (f : MemMoon → MemMoon) : (modMm k f d).rcv = d.rcv := rfl
@[simp] theorem modMm_pwr (d : Dev) (k : Nat) (f : MemMoon → MemMoon) : (modMm k f d).pwr = d.pwr := rfl
@[simp] theorem modMm_otp (d : Dev) (k : Nat) (f : MemMoon → MemMoon) : (modMm k f d).otp = d.otp := rfl
@[simp] theorem modMm_rom (d : Dev) (k : Nat) (f : MemMoon → MemMoon) : (modMm k f d).rom = d.rom := rfl
@[simp] theorem modMm_flash (d : Dev) (k : Nat) (f : MemMoon → MemMoon) : (modMm k f d).flash = d.flash := rfl
@[simp] theorem modMm_crater (d : Dev) (k : Nat) (f : MemMoon → MemMoon) : (modMm k f d).crater = d.crater := rfl
@[simp] theorem modMm_flt (d : Dev) (k : Nat) (f : MemMoon → MemMoon) : (modMm k f d).flt = d.flt := rfl
@[simp] theorem modMm_sec (d : Dev) (k : Nat) (f : MemMoon → MemMoon) : (modMm k f d).sec = d.sec := rfl
@[simp] theorem modMm_jtag (d : Dev) (k : Nat) (f : MemMoon → MemMoon) : (modMm k f d).jtag = d.jtag := rfl
@[simp] theorem modMm_store (d : Dev) (k : Nat) (f : MemMoon → MemMoon) : (modMm k f d).store = d.store := rfl
@[simp] theorem modMm_cfg (d : Dev) (k : Nat) (f : MemMoon → MemMoon) : (modMm k f d).cfg = d.cfg := rfl
@[simp] theorem modMm_msix (d : Dev) (k : Nat) (f : MemMoon → MemMoon) : (modMm k f d).msix = d.msix := rfl
@[simp] theorem modMm_host (d : Dev) (k : Nat) (f : MemMoon → MemMoon) : (modMm k f d).host = d.host := rfl
@[simp] theorem modMm_hostBad (d : Dev) (k : Nat) (f : MemMoon → MemMoon) : (modMm k f d).hostBad = d.hostBad := rfl
@[simp] theorem modMm_gddr (d : Dev) (k : Nat) (f : MemMoon → MemMoon) : (modMm k f d).gddr = d.gddr := rfl
@[simp] theorem modMm_cpt (d : Dev) (k : Nat) (f : MemMoon → MemMoon) : (modMm k f d).cpt = d.cpt := rfl
@[simp] theorem modMm_wpt (d : Dev) (k : Nat) (f : MemMoon → MemMoon) : (modMm k f d).wpt = d.wpt := rfl
@[simp] theorem modMm_cptBad (d : Dev) (k : Nat) (f : MemMoon → MemMoon) : (modMm k f d).cptBad = d.cptBad := rfl
@[simp] theorem modMm_wptBad (d : Dev) (k : Nat) (f : MemMoon → MemMoon) : (modMm k f d).wptBad = d.wptBad := rfl
@[simp] theorem modMm_rot (d : Dev) (k : Nat) (f : MemMoon → MemMoon) : (modMm k f d).rot = d.rot := rfl
@[simp] theorem modMm_ranks (d : Dev) (k : Nat) (f : MemMoon → MemMoon) : (modMm k f d).ranks = d.ranks := rfl
@[simp] theorem modMm_budgets (d : Dev) (k : Nat) (f : MemMoon → MemMoon) : (modMm k f d).budgets = d.budgets := rfl
@[simp] theorem modMm_bist (d : Dev) (k : Nat) (f : MemMoon → MemMoon) : (modMm k f d).bist = d.bist := rfl
@[simp] theorem modMm_out (d : Dev) (k : Nat) (f : MemMoon → MemMoon) : (modMm k f d).out = d.out := rfl
@[simp] theorem modMm_free (d : Dev) (k : Nat) (f : MemMoon → MemMoon) : (modMm k f d).free = d.free := rfl

/-! ### modDma -/

@[simp] theorem modDma_tiles (d : Dev) (k : Nat) (f : Dma → Dma) : (modDma k f d).tiles = d.tiles := rfl
@[simp] theorem modDma_clk (d : Dev) (k : Nat) (f : Dma → Dma) : (modDma k f d).clk = d.clk := rfl
@[simp] theorem modDma_mt (d : Dev) (k : Nat) (f : Dma → Dma) : (modDma k f d).mt = d.mt := rfl
@[simp] theorem modDma_chans (d : Dev) (k : Nat) (f : Dma → Dma) : (modDma k f d).chans = d.chans := rfl
@[simp] theorem modDma_mm (d : Dev) (k : Nat) (f : Dma → Dma) : (modDma k f d).mm = d.mm := rfl
@[simp] theorem modDma_ports (d : Dev) (k : Nat) (f : Dma → Dma) : (modDma k f d).ports = d.ports := rfl
@[simp] theorem modDma_parts (d : Dev) (k : Nat) (f : Dma → Dma) : (modDma k f d).parts = d.parts := rfl
@[simp] theorem modDma_mbx (d : Dev) (k : Nat) (f : Dma → Dma) : (modDma k f d).mbx = d.mbx := rfl
@[simp] theorem modDma_glb (d : Dev) (k : Nat) (f : Dma → Dma) : (modDma k f d).glb = d.glb := rfl
@[simp] theorem modDma_ident (d : Dev) (k : Nat) (f : Dma → Dma) : (modDma k f d).ident = d.ident := rfl
@[simp] theorem modDma_rcv (d : Dev) (k : Nat) (f : Dma → Dma) : (modDma k f d).rcv = d.rcv := rfl
@[simp] theorem modDma_pwr (d : Dev) (k : Nat) (f : Dma → Dma) : (modDma k f d).pwr = d.pwr := rfl
@[simp] theorem modDma_otp (d : Dev) (k : Nat) (f : Dma → Dma) : (modDma k f d).otp = d.otp := rfl
@[simp] theorem modDma_rom (d : Dev) (k : Nat) (f : Dma → Dma) : (modDma k f d).rom = d.rom := rfl
@[simp] theorem modDma_flash (d : Dev) (k : Nat) (f : Dma → Dma) : (modDma k f d).flash = d.flash := rfl
@[simp] theorem modDma_crater (d : Dev) (k : Nat) (f : Dma → Dma) : (modDma k f d).crater = d.crater := rfl
@[simp] theorem modDma_flt (d : Dev) (k : Nat) (f : Dma → Dma) : (modDma k f d).flt = d.flt := rfl
@[simp] theorem modDma_sec (d : Dev) (k : Nat) (f : Dma → Dma) : (modDma k f d).sec = d.sec := rfl
@[simp] theorem modDma_jtag (d : Dev) (k : Nat) (f : Dma → Dma) : (modDma k f d).jtag = d.jtag := rfl
@[simp] theorem modDma_store (d : Dev) (k : Nat) (f : Dma → Dma) : (modDma k f d).store = d.store := rfl
@[simp] theorem modDma_cfg (d : Dev) (k : Nat) (f : Dma → Dma) : (modDma k f d).cfg = d.cfg := rfl
@[simp] theorem modDma_msix (d : Dev) (k : Nat) (f : Dma → Dma) : (modDma k f d).msix = d.msix := rfl
@[simp] theorem modDma_host (d : Dev) (k : Nat) (f : Dma → Dma) : (modDma k f d).host = d.host := rfl
@[simp] theorem modDma_hostBad (d : Dev) (k : Nat) (f : Dma → Dma) : (modDma k f d).hostBad = d.hostBad := rfl
@[simp] theorem modDma_gddr (d : Dev) (k : Nat) (f : Dma → Dma) : (modDma k f d).gddr = d.gddr := rfl
@[simp] theorem modDma_cpt (d : Dev) (k : Nat) (f : Dma → Dma) : (modDma k f d).cpt = d.cpt := rfl
@[simp] theorem modDma_wpt (d : Dev) (k : Nat) (f : Dma → Dma) : (modDma k f d).wpt = d.wpt := rfl
@[simp] theorem modDma_cptBad (d : Dev) (k : Nat) (f : Dma → Dma) : (modDma k f d).cptBad = d.cptBad := rfl
@[simp] theorem modDma_wptBad (d : Dev) (k : Nat) (f : Dma → Dma) : (modDma k f d).wptBad = d.wptBad := rfl
@[simp] theorem modDma_rot (d : Dev) (k : Nat) (f : Dma → Dma) : (modDma k f d).rot = d.rot := rfl
@[simp] theorem modDma_ranks (d : Dev) (k : Nat) (f : Dma → Dma) : (modDma k f d).ranks = d.ranks := rfl
@[simp] theorem modDma_budgets (d : Dev) (k : Nat) (f : Dma → Dma) : (modDma k f d).budgets = d.budgets := rfl
@[simp] theorem modDma_bist (d : Dev) (k : Nat) (f : Dma → Dma) : (modDma k f d).bist = d.bist := rfl
@[simp] theorem modDma_out (d : Dev) (k : Nat) (f : Dma → Dma) : (modDma k f d).out = d.out := rfl
@[simp] theorem modDma_free (d : Dev) (k : Nat) (f : Dma → Dma) : (modDma k f d).free = d.free := rfl

/-! ### modPort -/

@[simp] theorem modPort_tiles (d : Dev) (k : Nat) (f : Port → Port) : (modPort k f d).tiles = d.tiles := rfl
@[simp] theorem modPort_clk (d : Dev) (k : Nat) (f : Port → Port) : (modPort k f d).clk = d.clk := rfl
@[simp] theorem modPort_mt (d : Dev) (k : Nat) (f : Port → Port) : (modPort k f d).mt = d.mt := rfl
@[simp] theorem modPort_chans (d : Dev) (k : Nat) (f : Port → Port) : (modPort k f d).chans = d.chans := rfl
@[simp] theorem modPort_mm (d : Dev) (k : Nat) (f : Port → Port) : (modPort k f d).mm = d.mm := rfl
@[simp] theorem modPort_dma (d : Dev) (k : Nat) (f : Port → Port) : (modPort k f d).dma = d.dma := rfl
@[simp] theorem modPort_parts (d : Dev) (k : Nat) (f : Port → Port) : (modPort k f d).parts = d.parts := rfl
@[simp] theorem modPort_mbx (d : Dev) (k : Nat) (f : Port → Port) : (modPort k f d).mbx = d.mbx := rfl
@[simp] theorem modPort_glb (d : Dev) (k : Nat) (f : Port → Port) : (modPort k f d).glb = d.glb := rfl
@[simp] theorem modPort_ident (d : Dev) (k : Nat) (f : Port → Port) : (modPort k f d).ident = d.ident := rfl
@[simp] theorem modPort_rcv (d : Dev) (k : Nat) (f : Port → Port) : (modPort k f d).rcv = d.rcv := rfl
@[simp] theorem modPort_pwr (d : Dev) (k : Nat) (f : Port → Port) : (modPort k f d).pwr = d.pwr := rfl
@[simp] theorem modPort_otp (d : Dev) (k : Nat) (f : Port → Port) : (modPort k f d).otp = d.otp := rfl
@[simp] theorem modPort_rom (d : Dev) (k : Nat) (f : Port → Port) : (modPort k f d).rom = d.rom := rfl
@[simp] theorem modPort_flash (d : Dev) (k : Nat) (f : Port → Port) : (modPort k f d).flash = d.flash := rfl
@[simp] theorem modPort_crater (d : Dev) (k : Nat) (f : Port → Port) : (modPort k f d).crater = d.crater := rfl
@[simp] theorem modPort_flt (d : Dev) (k : Nat) (f : Port → Port) : (modPort k f d).flt = d.flt := rfl
@[simp] theorem modPort_sec (d : Dev) (k : Nat) (f : Port → Port) : (modPort k f d).sec = d.sec := rfl
@[simp] theorem modPort_jtag (d : Dev) (k : Nat) (f : Port → Port) : (modPort k f d).jtag = d.jtag := rfl
@[simp] theorem modPort_store (d : Dev) (k : Nat) (f : Port → Port) : (modPort k f d).store = d.store := rfl
@[simp] theorem modPort_cfg (d : Dev) (k : Nat) (f : Port → Port) : (modPort k f d).cfg = d.cfg := rfl
@[simp] theorem modPort_msix (d : Dev) (k : Nat) (f : Port → Port) : (modPort k f d).msix = d.msix := rfl
@[simp] theorem modPort_host (d : Dev) (k : Nat) (f : Port → Port) : (modPort k f d).host = d.host := rfl
@[simp] theorem modPort_hostBad (d : Dev) (k : Nat) (f : Port → Port) : (modPort k f d).hostBad = d.hostBad := rfl
@[simp] theorem modPort_gddr (d : Dev) (k : Nat) (f : Port → Port) : (modPort k f d).gddr = d.gddr := rfl
@[simp] theorem modPort_cpt (d : Dev) (k : Nat) (f : Port → Port) : (modPort k f d).cpt = d.cpt := rfl
@[simp] theorem modPort_wpt (d : Dev) (k : Nat) (f : Port → Port) : (modPort k f d).wpt = d.wpt := rfl
@[simp] theorem modPort_cptBad (d : Dev) (k : Nat) (f : Port → Port) : (modPort k f d).cptBad = d.cptBad := rfl
@[simp] theorem modPort_wptBad (d : Dev) (k : Nat) (f : Port → Port) : (modPort k f d).wptBad = d.wptBad := rfl
@[simp] theorem modPort_rot (d : Dev) (k : Nat) (f : Port → Port) : (modPort k f d).rot = d.rot := rfl
@[simp] theorem modPort_ranks (d : Dev) (k : Nat) (f : Port → Port) : (modPort k f d).ranks = d.ranks := rfl
@[simp] theorem modPort_budgets (d : Dev) (k : Nat) (f : Port → Port) : (modPort k f d).budgets = d.budgets := rfl
@[simp] theorem modPort_bist (d : Dev) (k : Nat) (f : Port → Port) : (modPort k f d).bist = d.bist := rfl
@[simp] theorem modPort_out (d : Dev) (k : Nat) (f : Port → Port) : (modPort k f d).out = d.out := rfl
@[simp] theorem modPort_free (d : Dev) (k : Nat) (f : Port → Port) : (modPort k f d).free = d.free := rfl

/-! ### modMbx -/

@[simp] theorem modMbx_tiles (d : Dev) (k : Nat) (f : Mailbox → Mailbox) : (modMbx k f d).tiles = d.tiles := rfl
@[simp] theorem modMbx_clk (d : Dev) (k : Nat) (f : Mailbox → Mailbox) : (modMbx k f d).clk = d.clk := rfl
@[simp] theorem modMbx_mt (d : Dev) (k : Nat) (f : Mailbox → Mailbox) : (modMbx k f d).mt = d.mt := rfl
@[simp] theorem modMbx_chans (d : Dev) (k : Nat) (f : Mailbox → Mailbox) : (modMbx k f d).chans = d.chans := rfl
@[simp] theorem modMbx_mm (d : Dev) (k : Nat) (f : Mailbox → Mailbox) : (modMbx k f d).mm = d.mm := rfl
@[simp] theorem modMbx_dma (d : Dev) (k : Nat) (f : Mailbox → Mailbox) : (modMbx k f d).dma = d.dma := rfl
@[simp] theorem modMbx_ports (d : Dev) (k : Nat) (f : Mailbox → Mailbox) : (modMbx k f d).ports = d.ports := rfl
@[simp] theorem modMbx_parts (d : Dev) (k : Nat) (f : Mailbox → Mailbox) : (modMbx k f d).parts = d.parts := rfl
@[simp] theorem modMbx_glb (d : Dev) (k : Nat) (f : Mailbox → Mailbox) : (modMbx k f d).glb = d.glb := rfl
@[simp] theorem modMbx_ident (d : Dev) (k : Nat) (f : Mailbox → Mailbox) : (modMbx k f d).ident = d.ident := rfl
@[simp] theorem modMbx_rcv (d : Dev) (k : Nat) (f : Mailbox → Mailbox) : (modMbx k f d).rcv = d.rcv := rfl
@[simp] theorem modMbx_pwr (d : Dev) (k : Nat) (f : Mailbox → Mailbox) : (modMbx k f d).pwr = d.pwr := rfl
@[simp] theorem modMbx_otp (d : Dev) (k : Nat) (f : Mailbox → Mailbox) : (modMbx k f d).otp = d.otp := rfl
@[simp] theorem modMbx_rom (d : Dev) (k : Nat) (f : Mailbox → Mailbox) : (modMbx k f d).rom = d.rom := rfl
@[simp] theorem modMbx_flash (d : Dev) (k : Nat) (f : Mailbox → Mailbox) : (modMbx k f d).flash = d.flash := rfl
@[simp] theorem modMbx_crater (d : Dev) (k : Nat) (f : Mailbox → Mailbox) : (modMbx k f d).crater = d.crater := rfl
@[simp] theorem modMbx_flt (d : Dev) (k : Nat) (f : Mailbox → Mailbox) : (modMbx k f d).flt = d.flt := rfl
@[simp] theorem modMbx_sec (d : Dev) (k : Nat) (f : Mailbox → Mailbox) : (modMbx k f d).sec = d.sec := rfl
@[simp] theorem modMbx_jtag (d : Dev) (k : Nat) (f : Mailbox → Mailbox) : (modMbx k f d).jtag = d.jtag := rfl
@[simp] theorem modMbx_store (d : Dev) (k : Nat) (f : Mailbox → Mailbox) : (modMbx k f d).store = d.store := rfl
@[simp] theorem modMbx_cfg (d : Dev) (k : Nat) (f : Mailbox → Mailbox) : (modMbx k f d).cfg = d.cfg := rfl
@[simp] theorem modMbx_msix (d : Dev) (k : Nat) (f : Mailbox → Mailbox) : (modMbx k f d).msix = d.msix := rfl
@[simp] theorem modMbx_host (d : Dev) (k : Nat) (f : Mailbox → Mailbox) : (modMbx k f d).host = d.host := rfl
@[simp] theorem modMbx_hostBad (d : Dev) (k : Nat) (f : Mailbox → Mailbox) : (modMbx k f d).hostBad = d.hostBad := rfl
@[simp] theorem modMbx_gddr (d : Dev) (k : Nat) (f : Mailbox → Mailbox) : (modMbx k f d).gddr = d.gddr := rfl
@[simp] theorem modMbx_cpt (d : Dev) (k : Nat) (f : Mailbox → Mailbox) : (modMbx k f d).cpt = d.cpt := rfl
@[simp] theorem modMbx_wpt (d : Dev) (k : Nat) (f : Mailbox → Mailbox) : (modMbx k f d).wpt = d.wpt := rfl
@[simp] theorem modMbx_cptBad (d : Dev) (k : Nat) (f : Mailbox → Mailbox) : (modMbx k f d).cptBad = d.cptBad := rfl
@[simp] theorem modMbx_wptBad (d : Dev) (k : Nat) (f : Mailbox → Mailbox) : (modMbx k f d).wptBad = d.wptBad := rfl
@[simp] theorem modMbx_rot (d : Dev) (k : Nat) (f : Mailbox → Mailbox) : (modMbx k f d).rot = d.rot := rfl
@[simp] theorem modMbx_ranks (d : Dev) (k : Nat) (f : Mailbox → Mailbox) : (modMbx k f d).ranks = d.ranks := rfl
@[simp] theorem modMbx_budgets (d : Dev) (k : Nat) (f : Mailbox → Mailbox) : (modMbx k f d).budgets = d.budgets := rfl
@[simp] theorem modMbx_bist (d : Dev) (k : Nat) (f : Mailbox → Mailbox) : (modMbx k f d).bist = d.bist := rfl
@[simp] theorem modMbx_out (d : Dev) (k : Nat) (f : Mailbox → Mailbox) : (modMbx k f d).out = d.out := rfl
@[simp] theorem modMbx_free (d : Dev) (k : Nat) (f : Mailbox → Mailbox) : (modMbx k f d).free = d.free := rfl

/-! ### setPart -/

@[simp] theorem setPart_tiles (d : Dev) (k : Nat) (x : Part) : (setPart k x d).tiles = d.tiles := rfl
@[simp] theorem setPart_clk (d : Dev) (k : Nat) (x : Part) : (setPart k x d).clk = d.clk := rfl
@[simp] theorem setPart_mt (d : Dev) (k : Nat) (x : Part) : (setPart k x d).mt = d.mt := rfl
@[simp] theorem setPart_chans (d : Dev) (k : Nat) (x : Part) : (setPart k x d).chans = d.chans := rfl
@[simp] theorem setPart_mm (d : Dev) (k : Nat) (x : Part) : (setPart k x d).mm = d.mm := rfl
@[simp] theorem setPart_dma (d : Dev) (k : Nat) (x : Part) : (setPart k x d).dma = d.dma := rfl
@[simp] theorem setPart_ports (d : Dev) (k : Nat) (x : Part) : (setPart k x d).ports = d.ports := rfl
@[simp] theorem setPart_mbx (d : Dev) (k : Nat) (x : Part) : (setPart k x d).mbx = d.mbx := rfl
@[simp] theorem setPart_glb (d : Dev) (k : Nat) (x : Part) : (setPart k x d).glb = d.glb := rfl
@[simp] theorem setPart_ident (d : Dev) (k : Nat) (x : Part) : (setPart k x d).ident = d.ident := rfl
@[simp] theorem setPart_rcv (d : Dev) (k : Nat) (x : Part) : (setPart k x d).rcv = d.rcv := rfl
@[simp] theorem setPart_pwr (d : Dev) (k : Nat) (x : Part) : (setPart k x d).pwr = d.pwr := rfl
@[simp] theorem setPart_otp (d : Dev) (k : Nat) (x : Part) : (setPart k x d).otp = d.otp := rfl
@[simp] theorem setPart_rom (d : Dev) (k : Nat) (x : Part) : (setPart k x d).rom = d.rom := rfl
@[simp] theorem setPart_flash (d : Dev) (k : Nat) (x : Part) : (setPart k x d).flash = d.flash := rfl
@[simp] theorem setPart_crater (d : Dev) (k : Nat) (x : Part) : (setPart k x d).crater = d.crater := rfl
@[simp] theorem setPart_flt (d : Dev) (k : Nat) (x : Part) : (setPart k x d).flt = d.flt := rfl
@[simp] theorem setPart_sec (d : Dev) (k : Nat) (x : Part) : (setPart k x d).sec = d.sec := rfl
@[simp] theorem setPart_jtag (d : Dev) (k : Nat) (x : Part) : (setPart k x d).jtag = d.jtag := rfl
@[simp] theorem setPart_store (d : Dev) (k : Nat) (x : Part) : (setPart k x d).store = d.store := rfl
@[simp] theorem setPart_cfg (d : Dev) (k : Nat) (x : Part) : (setPart k x d).cfg = d.cfg := rfl
@[simp] theorem setPart_msix (d : Dev) (k : Nat) (x : Part) : (setPart k x d).msix = d.msix := rfl
@[simp] theorem setPart_host (d : Dev) (k : Nat) (x : Part) : (setPart k x d).host = d.host := rfl
@[simp] theorem setPart_hostBad (d : Dev) (k : Nat) (x : Part) : (setPart k x d).hostBad = d.hostBad := rfl
@[simp] theorem setPart_gddr (d : Dev) (k : Nat) (x : Part) : (setPart k x d).gddr = d.gddr := rfl
@[simp] theorem setPart_cpt (d : Dev) (k : Nat) (x : Part) : (setPart k x d).cpt = d.cpt := rfl
@[simp] theorem setPart_wpt (d : Dev) (k : Nat) (x : Part) : (setPart k x d).wpt = d.wpt := rfl
@[simp] theorem setPart_cptBad (d : Dev) (k : Nat) (x : Part) : (setPart k x d).cptBad = d.cptBad := rfl
@[simp] theorem setPart_wptBad (d : Dev) (k : Nat) (x : Part) : (setPart k x d).wptBad = d.wptBad := rfl
@[simp] theorem setPart_rot (d : Dev) (k : Nat) (x : Part) : (setPart k x d).rot = d.rot := rfl
@[simp] theorem setPart_ranks (d : Dev) (k : Nat) (x : Part) : (setPart k x d).ranks = d.ranks := rfl
@[simp] theorem setPart_budgets (d : Dev) (k : Nat) (x : Part) : (setPart k x d).budgets = d.budgets := rfl
@[simp] theorem setPart_bist (d : Dev) (k : Nat) (x : Part) : (setPart k x d).bist = d.bist := rfl
@[simp] theorem setPart_out (d : Dev) (k : Nat) (x : Part) : (setPart k x d).out = d.out := rfl
@[simp] theorem setPart_free (d : Dev) (k : Nat) (x : Part) : (setPart k x d).free = d.free := rfl

/-! ### modPart -/

@[simp] theorem modPart_tiles (d : Dev) (k : Nat) (f : Part → Part) : (modPart k f d).tiles = d.tiles := by unfold modPart; split <;> rfl
@[simp] theorem modPart_clk (d : Dev) (k : Nat) (f : Part → Part) : (modPart k f d).clk = d.clk := by unfold modPart; split <;> rfl
@[simp] theorem modPart_mt (d : Dev) (k : Nat) (f : Part → Part) : (modPart k f d).mt = d.mt := by unfold modPart; split <;> rfl
@[simp] theorem modPart_chans (d : Dev) (k : Nat) (f : Part → Part) : (modPart k f d).chans = d.chans := by unfold modPart; split <;> rfl
@[simp] theorem modPart_mm (d : Dev) (k : Nat) (f : Part → Part) : (modPart k f d).mm = d.mm := by unfold modPart; split <;> rfl
@[simp] theorem modPart_dma (d : Dev) (k : Nat) (f : Part → Part) : (modPart k f d).dma = d.dma := by unfold modPart; split <;> rfl
@[simp] theorem modPart_ports (d : Dev) (k : Nat) (f : Part → Part) : (modPart k f d).ports = d.ports := by unfold modPart; split <;> rfl
@[simp] theorem modPart_mbx (d : Dev) (k : Nat) (f : Part → Part) : (modPart k f d).mbx = d.mbx := by unfold modPart; split <;> rfl
@[simp] theorem modPart_glb (d : Dev) (k : Nat) (f : Part → Part) : (modPart k f d).glb = d.glb := by unfold modPart; split <;> rfl
@[simp] theorem modPart_ident (d : Dev) (k : Nat) (f : Part → Part) : (modPart k f d).ident = d.ident := by unfold modPart; split <;> rfl
@[simp] theorem modPart_rcv (d : Dev) (k : Nat) (f : Part → Part) : (modPart k f d).rcv = d.rcv := by unfold modPart; split <;> rfl
@[simp] theorem modPart_pwr (d : Dev) (k : Nat) (f : Part → Part) : (modPart k f d).pwr = d.pwr := by unfold modPart; split <;> rfl
@[simp] theorem modPart_otp (d : Dev) (k : Nat) (f : Part → Part) : (modPart k f d).otp = d.otp := by unfold modPart; split <;> rfl
@[simp] theorem modPart_rom (d : Dev) (k : Nat) (f : Part → Part) : (modPart k f d).rom = d.rom := by unfold modPart; split <;> rfl
@[simp] theorem modPart_flash (d : Dev) (k : Nat) (f : Part → Part) : (modPart k f d).flash = d.flash := by unfold modPart; split <;> rfl
@[simp] theorem modPart_crater (d : Dev) (k : Nat) (f : Part → Part) : (modPart k f d).crater = d.crater := by unfold modPart; split <;> rfl
@[simp] theorem modPart_flt (d : Dev) (k : Nat) (f : Part → Part) : (modPart k f d).flt = d.flt := by unfold modPart; split <;> rfl
@[simp] theorem modPart_sec (d : Dev) (k : Nat) (f : Part → Part) : (modPart k f d).sec = d.sec := by unfold modPart; split <;> rfl
@[simp] theorem modPart_jtag (d : Dev) (k : Nat) (f : Part → Part) : (modPart k f d).jtag = d.jtag := by unfold modPart; split <;> rfl
@[simp] theorem modPart_store (d : Dev) (k : Nat) (f : Part → Part) : (modPart k f d).store = d.store := by unfold modPart; split <;> rfl
@[simp] theorem modPart_cfg (d : Dev) (k : Nat) (f : Part → Part) : (modPart k f d).cfg = d.cfg := by unfold modPart; split <;> rfl
@[simp] theorem modPart_msix (d : Dev) (k : Nat) (f : Part → Part) : (modPart k f d).msix = d.msix := by unfold modPart; split <;> rfl
@[simp] theorem modPart_host (d : Dev) (k : Nat) (f : Part → Part) : (modPart k f d).host = d.host := by unfold modPart; split <;> rfl
@[simp] theorem modPart_hostBad (d : Dev) (k : Nat) (f : Part → Part) : (modPart k f d).hostBad = d.hostBad := by unfold modPart; split <;> rfl
@[simp] theorem modPart_gddr (d : Dev) (k : Nat) (f : Part → Part) : (modPart k f d).gddr = d.gddr := by unfold modPart; split <;> rfl
@[simp] theorem modPart_cpt (d : Dev) (k : Nat) (f : Part → Part) : (modPart k f d).cpt = d.cpt := by unfold modPart; split <;> rfl
@[simp] theorem modPart_wpt (d : Dev) (k : Nat) (f : Part → Part) : (modPart k f d).wpt = d.wpt := by unfold modPart; split <;> rfl
@[simp] theorem modPart_cptBad (d : Dev) (k : Nat) (f : Part → Part) : (modPart k f d).cptBad = d.cptBad := by unfold modPart; split <;> rfl
@[simp] theorem modPart_wptBad (d : Dev) (k : Nat) (f : Part → Part) : (modPart k f d).wptBad = d.wptBad := by unfold modPart; split <;> rfl
@[simp] theorem modPart_rot (d : Dev) (k : Nat) (f : Part → Part) : (modPart k f d).rot = d.rot := by unfold modPart; split <;> rfl
@[simp] theorem modPart_ranks (d : Dev) (k : Nat) (f : Part → Part) : (modPart k f d).ranks = d.ranks := by unfold modPart; split <;> rfl
@[simp] theorem modPart_budgets (d : Dev) (k : Nat) (f : Part → Part) : (modPart k f d).budgets = d.budgets := by unfold modPart; split <;> rfl
@[simp] theorem modPart_bist (d : Dev) (k : Nat) (f : Part → Part) : (modPart k f d).bist = d.bist := by unfold modPart; split <;> rfl
@[simp] theorem modPart_out (d : Dev) (k : Nat) (f : Part → Part) : (modPart k f d).out = d.out := by unfold modPart; split <;> rfl
@[simp] theorem modPart_free (d : Dev) (k : Nat) (f : Part → Part) : (modPart k f d).free = d.free := by unfold modPart; split <;> rfl

/-! ### advance -/

@[simp] theorem advance_tiles (d : Dev) (g : Nat) : (advance g d).tiles = d.tiles := rfl
@[simp] theorem advance_chans (d : Dev) (g : Nat) : (advance g d).chans = d.chans := rfl
@[simp] theorem advance_mm (d : Dev) (g : Nat) : (advance g d).mm = d.mm := rfl
@[simp] theorem advance_dma (d : Dev) (g : Nat) : (advance g d).dma = d.dma := rfl
@[simp] theorem advance_ports (d : Dev) (g : Nat) : (advance g d).ports = d.ports := rfl
@[simp] theorem advance_parts (d : Dev) (g : Nat) : (advance g d).parts = d.parts := rfl
@[simp] theorem advance_mbx (d : Dev) (g : Nat) : (advance g d).mbx = d.mbx := rfl
@[simp] theorem advance_glb (d : Dev) (g : Nat) : (advance g d).glb = d.glb := rfl
@[simp] theorem advance_ident (d : Dev) (g : Nat) : (advance g d).ident = d.ident := rfl
@[simp] theorem advance_rcv (d : Dev) (g : Nat) : (advance g d).rcv = d.rcv := rfl
@[simp] theorem advance_pwr (d : Dev) (g : Nat) : (advance g d).pwr = d.pwr := rfl
@[simp] theorem advance_otp (d : Dev) (g : Nat) : (advance g d).otp = d.otp := rfl
@[simp] theorem advance_rom (d : Dev) (g : Nat) : (advance g d).rom = d.rom := rfl
@[simp] theorem advance_flash (d : Dev) (g : Nat) : (advance g d).flash = d.flash := rfl
@[simp] theorem advance_crater (d : Dev) (g : Nat) : (advance g d).crater = d.crater := rfl
@[simp] theorem advance_flt (d : Dev) (g : Nat) : (advance g d).flt = d.flt := rfl
@[simp] theorem advance_sec (d : Dev) (g : Nat) : (advance g d).sec = d.sec := rfl
@[simp] theorem advance_jtag (d : Dev) (g : Nat) : (advance g d).jtag = d.jtag := rfl
@[simp] theorem advance_store (d : Dev) (g : Nat) : (advance g d).store = d.store := rfl
@[simp] theorem advance_cfg (d : Dev) (g : Nat) : (advance g d).cfg = d.cfg := rfl
@[simp] theorem advance_msix (d : Dev) (g : Nat) : (advance g d).msix = d.msix := rfl
@[simp] theorem advance_host (d : Dev) (g : Nat) : (advance g d).host = d.host := rfl
@[simp] theorem advance_hostBad (d : Dev) (g : Nat) : (advance g d).hostBad = d.hostBad := rfl
@[simp] theorem advance_gddr (d : Dev) (g : Nat) : (advance g d).gddr = d.gddr := rfl
@[simp] theorem advance_cpt (d : Dev) (g : Nat) : (advance g d).cpt = d.cpt := rfl
@[simp] theorem advance_wpt (d : Dev) (g : Nat) : (advance g d).wpt = d.wpt := rfl
@[simp] theorem advance_cptBad (d : Dev) (g : Nat) : (advance g d).cptBad = d.cptBad := rfl
@[simp] theorem advance_wptBad (d : Dev) (g : Nat) : (advance g d).wptBad = d.wptBad := rfl
@[simp] theorem advance_rot (d : Dev) (g : Nat) : (advance g d).rot = d.rot := rfl
@[simp] theorem advance_ranks (d : Dev) (g : Nat) : (advance g d).ranks = d.ranks := rfl
@[simp] theorem advance_budgets (d : Dev) (g : Nat) : (advance g d).budgets = d.budgets := rfl
@[simp] theorem advance_bist (d : Dev) (g : Nat) : (advance g d).bist = d.bist := rfl
@[simp] theorem advance_out (d : Dev) (g : Nat) : (advance g d).out = d.out := rfl
@[simp] theorem advance_free (d : Dev) (g : Nat) : (advance g d).free = d.free := rfl

/-! ### startStep -/

@[simp] theorem startStep_tiles (d : Dev) (k : Nat) (b : Bool) : (startStep k b d).tiles = d.tiles := rfl
@[simp] theorem startStep_mt (d : Dev) (k : Nat) (b : Bool) : (startStep k b d).mt = d.mt := rfl
@[simp] theorem startStep_chans (d : Dev) (k : Nat) (b : Bool) : (startStep k b d).chans = d.chans := rfl
@[simp] theorem startStep_mm (d : Dev) (k : Nat) (b : Bool) : (startStep k b d).mm = d.mm := rfl
@[simp] theorem startStep_dma (d : Dev) (k : Nat) (b : Bool) : (startStep k b d).dma = d.dma := rfl
@[simp] theorem startStep_ports (d : Dev) (k : Nat) (b : Bool) : (startStep k b d).ports = d.ports := rfl
@[simp] theorem startStep_parts (d : Dev) (k : Nat) (b : Bool) : (startStep k b d).parts = d.parts := rfl
@[simp] theorem startStep_mbx (d : Dev) (k : Nat) (b : Bool) : (startStep k b d).mbx = d.mbx := rfl
@[simp] theorem startStep_glb (d : Dev) (k : Nat) (b : Bool) : (startStep k b d).glb = d.glb := rfl
@[simp] theorem startStep_ident (d : Dev) (k : Nat) (b : Bool) : (startStep k b d).ident = d.ident := rfl
@[simp] theorem startStep_rcv (d : Dev) (k : Nat) (b : Bool) : (startStep k b d).rcv = d.rcv := rfl
@[simp] theorem startStep_pwr (d : Dev) (k : Nat) (b : Bool) :
    (startStep k b d).pwr = { d.pwr with vcore := max d.pwr.vcore (stepMv k) } := rfl
@[simp] theorem startStep_otp (d : Dev) (k : Nat) (b : Bool) : (startStep k b d).otp = d.otp := rfl
@[simp] theorem startStep_rom (d : Dev) (k : Nat) (b : Bool) : (startStep k b d).rom = d.rom := rfl
@[simp] theorem startStep_flash (d : Dev) (k : Nat) (b : Bool) : (startStep k b d).flash = d.flash := rfl
@[simp] theorem startStep_crater (d : Dev) (k : Nat) (b : Bool) : (startStep k b d).crater = d.crater := rfl
@[simp] theorem startStep_flt (d : Dev) (k : Nat) (b : Bool) : (startStep k b d).flt = d.flt := rfl
@[simp] theorem startStep_sec (d : Dev) (k : Nat) (b : Bool) : (startStep k b d).sec = d.sec := rfl
@[simp] theorem startStep_jtag (d : Dev) (k : Nat) (b : Bool) : (startStep k b d).jtag = d.jtag := rfl
@[simp] theorem startStep_store (d : Dev) (k : Nat) (b : Bool) : (startStep k b d).store = d.store := rfl
@[simp] theorem startStep_cfg (d : Dev) (k : Nat) (b : Bool) : (startStep k b d).cfg = d.cfg := rfl
@[simp] theorem startStep_msix (d : Dev) (k : Nat) (b : Bool) : (startStep k b d).msix = d.msix := rfl
@[simp] theorem startStep_host (d : Dev) (k : Nat) (b : Bool) : (startStep k b d).host = d.host := rfl
@[simp] theorem startStep_hostBad (d : Dev) (k : Nat) (b : Bool) : (startStep k b d).hostBad = d.hostBad := rfl
@[simp] theorem startStep_gddr (d : Dev) (k : Nat) (b : Bool) : (startStep k b d).gddr = d.gddr := rfl
@[simp] theorem startStep_cpt (d : Dev) (k : Nat) (b : Bool) : (startStep k b d).cpt = d.cpt := rfl
@[simp] theorem startStep_wpt (d : Dev) (k : Nat) (b : Bool) : (startStep k b d).wpt = d.wpt := rfl
@[simp] theorem startStep_cptBad (d : Dev) (k : Nat) (b : Bool) : (startStep k b d).cptBad = d.cptBad := rfl
@[simp] theorem startStep_wptBad (d : Dev) (k : Nat) (b : Bool) : (startStep k b d).wptBad = d.wptBad := rfl
@[simp] theorem startStep_rot (d : Dev) (k : Nat) (b : Bool) : (startStep k b d).rot = d.rot := rfl
@[simp] theorem startStep_ranks (d : Dev) (k : Nat) (b : Bool) : (startStep k b d).ranks = d.ranks := rfl
@[simp] theorem startStep_budgets (d : Dev) (k : Nat) (b : Bool) : (startStep k b d).budgets = d.budgets := rfl
@[simp] theorem startStep_bist (d : Dev) (k : Nat) (b : Bool) : (startStep k b d).bist = d.bist := rfl
@[simp] theorem startStep_out (d : Dev) (k : Nat) (b : Bool) : (startStep k b d).out = d.out := rfl
@[simp] theorem startStep_free (d : Dev) (k : Nat) (b : Bool) : (startStep k b d).free = d.free := rfl

/-! ### draw -/

@[simp] theorem draw_tiles (d : Dev) (k : Nat) : ((draw k d).2).tiles = d.tiles := rfl
@[simp] theorem draw_clk (d : Dev) (k : Nat) : ((draw k d).2).clk = d.clk := rfl
@[simp] theorem draw_mt (d : Dev) (k : Nat) : ((draw k d).2).mt = d.mt := rfl
@[simp] theorem draw_chans (d : Dev) (k : Nat) : ((draw k d).2).chans = d.chans := rfl
@[simp] theorem draw_mm (d : Dev) (k : Nat) : ((draw k d).2).mm = d.mm := rfl
@[simp] theorem draw_dma (d : Dev) (k : Nat) : ((draw k d).2).dma = d.dma := rfl
@[simp] theorem draw_ports (d : Dev) (k : Nat) : ((draw k d).2).ports = d.ports := rfl
@[simp] theorem draw_parts (d : Dev) (k : Nat) : ((draw k d).2).parts = d.parts := rfl
@[simp] theorem draw_mbx (d : Dev) (k : Nat) : ((draw k d).2).mbx = d.mbx := rfl
@[simp] theorem draw_glb (d : Dev) (k : Nat) : ((draw k d).2).glb = d.glb := rfl
@[simp] theorem draw_ident (d : Dev) (k : Nat) : ((draw k d).2).ident = d.ident := rfl
@[simp] theorem draw_rcv (d : Dev) (k : Nat) : ((draw k d).2).rcv = d.rcv := rfl
@[simp] theorem draw_pwr (d : Dev) (k : Nat) : ((draw k d).2).pwr = d.pwr := rfl
@[simp] theorem draw_otp (d : Dev) (k : Nat) : ((draw k d).2).otp = d.otp := rfl
@[simp] theorem draw_rom (d : Dev) (k : Nat) : ((draw k d).2).rom = d.rom := rfl
@[simp] theorem draw_flash (d : Dev) (k : Nat) : ((draw k d).2).flash = d.flash := rfl
@[simp] theorem draw_crater (d : Dev) (k : Nat) : ((draw k d).2).crater = d.crater := rfl
@[simp] theorem draw_flt (d : Dev) (k : Nat) : ((draw k d).2).flt = d.flt := rfl
@[simp] theorem draw_sec (d : Dev) (k : Nat) : ((draw k d).2).sec = d.sec := rfl
@[simp] theorem draw_jtag (d : Dev) (k : Nat) : ((draw k d).2).jtag = d.jtag := rfl
@[simp] theorem draw_store (d : Dev) (k : Nat) : ((draw k d).2).store = d.store := rfl
@[simp] theorem draw_cfg (d : Dev) (k : Nat) : ((draw k d).2).cfg = d.cfg := rfl
@[simp] theorem draw_msix (d : Dev) (k : Nat) : ((draw k d).2).msix = d.msix := rfl
@[simp] theorem draw_host (d : Dev) (k : Nat) : ((draw k d).2).host = d.host := rfl
@[simp] theorem draw_hostBad (d : Dev) (k : Nat) : ((draw k d).2).hostBad = d.hostBad := rfl
@[simp] theorem draw_gddr (d : Dev) (k : Nat) : ((draw k d).2).gddr = d.gddr := rfl
@[simp] theorem draw_cpt (d : Dev) (k : Nat) : ((draw k d).2).cpt = d.cpt := rfl
@[simp] theorem draw_wpt (d : Dev) (k : Nat) : ((draw k d).2).wpt = d.wpt := rfl
@[simp] theorem draw_cptBad (d : Dev) (k : Nat) : ((draw k d).2).cptBad = d.cptBad := rfl
@[simp] theorem draw_wptBad (d : Dev) (k : Nat) : ((draw k d).2).wptBad = d.wptBad := rfl
@[simp] theorem draw_rot (d : Dev) (k : Nat) : ((draw k d).2).rot = d.rot := rfl
@[simp] theorem draw_ranks (d : Dev) (k : Nat) : ((draw k d).2).ranks = d.ranks := rfl
@[simp] theorem draw_budgets (d : Dev) (k : Nat) : ((draw k d).2).budgets = d.budgets := rfl
@[simp] theorem draw_bist (d : Dev) (k : Nat) : ((draw k d).2).bist = d.bist := rfl
@[simp] theorem draw_out (d : Dev) (k : Nat) : ((draw k d).2).out = d.out := rfl

/-! ### hostWr -/

@[simp] theorem hostWr_tiles (d : Dev) (k : Nat) (bs : List Byte) : (hostWr k bs d).tiles = d.tiles := rfl
@[simp] theorem hostWr_clk (d : Dev) (k : Nat) (bs : List Byte) : (hostWr k bs d).clk = d.clk := rfl
@[simp] theorem hostWr_mt (d : Dev) (k : Nat) (bs : List Byte) : (hostWr k bs d).mt = d.mt := rfl
@[simp] theorem hostWr_chans (d : Dev) (k : Nat) (bs : List Byte) : (hostWr k bs d).chans = d.chans := rfl
@[simp] theorem hostWr_mm (d : Dev) (k : Nat) (bs : List Byte) : (hostWr k bs d).mm = d.mm := rfl
@[simp] theorem hostWr_dma (d : Dev) (k : Nat) (bs : List Byte) : (hostWr k bs d).dma = d.dma := rfl
@[simp] theorem hostWr_ports (d : Dev) (k : Nat) (bs : List Byte) : (hostWr k bs d).ports = d.ports := rfl
@[simp] theorem hostWr_parts (d : Dev) (k : Nat) (bs : List Byte) : (hostWr k bs d).parts = d.parts := rfl
@[simp] theorem hostWr_mbx (d : Dev) (k : Nat) (bs : List Byte) : (hostWr k bs d).mbx = d.mbx := rfl
@[simp] theorem hostWr_glb (d : Dev) (k : Nat) (bs : List Byte) : (hostWr k bs d).glb = d.glb := rfl
@[simp] theorem hostWr_ident (d : Dev) (k : Nat) (bs : List Byte) : (hostWr k bs d).ident = d.ident := rfl
@[simp] theorem hostWr_rcv (d : Dev) (k : Nat) (bs : List Byte) : (hostWr k bs d).rcv = d.rcv := rfl
@[simp] theorem hostWr_pwr (d : Dev) (k : Nat) (bs : List Byte) : (hostWr k bs d).pwr = d.pwr := rfl
@[simp] theorem hostWr_otp (d : Dev) (k : Nat) (bs : List Byte) : (hostWr k bs d).otp = d.otp := rfl
@[simp] theorem hostWr_rom (d : Dev) (k : Nat) (bs : List Byte) : (hostWr k bs d).rom = d.rom := rfl
@[simp] theorem hostWr_flash (d : Dev) (k : Nat) (bs : List Byte) : (hostWr k bs d).flash = d.flash := rfl
@[simp] theorem hostWr_crater (d : Dev) (k : Nat) (bs : List Byte) : (hostWr k bs d).crater = d.crater := rfl
@[simp] theorem hostWr_flt (d : Dev) (k : Nat) (bs : List Byte) : (hostWr k bs d).flt = d.flt := rfl
@[simp] theorem hostWr_sec (d : Dev) (k : Nat) (bs : List Byte) : (hostWr k bs d).sec = d.sec := rfl
@[simp] theorem hostWr_jtag (d : Dev) (k : Nat) (bs : List Byte) : (hostWr k bs d).jtag = d.jtag := rfl
@[simp] theorem hostWr_store (d : Dev) (k : Nat) (bs : List Byte) : (hostWr k bs d).store = d.store := rfl
@[simp] theorem hostWr_cfg (d : Dev) (k : Nat) (bs : List Byte) : (hostWr k bs d).cfg = d.cfg := rfl
@[simp] theorem hostWr_msix (d : Dev) (k : Nat) (bs : List Byte) : (hostWr k bs d).msix = d.msix := rfl
@[simp] theorem hostWr_hostBad (d : Dev) (k : Nat) (bs : List Byte) : (hostWr k bs d).hostBad = d.hostBad := rfl
@[simp] theorem hostWr_gddr (d : Dev) (k : Nat) (bs : List Byte) : (hostWr k bs d).gddr = d.gddr := rfl
@[simp] theorem hostWr_cpt (d : Dev) (k : Nat) (bs : List Byte) : (hostWr k bs d).cpt = d.cpt := rfl
@[simp] theorem hostWr_wpt (d : Dev) (k : Nat) (bs : List Byte) : (hostWr k bs d).wpt = d.wpt := rfl
@[simp] theorem hostWr_cptBad (d : Dev) (k : Nat) (bs : List Byte) : (hostWr k bs d).cptBad = d.cptBad := rfl
@[simp] theorem hostWr_wptBad (d : Dev) (k : Nat) (bs : List Byte) : (hostWr k bs d).wptBad = d.wptBad := rfl
@[simp] theorem hostWr_rot (d : Dev) (k : Nat) (bs : List Byte) : (hostWr k bs d).rot = d.rot := rfl
@[simp] theorem hostWr_ranks (d : Dev) (k : Nat) (bs : List Byte) : (hostWr k bs d).ranks = d.ranks := rfl
@[simp] theorem hostWr_budgets (d : Dev) (k : Nat) (bs : List Byte) : (hostWr k bs d).budgets = d.budgets := rfl
@[simp] theorem hostWr_bist (d : Dev) (k : Nat) (bs : List Byte) : (hostWr k bs d).bist = d.bist := rfl
@[simp] theorem hostWr_out (d : Dev) (k : Nat) (bs : List Byte) : (hostWr k bs d).out = d.out := rfl
@[simp] theorem hostWr_free (d : Dev) (k : Nat) (bs : List Byte) : (hostWr k bs d).free = d.free := rfl

end Sys2Proof.Machine
end

