-- ==== Sys2Proof/Laws/Memory.lean ====
section
/-!
SUPPORT. Byte memories: a write is read back inside the bytes written and leaves every other byte alone, every operation
keeps the canonical form, and little-endian numbers come back as they were written.
-/

namespace Sys2Proof.Machine

open Sys2Proof

theorem rdB_append (m n : Mem) (a : Nat) :
    rdB (m ++ n) a = if m.any (fun c => c.1 == a) then rdB m a else rdB n a := by
  induction m with
  | nil => simp
  | cons c r ih =>
    by_cases h : c.1 = a
    · simp [rdB, h]
    · simp [rdB, h, ih]

theorem rdB_eq_zero (m : Mem) (a : Nat) (h : m.any (fun c => c.1 == a) = false) : rdB m a = 0 := by
  induction m with
  | nil => rfl
  | cons c r ih =>
    simp at h
    have h1 : ¬ c.1 = a := h.1
    simp only [rdB, h1, if_false]
    exact ih (by simpa using h.2)

theorem rdB_filter (m : Mem) (p : Nat → Bool) (a : Nat) :
    rdB (m.filter (fun c => p c.1)) a = if p a then rdB m a else 0 := by
  induction m with
  | nil => simp [rdB]
  | cons c r ih =>
    by_cases h : c.1 = a
    · by_cases hp : p a
      · simp [h, hp, rdB]
      · rw [List.filter_cons]
        simp [h, hp, ih]
    · by_cases hp : p c.1
      · simp [hp, rdB, h, ih]
      · rw [List.filter_cons]
        simp [hp, ih, rdB, h]

theorem any_filter_false (m : Mem) (p : Nat → Bool) (a : Nat) (h : p a = false) :
    (m.filter (fun c => p c.1)).any (fun c => c.1 == a) = false := by
  simp only [List.any_eq_false, List.mem_filter, beq_iff_eq]
  rintro c ⟨_, hc⟩ rfl
  simp [h] at hc

theorem cells_any_lt (bs : List Byte) : ∀ (a b : Nat), b < a → (cells a bs).any (fun c => c.1 == b) = false := by
  induction bs with
  | nil => intro a b _; rfl
  | cons x r ih =>
    intro a b h
    unfold cells
    split
    · exact ih _ _ (by omega)
    · simp only [List.any_cons, Bool.or_eq_false_iff]
      exact ⟨by simp; omega, ih _ _ (by omega)⟩

theorem cells_any_ge (bs : List Byte) : ∀ (a b : Nat), a + bs.length ≤ b → (cells a bs).any (fun c => c.1 == b) = false := by
  induction bs with
  | nil => intro a b _; rfl
  | cons x r ih =>
    intro a b h
    simp only [List.length_cons] at h
    unfold cells
    split
    · exact ih _ _ (by omega)
    · simp only [List.any_cons, Bool.or_eq_false_iff]
      exact ⟨by simp; omega, ih _ _ (by omega)⟩

theorem rdB_cells (bs : List Byte) : ∀ (a i : Nat), i < bs.length → rdB (cells a bs) (a + i) = bs.getD i 0 := by
  induction bs with
  | nil => intro a i h; simp at h
  | cons x r ih =>
    intro a i h
    unfold cells
    cases i with
    | zero =>
      split
      · rename_i hx
        rw [rdB_eq_zero _ _ (cells_any_lt r _ _ (by omega))]
        simp [hx]
      · simp [rdB]
    | succ i =>
      have e := ih (a + 1) i (by simpa using h)
      have e1 : a + 1 + i = a + (i + 1) := by omega
      rw [e1] at e
      split
      · simpa using e
      · have hn : ¬ a = a + (i + 1) := by omega
        simp only [rdB, hn, if_false]
        simpa using e

/-- A byte inside a write reads as the byte written. -/
theorem rdB_wrBs_in (m : Mem) (a i : Nat) (bs : List Byte) (h : i < bs.length) : rdB (wrBs m a bs) (a + i) = bs.getD i 0 := by
  unfold wrBs
  rw [rdB_append, any_filter_false m (fun c => decide (c < a)) (a + i) (by simp)]
  simp only [Bool.false_eq_true, if_false]
  rw [rdB_append]
  split
  · exact rdB_cells bs a i h
  · rename_i hc
    rw [rdB_filter m (fun c => decide (a + bs.length ≤ c))]
    have e := rdB_cells bs a i h
    rw [rdB_eq_zero _ _ (Bool.eq_false_iff.2 hc)] at e
    rw [← e]
    have : ¬ a + bs.length ≤ a + i := by omega
    simp [this]

/-- A byte outside a write is as it was. -/
theorem rdB_wrBs_out (m : Mem) (a b : Nat) (bs : List Byte) (h : b < a ∨ a + bs.length ≤ b) :
    rdB (wrBs m a bs) b = rdB m b := by
  unfold wrBs
  rw [rdB_append]
  split
  · rename_i hc
    rw [rdB_filter m (fun c => decide (c < a))]
    by_cases hb : b < a
    · simp [hb]
    · rw [any_filter_false m (fun c => decide (c < a)) b (by simpa using hb)] at hc
      cases hc
  · rename_i hc
    rw [rdB_append]
    have hcell : (cells a bs).any (fun c => c.1 == b) = false := by
      rcases h with h | h
      · exact cells_any_lt bs a b h
      · exact cells_any_ge bs a b h
    rw [hcell]
    simp only [Bool.false_eq_true, if_false]
    rw [rdB_filter m (fun c => decide (a + bs.length ≤ c))]
    by_cases hb : a + bs.length ≤ b
    · simp [hb]
    · have hb2 : b < a := by omega
      simp only [hb, decide_false, Bool.false_eq_true, if_false]
      have e := rdB_eq_zero (m.filter (fun c => decide (c.1 < a))) b (Bool.eq_false_iff.2 hc)
      rw [rdB_filter m (fun c => decide (c < a))] at e
      simpa [hb2] using e.symm

/-- Bytes that were cleared read 0, and every other byte is as it was. -/
theorem rdB_zeroBs (m : Mem) (a n b : Nat) : rdB (zeroBs m a n) b = if a ≤ b ∧ b < a + n then 0 else rdB m b := by
  unfold zeroBs
  rw [rdB_filter m (fun c => decide (c < a) || decide (a + n ≤ c))]
  by_cases h : a ≤ b ∧ b < a + n
  · have h1 : ¬ b < a := by omega
    have h2 : ¬ a + n ≤ b := by omega
    simp [h, h1, h2]
  · by_cases h1 : b < a
    · simp [h1]
    · have h2 : a + n ≤ b := by omega
      simp [h2]

/-- A number written in n bytes reads back modulo 256 to the n. -/
theorem leNat_toLe (n : Nat) : ∀ v, leNat (toLe n v) = v % 256 ^ n := by
  induction n with
  | zero => intro v; simp [toLe, leNat, Nat.mod_one]
  | succ n ih =>
    intro v
    simp only [toLe, leNat, ih, BitVec.toNat_ofNat]
    have e : (256 : Nat) ^ (n + 1) = 2 ^ 8 * 256 ^ n := by rw [Nat.pow_succ]; omega
    rw [e, Nat.mod_mul]
    norm_num

@[simp] theorem length_toLe (n : Nat) : ∀ v, (toLe n v).length = n := by
  induction n with
  | zero => intro v; rfl
  | succ n ih => intro v; simp [toLe, ih]

@[simp] theorem length_rdBs (m : Mem) (n : Nat) : ∀ a, (rdBs m a n).length = n := by
  induction n with
  | zero => intro a; rfl
  | succ n ih => intro a; simp [rdBs, ih]

theorem getElem_rdBs (m : Mem) (n : Nat) : ∀ a i, i < n → (rdBs m a n).getD i 0 = rdB m (a + i) := by
  induction n with
  | zero => intro a i h; omega
  | succ n ih =>
    intro a i h
    cases i with
    | zero => simp [rdBs]
    | succ i =>
      have e := ih (a + 1) i (by omega)
      have e1 : a + 1 + i = a + (i + 1) := by omega
      rw [e1] at e
      simpa [rdBs] using e

theorem rdBs_ext {m m' : Mem} {n : Nat} : ∀ {a : Nat}, (∀ i, i < n → rdB m (a + i) = rdB m' (a + i)) →
    rdBs m a n = rdBs m' a n := by
  induction n with
  | zero => intro a _; rfl
  | succ n ih =>
    intro a h
    have h0 := h 0 (by omega)
    simp only [Nat.add_zero] at h0
    have ht : rdBs m (a + 1) n = rdBs m' (a + 1) n := ih (fun i hi => by
      have e := h (i + 1) (by omega)
      have e1 : a + (i + 1) = a + 1 + i := by omega
      rwa [e1] at e)
    simp [rdBs, h0, ht]

/-- Bytes written come back as they were written. -/
theorem rdBs_wrBs_same (m : Mem) (a : Nat) (bs : List Byte) : rdBs (wrBs m a bs) a bs.length = bs := by
  apply List.ext_getElem
  · simp
  · intro i h1 h2
    have e := getElem_rdBs (wrBs m a bs) bs.length a i h2
    rw [rdB_wrBs_in m a i bs h2] at e
    rw [List.getD_eq_getElem _ _ h1, List.getD_eq_getElem _ _ h2] at e
    exact e

/-- Bytes outside a write are as they were. -/
theorem rdBs_wrBs_out (m : Mem) (a b n : Nat) (bs : List Byte) (h : b + n ≤ a ∨ a + bs.length ≤ b) :
    rdBs (wrBs m a bs) b n = rdBs m b n :=
  rdBs_ext fun i hi => rdB_wrBs_out m a (b + i) bs (by omega)

/-- A number written in n bytes reads back modulo 256 to the n, at its address. -/
theorem rdN_wrN_same (m : Mem) (a n v : Nat) : rdN (wrN m a n v) a n = v % 256 ^ n := by
  have e := rdBs_wrBs_same m a (toLe n v)
  rw [length_toLe] at e
  rw [rdN, wrN, e, leNat_toLe]

theorem cells_bounds (bs : List Byte) : ∀ a c, c ∈ cells a bs → a ≤ c.1 ∧ c.1 < a + bs.length ∧ c.2 ≠ 0 := by
  induction bs with
  | nil => intro a c h; cases h
  | cons x r ih =>
    intro a c h
    unfold cells at h
    split at h
    · have := ih _ _ h
      simp only [List.length_cons]
      exact ⟨by omega, by omega, this.2.2⟩
    · rename_i hx
      cases h with
      | head => simp only [List.length_cons]; exact ⟨by omega, by omega, hx⟩
      | tail _ h =>
        have := ih _ _ h
        simp only [List.length_cons]
        exact ⟨by omega, by omega, this.2.2⟩

theorem cells_pairwise (bs : List Byte) : ∀ a, (cells a bs).Pairwise (fun x y => x.1 < y.1) := by
  induction bs with
  | nil => intro a; exact List.Pairwise.nil
  | cons x r ih =>
    intro a
    unfold cells
    split
    · exact ih _
    · refine List.Pairwise.cons ?_ (ih _)
      intro c hc
      have := cells_bounds r _ _ hc
      simp only
      omega

theorem Mem.wf_iff (m : Mem) :
    Mem.wf m = true ↔ m.Pairwise (fun a b => a.1 < b.1) ∧ ∀ c ∈ m, c.2 ≠ 0 := by
  simp [Mem.wf]

/-- Writing bytes keeps the canonical form. -/
theorem wrBs_wf (m : Mem) (a : Nat) (bs : List Byte) (h : Mem.wf m = true) : Mem.wf (wrBs m a bs) = true := by
  rw [Mem.wf_iff] at h ⊢
  obtain ⟨hp, hz⟩ := h
  unfold wrBs
  refine ⟨?_, ?_⟩
  · rw [List.pairwise_append, List.pairwise_append]
    refine ⟨hp.filter _, ⟨cells_pairwise bs a, hp.filter _, ?_⟩, ?_⟩
    · intro c hc e he
      have h1 := cells_bounds bs a c hc
      have h2 := (List.mem_filter.1 he).2
      simp only [decide_eq_true_eq] at h2
      omega
    · intro c hc e he
      have h1 := (List.mem_filter.1 hc).2
      simp only [decide_eq_true_eq] at h1
      rcases List.mem_append.1 he with he | he
      · have h2 := cells_bounds bs a e he
        omega
      · have h2 := (List.mem_filter.1 he).2
        simp only [decide_eq_true_eq] at h2
        omega
  · intro c hc
    rcases List.mem_append.1 hc with hc | hc
    · exact hz c (List.mem_of_mem_filter hc)
    · rcases List.mem_append.1 hc with hc | hc
      · exact (cells_bounds bs a c hc).2.2
      · exact hz c (List.mem_of_mem_filter hc)

/-- Clearing bytes keeps the canonical form. -/
theorem zeroBs_wf (m : Mem) (a n : Nat) (h : Mem.wf m = true) : Mem.wf (zeroBs m a n) = true := by
  rw [Mem.wf_iff] at h ⊢
  exact ⟨h.1.filter _, fun c hc => h.2 c (List.mem_of_mem_filter hc)⟩

/-- Writing a number keeps the canonical form. -/
theorem wrN_wf (m : Mem) (a n v : Nat) (h : Mem.wf m = true) : Mem.wf (wrN m a n v) = true := wrBs_wf m a _ h

/-- The entries that a list of bytes makes are in the canonical form. -/
theorem cells_wf (a : Nat) (bs : List Byte) : Mem.wf (cells a bs) = true :=
  (Mem.wf_iff _).2 ⟨cells_pairwise bs a, fun c hc => (cells_bounds bs a c hc).2.2⟩

end Sys2Proof.Machine
end

