-- ==== Sys2Proof/Laws/Tables.lean ====
section
/-!
SUPPORT. What reading a table gives after a write, and the module's records after an update of one of them.
-/

namespace Sys2Proof.Machine

open Sys2Proof

@[simp] theorem tget_tput_same {α : Type} (t : Tab α) (k : Nat) (v : α) : tget (tput t k v) k = some v := by
  induction t with
  | nil => simp [tput, tget]
  | cons e r ih =>
    unfold tput
    split
    · simp [tget]
    · split
      · simp [tget]
      · simp [tget, *]

theorem tget_tput_other {α : Type} (t : Tab α) {j k : Nat} (v : α) (h : j ≠ k) : tget (tput t k v) j = tget t j := by
  induction t with
  | nil => simp [tput, tget, Ne.symm h]
  | cons e r ih =>
    unfold tput
    split
    · simp [tget, Ne.symm h]
    · split
      · rename_i h2
        simp [tget, h2, Ne.symm h]
      · simp [tget, ih]

theorem tget_tdel_same {α : Type} (t : Tab α) (k : Nat) : tget (tdel t k) k = none := by
  induction t with
  | nil => rfl
  | cons e r ih =>
    by_cases h : e.1 = k
    · simpa [tdel, h] using ih
    · simp only [tdel, List.filter_cons] at ih ⊢
      simp [h, tget, ih]

theorem tget_tdel_other {α : Type} (t : Tab α) {j k : Nat} (h : j ≠ k) : tget (tdel t k) j = tget t j := by
  induction t with
  | nil => rfl
  | cons e r ih =>
    by_cases h2 : e.1 = k
    · have h3 : k ≠ j := fun h' => h h'.symm
      simpa [tdel, tget, h2, h3] using ih
    · simp only [tdel, List.filter_cons] at ih ⊢
      simp [h2, tget, ih]

@[simp] theorem getTile_setTile_same (d : Dev) (t : Nat) (x : Tile) : getTile (setTile d t x) t = x := by
  simp [getTile, setTile]

theorem getTile_setTile_other (d : Dev) {t u : Nat} (x : Tile) (h : u ≠ t) : getTile (setTile d t x) u = getTile d u := by
  simp [getTile, setTile, tget_tput_other _ _ h]

@[simp] theorem getTile_modTile_same (d : Dev) (t : Nat) (f : Tile → Tile) : getTile (modTile t f d) t = f (getTile d t) := by
  simp [modTile]

theorem getTile_modTile_other (d : Dev) {t u : Nat} (f : Tile → Tile) (h : u ≠ t) :
    getTile (modTile t f d) u = getTile d u := getTile_setTile_other d _ h

@[simp] theorem getMoon_modMoon_same (d : Dev) (m : Nat) (f : Moon → Moon) : getMoon (modMoon m f d) m = f (getMoon d m) := by
  simp [getMoon, modMoon, setMoon]

theorem getMoon_modMoon_other (d : Dev) {m n : Nat} (f : Moon → Moon) (h : n ≠ m) :
    getMoon (modMoon m f d) n = getMoon d n := by
  simp [getMoon, modMoon, setMoon, tget_tput_other _ _ h]

@[simp] theorem getChan_modChan_same (d : Dev) (c : Nat) (f : Chan → Chan) : getChan (modChan c f d) c = f (getChan d c) := by
  simp [getChan, modChan]

theorem getChan_modChan_other (d : Dev) {c e : Nat} (f : Chan → Chan) (h : e ≠ c) :
    getChan (modChan c f d) e = getChan d e := by
  simp [getChan, modChan, tget_tput_other _ _ h]

@[simp] theorem getMm_modMm_same (d : Dev) (q : Nat) (f : MemMoon → MemMoon) : getMm (modMm q f d) q = f (getMm d q) := by
  simp [getMm, modMm]

theorem getMm_modMm_other (d : Dev) {q r : Nat} (f : MemMoon → MemMoon) (h : r ≠ q) :
    getMm (modMm q f d) r = getMm d r := by
  simp [getMm, modMm, tget_tput_other _ _ h]

@[simp] theorem getDma_modDma_same (d : Dev) (c : Nat) (f : Dma → Dma) : getDma (modDma c f d) c = f (getDma d c) := by
  simp [getDma, modDma]

theorem getDma_modDma_other (d : Dev) {c e : Nat} (f : Dma → Dma) (h : e ≠ c) :
    getDma (modDma c f d) e = getDma d e := by
  simp [getDma, modDma, tget_tput_other _ _ h]

@[simp] theorem getPort_modPort_same (d : Dev) (p : Nat) (f : Port → Port) : getPort (modPort p f d) p = f (getPort d p) := by
  simp [getPort, modPort]

theorem getPort_modPort_other (d : Dev) {p q : Nat} (f : Port → Port) (h : q ≠ p) :
    getPort (modPort p f d) q = getPort d q := by
  simp [getPort, modPort, tget_tput_other _ _ h]

@[simp] theorem getMbx_modMbx_same (d : Dev) (m : Nat) (f : Mailbox → Mailbox) : getMbx (modMbx m f d) m = f (getMbx d m) := by
  simp [getMbx, modMbx]

theorem getMbx_modMbx_other (d : Dev) {m n : Nat} (f : Mailbox → Mailbox) (h : n ≠ m) :
    getMbx (modMbx m f d) n = getMbx d n := by
  simp [getMbx, modMbx, tget_tput_other _ _ h]

@[simp] theorem getPart_setPart_same (d : Dev) (p : Nat) (x : Part) : getPart (setPart p x d) p = some x := by
  simp [getPart, setPart]

theorem getPart_setPart_other (d : Dev) {p q : Nat} (x : Part) (h : q ≠ p) : getPart (setPart p x d) q = getPart d q := by
  simp [getPart, setPart, tget_tput_other _ _ h]

theorem getPart_modPart_same (d : Dev) (p : Nat) (f : Part → Part) : getPart (modPart p f d) p = (getPart d p).map f := by
  unfold modPart getPart
  split
  · rename_i h; simp [setPart, h]
  · rename_i h; simp [h]

theorem getPart_modPart_other (d : Dev) {p q : Nat} (f : Part → Part) (h : q ≠ p) :
    getPart (modPart p f d) q = getPart d q := by
  unfold modPart
  split
  · exact getPart_setPart_other d _ h
  · rfl

theorem withPart_some {d : Dev} {p : Nat} {x : Part} (f : Part → Dev → Dev) (h : getPart d p = some x) :
    withPart p f d = f x d := by
  simp only [getPart] at h
  simp [withPart, h]

theorem withPart_none {d : Dev} {p : Nat} (f : Part → Dev → Dev) (h : getPart d p = none) : withPart p f d = d := by
  simp only [getPart] at h
  simp [withPart, h]

/-- What holds before a run over a list, and each update keeps, holds after it. -/
theorem forEach_keeps {α : Type} (P : Dev → Prop) (f : α → Dev → Dev) (h : ∀ a d, P d → P (f a d)) (l : List α) :
    ∀ d, P d → P (forEach l f d) := by
  induction l with
  | nil => intro d hd; exact hd
  | cons a r ih => intro d hd; exact ih _ (h a d hd)

/-- A value that no update of a run changes is the same after the run. -/
theorem forEach_same {α β : Type} (g : Dev → β) (f : α → Dev → Dev) (h : ∀ a d, g (f a d) = g d) (l : List α) (d : Dev) :
    g (forEach l f d) = g d :=
  forEach_keeps (fun e => g e = g d) f (fun a e he => (h a e).trans he) l d rfl

end Sys2Proof.Machine
end

