-- ==== Sys2Proof/Laws/Ops.lean ====
section
/-! SUPPORT. What the operations that every meaning is lifted by can do: the guards on who is running, an MSI-X vector, a
mailbox answer, and the checks before a mailbox command. -/

namespace Sys2Proof.Machine

/-! ### Guards -/

theorem whenAwake_runs {f : Dev → Dev} {d : Dev} (h : awake d = true) : whenAwake f d = f d := by simp [whenAwake, h]
theorem whenAwake_still {f : Dev → Dev} {d : Dev} (h : awake d = false) : whenAwake f d = d := by simp [whenAwake, h]
theorem whenHw_runs {f : Dev → Dev} {d : Dev} (h : hwUp d = true) : whenHw f d = f d := by simp [whenHw, h]
theorem whenHw_still {f : Dev → Dev} {d : Dev} (h : hwUp d = false) : whenHw f d = d := by simp [whenHw, h]
theorem whenMp_runs {f : Dev → Dev} {d : Dev} (h : mpUp d = true) : whenMp f d = f d := by simp [whenMp, h]
theorem whenMp_still {f : Dev → Dev} {d : Dev} (h : mpUp d = false) : whenMp f d = d := by simp [whenMp, h]

/-- The MP runs only where the module's units run. -/
theorem awake_of_mpUp {d : Dev} (h : mpUp d = true) : awake d = true := by
  simp only [mpUp, Bool.and_eq_true] at h; exact h.1.1

/-- A guarded effect keeps what the effect keeps. -/
theorem whenAwake_keeps {α : Type} (g : Dev → α) {f : Dev → Dev} (h : ∀ d, g (f d) = g d) (d : Dev) :
    g (whenAwake f d) = g d := by unfold whenAwake; split <;> simp [h]
theorem whenHw_keeps {α : Type} (g : Dev → α) {f : Dev → Dev} (h : ∀ d, g (f d) = g d) (d : Dev) :
    g (whenHw f d) = g d := by unfold whenHw; split <;> simp [h]
theorem whenMp_keeps {α : Type} (g : Dev → α) {f : Dev → Dev} (h : ∀ d, g (f d) = g d) (d : Dev) :
    g (whenMp f d) = g d := by unfold whenMp; split <;> simp [h]

/-! ### Free values and time -/

@[simp] theorem draw_dev (w : Nat) (d : Dev) : (draw w d).2 = { d with free := d.free + 1 } := rfl

/-- Passing time changes wall time, machine time and the slew that is still to come, and nothing else. -/
theorem advance_frame (g : Nat) (d : Dev) : { advance g d with clk := d.clk, mt := d.mt } = d := rfl

@[simp] theorem advance_wall (g : Nat) (d : Dev) : (advance g d).clk.wall = d.clk.wall + g := rfl

theorem advanceTo_wall (w : Nat) (d : Dev) : (advanceTo w d).clk.wall = max w d.clk.wall := by
  simp only [advanceTo, advance_wall]; omega

/-! ### MSI-X vectors and mailbox answers -/

/-- A vector changes its table entry or sends its message, and nothing else (R387). -/
theorem raiseVec_frame (v : Nat) (d : Dev) : { raiseVec v d with msix := d.msix, out := d.out } = d := by
  unfold raiseVec; dsimp only; split <;> rfl

theorem raiseVec_mbx (v : Nat) (d : Dev) : (raiseVec v d).mbx = d.mbx := by
  unfold raiseVec; dsimp only; split <;> rfl

/-- An answer changes the mailbox and raises its vector, and nothing else. -/
theorem answer_frame (m st reason : Nat) (pl : List Byte) (d : Dev) :
    { answer m st reason pl d with mbx := d.mbx, msix := d.msix, out := d.out } = d := by
  unfold answer raiseVec; dsimp only; split <;> rfl

/-- An answered mailbox is DONE. -/
theorem answer_done (m st reason : Nat) (pl : List Byte) (d : Dev) :
    (getMbx (answer m st reason pl d) m).st = .done ∧ (getMbx (answer m st reason pl d) m).begun = false := by
  have h : ∀ e : Dev, getMbx (raiseVec (2 + m) e) m = getMbx e m := fun e => by simp [getMbx, raiseVec_mbx]
  simp [answer, h]

/-- An answer leaves every other mailbox alone. -/
theorem answer_other {m n : Nat} (st reason : Nat) (pl : List Byte) (d : Dev) (h : n ≠ m) :
    getMbx (answer m st reason pl d) n = getMbx d n := by
  have h' : ∀ e : Dev, getMbx (raiseVec (2 + m) e) n = getMbx e n := fun e => by simp [getMbx, raiseVec_mbx]
  simp only [answer, h']; exact getMbx_modMbx_other d _ h

/-! ### Mailbox commands -/

section
variable {code m : Nat} {f : List Byte → Dev → Dev} {d : Dev}

/-- A row whose turn it is not changes nothing. -/
theorem command_idle (h : isTurn d code m = false) : command code m f d = d := by simp [command, h]

/-- A request that the mailbox refuses is answered with the refusal (Table 15.9). -/
theorem command_refused {st reason : Nat} (h : isTurn d code m = true) (hr : rqRefusal d m = some (st, reason)) :
    command code m f d = answer m st reason [] d := by simp [command, h, hr]

/-- A request over the limit of ACCEPTED commands is answered BUSY (R383). -/
theorem command_full (h : isTurn d code m = true) (hr : rqRefusal d m = none) (hf : isFull d m = true) :
    command code m f d = answer m stBusy 0xF2 [] d := by simp [command, h, hr, hf]

/-- A request whose turn it is has its own effect. -/
theorem command_turn (h : isTurn d code m = true) (hr : rqRefusal d m = none) (hf : isFull d m = false) :
    command code m f d = f (rqPayload (getMbx d m)) d := by simp [command, h, hr, hf]

/-- The four ways a mailbox command goes. -/
theorem command_cases (code m : Nat) (f : List Byte → Dev → Dev) (d : Dev) :
    command code m f d = d ∨ (∃ st reason, command code m f d = answer m st reason [] d) ∨
      command code m f d = f (rqPayload (getMbx d m)) d := by
  unfold command
  split
  · split
    · exact .inr (.inl ⟨_, _, rfl⟩)
    · split
      · exact .inr (.inl ⟨_, _, rfl⟩)
      · exact .inr (.inr rfl)
  · exact .inl rfl

/-- A request of partition scope whose turn it is has its effect on the partition that holds the mailbox's block (R381). -/
theorem partCommand_turn {g : Part → List Byte → Dev → Dev} {x : Part} (h : isTurn d code m = true)
    (hr : rqRefusal d m = none) (hf : isFull d m = false) (hx : partOfBlock d (m / 4) = some x) :
    partCommand code m g d = g x (rqPayload (getMbx d m)) d := by
  rw [partCommand, command_turn h hr hf]; simp [hx]

end

end Sys2Proof.Machine
end

