-- ==== Sys2Proof/Laws/Time.lean ====
section
/-! SUPPORT. What passing wall time can do, and an event that comes at a moment: every due event goes through `whenDue`, so that
its three cases are said once. -/

namespace Sys2Proof.Machine

/-! ### The host's guards -/

theorem whenHost_runs {f : Dev → Dev} {d : Dev} (h : hwUp d = true) (i : ioSecure d = true) : whenHost f d = f d := by
  simp [whenHost, h, i]
theorem whenHost_still {f : Dev → Dev} {d : Dev} (h : hwUp d = false ∨ ioSecure d = false) : whenHost f d = d := by
  rcases h with h | h <;> simp [whenHost, h]
theorem whenBell_runs {f : Dev → Dev} {d : Dev} (h : awake d = true) (i : ioSecure d = true) : whenBell f d = f d := by
  simp [whenBell, h, i]
theorem whenBell_still {f : Dev → Dev} {d : Dev} (h : awake d = false ∨ ioSecure d = false) : whenBell f d = d := by
  rcases h with h | h <;> simp [whenBell, h]

/-- A guarded effect keeps what the effect keeps. -/
theorem whenHost_keeps {α : Type} (g : Dev → α) {f : Dev → Dev} (h : ∀ d, g (f d) = g d) (d : Dev) :
    g (whenHost f d) = g d := by unfold whenHost; split <;> simp [h]
theorem whenBell_keeps {α : Type} (g : Dev → α) {f : Dev → Dev} (h : ∀ d, g (f d) = g d) (d : Dev) :
    g (whenBell f d) = g d := by unfold whenBell; split <;> simp [h]

/-! ### The moons' ticks touch the clocks and machine time alone -/

/-- A module but for its clocks and machine time. -/
def untimed (d : Dev) : Dev := { d with clk := {}, mt := {} }

@[simp] theorem untimed_advance (g : Nat) (d : Dev) : untimed (advance g d) = untimed d := rfl
@[simp] theorem untimed_advanceTo (w : Nat) (d : Dev) : untimed (advanceTo w d) = untimed d := rfl
@[simp] theorem untimed_modMoon (m : Nat) (f : Moon → Moon) (d : Dev) : untimed (modMoon m f d) = untimed d := rfl

@[simp] theorem untimed_modMoons (l : List Nat) (f : Moon → Moon) (d : Dev) : untimed (modMoons l f d) = untimed d :=
  forEach_same untimed (fun m => modMoon m f) (fun _ _ => rfl) l d

@[simp] theorem untimed_beginTick (d : Dev) : untimed (beginTick d) = untimed d := by
  simp only [beginTick, untimed_advanceTo]
  rw [forEach_same untimed (fun m e => modMoon m (noteLead e m) e) (fun _ _ => rfl),
    forEach_same untimed (fun e : Nat × Nat => modMoon e.1 (moonTick (period d.clk.step) (tickPeriods d) e.2)) (fun _ _ => rfl)]

@[simp] theorem untimed_stepTicks (w fuel : Nat) (d : Dev) : untimed (stepTicks w fuel d) = untimed d := by
  induction fuel generalizing d with
  | zero => rfl
  | succ n ih => simp only [stepTicks]; split <;> simp [ih]

@[simp] theorem untimed_coast (w : Nat) (d : Dev) : untimed (coast w d) = untimed d := by
  simp only [coast]; split
  · rfl
  · split <;> simp

@[simp] theorem untimed_freeTicks (d : Dev) : untimed (freeTicks d) = untimed d :=
  forEach_same untimed (fun m => modMoon m (catchUp (moonPeriod d m) d.clk.wall)) (fun _ _ => rfl) _ d

@[simp] theorem untimed_passTo (w : Nat) (d : Dev) : untimed (passTo w d) = untimed d := by simp [passTo]

/-- Two modules that are equal but for their clocks and machine time. -/
theorem timed_of_untimed {d e : Dev} (h : untimed e = untimed d) : { e with clk := d.clk, mt := d.mt } = d :=
  congrArg (fun x : Dev => { x with clk := d.clk, mt := d.mt }) h

/-- Passing time changes the clocks and machine time, and nothing else. -/
theorem passTo_frame (w : Nat) (d : Dev) : { passTo w d with clk := d.clk, mt := d.mt } = d :=
  timed_of_untimed (untimed_passTo w d)

@[simp] theorem freeTicks_wall (d : Dev) : (freeTicks d).clk.wall = d.clk.wall :=
  forEach_same (fun d : Dev => d.clk.wall) (fun m => modMoon m (catchUp (moonPeriod d m) d.clk.wall)) (fun _ _ => rfl) _ d

/-- The moment that time passes to has come. -/
theorem passTo_wall (w : Nat) (d : Dev) : w ≤ (passTo w d).clk.wall := by
  simp only [passTo, freeTicks_wall, advanceTo_wall]; omega

/-! ### An event that comes at a moment -/

variable {w : Nat} {f : Dev → Dev} {d : Dev}

/-- Its moment has come. -/
theorem whenDue_now (h : w ≤ d.clk.wall) : whenDue w f d = f d := by simp [whenDue, h]

/-- Its moment comes with the wall time that passes by itself. -/
theorem whenDue_later (h : d.clk.wall < w) (m : mayPass w d = true) : whenDue w f d = f (passTo w d) := by
  simp [whenDue, Nat.not_le.mpr h, m]

/-- Its moment has not come. -/
theorem whenDue_early (h : d.clk.wall < w) (m : mayPass w d = false) : whenDue w f d = d := by
  simp [whenDue, Nat.not_le.mpr h, m]

/-- What holds of the module it leaves alone, and of the event in the module it happens in, holds of what it leaves. -/
theorem whenDue_keeps {α : Type} (g : Dev → α) (hf : ∀ e, g (f e) = g e) (hp : g (passTo w d) = g d) :
    g (whenDue w f d) = g d := by
  unfold whenDue; split
  · exact hf d
  · split
    · rw [hf, hp]
    · rfl

/-- Wall time that passes by itself changes the clocks and machine time, and nothing else. -/
theorem letPass_frame (g : Nat) (d : Dev) : { letPass g d with clk := d.clk, mt := d.mt } = d := by
  unfold letPass; split
  · exact passTo_frame _ d
  · rfl

end Sys2Proof.Machine
end

