-- ==== Sys2Proof/WellFormed.lean ====
section
/-!
DEFINITION. Which commands are well formed: numbers and lists that the module's interfaces can carry. Unit numbers need no check,
since they are `Fin`.
-/

namespace Sys2Proof

/-- Findings that name units the module has (R428, Table 17.8). -/
def Findings.wellFormed (f : Findings) : Bool :=
  f.tiles.all (· < 2400) && f.crossings.all (· < 48) && f.channels.all (· < 48) && f.memMoons.all (· < 4) &&
    f.lanes.all (· < 160) && f.linkMoons.all (· < 4) && f.seams.all (· < 64) && f.dma.all (· < 32) && f.untrained.all (· < 48)

/-- A CXL.mem access of at most 64 bytes inside one page of the window (R376). -/
def windowAccess (off : BitVec 36) (len : Nat) : Bool :=
  decide (1 ≤ len) && decide (len ≤ 64) && decide (off.toNat % 65536 + len ≤ 65536)

/-- Bytes of a register space (R112, R183, R374), of a memory or table that the MP reaches (R76, R142, R235), of configuration space
and of the capability of one HDM decoder (R370). -/
def Space.size : Space → Nat
  | .bar0 => 0x4000000
  | .tile _ => 0x10000
  | .moon _ => 0x1000
  | .commandMemory _ => 0x10000
  | .scratchpad _ => 0x30000
  | .contextTable => 0x800000
  | .weightTable => 0x200000
  | .config => 0x1000
  | .hdmDecoder => 0x30

/-- A register access of 1 to 8 bytes inside its space. -/
def regAccess (sp : Space) (off : BitVec 26) (bytes : Nat) : Bool :=
  decide (1 ≤ bytes) && decide (bytes ≤ 8) && decide (off.toNat + bytes ≤ sp.size)

/-- A command whose operands lie in their ranges; the host link trains at the widths and rates of Table 15.1 alone (R370). -/
def Instr.wellFormed (i : Instr) : Bool :=
  match i with
  | .eccRead _ count => decide (count < 2 ^ 32)
  | .shardFetchDone _ _ shard => decide (shard < 2 ^ 32)
  | .shardTimeout _ _ shard => decide (shard < 2 ^ 32)
  | .bistRunEnd f => f.wellFormed
  | .recoveryGo f => f.wellFormed
  | .internalResetRelease f => f.wellFormed
  | .stepChangeResume ns => decide (500 ≤ ns) && decide (ns ≤ 2000)
  | .trainingCell _ cell => decide (cell.length = 256)
  | .packetReceived _ cells => decide (cells.length % 260 = 0)
  | .dueSlotEnd _ pos => decide (pos < 2 ^ 20)
  | .windowRead off len => windowAccess off len
  | .windowWrite off bytes => windowAccess off bytes.length
  | .windowTimeout off len => windowAccess off len
  | .readClear sp off wide => regAccess sp off (if wide then 8 else 4)
  | .registerWrite sp off bytes _ => regAccess sp off bytes
  | .hostLinkTrained _ width rate => decide (2 ≤ width.toNat) && decide (width.toNat ≤ 4) && decide (1 ≤ rate.toNat) &&
      decide (rate.toNat ≤ 3)
  | .bar0ErrRead off bytes => regAccess .bar0 off bytes
  | .nop .. | .illOpc .. | .matq .. | .matqDrain .. | .vecq .. | .funq .. | .send .. | .recv .. | .load .. | .store ..
  | .wait .. | .waitRelease .. | .holdEnd .. | .holdLimitExpiry .. | .cnt .. | .cmp .. | .skip .. | .rept .. | .spld ..
  | .mark .. | .brk .. | .breakPark .. | .orbitBoundary .. | .pacingEnd .. | .slotStageWrite .. | .meshArrival ..
  | .memoryDelivery .. | .fenceReceive .. | .storeWrite .. | .refresh .. | .routineRetraining .. | .crcRetraining ..
  | .trainingPass .. | .trainingFail .. | .readCrcFail .. | .deviceTemperatureRead .. | .tieredRead .. | .pageMap ..
  | .pageUnmap .. | .pageRead .. | .dmaEn .. | .abort .. | .resume .. | .tail .. | .descriptorRead ..
  | .descriptorReadFail .. | .lockWaitEnd .. | .burst .. | .hostCompletionTimeout .. | .writeBack ..
  | .abortWriteBack .. | .submit .. | .admitWrite .. | .placement .. | .stale .. | .placementReceive ..
  | .slotTableBuild .. | .tokenDelivery .. | .gap .. | .weightLoad .. | .weightFlip .. | .weightRelease ..
  | .adapterLoad .. | .adapterDelete .. | .installOpen .. | .imageBegin .. | .blockWrite .. | .imageCommit ..
  | .imageDelete .. | .installClose .. | .journalReplay .. | .storeReady .. | .post .. | .mpAccept .. | .auto ..
  | .shed .. | .shedClear .. | .partCreate .. | .partDestroy .. | .timeRoot .. | .stepLimit .. | .transitRead ..
  | .dirRead .. | .planLoad .. | .planUnload .. | .partStop .. | .partRestart .. | .partResume .. | .levelReport ..
  | .holdLimit .. | .selectorLoad .. | .reqCancel .. | .reqEclipse .. | .reqResume .. | .reqRemap .. | .budgetSet ..
  | .rankWrite .. | .jobPrepare .. | .jobGo .. | .jobStop .. | .ckptTake .. | .ckptRestore .. | .routeSwitch ..
  | .portRead .. | .portCtrl .. | .bistRun .. | .craterRead .. | .escalationSet .. | .faultHoldClear ..
  | .tokenApply .. | .go .. | .refPref .. | .droop .. | .tideExcursion .. | .tideCeilingRaise .. | .couplingPause ..
  | .referenceBad .. | .referenceGood .. | .holdoverExpiry .. | .pllLockLoss .. | .pllRelock .. | .pllFail ..
  | .seamPhaseError .. | .seamRealign .. | .seamFail .. | .portEn .. | .retrain .. | .dark .. | .forceDown ..
  | .jobIdWrite .. | .laneAcquisitionTimeout .. | .trainTimeout .. | .deliveryPush .. | .streamAppend ..
  | .slotStart .. | .cometSlot .. | .lockLoss .. | .lockRegain .. | .laneFailed .. | .portOutageExpiry .. | .haloReq ..
  | .haloAck .. | .deskewDone .. | .substTimeout .. | .farDownSeen .. | .laserOff .. | .receipt .. | .fabSecond ..
  | .orbitMark .. | .checkpointWriteDone .. | .markTimeout .. | .time .. | .timeParentLoss .. | .mgmt ..
  | .discTimeout .. | .jobStart .. | .faultEvent .. | .pulseEnd .. | .watchdog .. | .seFail .. | .aliveToggle ..
  | .ideIntegrity .. | .getVersion .. | .getCapabilities .. | .negotiateAlgorithms .. | .getDigests ..
  | .getCertificate .. | .challenge .. | .getMeasurements .. | .keyExchange .. | .finish .. | .keyUpdate ..
  | .heartbeat .. | .endSession .. | .setEndpointId .. | .getEndpointId .. | .getMctpVersionSupport ..
  | .getMessageTypeSupport .. | .identRead .. | .sensorRead .. | .powerLimit .. | .faultSummary .. | .quiesce ..
  | .inputRise .. | .inputRange .. | .inputFall .. | .holdUpEnd .. | .overvoltage .. | .railFail ..
  | .powerMeasurement .. | .powerCeilingRaise .. | .thermalRead .. | .sensorFail .. | .vcoreUv .. | .vcoreOv ..
  | .vcoreOcp .. | .phaseFail .. | .rstN .. | .perstN .. | .snoop .. | .biasFlip .. | .commandMemoryWrite ..
  | .scratchpadWrite .. | .clear .. | .dbgEn .. | .manifestReadDone .. | .manifestReadTimeout ..
  | .retrainingDeferralExpiry .. | .runningEntryCleanUpDone .. | .ideKeyManagement .. | .doeDiscovery ..
  | .ieee11491Instruction .. | .heartbeatIncrement .. => true

end Sys2Proof
end

