-- ==== Sys2Proof/Tests/Slice0.lean ====
section
/-!
SUPPORT. Tests: ill-formed commands are refused by the check of well-formedness, commands do on small modules what the spec says,
and, for each statement, states and operands that meet its hypotheses, clause by clause (`witness_…`). Clauses whose
hypotheses need a whole valid plan, selector table, boot image or recovery image (16 KiB and more, hashed and signed) are left out: the
kernel cannot evaluate those in reasonable time.
-/

open Sys2Proof Sys2Proof.Machine

namespace Sys2Proof.Tests

set_option Elab.async false

/-! ### Commands that are not well formed -/

theorem test_wf_ecc_read : Instr.wellFormed (.eccRead 0 (2 ^ 32)) = false ∧ Instr.wellFormed (.eccRead 0 (2 ^ 32 - 1)) = true := by
  decide
theorem test_wf_shard_fetch_done : Instr.wellFormed (.shardFetchDone 0 0 (2 ^ 32)) = false := by decide
theorem test_wf_shard_timeout : Instr.wellFormed (.shardTimeout 0 0 (2 ^ 32)) = false := by decide
theorem test_wf_bist_run_end : Instr.wellFormed (.bistRunEnd { tiles := [2400] }) = false ∧
    Instr.wellFormed (.bistRunEnd { tiles := [2399] }) = true := by decide
theorem test_wf_recovery_go : Instr.wellFormed (.recoveryGo { channels := [48] }) = false := by decide
theorem test_wf_internal_reset_release : Instr.wellFormed (.internalResetRelease { dma := [32] }) = false := by decide
theorem test_wf_step_change_resume : Instr.wellFormed (.stepChangeResume 499) = false ∧ Instr.wellFormed (.stepChangeResume 500) = true ∧
    Instr.wellFormed (.stepChangeResume 2000) = true ∧ Instr.wellFormed (.stepChangeResume 2001) = false := by decide
theorem test_wf_training_cell : Instr.wellFormed (.trainingCell 0 [0]) = false ∧ Instr.wellFormed (.trainingCell 0 (List.replicate 256 0)) = true := by
  decide +kernel
theorem test_wf_packet_received : Instr.wellFormed (.packetReceived 0 [0]) = false ∧ Instr.wellFormed (.packetReceived 0 []) = true := by
  decide
theorem test_wf_due_slot_end : Instr.wellFormed (.dueSlotEnd 0 (2 ^ 20)) = false := by decide
theorem test_wf_window_read : Instr.wellFormed (.windowRead 0 0) = false ∧ Instr.wellFormed (.windowRead 65472 64) = true ∧
    Instr.wellFormed (.windowRead 65473 64) = false := by decide
theorem test_wf_window_write : Instr.wellFormed (.windowWrite 0 []) = false := by decide
theorem test_wf_window_timeout : Instr.wellFormed (.windowTimeout 0 65) = false := by decide
theorem test_wf_read_clear : Instr.wellFormed (.readClear (.tile 0) 0xFFFC true) = false ∧
    Instr.wellFormed (.readClear (.tile 0) 0xFFFC false) = true := by decide
theorem test_wf_register_write : Instr.wellFormed (.registerWrite .bar0 0 9 0) = false ∧
    Instr.wellFormed (.registerWrite (.moon 0) 0xFFD 4 0) = false := by decide
theorem test_wf_host_link_trained : Instr.wellFormed (.hostLinkTrained true 1 3) = false ∧
    Instr.wellFormed (.hostLinkTrained true 4 4) = false ∧ Instr.wellFormed (.hostLinkTrained true 2 1) = true := by decide
theorem test_wf_bar0_err_read : Instr.wellFormed (.bar0ErrRead 0 0) = false := by decide

/-! ### Small modules -/

/-- A module in service with its host link trained. -/
def up : Dev := { pwr := { resetHeld := false }, glb := { mpReady := true, width := 4, rate := 3, cxl := true } }

/-- A check of the module that a command leaves. -/
def gives (c : Instr) (d : Dev) (P : Dev → Bool) : Bool :=
  match exec c ⟨[], d⟩ with
  | .next s => P s.dev
  | _ => false

/-- A plan of 16,384 ticks on block 0, untagged, with no ports. -/
def info : PlanInfo := ⟨1, false, false, 16384, 0, 7, 0, ⟨0, true, false, 2, 4, 8, 8, 0, 0⟩, ⟨1, 0, false, 0, 0, 0, [], []⟩, [], [], 0, []⟩

/-- Partition 0, of block 0 alone, with a plan that runs. -/
def part : Part := { pid := 0, mask := 1, plan := .running, info := some info }

/-- A module whose partition 0 runs, with one tile of it. -/
def withTile (t : Tile) : Dev := { up with parts := [(0, part)], tiles := [(0, t)] }

/-- The 16 bytes of a command word (Table 3.1): OPC, PRED, ISSUE and its operands; QA, QB, QD and TAG are 0. -/
def word (opc pred ops : Nat) : Mem := cells 0 (toLe 16 (opc + pred * 2 ^ 8 + 2 * 2 ^ 16 + ops * 2 ^ 64))

/-- A running tile that is due to issue one command word. -/
def issuing (opc ops : Nat) : Tile := { mode := .run, cmem := word opc 0 ops }

/-! ### The block and its queue -/

theorem test_step_takes_the_front : step ⟨[.snoop, .biasFlip], up⟩ = .next ⟨[.biasFlip], { up with out := { miss := true } }⟩ := rfl
theorem test_reset_idles : step State.reset = .next State.reset := rfl

/-- The window of R400 is open on a PROVISIONED module; the same access to a register outside it completes. -/
theorem witness_CommandsKeepTheQueue : diagHit up .bar0 0x3000000 4 = true ∧ diagHit up .bar0 0 4 = false ∧
    gives (.registerWrite .bar0 0 4 0) up (fun _ => true) = true := by decide +kernel

/-! ### Tile commands -/

/-- A module at a wall time, and with a plan that runs, under which wall time passes only by ticks. -/
def atWall (w : Nat) (d : Dev) : Dev := { d with clk := { d.clk with wall := w } }
def running (d : Dev) : Dev := { d with parts := [(0, part)] }

/-- With a plan that runs, a command whose moment has not come leaves the module as it is. -/
def stays (c : Instr) (w : Nat) (d : Dev) : Bool :=
  let d := if d.parts.isEmpty then running d else { d with parts := d.parts ++ [(15, { part with pid := 15, mask := 0x8000 })] }
  decide (d.clk.wall < w) && !mayPass w d && gives c d (fun e => e = d)

/-- A tile whose next command a shadow skips, one with a reserved SRC of CNT, and one whose break count comes. -/
def shadowed : Tile := { issuing 0x20 0 with skipLeft := 1 }
def reserved : Tile := issuing 0x20 (3 * 4)
def breaking : Tile := { issuing 0x00 0 with brkCtrl := 0b11, brkCount := 1 }

theorem witness_SkippedAndReservedCommands :
    (Unbroken shadowed ∧ issueDue part shadowed = true ∧ active part = true ∧ partOfTile (withTile shadowed) 0 = some part ∧
      gives (.cnt 0) (withTile shadowed) (fun e => (getTile e 0).pc = 1 && (getTile e 0).skipLeft = 0) = true) ∧
    (Runs 0x20 false 0 part (withTile reserved) ∧
      gives (.cnt 0) (withTile reserved) (fun e => (getTile e 0).seqStatus.getLsbD 5) = true) ∧
    (breakMatch (counted breaking) (fetch breaking) = true ∧ Issues 0x00 false 0 part (withTile breaking) ∧
      gives (.nop 0) (withTile breaking) (fun e => (getTile e 0).brkHit) = true) := by
  repeat' apply And.intro
  all_goals first | decide +kernel | (unfold Unbroken; decide +kernel)

/-- Operands of CNT (IMM 7 into CTR0), CMP (CTR1 with IMM 5, less), REPT (a body of 3, 10 times) and MARK STAMP with ID 3. -/
def opsCnt : Nat := 7 * 2 ^ 32
def opsCmp : Nat := 1 * 4 + 2 * 16 + 5 * 2 ^ 32
def opsRept : Nat := 2 + 9 * 2 ^ 8
def opsStamp : Nat := 1 + 3 * 2 ^ 16
def nested : Tile := { issuing 0x23 opsRept with loops := List.replicate 4 ⟨0, 9, 2⟩ }

/-- What Tables 3.5 and 3.6 and R87, R91 to R93, R95 say of the words above. -/
theorem witness_ControlCommandsOfATile :
    (Runs 0x00 false 0 part (withTile (issuing 0x00 0)) ∧
      gives (.nop 0) (withTile (issuing 0x00 0)) (fun e => (getTile e 0).pc = 1) = true) ∧
    (Runs 0x20 false 0 part (withTile (issuing 0x20 opsCnt)) ∧
      gives (.cnt 0) (withTile (issuing 0x20 opsCnt)) (fun e => (getTile e 0).ctr0 = 7) = true) ∧
    (Runs 0x21 false 0 part (withTile (issuing 0x21 opsCmp)) ∧
      gives (.cmp 0) (withTile (issuing 0x21 opsCmp)) (fun e => (getTile e 0).pred = 1) = true) ∧
    (Runs 0x22 false 0 part (withTile (issuing 0x22 255)) ∧
      gives (.skip 0) (withTile (issuing 0x22 255)) (fun e => (getTile e 0).skipLeft = 255) = true) ∧
    (Runs 0x24 false 0 part (withTile { issuing 0x24 0 with slotStage := 5 }) ∧
      gives (.spld 0) (withTile { issuing 0x24 0 with slotStage := 5 }) (fun e => (getTile e 0).slotPred = 5) = true) ∧
    (Runs 0x23 true 0 part (withTile (issuing 0x23 opsRept)) ∧
      gives (.rept 0) (withTile (issuing 0x23 opsRept)) (fun e => (getTile e 0).loops = [⟨1, 3, 10⟩]) = true) ∧
    (Runs 0x23 true 0 part (withTile nested) ∧
      gives (.rept 0) (withTile nested) (fun e => (getTile e 0).seqStatus.getLsbD 3) = true) ∧
    (Runs 0x30 true 0 part (withTile (issuing 0x30 0)) ∧
      gives (.mark 0) (withTile (issuing 0x30 0)) (fun e => (getTile e 0).ended) = true) ∧
    (Runs 0x30 true 0 part (withTile (issuing 0x30 opsStamp)) ∧
      gives (.mark 0) (withTile (issuing 0x30 opsStamp)) (fun e => (getTile e 0).markLog = BitVec.ofNat 64 (2 ^ 63 + 3 * 2 ^ 40)) =
        true) := by
  repeat' apply And.intro
  all_goals first | decide +kernel | (unfold Unbroken; decide +kernel)

/-- Operands: MATQ that clears and drains (E4M3 times E4M3, one step and column), VECQ ADD and FUNQ function 1 of one FP32 vector,
SEND of one element east, RECV and WAIT of one element. -/
def opsMat : Nat := 2 ^ 61 + 2 ^ 62
def opsVec : Nat := 1 + 6 * 2 ^ 8 + 6 * 2 ^ 12 + 2 ^ 16
def opsFun : Nat := 1 + 6 * 2 ^ 8 + 6 * 2 ^ 12 + 2 ^ 16

theorem witness_ComputeCommandsStartTheirUnit :
    (Runs 0x01 false 0 part (withTile (issuing 0x01 opsMat)) ∧ matBad opsMat = false ∧
      gives (.matq 0) (withTile (issuing 0x01 opsMat)) (fun e => (getTile e 0).mat.drain.isSome && (getTile e 0).mat.acc = []) = true) ∧
    (Runs 0x02 false 0 part (withTile (issuing 0x02 opsVec)) ∧ vecBad opsVec = false ∧
      gives (.vecq 0) (withTile (issuing 0x02 opsVec)) (fun e => ((getTile e 0).vec.cur.map (·.n)) = some 1) = true) ∧
    (Runs 0x03 false 0 part (withTile (issuing 0x03 opsFun)) ∧ funBad opsFun = false ∧
      gives (.funq 0) (withTile (issuing 0x03 opsFun)) (fun e => ((getTile e 0).fn.cur.map (·.n)) = some 1) = true) := by
  repeat' apply And.intro
  all_goals first | decide +kernel | (unfold Unbroken; decide +kernel)

/-- Tiles whose SEND and RECV engines are at work when the next command comes. -/
def sending : Tile := { issuing 0x10 1 with eng := { send := some ⟨2, 0, 0, 0⟩ } }
def receiving : Tile := { issuing 0x11 1 with eng := { recv := some ⟨2, 24, 0, 0⟩ } }

theorem witness_MovementCommandsStartTheirEngine :
    (Runs 0x10 false 0 part (withTile (issuing 0x10 1)) ∧
      gives (.send 0) (withTile (issuing 0x10 1)) (fun e => (getTile e 0).eng.send.isSome) = true) ∧
    (Runs 0x10 false 0 part (withTile sending) ∧
      gives (.send 0) (withTile sending) (fun e => (getTile e 0).seqStatus.getLsbD 4) = true) ∧
    (Runs 0x11 false 0 part (withTile (issuing 0x11 1)) ∧
      gives (.recv 0) (withTile (issuing 0x11 1)) (fun e => (getTile e 0).eng.recv.isSome) = true) ∧
    (Runs 0x11 false 0 part (withTile receiving) ∧
      gives (.recv 0) (withTile receiving) (fun e => (getTile e 0).seqStatus.getLsbD 4) = true) ∧
    (Runs 0x14 false 0 part (withTile (issuing 0x14 1)) ∧
      gives (.wait 0) (withTile (issuing 0x14 1)) (fun e => ((getTile e 0).wait.map (·.release)) = some 2) = true) ∧
    (Runs 0x14 false 0 part (withTile (issuing 0x14 0)) ∧
      gives (.wait 0) (withTile (issuing 0x14 0)) (fun e => ((getTile e 0).wait.map (·.met)) = some (some 0)) = true) := by
  repeat' apply And.intro
  all_goals first | decide +kernel | (unfold Unbroken; decide +kernel)

/-- A BRK with DBG_EN and CMD_EN set, and a partition whose break is 16 ticks old. -/
def brkTile : Tile := { issuing 0x31 0 with brkCtrl := 0b1001 }
def broken : Dev := { withTile { mode := .run, brkTick := 100 } with parts := [(0, { part with now := 116, brk := some ⟨100⟩ })] }

theorem witness_BreaksParkThePartition :
    (Runs 0x31 false 0 part (withTile brkTile) ∧ getPart (withTile brkTile) part.pid = some part ∧
      gives (.brk 0) { withTile { brkTile with nextIssue := 5 } with parts := [(0, { part with now := 5 })] }
        (fun e => (getTile e 0).brkHit && (getTile e 0).brkTick = 5 && (getPart e 0).map (·.brk) = some (some ⟨5⟩)) = true) ∧
    (Runs 0x31 false 0 part (withTile (issuing 0x31 0)) ∧
      gives (.brk 0) (withTile (issuing 0x31 0)) (fun e => (getTile e 0).brkHit) = false) ∧
    (awake broken = true ∧ gives (.breakPark 0) broken (fun e => (getTile e 0).mode = .parked && (getTile e 0).resumable) = true) := by
  repeat' apply And.intro
  all_goals first | decide +kernel | (unfold Unbroken; decide +kernel)

theorem witness_BadFetchesHaltTheTile :
    (getTile (parkTiles 0 (withTile { mode := .run, halting := true })) 0).mode = .halted ∧
    (getTile (parkTiles 0 (withTile { mode := .run })) 0).mode = .parked ∧
    (let d := withTile { issuing 0x00 0 with cmemBad := [15] }
     fetchBad (getTile d 0) = true ∧ gives (.nop 0) d (fun e => (getTile e 0).haltCause = 1 && (getTile e 0).halting && (getTile e 0).mode = .run &&
       e.flt.hold) = true) ∧
    (let d := withTile (issuing 0x04 0)
     fetchBad (getTile d 0) = false ∧ listedOpc (fetch (getTile d 0)).opc = false ∧ issueDue part (getTile d 0) = true ∧
       gives (.illOpc 0) d (fun e => (getTile e 0).haltCause = 2 && ((getPart e 0).map (fun y => (y.plan, y.stopping))) = some (.stopped, true)) = true) := by
  repeat' apply And.intro
  all_goals decide +kernel

/-! ### WAITs, the mesh, memory -/

/-- A WAIT for one element of a decoupling and of a memory queue, at its release tick, held or not, with its element there or not. -/
def waiting (q count : Nat) (hold : Option Nat) : Dev :=
  withTile { mode := .run, wait := some ⟨q, 1, 0, 0, none, hold, 0⟩, queues := [(q, { depth := 4, wcode := 1, count := count, pushed := count })] }

theorem witness_WaitsReleaseOrHold :
    (waitMet (getTile (waiting 24 1 none) 0) ⟨24, 1, 0, 0, none, none, 0⟩ = true ∧
      gives (.waitRelease 0) (waiting 24 1 none) (fun e => (getTile e 0).wait = none && (getSlice e 0 0).waitCount0 = 1) = true) ∧
    gives (.waitRelease 0) (waiting 28 1 none) (fun e => (getTile e 0).wait = none && (getSlice e 0 0).waitCount1 = 1) = true ∧
    (waitMet (getTile (waiting 24 0 none) 0) ⟨24, 1, 0, 0, none, none, 0⟩ = false ∧
      gives (.waitRelease 0) (waiting 24 0 none) (fun e => ((getTile e 0).wait.map (·.hold)) = some (some 0)) = true) ∧
    (abandonFrees part ⟨28, 1, 0, 0, none, none, 0⟩ = false ∧
      gives (.waitRelease 0) (waiting 28 0 none) (fun e => ((getTile e 0).wait.map (·.hold)) = some (some 0)) = true) := by
  repeat' apply And.intro
  all_goals decide +kernel

theorem witness_HoldsEndOrHalt :
    gives (.holdEnd 0) (waiting 24 1 (some 0)) (fun e => (getTile e 0).wait = none) = true ∧
    gives (.holdLimitExpiry 0) (waiting 24 0 (some 0)) (fun e => (getTile e 0).halting && e.clk.wall = usG 2000) = true ∧
    mayPass (usG 2000) (waiting 24 0 (some 0)) = true ∧ mayPass (usG 2000) { waiting 24 0 (some 0) with
      tiles := (waiting 24 0 (some 0)).tiles ++ [(1, { mode := .run, wait := some ⟨24, 0, 0, 0, none, some 0, 0⟩ })] } = false := by
  repeat' apply And.intro
  all_goals decide +kernel

/-- An element for tile 0 at its local output; a LOAD of four zero bytes that waits; a STORE's element in the write buffer. -/
def meshWord : MeshWord := ⟨[5], 0, 0, false, 0, 0, false⟩
def arriving : Dev := withTile { mode := .run, queues := [(0, { depth := 4, wcode := 1 })]
                                 router := { arrivals := [⟨0, 0, meshWord, .link⟩] } }
def loading : Dev := withTile { mode := .run, queues := [(24, { depth := 4, wcode := 1 })]
                                reqs := [⟨0, false, 0, 1, 4, 0, [⟨4, .gddr 0⟩], 0, none, 0, []⟩] }
def upChan : Chan := { st := .up }
def storing : Dev := { up with chans := [(0, upChan)], mm := [(0, { wbuf := [⟨0, 0, 0, [⟨2, .gddr 64⟩], [7, 8], 0, false, []⟩], ringIn := [511] })] }

theorem witness_MovementsOfDataLand :
    (meshMine 0 (getTile arriving 0) meshWord = true ∧ hdrBad meshWord = false ∧
      gives (.meshArrival 0) arriving (fun e => (getQ (getTile e 0) 0).count = 1 && rdB (getTile e 0).spad 0 = 5) = true) ∧
    (oldestLoad (getTile loading 0) 0 = some ⟨0, false, 0, 1, 4, 0, [⟨4, .gddr 0⟩], 0, none, 0, []⟩ ∧
      gives (.memoryDelivery 0 0) { loading with chans := [(0, upChan)] }
        (fun e => (getQ (getTile e 0) 24).count = 1 && (getTile e 0).reqs = []) = true) ∧
    (let d := { loading with tiles := loading.tiles.map (fun e => (e.1, { e.2 with reqs := e.2.reqs.map (fun r => { r with slot := some 3 }) }))
                             mm := [(0, { slotFence := 8 })] }
     gives (.memoryDelivery 0 0) d (fun e => (getQ (getTile e 0) 24).count = 1) = true) ∧
    gives (.storeWrite 0 0) { storing with mm := [(0, { wbuf := [⟨0, 0, 0, [⟨2, .gddr 64⟩], [7, 8], 0, true, []⟩] })] }
      (fun e => e.gddr = [] && e.flt.halts = 1 && (getMm e 0).wbuf = []) = true ∧
    gives (.storeWrite 0 0) storing (fun e => e.gddr = [(64, 7), (65, 8)] && (getMm e 0).wbuf = []) = true ∧
    gives (.fenceReceive 0) storing (fun e => (getMm e 0).slotFence.getLsbD 511 && (getMm e 0).ringIn = []) = true := by
  repeat' apply And.intro
  all_goals decide +kernel

/-- MODE 0b01, page 0, one element; context page 0 maps frame 0, pinned and writable. -/
def opsMem : Nat := 2 ^ 40 + 2 ^ 42
def mapped (t : Tile) : Dev := { withTile t with cpt := [(0, 0xB)], chans := [(0, upChan)] }
def ldTile : Tile := { issuing 0x12 opsMem with queues := [(24, { depth := 4, wcode := 1 })] }

theorem witness_LoadAndStoreTakeAnEntry :
    (Runs 0x12 false 0 part (mapped ldTile) ∧ moveBad opsMem (moveWidth ldTile false (fetch ldTile)) false = false ∧
      resolveReq (mapped ldTile) part 0 opsMem (moveWidth ldTile false (fetch ldTile)) false =
        .ok [⟨moveWidth ldTile false (fetch ldTile), .gddr 0⟩] none none 0 ∧
      gives (.load 0) (mapped ldTile) (fun e => (getTile e 0).reqs.length = 1) = true) ∧
    (Runs 0x13 false 0 part (mapped (issuing 0x13 opsMem)) ∧
      gives (.store 0) (mapped { issuing 0x13 opsMem with queues := [(0, { depth := 4, wcode := 1 })] })
        (fun e => (getTile e 0).reqs.length = 1 && (getTile e 0).eng.store.isSome) = true) := by
  repeat' apply And.intro
  all_goals first | decide +kernel | (unfold Unbroken; decide +kernel)

/-- A drain that is due, a selector table at tick 128, the end of an orbit, a paced start. -/
def draining : Dev := withTile { mode := .run, nextIssue := 9, mat := { drain := some ⟨0, 0, 1, 1, 3, 0⟩ } }
def staging : Dev := { withTile {} with parts := [(0, { part with tick := 128, now := 128, srv := {
  sel := some ⟨0, 0, 0, 0, 0, [(0, [BitVec.ofNat 16 (0x3F * 512)])], 0⟩ } })] }
def atEnd : Dev := { withTile { mode := .run, pc := 7 } with parts := [(0, { part with tick := 16384, now := 16384 })] }
def paced : Dev := { withTile {} with parts := [(0, { part with fab := { pace := some 0, paceMt := some 0 } })] }

theorem witness_TheOrbitTurns :
    gives (.matqDrain 0) draining (fun e => (getTile e 0).mat.drain = none && (getTile e 0).matPipe.length = 1) = true ∧
    gives (.slotStageWrite 0) staging (fun e => (getTile e 0).slotStage = 1) = true ∧
    gives (.orbitBoundary 0) atEnd (fun e => (getPart e 0).map (fun y => (y.orbit, y.tick, y.orbits)) = some (1, 0, 1) &&
      (getTile e 0).pc = 0) = true ∧
    gives (.pacingEnd 0) paced (fun e => (getPart e 0).map (·.fab.pace) = some none) = true := by
  repeat' apply And.intro
  all_goals decide +kernel

/-! ### GDDR7 channels and the CXL.mem window -/

/-- A module whose channel 0 is so, its partition running or not. -/
def withChan (c : Chan) : Dev := { up with chans := [(0, c)] }

theorem witness_ChannelsTrainAndFail :
    (chanRuns (running (withChan upChan)) 0 = true ∧ gives (.routineRetraining 0) (atWall (retrainDue upChan) (running (withChan upChan)))
      (fun e => (getChan e 0).deferred && (getChan e 0).st = .up) = true) ∧
    (mayPass (retrainDue upChan) (running (withChan upChan)) = false ∧
      gives (.routineRetraining 0) (running (withChan upChan)) (fun e => !(getChan e 0).deferred && (getChan e 0).st = .up) = true) ∧
    (chanRuns (withChan upChan) 0 = false ∧ gives (.routineRetraining 0) (atWall (retrainDue upChan) (withChan upChan))
      (fun e => (getChan e 0).st = .retraining) = true) ∧
    gives (.retrainingDeferralExpiry 0) (withChan { upChan with deferred := true }) (fun e => (getChan e 0).st = .retraining) = true ∧
    (mayPass (msG 5) (withChan { upChan with deferred := true }) = true ∧
      gives (.retrainingDeferralExpiry 0) (atWall (msG 5) (running (withChan { upChan with deferred := true })))
        (fun e => (getChan e 0).st = .retraining && (getChan e 0).retrainAt = msG 5) = true) ∧
    (manyRetries (atWall 7 (withChan { upChan with retries := List.replicate 17 7 })) 0 = true ∧
      gives (.crcRetraining 0) (atWall 7 (withChan { upChan with retries := List.replicate 17 7 })) (fun e => (getChan e 0).retrain = 1) =
        true) ∧
    (manyRetries (withChan { upChan with retries := List.replicate 16 0 }) 0 = false ∧
      gives (.crcRetraining 0) (withChan { upChan with retries := List.replicate 16 0 }) (fun e => (getChan e 0).retrain = 0) = true) ∧
    gives (.trainingPass 0) (withChan { st := .retraining }) (fun e => (getChan e 0).st = .up) = true ∧
    gives (.trainingFail 0) (withChan { st := .retraining, trainFails := 1 }) (fun e => (getChan e 0).trainFails = 2) = true ∧
    gives (.trainingFail 0) (withChan { st := .retraining, trainFails := 2 }) (fun e => (getChan e 0).st = .down) = true := by
  repeat' apply And.intro
  all_goals decide +kernel

/-- A LOAD of four bytes of the store. -/
def tierTile : Tile := { mode := .run, reqs := [⟨0, false, 0, 1, 4, 0, [⟨4, .tier 8192 0 true⟩], 0, none, 0, []⟩] }

theorem witness_ChannelReadsAndCounts :
    gives (.refresh 0 70) (withChan upChan) (fun e => (getChan e 0).refreshNs = 70) = true ∧
    gives (.readCrcFail 0 .other ⟨0, false⟩) (withChan { upChan with crcTries := 2 })
      (fun e => (getChan e 0).crcTries = 3 && (getChan e 0).retries = [0]) = true ∧
    gives (.readCrcFail 0 .other ⟨0, false⟩) (withChan { upChan with crcTries := 3 }) (fun e => (getChan e 0).readFail = 1 && e.flt.hold) =
      true ∧
    gives (.readCrcFail 0 .other ⟨0, true⟩) (withChan upChan) (fun e => (getChan e 0).readFail = 1 && e.flt.hold) = true ∧
    (accessAt { loading with chans := [(0, upChan)] } 0 (.tile 0 0) ≠ none ∧
      gives (.readCrcFail 0 (.tile 0 0) ⟨0, true⟩) { loading with chans := [(0, upChan)] }
        (fun e => (getTile e 0).reqs = [] && (getChan e 0).readFail = 1) = true) ∧
    (mayPass (msG 1) (withChan upChan) = true ∧
      gives (.eccRead 0 1) (withChan upChan) (fun e => (getChan e 0).eccCorr = 1 && e.flt.notes = 1 && e.clk.wall = msG 1) = true) ∧
    gives (.eccRead 0 1) (atWall (msG 1) (running (withChan upChan))) (fun e => (getChan e 0).eccCorr = 1 && (getChan e 0).eccAt = msG 1) =
      true ∧
    gives (.eccRead 0 0) (withChan upChan) (fun e => (getChan e 0).eccCorr = 0 && e.flt.notes = 0) = true ∧
    gives (.deviceTemperatureRead 0 90) (withChan upChan) (fun e => (getChan e 0).temp = 90) = true ∧
    (mayPass (msG 1) (running (withChan upChan)) = false ∧
      gives (.deviceTemperatureRead 0 90) (running (withChan upChan)) (fun e => (getChan e 0).temp = 0) = true) ∧
    (storeRd (withTile tierTile) 8192 4 = some [0, 0, 0, 0] ∧ gives (.tieredRead 0 0 false) (withTile tierTile)
      (fun e => (oldestLoad (getTile e 0) 0).map (·.pieces) = some [⟨4, .served [0, 0, 0, 0]⟩]) = true) ∧
    (let d := { withTile tierTile with store := { uncorr := [2] } }
     storeRd d 8192 4 = none ∧ gives (.tieredRead 0 0 false) d (fun e => e.flt.halts = 1) = true) ∧
    (let d := { withTile { tierTile with reqs := [⟨0, false, 0, 1, 4, 0, [⟨4, .tier 8192 0 false⟩], 0, none, 0, []⟩] } with
                  store := { uncorr := [2] } }
     gives (.tieredRead 0 0 false) d (fun e => e.flt.halts = 1) = true) := by
  repeat' apply And.intro
  all_goals decide +kernel

/-- Context page 0 of partition 0 in frame 1 of channel 0, with flags. -/
def paged (flags : Nat) : Dev :=
  { running (withChan upChan) with cpt := [(0, BitVec.ofNat 64 (1 + flags + 256))], gddr := [(65536, 3), (131071, 4)] }

/-- The last byte of a page is read and written; a page's next byte is not. A page that is not valid is not read. -/
theorem witness_WindowReadsAndWrites :
    (windowUp (paged 0) = true ∧ windowBad (paged 0) 0 = false ∧ windowBad up 0 = true ∧ windowBad (paged 128) 0 = true) ∧
    gives (.windowRead 65535 1) (paged 0) (fun e => e.out.bytes = [4] && !e.out.poison) = true ∧
    gives (.windowRead 65536 1) (paged 0) (fun e => e.out.poison && e.glb.cxlmPoison = 1) = true ∧
    gives (.windowWrite 65535 [9]) (paged 0) (fun e => e.gddr = [(65536, 3), (131071, 9)]) = true ∧
    gives (.windowWrite 0 [9]) (paged 2) (fun e => e.gddr = (paged 2).gddr && e.glb.cxlmWdrop = 1) = true ∧
    gives (.windowWrite 0 [9]) (paged 32) (fun e => e.glb.cxlmWdrop = 1) = true ∧
    (memSecure (paged 0) = true ∧ memSecure { paged 0 with sec := { ide := [(2, { secure := true, insecure := true })] } } = false ∧
      chanServes (paged 0) 0 = true ∧ chanServes { paged 0 with chans := [] } 0 = false) ∧
    gives (.windowRead 0 4) { paged 0 with chans := [] } (fun e => !e.out.poison && e.glb.cxlmPoison = 0) = true ∧
    gives (.windowTimeout 0 4) { paged 0 with chans := [] } (fun e => e.out.poison && e.glb.cxlmPoison = 1) = true := by
  repeat' apply And.intro
  all_goals decide +kernel

/-! ### Context pages and DMA channels -/

/-- A request of one command stands POSTED in mailbox 0. -/
def ask (code : Nat) (pl : List Byte) (d : Dev) : Dev :=
  { d with mbx := [(0, { st := .posted, req := cells 0 (toLe 2 code ++ toLe 2 5 ++ toLe 2 pl.length ++ [0, 0] ++ toLe 8 9 ++ pl) })] }

/-- It is the turn of a mailbox command, nothing refuses it before its own checks, and it is answered with this status and leaves
such a module. -/
def serves (c : Instr) (code : Nat) (pl : List Byte) (d : Dev) (st : Nat) (P : Dev → Bool) : Bool :=
  let d := ask code pl d
  isTurn d code 0 && rqRefusal d 0 = none && !isFull d 0 &&
    gives c d (fun e => (getMbx e 0).st = .done && rdN (getMbx e 0).reply 6 1 = st && P e)

/-- The same for a command that begins and stays ACCEPTED. -/
def begins (c : Instr) (code : Nat) (pl : List Byte) (d : Dev) (P : Dev → Bool) : Bool :=
  let d := ask code pl d
  isTurn d code 0 && rqRefusal d 0 = none && !isFull d 0 &&
    gives c d (fun e => (getMbx e 0).st = .accepted && (getMbx e 0).begun && P e)

/-- PAGE_MAP of two pages from page 5, writable, in GDDR7; pages outside the partition, and at the end of the space; PAGE_UNMAP of a
valid, an unmapped, a pinned page. -/
theorem witness_PageCommands :
    serves (.pageMap 0) 0x0401 (toLe 4 5 ++ toLe 2 2 ++ [2, 0] ++ toLe 4 0) (running (withChan upChan)) stOk
      (fun e => cptE e 5 = 9 && eValid (cptE e 6)) = true ∧
    serves (.pageMap 0) 0x0401 (toLe 4 65535 ++ toLe 2 2 ++ [2, 0] ++ toLe 4 0) (running (withChan upChan)) stDenied
      (fun e => eValid (cptE e 65535) && !eValid (cptE e 65536)) = true ∧
    serves (.pageUnmap 0) 0x0402 (toLe 4 0 ++ toLe 2 1) (paged 0) stOk (fun e => cptE e 0 = 0) = true ∧
    serves (.pageUnmap 0) 0x0402 (toLe 4 0 ++ toLe 2 1) (paged 2) stBusy (fun e => e.cpt = (paged 2).cpt) = true ∧
    serves (.pageUnmap 0) 0x0402 (toLe 4 1 ++ toLe 2 1) (paged 0) stBadArg (fun e => e.cpt = (paged 0).cpt) = true ∧
    serves (.pageRead 0) 0x0403 (toLe 4 0 ++ toLe 2 2) (paged 0) stOk (fun e => rdN (getMbx e 0).reply 16 8 = 257) = true ∧
    ((mapPage 0 0 0 0 (paged 0)).1 = stBadArg ∧ (mapPage 0 65536 0 0 (paged 0)).1 = stDenied ∧ (mapPage 0 1048576 0 0 (paged 0)).1 = stDenied ∧
      freeFrame (running (withChan upChan)) part = some 0) := by
  repeat' apply And.intro
  all_goals decide +kernel

/-- Channel 0 of a running partition with such registers. -/
def withDma (x : Dma) : Dev := { paged 0 with dma := [(0, x)] }
def xfer : DmaXfer := ⟨8192, 0, 0, 8192, false, false, 7, 0, some 0, none, 0⟩

theorem witness_DmaRegistersAct :
    gives (.dmaEn 0 true) (withDma { ringSize := 1 }) (fun e => (getDma e 0).st = .run) = true ∧
    gives (.dmaEn 0 true) (withDma { ringSize := 0 }) (fun e => (getDma e 0).cfgErr && !(getDma e 0).en) = true ∧
    gives (.dmaEn 0 true) (withDma { ringSize := 17 }) (fun e => (getDma e 0).cfgErr) = true ∧
    gives (.dmaEn 0 false) (withDma { st := .run, en := true, cur := some xfer }) (fun e => (getDma e 0).st = .aborting) = true ∧
    gives (.dmaEn 0 false) (withDma { st := .run, en := true }) (fun e => (getDma e 0).st = .idle) = true ∧
    gives (.abort 0) (withDma { st := .run, cur := some xfer }) (fun e => (getDma e 0).st = .aborting) = true ∧
    gives (.abort 0) (withDma { st := .run }) (fun e => (getDma e 0).st = .stopped && (getDma e 0).irqAbort) = true ∧
    gives (.resume 0) (withDma { st := .stopped }) (fun e => (getDma e 0).st = .run) = true ∧
    gives (.tail 0 1) (withDma { ringSize := 1 }) (fun e => (getDma e 0).tail = 1) = true ∧
    gives (.tail 0 2) (withDma { ringSize := 1 }) (fun e => (getDma e 0).tail = 0 && (getDma e 0).cfgErr) = true := by
  repeat' apply And.intro
  all_goals decide +kernel

/-- The 32 bytes of a descriptor (Table 9.6): 8,192 bytes from host address 8,192 into page 0, with OWN or without. -/
def descriptor (own : Nat) : List Byte := toLe 8 8192 ++ toLe 4 0 ++ toLe 4 0 ++ toLe 4 8192 ++ toLe 11 0 ++ [BitVec.ofNat 8 (own * 128)]
def ring (own : Nat) : Dev := { withDma { ringSize := 4, tail := 2, st := .run, en := true } with host := cells 0 (descriptor own) }

theorem witness_DmaMovesDescriptors :
    (readsHead (getDma (ring 0) 0) = true ∧ gives (.descriptorRead 0) (ring 0) (fun e => (getDma e 0).stallOwn) = true) ∧
    (xferBad (descriptor 1) = false ∧
      gives (.descriptorRead 0) (ring 1) (fun e => eLock (cptE e 0) && ((getDma e 0).cur.map (·.len)) = some 8192) = true) ∧
    gives (.descriptorReadFail 0) (ring 1) (fun e => (getDma e 0).st = .stopped && (getDma e 0).irqErr) = true ∧
    gives (.lockWaitEnd 0) (withDma { st := .run, cur := some { xfer with lock := none }, lockWait := some 0 })
      (fun e => (getDma e 0).lockWait = none && eLock (cptE e 0)) = true ∧
    (let d := { withDma { st := .run, cur := some { xfer with len := 2 } } with host := [(8192, 6)] }
     burstLen { xfer with len := 2 } = 2 ∧ gives (.burst 0) d (fun e => rdBs e.gddr 65536 2 = [6, 0] && rdB e.gddr 131071 = 4) = true) ∧
    gives (.hostCompletionTimeout 0) (withDma { st := .run, cur := some xfer })
      (fun e => ((getDma e 0).cur.bind (·.ended)) = some (BitVec.ofNat 8 stTimeout)) = true ∧
    gives (.writeBack 0) (withDma { ringSize := 4, st := .run, cur := some { xfer with ended := some 0 } })
      (fun e => (getDma e 0).head = 1 && (getDma e 0).st = .run && (getDma e 0).descDone = 1) = true ∧
    gives (.writeBack 0) (withDma { ringSize := 4, st := .run, cur := some { xfer with ended := some 3 } })
      (fun e => (getDma e 0).st = .stopped) = true ∧
    gives (.abortWriteBack 0) (withDma { ringSize := 4, st := .aborting, en := true, cur := some xfer })
      (fun e => rdB e.host 28 = 5 && (getDma e 0).st = .stopped) = true := by
  repeat' apply And.intro
  all_goals decide +kernel

/-! ### Mailboxes -/

/-- The refusals of the mailbox level: an OPCODE that no row lists, a wrong length, a block of no partition. -/
theorem witness_MailboxLevelRefusals :
    (isTurn (ask 0x0999 [] up) 0x0999 0 = true ∧ rqRefusal (ask 0x0999 [] up) 0 = some (stBadArg, 0xF3)) ∧
    rqRefusal (ask 0x0202 [0] up) 0 = some (stBadArg, 0xF4) ∧ rqRefusal (ask 0x0202 [] up) 0 = some (stDenied, 0xF5) ∧
    rqRefusal (ask 0x0202 [] (running up)) 0 = none ∧ rqRefusal (ask 0x0103 (List.replicate 16 1) up) 0 = some (stBadArg, 0xF4) := by
  repeat' apply And.intro
  all_goals decide +kernel

/-- Nine commands of module scope, the last of them POSTED. -/
def crowd : Dev :=
  { up with mbx := (List.range 9).map (fun i => (i, {
      st := if i = 8 then .posted else .accepted, begun := true, order := i, req := cells 0 (toLe 2 0x0306 ++ toLe 14 0) })) }

theorem witness_MailboxLevelBusy : rqRefusal crowd 8 = none ∧ isFull crowd 8 = true ∧ isTurn crowd 0x0306 8 = true ∧
    gives (.mpAccept 8) crowd (fun e => rdN (getMbx e 8).reply 6 2 = stBusy + 256 * 0xF2) = true := by decide +kernel

theorem witness_AnswersStandInTheReplyArea :
    let e := answer 0 stOk 0 [7, 8] (ask 0x0103 (List.replicate 16 0) up)
    rdN (getMbx e 0).reply 0 2 = 0x0103 ∧ rdN (getMbx e 0).reply 2 2 = 5 ∧ rdN (getMbx e 0).reply 4 2 = 2 ∧
      rdN (getMbx e 0).reply 8 8 = 9 ∧ rdBs (getMbx e 0).reply 16 2 = [7, 8] := by
  decide +kernel

theorem witness_MailboxesPostAndTake :
    (hwUp up = true ∧ gives (.post 0) (ask 0x0306 [] up) (fun e => (getMbx e 0).errPost = 1) = true) ∧
    gives (.post 0) up (fun e => (getMbx e 0).st = .posted && e.glb.posts = 1) = true ∧
    gives (.mpAccept 0) (ask 0x0306 [] up) (fun e => (getMbx e 0).st = .accepted) = true ∧
    (mayPass (usG 18) (ask 0x0306 [] up) = true ∧
      gives (.auto 0) (ask 0x0306 [] up) (fun e => rdN (getMbx e 0).reply 6 2 = stBusy + 256 * 0xF1 && e.clk.wall = usG 18) = true) ∧
    gives (.auto 0) (atWall (usG 18) (ask 0x0306 [] (running up))) (fun e => (getMbx e 0).st = .done) = true ∧
    (mayPass (usG 18) (ask 0x0306 [] (running up)) = false ∧
      gives (.auto 0) (ask 0x0306 [] (running up)) (fun e => (getMbx e 0).st = .posted) = true) ∧
    gives (.post 0) { up with glb := { up.glb with shed := true } } (fun e => (getMbx e 0).st = .done) = true ∧
    gives .shed { up with glb := { up.glb with shed := true, shedAt := some 0 }, clk := { wall := 7 } }
      (fun e => e.glb.shedWait = some 7 && e.glb.shedAt = some 0) = true ∧
    gives .shed (ask 0x0306 [] up) (fun e => e.glb.shed && (getMbx e 0).st = .done) = true ∧
    gives .shedClear { up with glb := { up.glb with shed := true, shedAt := some 0, shedWait := some 0 } } (fun e => !e.glb.shed && e.clk.wall = usG 100) =
      true := by
  repeat' apply And.intro
  all_goals decide +kernel

/-! ### Partitions and plans -/

/-- Partition 0 with a plan in a state. -/
def planned (st : PlanSt) : Dev := { up with parts := [(0, { part with plan := st })] }

theorem witness_PartitionAndPlanCommands :
    serves (.partCreate 0) 0x0101 (toLe 2 6) { up with tiles := [(12, { ctr0 := 3 })] } stOk
      (fun e => getPart e 1 = some { pid := 1, mask := 6 } && (getTile e 12).ctr0 = 0) = true ∧
    serves (.partDestroy 0) 0x0102 [0] { planned .empty with cpt := [(9, 1), (65536, 1)] } stOk
      (fun e => getPart e 0 = none && cptE e 9 = 0 && cptE e 65536 = 1) = true ∧
    (let d := ask 0x0201 (toLe 8 0 ++ toLe 8 16) (planned .empty)
     hostOk d 0 16 = true ∧ (planRefusal d { part with plan := .empty } (hostRd d 0 16)).isSome = true) ∧
    serves (.planUnload 0) 0x0202 [] (planned .loaded) stOk (fun e => (getPart e 0).map (·.plan) = some .empty) = true ∧
    serves (.planUnload 0) 0x0202 [] (planned .running) stDenied (fun e => (getPart e 0).map (·.plan) = some .running) = true ∧
    serves (.partStop 0) 0x0203 [] { planned .running with tiles := [(0, { mode := .run })] } stOk
      (fun e => (getPart e 0).map (fun y => (y.plan, y.stopping)) = some (.stopped, true) && (getTile e 0).mode = .run) = true ∧
    serves (.partStop 0) 0x0203 [] { up with parts := [(0, { part with tick := 16384, now := 16384 })], tiles := [(0, { mode := .run })] } stOk
      (fun e => (getPart e 0).map (fun y => (y.plan, y.stopping)) = some (.stopped, false) && (getTile e 0).mode = .parked) = true ∧
    serves (.partRestart 0) 0x0204 [] { up with parts := [(0, { part with plan := .stopped })], crater := { changes := [1] } } stOk
      (fun e => (getPart e 0).map (·.plan) = some .empty) = true ∧
    serves (.partRestart 0) 0x0204 [] (planned .stopped) stOk (fun e => (getPart e 0).map (·.plan) = some .loaded) = true ∧
    serves (.partResume 0) 0x0205 []
      { up with parts := [(0, { part with parked := true })], tiles := [(0, { mode := .parked, resumable := true })] } stOk
      (fun e => (getTile e 0).mode = .run) = true := by
  repeat' apply And.intro
  all_goals decide +kernel

theorem witness_ReportsAndLimits :
    serves (.holdLimit 0) 0x0207 (toLe 4 0) (planned .running) stOk (fun e => rdN (getMbx e 0).reply 16 4 = 2000) = true ∧
    serves (.holdLimit 0) 0x0207 (toLe 4 100) (planned .running) stOk
      (fun e => (getPart e 0).map (fun y => (y.holdUs, y.holdNext)) = some (2000, some 100)) = true ∧
    serves (.holdLimit 0) 0x0207 (toLe 4 100000) (planned .loaded) stOk (fun e => (getPart e 0).map (·.holdUs) = some 100000) = true ∧
    serves (.holdLimit 0) 0x0207 (toLe 4 99) (planned .running) stBadArg (fun _ => true) = true ∧
    serves (.holdLimit 0) 0x0207 (toLe 4 100001) (planned .running) stBadArg (fun _ => true) = true ∧
    serves (.levelReport 0) 0x0206 [] { up with parts := [(0, { part with level := { orbit := 4, body := [1, 2] } })] } stOk
      (fun e => rdBs (getMbx e 0).reply 16 6 = [4, 0, 0, 0, 1, 2]) = true ∧
    hostOk up 4096 transitTable.length = true ∧
    serves (.stepLimit 0) 0x0104 [7] up stOk (fun e => rdN (getMbx e 0).reply 16 1 = 0 && e.pwr.opLimit = 7) = true ∧
    begins (.stepLimit 0) 0x0104 [3] { up with clk := { step := 6, target := 6 } }
      (fun e => e.clk.busy && e.clk.tgt = 3) = true := by
  repeat' apply And.intro
  all_goals decide +kernel

/-- STORE_READY (R204) with an empty directory: it goes to host memory as zeros. -/
def ready : Dev := { up with pwr := { up.pwr with startStatus := 0x107FF }, store := { replayed := true } }

theorem witness_TransitAndDirRead :
    gives (.transitRead 0) (ask 0x0105 (toLe 8 4096) up) (fun e => (getMbx e 0).st = .done) = true ∧
    (storeReady ready = true ∧ hostOk ready 4096 6144 = true) := by
  repeat' apply And.intro
  all_goals decide +kernel

/-! ### Faults, self-test and recovery -/

theorem witness_FaultEventsActByTheirClass :
    gives (.faultEvent 0 0x701 9 0xFF 5) up (fun e => e.flt.notes = 1 && !e.flt.hold) = true ∧
    gives (.faultEvent 1 0x701 9 0xFF 5) up (fun e => e.flt.degrades = 1 && e.flt.halts = 0) = true ∧
    gives (.faultEvent 2 0x701 9 0 5) (planned .running)
      (fun e => e.flt.halts = 1 && e.flt.lastHalt = 0 && (getPart e 0).map (·.plan) = some .stopped && e.flt.pulse = some (usG 10)) = true ∧
    gives (.faultEvent 3 0x701 9 0xFF 5) up (fun e => e.flt.sealed && e.pwr.rails = 7 && e.flt.firstSeal = 0) = true ∧
    gives (.faultEvent 3 0x701 9 0xFF 5) (withTile { mode := .run }) (fun e => (getTile e 0).mode = .frozen) = true := by
  repeat' apply And.intro
  all_goals decide +kernel

/-- A source whose count stands so, with its window running. -/
def counted_ (limit count : Nat) : Dev :=
  { up with mt := { mt := 5 }, flt := { esc := [(0x701, { noteLimit := limit, noteCount := count, noteStart := 1 })] } }

theorem witness_NotesEscalate :
    serves (.escalationSet 0) 0x0703 (toLe 2 0x1FF ++ toLe 2 2 ++ toLe 2 0 ++ toLe 2 1 ++ toLe 2 3 ++ toLe 2 60000) up stOk
      (fun e => (getEsc e 0x1FF).degLimit = 3 && (getEsc e 0x200).degWindow = 60000 && (getEsc e 0x201).degLimit = 0) = true ∧
    (raise 0 0x701 9 0xFF 0 (counted_ 0 0)).flt.degrades = 0 ∧
    (raise 0 0x701 9 0xFF 0 (counted_ 3 1)).flt.degrades = 0 ∧ (getEsc (raise 0 0x701 9 0xFF 0 (counted_ 3 1)) 0x701).noteCount = 2 ∧
    (getEsc (raise 0 0x701 9 0xFF 0 (counted_ 2 0)) 0x701).noteStart = 5 ∧
    (raise 0 0x701 9 0xFF 0 (counted_ 3 2)).flt.degrades = 1 ∧ (raise 0 0x701 9 0xFF 0 (counted_ 3 2)).flt.head = 2 := by
  repeat' apply And.intro
  all_goals decide +kernel

/-- A module that has halted once: LAST_HALT is 3. -/
def halted : Dev := { up with flt := { hold := true, lastHalt := 3, head := 4 } }

theorem witness_FaultLogicTimersAndHold :
    gives .pulseEnd { up with flt := { pulse := some 100 } } (fun e => e.flt.pulse = none && e.clk.wall = 100) = true ∧
    serves (.faultHoldClear 0) 0x0704 (toLe 8 4) halted stOk (fun e => !e.flt.hold) = true ∧
    serves (.faultHoldClear 0) 0x0704 (toLe 8 3) halted stNotReady (fun e => e.flt.hold) = true ∧
    serves (.faultHoldClear 0) 0x0704 (toLe 8 0) up stOk (fun e => !e.flt.hold) = true ∧
    (let d := ask 0x0704 (toLe 8 4) { halted with flt := { halted.flt with sealed := true } }
     hwUp d = true ∧ gives (.faultHoldClear 0) d (fun e => rdN (getMbx e 0).reply 6 1 = stDenied && e.flt.hold) = true) ∧
    gives .watchdog up (fun e => e.flt.mpFailed && e.flt.hold) = true ∧
    gives .seFail up (fun e => e.flt.seFailed && e.flt.sealed) = true ∧
    ({ up with flt := { aliveRun := true } } : Dev).pwr.inputOn = true ∧
    (mayPass 100 (running up) = false ∧ gives .pulseEnd { running up with flt := { pulse := some 100 } } (fun e => e.flt.pulse = some 100) = true)
      := by
  repeat' apply And.intro
  all_goals decide +kernel

/-- A BIST_RUN in progress, of mailbox 0. -/
def testing (rebuild : Bool) : Dev :=
  { up with bist := some ⟨0, 0x10, false, rebuild⟩, crater := { force := { tiles := [5], channels := [2] } }
            mbx := [(0, { st := .accepted, begun := true, req := cells 0 (toLe 2 0x0701 ++ toLe 14 0) })] }

theorem witness_SelfTestAndCraterMap :
    serves (.bistRun 0) 0x0701 [1, 0, 0, 0] (planned .empty) stNotReady (fun e => e.bist = none) = true ∧
    (up.parts = [] ∧ 0x10 &&& ~~~ (fullAllowed up) ≠ 0 ∧
      serves (.bistRun 0) 0x0701 [0x10, 1, 0, 0] up stDenied (fun e => e.bist = none) = true) ∧
    begins (.bistRun 0) 0x0701 [0x10, 0, 0, 0] up (fun e => e.bist.isSome && e.clk.step = 3) = true ∧
    gives (.bistRunEnd { channels := [47] }) (testing false)
      (fun e => e.crater.force.channels = [2, 47] && e.crater.force.tiles = [5] && e.bist = none) = true ∧
    hostOk up 0 768 = true ∧ gives (.craterRead 0) (ask 0x0702 (toLe 8 4096) up) (fun e => (getMbx e 0).st = .done) = true := by
  repeat' apply And.intro
  all_goals decide +kernel

/-- Recovery wait, with a range of host memory that reads and is no image. -/
def recovering (bad : List (Nat × Nat)) : Dev :=
  { up with glb := { up.glb with mpReady := false }, rcv := { st := 1, addr := 4096, len := 4 }, hostBad := bad }

theorem witness_RecoveryStartsAnImage :
    (awake (recovering []) = true ∧ hostOk (recovering [(4099, 1)]) 4096 4 = false ∧
      gives (.recoveryGo {}) (recovering [(4099, 1)]) (fun e => e.rcv.reason = 0x0A && e.rcv.st = 1) = true) ∧
    (hostOk (recovering []) 4096 4 = true ∧ (checkImage (recovering []) (hostRd (recovering []) 4096 4)).isSome = true ∧
      gives (.recoveryGo {}) (recovering []) (fun e => e.rcv.st = 1 && !e.glb.mpReady) = true) := by
  repeat' apply And.intro
  all_goals decide +kernel

/-! ### The module, its host link and its time -/

theorem witness_HostLinkAndTimeRoot :
    serves (.timeRoot 0) 0x0103 (1 :: toLe 7 0 ++ toLe 8 77) up stOk (fun e => e.mt.root && e.mt.mt = 77 && e.mt.stratum = 0) = true ∧
    serves (.timeRoot 0) 0x0103 (1 :: toLe 15 0) { up with mt := { mt := 6 } } stOk (fun e => e.mt.root && e.mt.mt = 6) = true ∧
    serves (.timeRoot 0) 0x0103 (toLe 16 0) up stOk (fun e => !e.mt.root) = true ∧
    serves (.timeRoot 0) 0x0103 (2 :: toLe 15 0) up stBadArg (fun _ => true) = true ∧
    gives (.hostLinkTrained true 4 3) up (fun e => e.flt.notes = 0 && e.glb.width = 4) = true ∧
    gives (.hostLinkTrained true 3 3) up (fun e => e.flt.notes = 1 && e.glb.width = 3) = true ∧
    (linkWidth 3 = true ∧ linkRate 3 = true ∧ ioSecure up = true) ∧
    gives .perstN up (fun e => e.glb.width = 0 && e.pwr.hostResets = 1) = true ∧
    gives .snoop up (fun e => e.out.miss) = true ∧ gives .biasFlip up (fun e => e.out.refused) = true ∧
    (mayPass (msG 1) up = true ∧
      gives (.heartbeatIncrement 1000) up (fun e => e.glb.heartbeat = 1 && e.glb.mpBusy = 1000 && e.clk.wall = msG 1) = true) ∧
    gives (.heartbeatIncrement 1000) (atWall (msG 1) (running up)) (fun e => e.glb.heartbeat = 1) = true ∧
    (mayPass (msG 1) (running up) = false ∧ gives (.heartbeatIncrement 1000) (running up) (fun e => e.glb.heartbeat = 0) = true) ∧
    gives (.bar0ErrRead 2 4) up (fun e => e.glb.bar0Err = 1 && e.out.data = 0xFFFFFFFFFFFFFFFF) = true := by
  repeat' apply And.intro
  all_goals decide +kernel

/-! ### Serving -/

def sel : Selector := ⟨128, 64, 1, 0, 65536, [], 0⟩
def man : ManInfo := ⟨0, 0, 0, 1, 0, 0, 0, 0, 0, 0, 0, 0⟩
def weights : Weights := { copy0 := { st := .active, man := some man, pages := 8 } }

/-- Descriptor of request 3 (Table 10.1): a prompt of 65 tokens, 10 new ones, one page from the list at host address 8,192. -/
def request (id : Nat) : List Byte :=
  toLe 4 id ++ toLe 2 0 ++ toLe 2 2 ++ toLe 4 0 ++ toLe 4 65 ++ toLe 4 10 ++ toLe 4 7 ++ toLe 8 0 ++ toLe 8 8192 ++ toLe 4 1 ++ toLe 20 0

/-- A partition that serves: its submission ring of two descriptors at host address 4,096 holds one. -/
def srvPart : Part :=
  { part with w := weights, srv := { sel := some sel, admitOn := true, subSize := 1, subBase := 4096, subTail := 1 } }
def serving (id : Nat) : Dev := { paged 0 with parts := [(0, srvPart)], host := cells 4096 (request id) }

theorem witness_SubmissionsAreTakenInOrder :
    gives (.admitWrite 0 true) (serving 3) (fun e => (getPart e 0).map (·.srv.admitOn) = some true) = true ∧
    gives (.admitWrite 0 true) { planned .running with otp := { lc := 4 } } (fun e => (getPart e 0).map (·.srv.admitOn) = some false) =
      true ∧
    gives (.admitWrite 0 false) (serving 3) (fun e => (getPart e 0).map (·.srv.admitOn) = some false) = true ∧
    gives (.submit 0) (planned .running) (fun e => (getPart e 0).map (·.srv.reqs) = some []) = true ∧
    (subRing srvPart = some 2 ∧ hostOk (serving 3) 4096 64 = true ∧ (checkDesc (serving 3) srvPart (request 3)) = (stOk, [0]) ∧
      gives (.submit 0) (serving 3) (fun e => (getPart e 0).map (fun y => (y.srv.subHead, y.srv.reqs.map (·.prompt))) = some (1, [65])) =
        true) ∧
    ((checkDesc (serving 4) srvPart (request 4)).1 = stBadArg ∧
      gives (.submit 0) (serving 4) (fun e => (getPart e 0).map (fun y => (y.srv.subHead, y.srv.reqs)) = some (1, [])) = true) := by
  repeat' apply And.intro
  all_goals decide +kernel

/-- A live request that waits, decodes or is eclipsed. -/
def req (st : ReqSt) : Req :=
  ⟨3, 0, 0, false, 0, 0, 65, 10, 7, 0, [0], st, false, false, false, 0, 0, 0, none, none, 0, 0, none⟩
def srvWith (f : Serving → Serving) : Dev := { paged 0 with parts := [(0, { srvPart with srv := f srvPart.srv })] }
def late_ (f : Serving → Serving) : Dev := { paged 0 with parts := [(0, { srvPart with tick := 8192, now := 8192, srv := f srvPart.srv })] }

/-- What a PLACEMENT message of part 0 carries for orbit 1 of a partition of one block: request 3 in slot 0. -/
def placeMsg : List Byte := mgmtHeader 1 0 1 1 ++ placeBytes ⟨3, 5, 64, 0, 0⟩ ++ List.replicate 496 0
def msgIn (ty : Nat) (pl : List Byte) : Fab := { inbox := [⟨0, ⟨(mkPacket 0 0 ty 0 0 0 0 0 0 0 []).hdr, pl⟩, 0⟩] }

theorem witness_PlacementsAreFormedOrStale :
    gives (.placement 0) (srvWith fun v => { v with reqs := [{ req .waiting with customer := 0 }] })
      (fun e => (getPart e 0).map (fun y => (y.srv.next, y.srv.nextFor)) = some (.made [], 1)) = true ∧
    gives (.placement 0) { srvWith (fun v => { v with reqs := [req .waiting] }) with budgets := [(0, BitVec.ofNat 128 (2 ^ 127))] }
      (fun e => (getPart e 0).map (·.srv.next) = some (.made [(0, ⟨3, 13, 64, 0, 0⟩)])) = true ∧
    gives (.placement 0) (srvWith fun v => { v with reqs := [{ req .waiting with cancel := true }] })
      (fun e => (getPart e 0).map (·.srv.reqs) = some []) = true ∧
    gives (.stale 0) (late_ id) (fun e => (getPart e 0).map (·.srv.next) = some .stale) = true ∧
    gives (.placementReceive 0) { paged 0 with parts := [(0, { srvPart with job := { modules := 2, rank := 1 }, fab := msgIn 5 placeMsg })] }
      (fun e => (getPart e 0).map (fun y => (y.srv.next, y.fab.inbox)) = some (.made [(0, ⟨3, 5, 64, 0, 0⟩)], [])) = true := by
  repeat' apply And.intro
  all_goals decide +kernel

def placed : Tab PlaceEntry := [(0, ⟨3, 13, 64, 0, 0⟩)]

theorem witness_SlotTablesAreBuiltAside :
    gives (.slotTableBuild 0) (srvWith fun v => { v with reqs := [req .waiting], next := .made placed, nextFor := 1 })
      (fun e => ePinned (cptE e 0) && (getPart e 0).map (fun y => (y.srv.ready, y.srv.bank, y.srv.bank1.orbit, y.srv.bank0)) =
        some (true, false, 1, {})) = true ∧
    gives (.slotStageWrite 0) (withTile { slotStage := 5 }) (fun e => (getTile e 0).slotStage = 5) = true := by
  repeat' apply And.intro
  all_goals decide +kernel

/-- A decoding step of request 3 in slot 0 of orbit 0, and the marks of that orbit. The token lies at byte 64 + 4 * 65 of page 0. -/
def step_ : Step := ⟨0, 0, ⟨3, 0x43, 1, 65, 0⟩, 0, 0, 0⟩
def marks (complete allFence : Bool) : Fab := { marks := [⟨0, 0, allFence, false, false, 0, 0, 0, [], complete, 0⟩] }
def delivering (f : Fab) (q : Req) : Dev :=
  { paged 0 with gddr := [(65536 + 324, 5)], parts := [(0, { srvPart with fab := f, srv := { srvPart.srv with reqs := [q], steps := [step_] } })] }

theorem witness_TokensWaitForTheirMarks :
    gives (.tokenDelivery 0) (delivering {} (req .running)) (fun e => (getPart e 0).map (·.srv.steps.length) = some 1) = true ∧
    gives (.tokenDelivery 0) (delivering (marks false false) (req .running)) (fun e => (getPart e 0).map (·.srv.steps.length) = some 1) =
      true ∧
    gives (.tokenDelivery 0) (delivering (marks true true) (req .running))
      (fun e => (getPart e 0).map (fun y => (y.srv.steps, y.srv.reqs.map (·.delivered))) = some ([], [0])) = true ∧
    (tokenAt (delivering (marks true false) (req .running)) [0] (stepPos step_.place)).1 = 5 ∧
    gives (.tokenDelivery 0) (delivering (marks true false) (req .running))
      (fun e => (getPart e 0).map (fun y => (y.srv.steps, y.srv.reqs.map (·.delivered))) = some ([], [1])) = true ∧
    gives (.tokenDelivery 0) (delivering (marks true false) { req .running with stop := 5 })
      (fun e => (getPart e 0).map (·.srv.reqs) = some []) = true ∧
    gives (.tokenDelivery 0) (delivering (marks true false) { req .running with maxNew := 1 })
      (fun e => (getPart e 0).map (·.srv.reqs) = some []) = true ∧
    (let x := { srvPart with fab := marks true false, eph := { cfg := BitVec.ofNat 32 (2 ^ 31 + 11 * 2 ^ 20), head := 2048 }
                             srv := { srvPart.srv with reqs := [req .running], steps := [step_] } }
     let d := { delivering {} (req .running) with parts := [(0, x)] }
     tokenLost x d = true ∧ voided (req .running) 0 = false ∧ gives (.tokenDelivery 0) d
       (fun e => (getPart e 0).map (fun y => (y.srv.steps, y.srv.reqs.map (fun q => (q.delivered, q.fenced)))) = some ([], [(0, true)])) =
         true) ∧
    (let x := { srvPart with eph := { cfg := BitVec.ofNat 32 (2 ^ 31 + 11 * 2 ^ 20), gap := 6 } }
     ephOpen x = true ∧ gives (.gap 0) { paged 0 with parts := [(0, x)] }
       (fun e => (getPart e 0).map (fun y => (y.eph.gap, y.eph.head)) = some (0, 1)) = true) := by
  repeat' apply And.intro
  all_goals decide +kernel

/-- The header of a selector table of a plan with hash 0 has none of partition 0's tiles in it, so that it is refused; one that is
well formed holds 144 tile records. -/
theorem witness_ServingCommands :
    serves (.reqCancel 0) 0x0502 (toLe 4 3) (srvWith fun v => { v with reqs := [req .waiting] }) stOk
      (fun e => (getPart e 0).map (·.srv.reqs.map (·.cancel)) = some [true]) = true ∧
    serves (.reqCancel 0) 0x0502 (toLe 4 4) (srvWith fun v => { v with reqs := [req .waiting] }) stBadArg (fun _ => true) = true ∧
    serves (.reqEclipse 0) 0x0503 (toLe 4 3) (srvWith fun v => { v with reqs := [req .waiting] }) stOk
      (fun e => (getPart e 0).map (·.srv.reqs.map (·.held)) = some [true]) = true ∧
    serves (.reqResume 0) 0x0504 (toLe 4 3) (srvWith fun v => { v with reqs := [{ req .waiting with held := true }] }) stOk
      (fun e => (getPart e 0).map (·.srv.reqs.map (·.held)) = some [false]) = true ∧
    serves (.reqRemap 0) 0x0505 (toLe 4 3 ++ toLe 4 1 ++ toLe 8 8192) (srvWith fun v => { v with reqs := [req .eclipsed] }) stOk
      (fun e => (getPart e 0).map (·.srv.reqs.map (·.pages)) = some [[0]]) = true ∧
    serves (.reqRemap 0) 0x0505 (toLe 4 3 ++ toLe 4 1 ++ toLe 8 8192) (srvWith fun v => { v with reqs := [req .running] }) stBusy
      (fun _ => true) = true ∧
    serves (.budgetSet 0) 0x0506 (toLe 2 1023 ++ toLe 2 1 ++ toLe 4 0 ++ toLe 16 77) (srvWith id) stOk
      (fun e => e.budgets = [(1023, 77)]) = true ∧
    serves (.selectorLoad 0) 0x0501 (toLe 8 0 ++ toLe 4 0x48) (planned .running) stDenied (fun _ => true) = true ∧
    serves (.selectorLoad 0) 0x0501 (toLe 8 0 ++ toLe 4 0x48) (planned .loaded) stBadArg (fun _ => true) = true := by
  repeat' apply And.intro
  all_goals decide +kernel

/-! ### Weights and the weight store -/

/-- A partition with weights, its plan in a state. -/
def weighted (st : PlanSt) (w : Weights) : Dev := { up with parts := [(0, { part with plan := st, w := w })] }
def loaded0 : CopySlot := { st := .active, man := some man, pages := 8 }
def verified1 : CopySlot := { st := .verified, man := some man, first := 8, pages := 8 }
def adapter : Adapter := ⟨9, 1, .ready, 0, none, false, 0, 0⟩
def holding : Part :=
  { part with plan := .stopped, w := { copy0 := loaded0 }, srv := { reqs := [{ req .running with copy := some 0, delivered := 2 }] } }

theorem witness_WeightCommands :
    begins (.weightLoad 0) 0x0310 (toLe 4 1 ++ [2, 0] ++ toLe 2 0 ++ toLe 8 65536 ++ toLe 8 0) (weighted .loaded {})
      (fun e => (getPart e 0).map (fun y => (y.w.copy1.st, y.w.loads.map (·.pri))) = some (.loading, [.host 65536])) = true ∧
    serves (.weightLoad 0) 0x0310 (toLe 4 0 ++ [0, 0] ++ toLe 18 0) (weighted .loaded {}) stBadArg (fun _ => true) = true ∧
    serves (.weightLoad 0) 0x0310 (toLe 4 0 ++ [2, 0] ++ toLe 2 0 ++ toLe 8 65536 ++ toLe 8 0)
      (weighted .loaded { copy0 := { st := .loading } }) stBusy (fun _ => true) = true ∧
    begins (.adapterLoad 0) 0x0313 (toLe 4 9 ++ toLe 2 0 ++ [2, 0] ++ toLe 8 65536 ++ toLe 8 0) (weighted .running {})
      (fun e => (getPart e 0).map (·.w.loads.map (·.target)) = some [.adapter 9 0]) = true ∧
    serves (.adapterLoad 0) 0x0313 (toLe 4 9 ++ toLe 2 0 ++ [2, 0] ++ toLe 8 65536 ++ toLe 8 0)
      (weighted .running { adapters := [adapter, { adapter with area := 1 }] }) stNotReady (fun _ => true) = true ∧
    serves (.adapterDelete 0) 0x0314 (toLe 4 9) (weighted .running { adapters := [adapter] }) stOk
      (fun e => (getPart e 0).map (·.w.adapters.map (·.deleting)) = some [true]) = true ∧
    serves (.adapterDelete 0) 0x0314 (toLe 4 8) (weighted .running { adapters := [adapter] }) stBadArg (fun _ => true) = true ∧
    serves (.weightFlip 0) 0x0311 (toLe 4 5 ++ toLe 4 0 ++ toLe 4 (2 ^ 24)) (weighted .running { copy0 := loaded0, copy1 := verified1 }) stOk
      (fun e => (getPart e 0).map (·.w.flip) = some (some ⟨5, false, 2 ^ 24, 1⟩)) = true ∧
    serves (.weightFlip 0) 0x0311 (toLe 12 0) (weighted .loaded { copy0 := loaded0, copy1 := verified1 }) stOk
      (fun e => (getPart e 0).map (fun y => (y.w.copy0.st, y.w.copy1.st, y.w.sel)) = some (.retiring, .active, 1)) = true ∧
    serves (.weightRelease ⟨0, false⟩) 0x0312 [1] (weighted .running { copy0 := loaded0, copy1 := verified1 }) stOk
      (fun e => (getPart e 0).map (fun y => (y.w.copy0.st, y.w.copy1.st)) = some (.active, .empty)) = true ∧
    serves (.weightRelease ⟨0, false⟩) 0x0312 [0] (weighted .running { copy0 := { st := .loading } }) stBusy (fun _ => true) = true ∧
    serves (.weightRelease ⟨0, false⟩) 0x0312 [0] (weighted .running {}) stNotReady (fun _ => true) = true ∧
    serves (.weightRelease ⟨0, true⟩) 0x0312 [0] (weighted .running { copy0 := loaded0 }) stNotReady (fun _ => true) = true ∧
    serves (.weightRelease ⟨0, false⟩) 0x0312 [0] (weighted .loaded { copy0 := loaded0 }) stOk
      (fun e => (getPart e 0).map (·.w.copy0) = some {}) = true ∧
    (holders holding 0 ≠ [] ∧ serves (.weightRelease ⟨0, false⟩) 0x0312 [0] { up with parts := [(0, holding)] } stNotReady (fun _ => true) = true ∧
      serves (.weightRelease ⟨0, true⟩) 0x0312 [0] { up with parts := [(0, holding)] } stOk
        (fun e => (getPart e 0).map (fun y => (y.w.copy0, y.srv.reqs.map (fun q => (q.st, q.prompt, q.before)))) =
          some ({}, [(.waiting, 67, 2)])) = true) := by
  repeat' apply And.intro
  all_goals decide +kernel

/-- A load in progress of mailbox 0 into copy slot 0 from host memory, with its manifest or without. -/
def load (alt : Source) (m : Option ManInfo) (at_ : Option Nat) (ss : List Shard) : Load :=
  ⟨0, .copy 0, 0, .host 4096, alt, false, at_, none, m, false, ss⟩
def loading_ (l : Load) : Dev :=
  { weighted .loaded { copy0 := { st := .loading }, loads := [l] } with
    mbx := [(0, { st := .accepted, begun := true, req := cells 0 (toLe 2 0x0310 ++ toLe 2 0 ++ toLe 2 24 ++ toLe 34 0) })] }
def shard : Shard := ⟨6, 0, 64, 0, 0, false, false, some 0⟩

theorem witness_LoadsEndVerifiedOrFailed :
    gives (.manifestReadDone 0 0) (loading_ (load .none_ none (some 0) []))
      (fun e => rdN (getMbx e 0).reply 6 1 = stBadArg && (getPart e 0).map (·.w) = some {}) = true ∧
    gives (.manifestReadTimeout 0 0) (loading_ (load .none_ none (some 0) []))
      (fun e => rdN (getMbx e 0).reply 6 1 = stTimeout && (getPart e 0).map (·.w) = some {}) = true ∧
    mayPass (msG 10000) (loading_ (load .none_ none (some 0) [])) = true ∧
    (let d := { loading_ (load .none_ none (some 0) []) with parts := (loading_ (load .none_ none (some 0) [])).parts ++ [(1, { part with pid := 1, mask := 2 })] }
     mayPass (msG 10000) d = false ∧ gives (.manifestReadTimeout 0 0) d (fun e => (getMbx e 0).st = .accepted) = true) ∧
    (rankless (.store 0) man 1 = true ∧ rankless (.host 0) man 1 = false ∧ rankless (.store 0) man 0 = false) ∧
    gives (.manifestReadDone 0 0) (loading_ (load (.host 8192) none (some 0) []))
      (fun e => (getPart e 0).map (·.w.loads.map (fun l => (l.useAlt, l.priStatus))) = some [(true, some 2)]) = true ∧
    gives (.shardTimeout 0 0 6) (loading_ (load .none_ (some man) none [shard]))
      (fun e => rdN (getMbx e 0).reply 6 1 = stTimeout && rdN (getMbx e 0).reply 16 4 = 6 && e.clk.wall = msG 10000) = true := by
  repeat' apply And.intro
  all_goals decide +kernel

/-- Installation mode, with an image of two positions in slot 63: the first position written on block 8. -/
def installing : Dev :=
  { ready with glb := { ready.glb with install := true }, store := { replayed := true, imgs := [(63, ⟨2, [(0, 8)], false, none⟩)], bytes := [(2 ^ 29, 1)] } }

theorem witness_TheStoreInstallsImages :
    serves (.installOpen 0) 0x0301 (toLe 12 0) ready stOk (fun e => e.glb.install) = true ∧
    (storeReady up = false ∧ serves (.imageBegin 0) 0x0302 (toLe 4 0 ++ toLe 4 1) up stNotReady (fun e => e.store.imgs = []) = true) ∧
    serves (.imageBegin 0) 0x0302 (toLe 4 0 ++ toLe 4 29794) installing stOk
      (fun e => getImg e 0 = some ⟨29794, [], false, none⟩ && (validRecs e.store).map (·.kind) = [3] && e.store.jrnA = e.store.jrnB && e.store.jrnA.map (·.length) = [32]) = true ∧
    (freeBlock installing = some 9 ∧ serves (.blockWrite 0) 0x0303 (toLe 4 63 ++ toLe 4 1 ++ toLe 8 3 ++ toLe 8 4096)
      { installing with host := [(4097, 5)] } stOk
      (fun e => rdBs e.store.bytes (9 * 2 ^ 26) 3 = [0, 5, 0] && rdB e.store.bytes (2 ^ 29) = 1) = true) ∧
    (firstUnwritten ⟨2, [(0, 8)], false, none⟩ = 1 ∧
      serves (.imageCommit 0) 0x0304 [63] installing stIntegrity (fun e => rdN (getMbx e 0).reply 16 4 = 0xFFFFFFFF) = true) ∧
    serves (.imageDelete 0) 0x0305 [63] installing stOk
      (fun e => e.store.imgs = [] && e.store.bytes = [] && (validRecs e.store).map (·.kind) = [5, 7]) = true ∧
    serves (.installClose 0) 0x0306 [] installing stOk (fun e => !e.glb.install) = true ∧
    gives .journalReplay { up with store := { jrnB := [jrnBytes ⟨1, 0, 4, 3, 7⟩] } } (fun e => getImg e 4 = some ⟨7, [], false, none⟩) =
      true ∧
    gives .storeReady { up with store := { replayed := true } } (fun e => storeReady e) = true := by
  repeat' apply And.intro
  all_goals decide +kernel

/-! ### Jobs and marks -/

/-- Partition 0 with a job in a state, its plan in a state. -/
def jobbed (p : PlanSt) (j : Job) : Part := { part with plan := p, job := j }
def working (x : Part) : Dev := { up with parts := [(0, x)] }
def prepared : Part :=
  { jobbed .loaded {} with w := weights, srv := { sel := some sel }, eph := { cfg := BitVec.ofNat 32 (2 ^ 31) } }
def timed (x : Part) : Dev := { working x with mt := { mt := 10, stratum := 1, since := some 0 }, clk := { wall := msG 100 } }

theorem witness_JobCommands :
    (working prepared).parts.length = 1 ∧
    serves (.rankWrite 0) 0x0601 (toLe 2 1 ++ toLe 2 16383 ++ toLe 2 1 ++ toLe 2 0 ++ toLe 8 4096) { working prepared with host := [(4096, 0x80)] }
      stOk (fun e => e.ranks = [(32767, 0x80)]) = true ∧
    serves (.jobPrepare 0) 0x0602 (toLe 2 7 ++ toLe 2 1 ++ toLe 2 0 ++ toLe 50 0) (working prepared) stOk
      (fun e => (getPart e 0).map (fun y => (y.job.tag, y.job.epoch, y.job.discMs)) = some (7, 1, 500)) = true ∧
    serves (.jobPrepare 0) 0x0602 (toLe 2 0 ++ toLe 54 0) (working prepared) stBadArg (fun _ => true) = true ∧
    serves (.jobGo 0) 0x0603 (toLe 4 5 ++ toLe 4 0 ++ toLe 8 1000010) (timed (jobbed .loaded { st := .ready })) stOk
      (fun e => (getPart e 0).map (fun y => (y.job.st, y.job.startOrbit)) = some (.armed, 5)) = true ∧
    serves (.jobGo 0) 0x0603 (toLe 4 5 ++ toLe 4 0 ++ toLe 8 1000009) (timed (jobbed .loaded { st := .ready })) stLate (fun _ => true) = true ∧
    serves (.jobGo 0) 0x0603 (toLe 16 0) (working (jobbed .loaded { st := .ready })) stNotReady (fun _ => true) = true ∧
    serves (.jobStop 0) 0x0604 [] (working (jobbed .loaded {})) stOk (fun _ => true) = true ∧
    serves (.jobStop 0) 0x0604 [] (working (jobbed .running { st := .running })) stOk
      (fun e => (getPart e 0).map (fun y => (y.job.st, y.plan)) = some (.none_, .stopped)) = true ∧
    serves (.ckptTake 0) 0x0605 (toLe 32 0) (working (jobbed .loaded {})) stNotReady (fun _ => true) = true ∧
    serves (.ckptTake 0) 0x0605 (toLe 8 1 ++ toLe 8 1 ++ toLe 8 4096 ++ toLe 8 256) (working (jobbed .running { st := .running })) stOk
      (fun e => (getPart e 0).map (·.job.ckpt.isSome) = some true) = true ∧
    serves (.ckptRestore 0) 0x0606 (toLe 8 4096 ++ toLe 8 256) (working (jobbed .loaded {})) stIntegrity (fun _ => true) = true ∧
    serves (.routeSwitch 0) 0x0607 (toLe 4 2) (working { jobbed .running { st := .running } with fab := { mode := 256 } }) stOk
      (fun e => (getPart e 0).map (·.fab.switchAt) = some (some 2)) = true ∧
    serves (.routeSwitch 0) 0x0607 (toLe 4 1) (working { jobbed .running { st := .running } with fab := { mode := 256 } }) stDenied
      (fun _ => true) = true := by
  repeat' apply And.intro
  all_goals decide +kernel

/-- A plan of two modules whose port 0 faces rank 1. -/
def info2 : PlanInfo := { info with topo := { info.topo with modules := 2, far := [(0, 1)] } }

theorem witness_JobsStartTheirPlan :
    gives (.jobStart 0) (working (jobbed .loaded { st := .armed, startMt := 500, startOrbit := 3 }))
      (fun e => e.mt.mt = 500 && (getPart e 0).map (fun y => (y.plan, y.orbit, y.entering)) = some (.running, 3, true)) = true ∧
    (let d := { working (jobbed .loaded { st := .armed, startMt := 500, startOrbit := 3 }) with
                  parts := [(0, jobbed .loaded { st := .armed, startMt := 500, startOrbit := 3 }), (1, { part with pid := 1, mask := 2 })] }
     mayPass (nsG 500) d = false ∧ gives (.jobStart 0) d (fun e => (getPart e 0).map (·.plan) = some .loaded) = true) ∧
    (let d := { working { jobbed .loaded { st := .preparing, discMs := 50 } with info := some info2 } with
                  parts := [(0, { jobbed .loaded { st := .preparing, discMs := 50 } with info := some info2 }), (1, { part with pid := 1, mask := 2 })] }
     mayPass (msG 50) d = false ∧ gives (.discTimeout 0) d (fun e => (getPart e 0).map (·.job.st) = some .preparing) = true) ∧
    gives (.jobStart 0) (working (jobbed .loaded { st := .ready })) (fun e => (getPart e 0).map (·.plan) = some .loaded) = true ∧
    gives (.runningEntryCleanUpDone 0) { working { part with entering := true } with tiles := [(0, { pc := 9, ctr0 := 4 })] }
      (fun e => (getTile e 0).mode = .run && (getTile e 0).pc = 0 && (getTile e 0).ctr0 = 0) = true ∧
    gives (.discTimeout 0) (working { jobbed .loaded { st := .preparing, discMs := 50 } with info := some info2 })
      (fun e => (getPart e 0).map (fun y => (y.job.st, y.job.lastFail)) = some (.failed, 1) && (getPort e 0).darkBit && e.clk.wall = msG 50) =
      true ∧
    gives (.discTimeout 0) (working (jobbed .loaded {})) (fun e => e.clk.wall = 0) = true := by
  repeat' apply And.intro
  all_goals decide +kernel

/-- The payload of a mark of orbit 9 that fences relative slot 31; marks of the last orbit that are not complete. -/
def markMsg : List Byte := toLe 16 9 ++ toLe 64 (2 ^ 31) ++ toLe 32 0
def openMarks : Part := { part with orbit := 1, tick := 8192, now := 8192, fab := marks false false }
def captured (img : List Byte) : Part := jobbed .running { st := .running, ckpt := some ⟨0, 5, 4096, 260, some img, none⟩ }

theorem witness_MarksAndCheckpoints :
    gives (.orbitMark 0) (working { part with job := { modules := 2 }, fab := msgIn 4 markMsg })
      (fun e => (getPart e 0).map (·.fab.inbox) = some [] && isFenced e 0 31) = true ∧
    gives (.markTimeout 0) (working openMarks) (fun e => (getPart e 0).map (·.plan) = some .stopped && e.flt.halts = 1) = true ∧
    gives (.markTimeout 0) (working part) (fun e => e.flt.halts = 0) = true ∧
    gives (.checkpointWriteDone 0) (working (captured (List.replicate 260 3)))
      (fun e => (getPart e 0).map (fun y => (y.job.ckptDone, y.job.ckptStatus)) = some (5, 0) && rdN e.host 4344 8 = 5 && rdB e.host 4096 = 3) =
      true ∧
    gives (.checkpointWriteDone 0) (working (captured (List.replicate 261 3)))
      (fun e => (getPart e 0).map (fun y => (y.job.ckptDone, y.job.ckptStatus)) = some (0, 2) && e.host = []) = true := by
  repeat' apply And.intro
  all_goals decide +kernel

/-! ### Clocks -/

def steps_ (step : BitVec 3) (f : Clk → Clk) : Dev := { up with clk := f { step := step, target := step } }

theorem witness_StepChanges :
    gives (.go 3) (steps_ 1 fun c => { c with busy := true }) (fun e => e.clk.stepErr) = true ∧
    gives (.go 7) (steps_ 1 id) (fun e => e.clk.busy && e.clk.tgt = 7 && e.clk.target = 7) = true ∧
    gives (.stepChangeResume 500) (steps_ 1 fun c => { c with busy := true, tgt := 5, target := 5 })
      (fun e => e.clk.step = 5 && !e.clk.busy && e.clk.wall = nsG 500 && nsG 500 ≤ e.clk.resumeAt && e.pwr.vcore = stepMv 5) = true ∧
    gives (.stepChangeResume 500) (steps_ 1 fun c => { c with busy := true, tgt := 5, target := 5, goAt := nsG 100 })
      (fun e => e.clk.wall = nsG 600) = true ∧
    stays .tideCeilingRaise (msG 1000) { steps_ 1 id with pwr := { up.pwr with tideCeil := 4 } } = true ∧
    gives (.stepChangeResume 2000) { steps_ 1 (fun c => { c with busy := true, tgt := 5, target := 4 }) with pwr := { up.pwr with tideCeil := 4 } }
      (fun e => e.clk.step = 5 && e.clk.busy && e.clk.tgt = 4) = true ∧
    gives (.stepChangeResume 499) (steps_ 1 fun c => { c with busy := true, tgt := 5 }) (fun e => e.clk.step = 1) = true ∧
    gives .tideCeilingRaise { steps_ 1 id with pwr := { up.pwr with tideCeil := 4 } } (fun e => e.pwr.tideCeil = 5 && e.clk.wall = msG 1000) =
      true ∧
    gives .tideCeilingRaise (steps_ 1 id) (fun e => e.clk.wall = 0) = true := by
  repeat' apply And.intro
  all_goals decide +kernel

def moons (m : Moon) : Dev := { up with clk := { moons := [(0, m), (1, { tideExc := 3 })] } }

/-- A module whose tile clocks run at step 0: the latest ticks of its moons began with the wall time, but those of MOON[0] later. -/
def ticked : Dev :=
  { up with clk := { moons := tileMoons.map (fun m => (m, { st := .running, begins := if m = 0 then [100000, 50000] else [0], dur := period 0 })) } }

theorem witness_TidesAndPauses :
    gives (.droop 0 ⟨41, 0⟩) { moons {} with clk := { (moons {}).clk with busy := true } } (fun e => !(getMoon e 0).stretchNext) = true ∧
    gives (.droop 0 ⟨40, 0⟩) (moons {}) (fun e => !(getMoon e 0).stretchNext) = true ∧
    gives (.droop 26 ⟨41, 1000⟩) up (fun e => (getMoon e 26).stretchNext && (getMoon e 27).stretchNext && !(getMoon e 7).stretchNext &&
      (getMoon e 27).droopTill = grain) = true ∧
    gives (.droop 40 ⟨41, 0⟩) { up with clk := { moons := [(40, { stretchEn := false })] } } (fun e => !(getMoon e 40).stretchNext) = true ∧
    gives (.droop 0 ⟨41, 0⟩) (moons { stretchEn := false }) (fun e => !(getMoon e 0).stretchNext) = true ∧
    ((moonTick 1000 1 0 { stretchNext := true }).dur = 2000 ∧ (moonTick 1000 1 4 { droopTill := 4 }).dur = 1000 ∧
      (moonTick 1000 1 4 { droopTill := 5 }).stretchCount = 1) ∧
    ((countPeriods 1 true { runPeriods := 1023, runStretched := 64 }).excDue = 1 ∧
      (countPeriods 1 false { runPeriods := 1023, runStretched := 64 }).excDue = 0 ∧
      (countPeriods 1 true { runPeriods := 1022, runStretched := 64 }).runStretched = 65) ∧
    ((getMoon (freeTicks (moons { excDue := 2 })) 0).excDue = 2 ∧ gives (.tideExcursion 0) (moons { excDue := 2 })
      (fun e => (getMoon e 0).tideExc = 1 && (getMoon e 0).excDue = 1 && e.flt.notes = 1) = true) ∧
    gives (.tideExcursion 0) (moons {}) (fun e => (getMoon e 0).tideExc = 0) = true ∧
    (clocksRun up = false ∧ gives (.couplingPause 35 10) up (fun e => (getMoon e 35).pauseG = 0) = true) ∧
    (latticePaused ticked = false ∧ clocksRun ticked = true ∧ nextBegin ticked 1 = 2 * period 0 ∧ tickEnd (getMoon ticked 1) = period 0 ∧
      gives (.couplingPause 1 10) ticked (fun e => (getMoon e 1).pauseG = period 0 && (getMoon e 1).pauseCount = 1 && (getMoon e 0).pauseG = 0) =
        true) := by
  repeat' apply And.intro
  all_goals decide +kernel

theorem witness_ReferencesAreFollowed :
    gives (.refPref false) up (fun e => !e.clk.refPref && e.clk.events = 0) = true ∧
    gives (.refPref true) up (fun e => e.clk.refSel && e.clk.events = 4) = true ∧
    gives (.referenceBad true) { up with clk := { refBBad := true } } (fun e => e.clk.events = 0) = true ∧
    gives (.referenceBad false) { up with clk := { refBBad := true } } (fun e => e.clk.holdover && e.clk.events = 9 && e.flt.degrades = 1) =
      true ∧
    gives (.referenceBad false) up (fun e => e.clk.refSel && e.clk.events = 5 && e.flt.degrades = 1) = true ∧
    gives (.referenceBad true) up (fun e => !e.clk.refSel && e.clk.events = 2 && e.flt.degrades = 0) = true ∧
    (let d := { up with clk := { refABad := true, holdover := true, refBadAt := [(0, 0)] } }
     mayPass (msG 1) d = true ∧ gives (.referenceGood false) d (fun e => !e.clk.holdover && !e.clk.refABad && e.clk.wall = msG 1) = true ∧
       stays (.referenceGood false) (msG 1) d = true) ∧
    (let d := { up with clk := { refABad := true, refBBad := true, freeRun := true, refBadAt := [(1, 0)], wall := msG 1 } }
     gives (.referenceGood true) d (fun e => !e.clk.freeRun && e.clk.refSel) = true) ∧
    gives (.referenceGood false) up (fun e => e.clk.wall = 0) = true ∧
    gives (.referenceBad false) { up with clk := { refAuto := false } } (fun e => e.clk.holdover && !e.clk.refSel && e.flt.degrades = 1) = true ∧
    stays .holdoverExpiry (msG 10) { up with clk := { holdover := true, holdoverAt := some 0 } } = true ∧
    gives .holdoverExpiry up (fun e => e.clk.wall = 0) = true ∧
    gives .holdoverExpiry { up with clk := { holdover := true, holdoverAt := some 0 } }
      (fun e => e.clk.freeRun && e.clk.wall = msG 10 && e.clk.events = 16) = true := by
  repeat' apply And.intro
  all_goals decide +kernel

theorem witness_PllsAndSeams :
    gives (.pllLockLoss 11) up (fun e => e.clk.pllDown = [11] && e.flt.notes = 1) = true ∧
    gives (.pllLockLoss 3) { up with clk := { pllDown := [3] } } (fun e => e.flt.notes = 0) = true ∧
    (let d := { withChan upChan with clk := { pllDown := [4] } }
     awake d = true ∧ d.clk.pllDown.contains 4 = true ∧ (getChan d 0).st = .up) ∧
    gives (.pllRelock 3) up (fun e => e.clk.pllDown = []) = true ∧
    gives (.pllLockLoss 3) up (fun e => e.clk.pllDown = [3] && tget e.clk.pllAt 3 = some 0) = true ∧
    ({ up with clk := { pllDown := [3], pllAt := [(3, 0)] } } : Dev).clk.pllDown.contains 3 = true ∧
    gives (.pllFail 3) { up with clk := { pllDown := [3], pllAt := [(3, 0)] } } (fun e => e.flt.hold && e.clk.wall = usG 100) = true ∧
    stays (.pllFail 3) (usG 100) { up with clk := { pllDown := [3], pllAt := [(3, 0)], seamDown := [0], seamAt := [(0, 0)] } } = true ∧
    gives (.pllFail 4) { up with clk := { pllDown := [4] } } (fun e => !e.flt.hold) = true ∧
    gives (.seamPhaseError 8) up (fun e => e.clk.seamDown = [8]) = true ∧
    (let d := { up with clk := { seamDown := [8] } }
     awake d = true ∧ d.clk.seamDown.contains 8 = true) ∧
    gives (.seamFail 8) { up with clk := { seamDown := [8], seamAt := [(8, 0)] } } (fun e => e.flt.hold && e.clk.wall = usG 100) = true ∧
    gives (.seamFail 8) up (fun e => !e.flt.hold) = true := by
  repeat' apply And.intro
  all_goals decide +kernel

/-! ### Ports -/

def ported (y : Port) : Dev := { working (jobbed .loaded {}) with ports := [(0, y)] }
def is (st : PortSt) (e : Dev) : Bool := (getPort e 0).st = st

/-- A training cell of 256 bytes (Table 11.10) with a tag, epoch 1, and MATCH. -/
def cell (tag : Nat) : List Byte := toLe 2 tag ++ toLe 5 1 ++ [1] ++ toLe 248 9
def training : Port := { st := .training, jobTag := 7, jobEpoch := 1, laneUse := 15, laneLock := 15 }

theorem witness_PortsTrain :
    gives (.portEn 0 false) (ported { st := .up, lasers := true }) (fun e => is .off e && !(getPort e 0).lasers) = true ∧
    gives (.portEn 0 true) (ported {}) (is .training) = true ∧ gives (.portEn 0 true) (ported { darkBit := true }) (is .dark) = true ∧
    gives (.portEn 0 true) (ported { st := .up }) (is .up) = true ∧ gives (.retrain 0) (ported { st := .up }) (is .training) = true ∧
    gives (.retrain 0) (ported {}) (is .off) = true ∧ gives (.dark 0 true) (ported { st := .up }) (is .dark) = true ∧
    gives (.dark 0 false) (ported { st := .dark, darkBit := true }) (is .training) = true ∧
    gives (.dark 0 false) (ported { st := .up, darkBit := true }) (fun e => is .up e && !(getPort e 0).darkBit) = true ∧
    gives (.jobIdWrite 0 0x10007) (ported { st := .up }) (fun e => is .training e && (getPort e 0).jobTag = 7 && (getPort e 0).jobEpoch = 1) =
      true ∧
    gives (.jobIdWrite 0 7) (ported {}) (fun e => is .off e && (getPort e 0).jobTag = 7) = true ∧
    gives (.forceDown 0) (ported { st := .subst }) (fun e => is .down e && (getPort e 0).downCause = 5) = true ∧
    gives (.forceDown 0) (ported { st := .dark }) (is .dark) = true ∧
    gives (.laneAcquisitionTimeout 0 3) (ported { st := .training, laneLock := 0b10111 })
      (fun e => is .training e && (getPort e 0).laneUse = 0b10111 && (getPort e 0).haloStripe = 3) = true ∧
    gives (.laneAcquisitionTimeout 0 3) (ported { st := .training, laneLock := 0b10110, laneFailed := 1 })
      (fun e => is .down e && (getPort e 0).downCause = 4) = true ∧
    gives (.trainingCell 0 (cell 7)) (ported training) (fun e => (getPort e 0).matchCells = 1) = true ∧
    gives (.trainingCell 0 (cell 7)) (ported { training with matchCells := 1023 }) (is .up) = true ∧
    gives (.trainingCell 0 (cell 8)) (ported { training with matchCells := 1023 })
      (fun e => (getPort e 0).matchCells = 0 && (getPort e 0).foreign && is .training e) = true ∧
    stays (.laneAcquisitionTimeout 0 3) (msG 20) (ported { st := .training, laneLock := 0b10111 }) = true ∧
    stays (.trainTimeout 0) (msG 50) (ported training) = true ∧
    (craterLanes (ported {}) 0 = 0 ∧ (let d := { ported {} with crater := { force := { lanes := [0, 1, 2, 3, 4] } } }
      craterLanes d 0 = 0b11111 ∧ gives (.portEn 0 true) d (is .down) = true)) ∧
    gives (.trainTimeout 0) (ported training) (fun e => (getPort e 0).trainTimeout && e.clk.wall = msG 50) = true := by
  repeat' apply And.intro
  all_goals decide +kernel

def upPort : Port := { st := .up, laneLock := 15, laneUse := 15 }
def lost (lane t : Nat) : Port := { upPort with laneLock := 15 &&& ~~~(laneBit lane), lostAt := [(lane, t)] }
def subst : Port := { upPort with st := .subst, rxSubst := true, haloReq := true, reqLane := 3, substAt := some 0 }

/-- SYNC halfwords of segments: 8 that are wrong, 64 that are right. -/
def wrong : List (BitVec 16) := List.replicate 8 0
def right : List (BitVec 16) := List.replicate 64 0x5A

theorem witness_LanesAndSubstitution :
    (losesLock wrong = true ∧ losesLock [] = true ∧ losesLock (wrong.drop 1) = false ∧ gainsLock right = true ∧ gainsLock (right.drop 1) = false) ∧
    gives (.lockLoss 0 ⟨4, wrong, 9⟩) (ported upPort) (fun e => (getPort e 0).laneLock = 15 && tget (getPort e 0).rxPower 4 = some 9) = true ∧
    gives (.lockLoss 0 ⟨3, wrong, 9⟩) (ported upPort) (fun e => (getPort e 0).laneLock = 7 && (getPort e 0).lostAt = [(3, 0)]) = true ∧
    gives (.lockLoss 0 ⟨3, [0], 9⟩) (ported upPort) (fun e => (getPort e 0).laneLock = 15) = true ∧
    gives (.lockLoss 0 ⟨3, wrong, 9⟩) (ported { upPort with laneLock := 8, lostAt := [(0, 0), (1, 0), (2, 0)] })
      (fun e => (getPort e 0).outageAt.isSome) = true ∧
    gives (.lockRegain 0 ⟨3, right, 9⟩) (ported (lost 3 0)) (fun e => (getPort e 0).laneLock = 15 && (getPort e 0).laneLockloss = 1) = true ∧
    gives (.lockRegain 0 ⟨3, right, 9⟩) (atWall (usG 111) (ported { lost 3 0 with outageAt := some 0 }))
      (fun e => is .down e && (getPort e 0).downCause = 1) = true ∧
    gives (.laneFailed 0 3) (ported (lost 3 0)) (fun e => is .subst e && (getPort e 0).reqLane = 3 && e.clk.wall = usG 4) = true ∧
    gives (.laneFailed 0 3) (ported { lost 3 0 with haloFail := true }) (fun e => is .down e && (getPort e 0).downCause = 1) = true ∧
    stays (.laneFailed 0 3) (usG 4) (ported (lost 3 0)) = true ∧
    gives (.laneFailed 0 3) (ported upPort) (is .up) = true ∧
    gives (.portOutageExpiry 0) (ported { upPort with outageAt := some 0 }) (fun e => is .down e && e.clk.wall = usG 110) = true ∧
    stays (.portOutageExpiry 0) (usG 110) (ported { upPort with outageAt := some 0 }) = true ∧
    gives (.haloReq 0 3) (ported upPort) (fun e => is .subst e && (getPort e 0).txSubst && (getPort e 0).haloAck && (getPort e 0).ackLane = 3) =
      true ∧
    gives (.haloReq 0 2) (ported { upPort with haloAck := true, ackLane := 3 }) (fun e => (getPort e 0).ackLane = 3) = true ∧
    gives (.haloAck 0 3) (ported subst) (fun e => (getPort e 0).deskew) = true ∧
    gives (.deskewDone 0) (ported { subst with deskew := true })
      (fun e => is .up e && (getPort e 0).laneUse = 0b10111 && (getPort e 0).haloStripe = 3) = true ∧
    gives (.deskewDone 0) (atWall (usG 121) (ported { subst with deskew := true })) (fun e => is .down e && (getPort e 0).downCause = 2) =
      true ∧
    gives (.deskewDone 0) (ported subst) (is .subst) = true ∧
    gives (.substTimeout 0) (ported subst) (fun e => is .down e && (getPort e 0).downCause = 2 && e.clk.wall = usG 120) = true ∧
    stays (.substTimeout 0) (usG 120) (ported subst) = true ∧
    gives (.farDownSeen 0) (ported upPort) (fun e => is .down e && (getPort e 0).downCause = 3) = true ∧
    gives (.farDownSeen 0) (ported {}) (is .off) = true ∧
    gives (.laserOff 0) (ported { st := .down, lasers := true, downDecl := some 0 }) (fun e => !(getPort e 0).lasers && e.clk.wall = usG 10) =
      true ∧
    stays (.laserOff 0) (usG 10) (ported { st := .down, lasers := true, downDecl := some 0 }) = true := by
  repeat' apply And.intro
  all_goals decide +kernel

/-- A packet of 40 payload bytes for rank 0 with job tag 7, its cells, and cells with a bit wrong or out of sequence. -/
def pkt (dest ty tag : Nat) : Packet := mkPacket dest 1 ty 0 9 5 0 0 tag 0 (toLe 40 3)
def wrongBit (l : List Byte) : List Byte := l.take 2 ++ [0xAA] ++ l.drop 3
def wrongSeq : List Byte := cellBytes 1 1 true true ((pkt 0 3 7).hdr ++ toLe 40 3)
def linked : Port := { upPort with jobTag := 7 }
def rx (cells : List Byte) (P : Port → Bool) : Bool := gives (.packetReceived 0 cells) (ported linked) (fun e => P (getPort e 0))

set_option maxRecDepth 1000000 in
/-- Every row of Table 11.8 that drops, and a TIME packet that is kept. -/
theorem witness_PacketsMove_receive :
    gives (.packetReceived 0 (packetCells (pkt 0 3 7))) (ported { linked with st := .dark }) (fun e => (getPort e 0).pktRx = 0) = true ∧
    rx (wrongBit (packetCells (pkt 0 3 7))) (fun y => y.dropCrc16 = 1) = true ∧ rx wrongSeq (fun y => y.dropSeq = 1) = true ∧
    rx (packetCells (pkt 0 3 8)) (fun y => y.dropForeign = 1) = true ∧ rx (packetCells (pkt 0 6 7)) (fun y => y.dropFormat = 1) = true ∧
    rx (packetCells { pkt 0 3 7 with payload := toLe 40 4 }) (fun y => y.dropE2e = 1) = true ∧
    rx (packetCells (pkt 0 1 7)) (fun y => y.dropUnexp = 1) = true ∧
    (gather (cellsOf 260 (packetCells (pkt 0 3 7))) = .packet (pkt 0 3 7) false ∧
      gives (.packetReceived 0 (packetCells (pkt 0 3 7))) (ported linked)
        (fun e => (getPart e 0).map (·.fab.inbox) = some [⟨0, pkt 0 3 7, 0⟩]) = true) := by
  repeat' apply And.intro
  all_goals decide +kernel

/-- A port table with a source entry of 4 bytes of stream 2 in slot 0, in slots of 8 ticks. -/
def out0 : OutEntry := ⟨0, false, 2, 0, 4, 0, 0, 0, 0, false, 0, 5, 0, 0⟩
def tabPart (tick : Nat) : Part :=
  { jobbed .running { st := .running } with tick := tick, now := tick, info := some { info with ports := [(0, ⟨8, [], [out0], []⟩)] } }
def slotted (tick : Nat) (y : Port) : Dev := { working (tabPart tick) with ports := [(0, y)] }
def delivery : Delivery := ⟨mkPacket 0 1 1 0 0 5 1 0 7 0 [1, 2], 0, 0⟩

theorem witness_PacketsMove_send :
    (linkRoom { ported {} with tiles := [(0, { queues := [(28, { depth := 2, wcode := 1 })] })] } delivery.pkt = true ∧
      gives (.deliveryPush 0) { working part with ports := [(0, { deliv := some delivery })]
                                                  tiles := [(0, { queues := [(28, { depth := 2, wcode := 1 })] })] }
        (fun e => (getPort e 0).deliv = none && (getQ (getTile e 0) 28).count = 2) = true) ∧
    gives (.streamAppend 0) (ported { toStream := [⟨2, [8], [], 0⟩], streams := [(2, [7])] }) (fun e => getStream (getPort e 0) 2 = [7, 8]) = true ∧
    gives (.slotStart 0) (slotted 8 { upPort with slot := 1 }) (fun e => (getPort e 0).slot = 2 && (getPort e 0).sent = []) = true ∧
    gives (.slotStart 0) (slotted 0 { upPort with streams := [(2, [1, 2, 3, 4, 5])] })
      (fun e => (getPort e 0).sent.map (·.payload) = [[1, 2, 3, 4]] && getStream (getPort e 0) 2 = [5]) = true ∧
    gives (.slotStart 0) (slotted 0 { upPort with streams := [(2, [1, 2, 3])] })
      (fun e => (getPort e 0).slotShort = 1 && (getPort e 0).sent = [] && e.flt.halts = 1) = true ∧
    (slotBegins (slotted 8 { upPort with slot := 1 }) (tabPart 8) 0 1 = true ∧ slotBegins (slotted 120 upPort) (tabPart 120) 0 15 = true) ∧
    gives (.cometSlot 0) (slotted 120 { upPort with comet := [⟨.receipt, pkt 1 2 7, false⟩] })
      (fun e => (getPort e 0).slot = 16 && (getPort e 0).sent.length = 1) = true ∧
    serves (.portRead 0) 0x0608 [1] { ported {} with ports := [(1, { pktTx := 6, dropSeq := 2 })] } stOk
      (fun e => (getPort e 1).dropSeq = 0) = true ∧
    serves (.portCtrl 0) 0x0609 [0, 1] { working (jobbed .loaded { st := .ready }) with ports := [(0, upPort)] } stDenied (is .up) = true ∧
    serves (.portCtrl 0) 0x0609 [0, 1] (ported upPort) stOk (is .training) = true ∧
    serves (.portCtrl 0) 0x0609 [0, 2] (ported upPort) stOk (is .down) = true := by
  repeat' apply And.intro
  all_goals decide +kernel

/-- 8,192 bytes fill a stream buffer; one more overflows it. -/
theorem witness_PacketsMove_overflow :
    (List.replicate 8192 (0 : Byte) ++ [1]).length = 8193 ∧
    gives (.streamAppend 0) (ported { toStream := [⟨2, [1], [], 0⟩], streams := [(2, List.replicate 8192 0)] })
      (fun e => (getPort e 0).toStream = [] && e.flt.halts = 1) = true := by
  repeat' apply And.intro
  all_goals decide +kernel

/-! ### The fabric -/

def entry (missing : Bool) (round2 : Option Nat) : Inbound := ⟨0, 3, 0, 1, 5, 0, missing, round2.isSome, round2⟩
def fabric (tick : Nat) (f : Fab) : Dev := working { tabPart tick with fab := f }

/-- A receipt from rank 1 for orbit 9 with no entries, GONE or not. -/
def receiptMsg (flags : Nat) : List Byte := toLe 4 9 ++ [1, BitVec.ofNat 8 flags] ++ toLe 2 0

theorem witness_FabricKeepsThePlan :
    gives (.dueSlotEnd 0 3) (fabric 8 { open_ := [entry false none] })
      (fun e => (getPart e 0).map (·.fab.open_.map (·.missing)) = some [true]) = true ∧
    gives (.dueSlotEnd 0 3) (fabric 7 { open_ := [entry false none] })
      (fun e => (getPart e 0).map (·.fab.open_.map (·.missing)) = some [false]) = true ∧
    gives (.receipt 0) (fabric 0 {}) (fun e => e.ports = []) = true ∧
    gives (.receipt 0) (fabric 0 (msgIn 2 (receiptMsg 2))) (fun e => (getPart e 0).map (fun y => (y.fab.inbox, y.fab.goneRx)) = some ([], 1)) =
      true ∧
    gives (.receipt 0) (fabric 0 (msgIn 2 (receiptMsg 0))) (fun e => (getPart e 0).map (fun y => (y.fab.inbox, y.fab.goneRx)) = some ([], 0)) =
      true ∧
    gives (.fabSecond 0) (fabric 0 { open_ := [entry true (some 0)] }) (fun e => e.flt.halts = 1) = true ∧
    gives (.fabSecond 0) (fabric 0 { open_ := [entry true none] }) (fun e => e.flt.halts = 0) = true ∧
    firstAsked [entry true (some 5), entry true none, entry true (some 2)] = some (2, entry true (some 2)) ∧
    gives (.time 0) { fabric 0 (msgIn 3 (toLe 32 5)) with mt := { root := true, mt := 4 } }
      (fun e => (getPart e 0).map (·.fab.inbox) = some [] && e.mt.mt = 4) = true ∧
    gives (.time 0) { fabric 0 { inbox := (msgIn 3 (toLe 8 1000 ++ toLe 8 100 ++ toLe 8 400 ++ toLe 8 0)).inbox.map (fun k => { k with rx := 700 }) } with
        mt := { mt := 900 }, ports := [(0, { upPort with farStratum := 0 })] }
      (fun e => e.mt.offset = BitVec.ofInt 64 (timeOffset 100 400 1000 700) && e.mt.slew = 0) = true ∧
    gives .timeParentLoss up (fun e => e.mt.stratum = 0xFF && e.clk.wall = msG 10) = true ∧
    gives .timeParentLoss { up with mt := { root := true } } (fun e => e.clk.wall = 0) = true ∧
    (mayPass (msG 10) (takeParent (running up)) = false ∧ gives .timeParentLoss (running up) (fun e => e.mt.lostAt = some 0 && e.clk.wall = 0) = true) ∧
    gives .timeParentLoss { up with ports := [(0, { upPort with farStratum := 3 })] } (fun e => e.mt.parent = some 0 && e.mt.stratum = 4) = true ∧
    gives (.mgmt 0) (fabric 0 (msgIn 5 (mgmtHeader 3 0 1 8 ++ toLe 4 6)))
      (fun e => (getPart e 0).map (fun y => (y.fab.inbox, y.fab.switchAt)) = some ([], some 6)) = true ∧
    gives (.mgmt 0) (fabric 0 { msgIn 5 (mgmtHeader 3 0 1 8 ++ toLe 4 6) with floods := [(3, 8, 0)] })
      (fun e => (getPart e 0).map (fun y => (y.fab.inbox, y.fab.switchAt)) = some ([], none)) = true := by
  repeat' apply And.intro
  all_goals decide +kernel

/-! ### Security and the sideband -/

theorem witness_TokensMoveTheLifeCycle :
    (isTurn (ask 0x0705 (toLe 16 0) up) 0x0705 0 = true ∧ rqRefusal (ask 0x0705 (toLe 16 0) up) 0 = none) ∧
    serves (.tokenApply 0) 0x0705 (2 :: toLe 15 0) up stBadArg (fun _ => true) = true ∧
    serves (.tokenApply 0) 0x0705 (1 :: toLe 7 0 ++ toLe 8 4096) { up with hostBad := [(4096, 1)] } stIntegrity (fun _ => true) = true ∧
    ((checkToken up 272 false (hostRd up 4096 272)).1 = some (stBadArg, 1) ∧
      serves (.tokenApply 0) 0x0705 (1 :: toLe 7 0 ++ toLe 8 4096) up stBadArg (fun e => rdN (getMbx e 0).reply 7 1 = 1) = true) := by
  repeat' apply And.intro
  all_goals decide +kernel

def spoken (n : BitVec 2) (ss : List Session) : Dev := { up with sec := { spdm := n, sessions := ss } }
def tells (c : Instr) (d : Dev) (l : List Byte) : Bool := gives c d (fun e => e.out.resp.take l.length = l)
def sess (e : Bool) : Session := ⟨4, e, 0⟩

theorem witness_AttestationFollowsItsExchange :
    tells .getCapabilities (spoken 0 []) (spdmError 4) = true ∧ tells .getDigests (spoken 2 []) (spdmError 4) = true ∧
    gives .getVersion (spoken 3 []) (fun e => e.sec.spdm = 1 && e.out.resp = [0x10, 0x04, 0, 0, 0, 1, 0x00, 0x12]) = true ∧
    gives .getVersion { up with otp := { lc := 4 } } (fun e => e.out.resp = []) = true ∧
    gives .getCapabilities (spoken 1 []) (fun e => e.sec.spdm = 2) = true ∧
    gives (.negotiateAlgorithms 0x80 2 0x10 2) (spoken 2 []) (fun e => e.sec.spdm = 3) = true ∧
    tells (.negotiateAlgorithms 0x80 2 0x10 1) (spoken 2 []) (spdmError 1) = true ∧
    tells (.getCertificate 0 1 9) { spoken 3 [] with flash := { cert := [5, 6, 7] } } [0x12, 0x02, 0, 0, 2, 0, 0, 0, 6, 7] = true ∧
    tells (.getCertificate 1 0 9) (spoken 3 []) (spdmError 1) = true ∧ tells (.keyExchange 0 0 0) (spoken 3 (List.replicate 4 (sess true))) (spdmError 3) = true ∧
    gives (.keyExchange 0 7 0) (spoken 3 (List.replicate 3 (sess true))) (fun e => e.sec.sessions.length = 4) = true ∧
    tells (.getMeasurements 254 false 0) (spoken 3 []) (spdmError 1) = true ∧
    tells (.heartbeat 5) (spoken 3 [sess true]) (spdmError 2) = true ∧ tells (.heartbeat 4) (spoken 3 [sess false]) (spdmError 4) = true ∧
    gives (.finish 4 true) (spoken 3 [sess false]) (fun e => e.sec.sessions = [sess true]) = true ∧
    gives (.finish 4 false) (spoken 3 [sess false]) (fun e => e.sec.sessions = []) = true ∧
    tells (.finish 4 true) (spoken 3 [sess true]) (spdmError 4) = true ∧ tells (.heartbeat 4) (spoken 3 [sess true]) [0x12, 0x68] = true ∧
    gives (.keyUpdate 4) (spoken 3 [sess true]) (fun e => e.sec.sessions = [⟨4, true, 1⟩]) = true ∧
    gives (.endSession 4) (spoken 3 [sess true]) (fun e => e.sec.sessions = []) = true ∧
    gives (.ideKeyManagement 4 2) (spoken 3 [sess true]) (fun e => (tget e.sec.ide 2).map (·.secure) = some true) = true := by
  repeat' apply And.intro
  all_goals decide +kernel

theorem witness_OutOfBandAnswers :
    gives .identRead { up with flt := { mpFailed := true } } (fun e => e.out.resp = []) = true ∧
    tells .sensorRead { up with glb := { up.glb with shed := true } } [1] = true ∧ tells .identRead up [0, 0x16, 0x92, 0x42, 0x01] = true ∧
    tells .sensorRead { up with pwr := { up.pwr with pwrIn := 7, temps := 0x2A1112131415 } } [0, 7, 0, 0, 0, 0, 0, 0x15, 0x2A] = true ∧
    gives (.powerLimit 500) up (fun e => e.pwr.limit = 500 && e.out.resp = [0]) = true ∧
    gives (.powerLimit 2800) up (fun e => e.pwr.limit = 2800) = true ∧
    gives (.powerLimit 2801) up (fun e => e.pwr.limit = 2800 && e.out.resp = [2]) = true ∧ tells (.powerLimit 499) up [2] = true ∧
    tells .faultSummary { up with flt := { last := some (2, 0x701, 9) } } [0, 2, 0x01, 0x07, 9] = true ∧
    gives .quiesce (working part) (fun e => (getPart e 0).map (·.plan) = some .stopped && e.out.resp = [4]) = true ∧
    gives (.setEndpointId 8) up (fun e => e.sec.eid = 8 && e.out.resp = [1, 0, 0, 8, 0]) = true ∧ tells (.setEndpointId 0xFF) up [1, 2] = true ∧
    tells .getEndpointId up [2, 0, 0, 0, 0] = true ∧ tells (.getMctpVersionSupport 0x7E) up [4, 0] = true ∧
    tells (.getMctpVersionSupport 1) up [4, 0x80] = true ∧ tells .getMessageTypeSupport up [5, 0, 3, 0, 5, 0x7E] = true ∧
    tells (.doeDiscovery 2) up [1, 0, 2, 0] = true ∧ tells (.doeDiscovery 3) up [0xFF, 0xFF, 0xFF, 0] = true ∧
    gives (.ideIntegrity 2) { up with sec := { ide := [(2, { secure := true })] } }
      (fun e => (tget e.sec.ide 2).map (·.insecure) = some true && e.flt.degrades = 1) = true ∧
    gives (.ideIntegrity 2) up (fun e => e.flt.degrades = 0) = true ∧
    gives (.ieee11491Instruction .extest) (working part) (fun e => e.jtag = .bypass) = true ∧
    gives (.ieee11491Instruction .idcode) up (fun e => e.jtag = .idcode) = true := by
  repeat' apply And.intro
  all_goals decide +kernel

/-! ### Power, reset and start-up -/

def held : Dev := {}
def pwrWith (f : Pwr → Pwr) : Dev := { up with pwr := f up.pwr }

theorem witness_PowerOnResetAndStartUp :
    gives .inputRise (pwrWith fun p => { p with inputOn := false, offAt := some 0 }) (fun e => e.pwr = {} && e.clk.wall = msG 1000) = true ∧
    gives .inputRise (working part) (fun e => e.parts ≠ []) = true ∧ gives .inputFall up (fun e => e.pwr.holdUp && e.store.stopping) = true ∧
    ({ working part with pwr := { up.pwr with holdUp := true } } : Dev).pwr.holdUp = true ∧
    gives .holdUpEnd (working part) (fun e => e.parts ≠ []) = true ∧
    gives .overvoltage (working part) (fun e => e.parts = [] && e.pwr.rails = 0 && e.clk.wall = 0) = true ∧
    gives (.railFail 2) held (fun e => e.pwr.rails = 3 && !e.flt.sealed) = true ∧
    gives (.railFail 7) held (fun e => e.pwr.rails = 7 && e.flt.sealed) = true ∧ gives (.railFail 7) up (fun e => !e.flt.sealed) = true ∧
    gives (.rstN 10000) { working part with rcv := { arm := true } } (fun e => e.parts = [] && e.pwr.resetHeld && e.rcv.arm) = true ∧
    gives (.rstN 999) (working part) (fun e => e.parts ≠ [] && e.clk.wall = 0) = true ∧
    gives (.rstN 999) up (fun e => e.pwr.resetHeld = false && e.clk.wall = nsG 999) = true ∧
    (1000 ≤ 9999 ∧ (working part).pwr.inputOn = true) ∧
    gives (.internalResetRelease {}) { held with rcv := { arm := true } } (fun e => e.rcv.st = 1 && !e.pwr.resetHeld) = true ∧
    (bootReason held).isSome = true ∧ gives (.internalResetRelease {}) held (fun e => e.rcv.st = 1 && !e.glb.mpReady) = true ∧
    gives (.internalResetRelease {}) { held with flt := { sealed := true } } (fun e => e.pwr.resetHeld) = true := by
  repeat' apply And.intro
  all_goals decide +kernel

def temps (t : Nat) : BitVec 40 := BitVec.ofNat 40 (t * 0x0101010101)

theorem witness_CeilingsInService :
    gives (.inputRange true) (steps_ 5 id) (fun e => e.pwr.rangeActive && e.pwr.rangeCeil = 5 && e.flt.degrades = 1) = true ∧
    gives (.inputRange false) { steps_ 5 id with pwr := { up.pwr with rangeActive := true, rangeCeil := 3 } } (fun e => e.pwr.rangeCeil = 7) =
      true ∧
    gives (.powerMeasurement 48000 0 2800 0) (steps_ 5 id) (fun e => e.pwr.overRun = 0 && e.pwr.belowAt = none) = true ∧
    gives (.powerMeasurement 48000 0 2519 0) (steps_ 5 id) (fun e => e.pwr.belowAt = some (usG 100)) = true ∧
    gives (.powerMeasurement 48000 0 2801 0) (steps_ 5 id) (fun e => e.pwr.overRun = 1 && e.pwr.exceeded = 32 && e.pwr.powerCeil = 7) = true ∧
    gives (.powerMeasurement 48000 0 2801 0) { steps_ 5 id with pwr := { up.pwr with overRun := 9, powerCeil := 5 } }
      (fun e => e.pwr.powerCeil = 4 && e.clk.busy && e.clk.tgt = 4) = true ∧
    gives (.powerMeasurement 48000 0 2801 0) { steps_ 0 id with pwr := { up.pwr with overRun := 9 } } (fun e => e.pwr.limitFault) = true ∧
    gives (.powerMeasurement 48000 0 2001 0) { steps_ 5 id with pwr := { up.pwr with rangeActive := true, rangeCeil := 5 } }
      (fun e => e.pwr.rangeCeil = 4) = true ∧
    stays (.powerMeasurement 48000 0 2801 0) (usG 100) (steps_ 5 id) = true ∧
    stays .powerCeilingRaise (msG 100) { steps_ 5 id with pwr := { up.pwr with powerCeil := 4, belowAt := some 0 } } = true ∧
    stays (.thermalRead (temps 40) 0b11111) (msG 1) up = true ∧
    gives .powerCeilingRaise { steps_ 5 id with pwr := { up.pwr with powerCeil := 4, belowAt := some 0 } }
      (fun e => e.pwr.powerCeil = 5 && e.clk.wall = msG 100) = true ∧
    gives .powerCeilingRaise { steps_ 5 id with pwr := { up.pwr with powerCeil := 4, belowAt := some 0, exceeded := 32 } }
      (fun e => e.pwr.powerCeil = 4) = true ∧
    gives (.thermalRead (temps 40) 0b11111) up (fun e => e.pwr.temps.toNat % 256 = 40 && e.flt.head = 0 && e.clk.wall = msG 1) = true ∧
    gives (.thermalRead (temps 200) 0b11111) up (fun e => e.flt.sealed) = true ∧
    gives (.sensorFail 4) up (fun e => e.pwr.sensorBad = [4] && thermCeil e = 4) = true ∧
    gives .vcoreUv (working part) (fun e => e.flt.hold && (getPart e 0).map (·.plan) = some .stopped) = true ∧
    gives .vcoreOv up (fun e => e.flt.sealed && e.pwr.rails = 7) = true ∧ gives .vcoreOcp up (fun e => e.flt.sealed) = true ∧
    gives .phaseFail (steps_ 6 id) (fun e => e.pwr.phases = 63 && e.pwr.phaseActive && e.clk.tgt = 5) = true := by
  repeat' apply And.intro
  all_goals decide +kernel

/-- Temperatures at the limit, past it, and at the trip, a ceiling that falls after 10 ms past the limit and rises after 100 ms below it. -/
theorem witness_CeilingsInService_thermal :
    (hotT 0 < tripT 0 ∧ hotT 5 < tripT 5 ∧ coolT 0 ≤ hotT 0) ∧
    gives (.thermalRead (temps (tripT 0)) 1) { up with pwr := { up.pwr with hotAt := [(0, 0)] }, clk := { wall := msG 10 } }
      (fun e => !e.flt.sealed && e.pwr.thermCeil = 6) = true ∧
    gives (.thermalRead (temps 1) 0b11111) { up with pwr := { up.pwr with thermCeil := 4, coolAt := some 0 }, clk := { wall := msG 100 } }
      (fun e => e.pwr.thermCeil = 5) = true := by
  repeat' apply And.intro
  all_goals decide +kernel

/-! ### Register spaces -/

def running1 : Tile := { mode := .run, nextIssue := 50 }

theorem witness_RegistersReadAndWrite :
    (planHolds (planned .running) 0 = true ∧ planHolds up 0 = false) ∧
    gives (.commandMemoryWrite 0 0xFFF8 0x0807060504030201) up (fun e => rdN (getTile e 0).cmem 0xFFF8 8 = 0x0807060504030201) = true ∧
    gives (.commandMemoryWrite 0 0 1) (planned .running) (fun e => (getTile e 0).cmem = []) = true ∧
    gives (.commandMemoryWrite 0 0 1) (withTile running1) (fun e => (getTile e 0).cmem = [] && (getTile e 0).cmemDiscard.toNat % 65536 = 1) =
      true ∧
    gives (.scratchpadWrite 0 196600 5) up (fun e => rdB (getTile e 0).spad 196600 = 5) = true ∧
    gives (.scratchpadWrite 0 0 5) (withTile running1) (fun e => (getTile e 0).spad = [] && e.flt.notes = 1) = true ∧
    gives (.clear 0) (withTile { mode := .halted }) (fun e => (getTile e 0).mode = .parked) = true ∧
    gives (.clear 0) (withTile running1) (fun e => (getTile e 0).mode = .run) = true ∧
    gives (.dbgEn 2303 true) up (fun e => (getTile e 2303).brkCtrl = 1) = true ∧
    gives (.dbgEn 0 true) { up with otp := { lc := 4 } } (fun e => (getTile e 0).brkCtrl = 0) = true ∧
    gives (.readClear .bar0 0 false) up (fun e => e.out.data = 0x01429216) = true ∧
    gives (.readClear .bar0 0x1020 false) { up with glb := { up.glb with bar0Err := 6 } } (fun e => e.out.data = 6 && e.glb.bar0Err = 0) = true ∧
    gives (.readClear .bar0 4 true) up (fun e => e.glb.bar0Err = 1) = true ∧
    gives (.registerWrite .bar0 8 8 5) up (fun e => e.glb.bar0Err = 0) = true ∧
    gives (.registerWrite .bar0 2 4 5) up (fun e => e.glb.bar0Err = 1) = true ∧
    gives (.registerWrite .bar0 (0x10040 + 8 * 247) 8 5) up (fun e => rdN (getMbx e 0).req (8 * 247) 8 = 5) = true ∧
    gives (.registerWrite .bar0 0x10040 8 5) (ask 0x0306 [] up) (fun e => (getMbx e 0).errReq = 1) = true ∧
    gives (.registerWrite .bar0 0x200010 8 4) halted (fun e => e.flt.tail = 4) = true ∧
    gives (.registerWrite .bar0 0x200010 8 5) halted (fun e => e.flt.tail = 0) = true ∧
    gives (.readClear (.scratchpad 0) 8 true) { up with tiles := [(0, { spad := [(9, 3)], spadBad := [15] })] }
      (fun e => e.out.data = 0x300 && e.out.parity) = true ∧
    gives (.readClear (.scratchpad 0) 16 true) { up with tiles := [(0, { spad := [(9, 3)], spadBad := [15] })] }
      (fun e => e.out.data = 0 && !e.out.parity) = true ∧
    gives (.registerWrite (.tile 0) 0x68 4 0x40) (withTile { running1 with seqStatus := 0xFFFF0040#32 })
      (fun e => (getTile e 0).seqStatus = 0xFFFF0000#32) = true ∧
    gives (.readClear (.tile 0) 0x68 false) up (fun e => e.out.data = 0xFFFF0000) = true ∧
    gives (.registerWrite (.tile 0) 0x40 4 9) up (fun e => (getTile e 0).ctr0 = 9) = true ∧
    gives (.registerWrite (.tile 0) 0x40 4 9) (withTile running1) (fun e => (getTile e 0).ctr0 = 0 && e.flt.notes = 1) = true := by
  repeat' apply And.intro
  all_goals decide +kernel

/-! ### The whole module -/

/-- A sealed module exists, and steps on it answer. -/
theorem witness_ASealedModuleStandsStill :
    gives .watchdog { up with flt := { sealed := true } } (fun e => e.flt.sealed && e.flt.head = 0) = true ∧
    gives (.rstN 10000) { up with flt := { sealed := true } } (fun e => e.flt.sealed) = true := by
  repeat' apply And.intro
  all_goals decide +kernel

set_option maxRecDepth 1000000 in
theorem witness_PacketsSurviveTheirCells :
    (pkt 0 3 7).hdr.length = 32 ∧ lf (pkt 0 3 7).hdr 6 2 = 40 ∧ pTransfer (pkt 0 3 7) = 5 ∧ e2eOk (pkt 0 3 7) = true ∧
    gather (cellsOf 260 (packetCells (pkt 16383 5 65535))) = .packet (pkt 16383 5 65535) false := by
  repeat' apply And.intro
  all_goals decide +kernel

theorem witness_EveryStepKeeps : State.reset.dev.memWf ∧ State.reset.dev.partsWf := by
  refine ⟨⟨rfl, rfl, rfl, fun _ => ⟨rfl, rfl⟩, fun _ => ⟨rfl, rfl⟩⟩, ?_⟩
  intro p x h
  cases h

/-! ### Hashes and signatures

The signatures were made outside Lean, with private key 1. -/

/-- The public key of private key 1: the generator of P-384. -/
def keyG : PubKey := ⟨BitVec.ofNat 384 pGx, BitVec.ofNat 384 pGy⟩
def keyBytes : List Byte := toBe 48 pGx ++ toBe 48 pGy
def sigR : Nat := 0x8d999057ba3d2d969260045c55b97f089025959a6f434d651d207d19fb96e9e4fe0e86ebe0e64f85b96a9c75295df61

/-- A token for serial number 0 with nonce 1 (Table 16.7). -/
def token (kind scope : Nat) (pay : List Byte) (s : Nat) : List Byte :=
  toLe 4 0x4E4B4F54 ++ toLe 2 1 ++ toLe 2 kind ++ toLe 8 0 ++ toLe 16 1 ++ toLe 16 scope ++ padTo 128 pay ++ toBe 48 sigR ++ toBe 48 s

/-- A module of a life-cycle state whose owner, factory and test keys are that key, with nonce 1 outstanding. -/
def keyed (lc : BitVec 3) : Dev :=
  { up with
    otp := { lc := lc, owners := [(0, keyHash keyG)], owner := some 0 }
    rom := { factory := keyHash keyG, testKey := keyG }
    sec := { nonce := some 1 } }

/-- TOKEN_APPLY of a token in host memory is accepted, and leaves a module that meets a check. -/
def accepts (lc : BitVec 3) (t : List Byte) (P : Dev → Bool) : Bool :=
  serves (.tokenApply 0) 0x0705 (1 :: toLe 7 0 ++ toLe 8 4096) { keyed lc with host := cells 4096 t } stOk (fun e => e.sec.nonce = none && P e)

set_option maxRecDepth 100000000 in
theorem witness_TokensMoveTheLifeCycle_2 : accepts 2 (token 2 0 []
    0xf2b036348708fd1b914d3bd69c6b55ccaf7c90c3e7b57c49cb109920e59bb1af0b48b0e3706d4ed7f616193be01426bb) (fun e => e.sec.diag) = true := by
  decide +kernel

set_option maxRecDepth 100000000 in
theorem witness_TokensMoveTheLifeCycle_3 : accepts 2 (token 3 16 []
    0xd3c2fef6134d56196866544c82ffc4e166af13a0c7f4852e5a0b22ce8da37075212c6e55236112a7d4c5c5993c2f0d91) (fun e => e.sec.bistScope = some 0x10) = true := by
  decide +kernel

set_option maxRecDepth 100000000 in
theorem witness_TokensMoveTheLifeCycle_4 : accepts 2 (token 4 0 ([3, 0] ++ toLe 30 0 ++ keyBytes)
    0x220ac11eaf49df7cc7cf61e25a0c5e031026a7238dd00a9bc91c199295e8f6e9dc22c256501220190529346ebc89f23a) (fun e => tget e.flash.msk 3 = some keyG) = true := by
  decide +kernel

set_option maxRecDepth 100000000 in
theorem witness_TokensMoveTheLifeCycle_5 : accepts 1 (token 5 0 (toLe 32 0 ++ keyBytes)
    0x95b37a81e874c1cd3590563f225eaef93997ccc308f769ec3ba4b238ff2ce9f3d49888fd0d5ef19c74494934f105964) (fun e => e.otp.lc = 2 && tget e.otp.owners 1 = some (keyHash keyG)) = true := by
  decide +kernel

set_option maxRecDepth 100000000 in
theorem witness_TokensMoveTheLifeCycle_6 : accepts 2 (token 6 0 []
    0x78eb3da279497601424ceb8f7eb0573a57ad3a5c858d21bc030e0db6fdac0944c4db9bb3ff8315d613f1b1b4604e17b2) (fun e => e.otp.lc = 1 && e.otp.owner = none) = true := by
  decide +kernel

set_option maxRecDepth 100000000 in
theorem witness_TokensMoveTheLifeCycle_7 : accepts 2 (token 7 0 []
    0xc8f590bb7a0c2367450246ebb72a6e067b95e4b31f2c9d517bbe7c96578f768d5d779a0928fe2edd7928745079733c) (fun e => e.otp.lc = 3 && e.otp.owner = none) = true := by
  decide +kernel

set_option maxRecDepth 100000000 in
theorem witness_TokensMoveTheLifeCycle_8 : accepts 2 (token 8 0 []
    0x52868b9683a05771f12d5ad47fbc2e537a4e9ff0be3ac98839395550dc5566327cf6dc574a55af130b7d3f98f593e1f1) (fun e => e.otp.lc = 4 && e.otp.seed = BitVec.allOnes 384) = true := by
  decide +kernel

set_option maxRecDepth 100000000 in
theorem witness_TokensMoveTheLifeCycle_9 : accepts 0 (token 9 0 []
    0x3a1636620c0da88cce6e5137da2e66d7590560f4ab97833af32ef5a1a3229bcaf28aa3bc4d44da217f140845b484667f) (fun e => e.otp.lc = 1 && e.flash.cert.length = 4096) = true := by
  decide +kernel

/-- A model image in host memory: a manifest of one shard with MODEL_ID 9, VERSION 1 and SIGNER 0, and the shard's 64 bytes. -/
def shardData : List Byte := (List.range 64).map (fun k => BitVec.ofNat 8 (k + 1))
def shardHash : Nat := 0x3082562e9cf98048b564c71ace331a326f207e0e0dfc5fe8b894e78e0c154e56b46a4c5c637c20675516c4d5e58f98c2
def manifestBytes : List Byte :=
  toLe 4 0x54464E4D ++ toLe 4 1 ++ toLe 8 9 ++ toLe 4 1 ++ toLe 4 1 ++ toLe 8 64 ++ List.replicate 224 0 ++ toLe 8 0 ++ toLe 4 64 ++ toLe 4 0 ++ toBe 48 shardHash ++
    toBe 48 sigR ++ toBe 48 0x30f43af7514691ac76ec77f707548fbbf8d316ab68d0f12f611609a528ff632e0ae07c3ea25177b7f400e32582421e9e
def man9 : ManInfo := ⟨0, 0, 9, 1, 64, 0, 0, 0, 0, 0, 0, 0⟩
def hosting (l : Load) : Dev :=
  { loading_ l with
    rom := { testKey := keyG }, chans := [(0, upChan)], host := cells 4096 manifestBytes ++ cells 69632 shardData }

set_option maxRecDepth 100000000 in
theorem witness_LoadsEndVerifiedOrFailed_manifest :
    gives (.manifestReadDone 0 0) (hosting (load .none_ none (some 0) [])) (fun e => (getPart e 0).map (fun y =>
      ((getCopy y 0).man.map (·.modelId), (getCopy y 0).pages, y.w.loads.map (fun l => l.shards.map (fun s => (s.imgOff, s.fetchAt))))) =
        some (some 9, 8, [[(65536, some 0)]])) = true := by
  decide +kernel

set_option maxRecDepth 100000000 in
theorem witness_LoadsEndVerifiedOrFailed_shard :
    gives (.shardFetchDone 0 0 6) (hosting (load .none_ (some man9) none [⟨6, 0, 64, BitVec.ofNat 384 shardHash, 65536, false, false, some 0⟩]))
      (fun e => rdN (getMbx e 0).reply 6 1 = stOk && (getPart e 0).map (fun y => (getCopy y 0).st) = some .verified) = true ∧
    gives (.shardFetchDone 0 0 6) (hosting (load .none_ (some man9) none [⟨6, 0, 63, BitVec.ofNat 384 shardHash, 65536, false, false, some 0⟩]))
      (fun e => rdN (getMbx e 0).reply 6 1 = stIntegrity && (getPart e 0).map (fun y => (getCopy y 0).st) = some .empty) = true := by
  constructor <;> decide +kernel

/-- A checkpoint header of rank 5 and SEQ 3 with an empty body (Table 14.8). -/
def ckptHeader : List Byte :=
  toLe 4 0x54504B43 ++ toLe 2 1 ++ toLe 2 5 ++ toLe 8 0 ++ toLe 8 3 ++ List.replicate 168 0 ++
    toBe 48 0x38b060a751ac96384cd9327eb1b1e36a21fdb71114be07434c0cc7bf63f6e1da274edebfe76f65fbd51ad2f14898b95b ++ List.replicate 8 0 ++ toLe 8 3

set_option maxRecDepth 100000000 in
theorem witness_JobCommands_restore :
    serves (.ckptRestore 0) 0x0606 (toLe 8 4096 ++ toLe 8 256) { working (jobbed .loaded {}) with host := cells 4096 ckptHeader } stOk
      (fun e => (getPart e 0).map (·.job.restoredRank) = some (some 5)) = true := by
  decide +kernel

end Sys2Proof.Tests
end

section
/-!
SUPPORT. What a fault event leaves, whatever it sets in motion (R410 to R424): its entry in the fault history, and every tile as it
was but for its sequencer's state.
-/

namespace Sys2Proof.Machine

open Sys2Proof

/-! ### What a stop leaves alone -/

/-- A tile but for its sequencer's state and the flags of the present tick, which a stop changes (Table 3.10). -/
def stilled (t : Tile) : Tile :=
  { t with mode := .parked, halting := false, resumable := false, wait := none, seqNew := 0, arithNew := 0 }

@[simp] theorem stilled_parkTile (t : Tile) : stilled (parkTile t) = stilled t := rfl

/-- Tiles but for their sequencers' state. -/
def stillTiles (d : Dev) : Nat → Tile := fun u => stilled (getTile d u)

theorem stillTiles_modTile {f : Tile → Tile} (h : ∀ t, stilled (f t) = stilled t) (k : Nat) (d : Dev) :
    stillTiles (modTile k f d) = stillTiles d := by
  funext u
  by_cases hu : u = k
  · subst hu; simp [stillTiles, h]
  · simp [stillTiles, getTile_modTile_other d f hu]

theorem tget_map {α β : Type} (f : α → β) (t : Tab α) (k : Nat) :
    tget (t.map (fun e => (e.1, f e.2))) k = (tget t k).map f := by
  induction t with
  | nil => rfl
  | cons e r ih =>
    by_cases h : e.1 = k
    · simp [tget, h]
    · simp [tget, h, ih]

/-- A choice between a module and what an operation makes of it keeps what the operation keeps. -/
theorem ite_keeps {α β : Type} (g : α → β) {c : Prop} [Decidable c] {a b : α} (h : g a = g b) :
    g (if c then a else b) = g b := by
  split
  · exact h
  · rfl

/-- A module but for what reports and a partition's stop change: the tiles' sequencers, the moons' clocks, the partitions with
their rings in GDDR7, the pins, the vectors and the free values drawn. -/
def unstopped (d : Dev) : Dev × (Nat → Tile) :=
  ({ d with tiles := [], clk := { d.clk with moons := [] }, parts := [], gddr := [], cpt := [], msix := [], out := {}, free := 0 },
    stillTiles d)

@[simp] theorem unstopped_raiseVec (v : Nat) (d : Dev) : unstopped (raiseVec v d) = unstopped d := by
  unfold raiseVec; dsimp only; split <;> rfl

@[simp] theorem unstopped_ringWrite (first off : Nat) (bs : List Byte) (d : Dev) :
    unstopped (ringWrite first off bs d) = unstopped d := by
  unfold ringWrite; split <;> rfl

@[simp] theorem unstopped_setPart (p : Nat) (x : Part) (d : Dev) : unstopped (setPart p x d) = unstopped d := rfl

@[simp] theorem unstopped_modPart (p : Nat) (f : Part → Part) (d : Dev) : unstopped (modPart p f d) = unstopped d := by
  unfold modPart; split <;> rfl

@[simp] theorem unstopped_modMoon (m : Nat) (f : Moon → Moon) (d : Dev) : unstopped (modMoon m f d) = unstopped d := rfl

theorem unstopped_modTile {f : Tile → Tile} (h : ∀ t, stilled (f t) = stilled t) (k : Nat) (d : Dev) :
    unstopped (modTile k f d) = unstopped d :=
  congrArg (Prod.mk (unstopped d).1) (stillTiles_modTile h k d)

theorem unstopped_withPart {f : Part → Dev → Dev} {p : Nat} {d : Dev} (h : ∀ x, unstopped (f x d) = unstopped d) :
    unstopped (withPart p f d) = unstopped d := by
  unfold withPart; split
  · exact h _
  · rfl

/-! ### Ephemeris records and digests -/

@[simp] theorem unstopped_ephWrite (x : Part) (mt orbit ts kind slot req data : Nat) (d : Dev) :
    unstopped (ephWrite x mt orbit ts kind slot req data d) = unstopped d := by simp [ephWrite]

@[simp] theorem unstopped_ephLose (x : Part) (d : Dev) : unstopped (ephLose x d) = unstopped d := by
  unfold ephLose; dsimp only; split <;> simp

@[simp] theorem unstopped_ephGap (p : Nat) (d : Dev) : unstopped (ephGap p d) = unstopped d := by
  refine unstopped_withPart fun x => ?_
  split <;> simp

@[simp] theorem unstopped_ephRecAt (p mt orbit ts kind slot req data : Nat) (d : Dev) :
    unstopped (ephRecAt p mt orbit ts kind slot req data d) = unstopped d := by
  refine (unstopped_withPart fun x => ?_).trans (unstopped_ephGap p d)
  split
  · rfl
  · split <;> simp

@[simp] theorem unstopped_ephRec (p kind slot req data : Nat) (d : Dev) :
    unstopped (ephRec p kind slot req data d) = unstopped d := unstopped_withPart fun x => by simp

@[simp] theorem unstopped_ephAll (runningOnly : Bool) (kind data : Nat) (d : Dev) :
    unstopped (ephAll runningOnly kind data d) = unstopped d := by
  refine forEach_same unstopped _ (fun e c => ?_) _ d
  split <;> simp

@[simp] theorem unstopped_writeDigest (p : Nat) (d : Dev) : unstopped (writeDigest p d) = unstopped d := by
  refine unstopped_withPart fun x => ?_
  split
  · rfl
  · split
    · rfl
    · simp only [unstopped_raiseVec, unstopped_ephRec, unstopped_setPart, unstopped_ringWrite]; rfl

@[simp] theorem unstopped_closeDigest (p : Nat) (last : BitVec 32) (d : Dev) :
    unstopped (closeDigest p last d) = unstopped d := by
  refine unstopped_withPart fun x => ?_
  split
  · rfl
  · split <;> simp

/-! ### Leaving RUNNING -/

@[simp] theorem unstopped_releasePins (p : Nat) (d : Dev) : unstopped (releasePins p d) = unstopped d := by
  refine unstopped_withPart fun x => ?_
  split <;> rfl

@[simp] theorem unstopped_eclipseAll (p : Nat) (d : Dev) : unstopped (eclipseAll p d) = unstopped d := by
  refine unstopped_withPart fun x => ?_
  simp only [unstopped_modPart]
  split
  · exact forEach_same unstopped _ (fun _ _ => unstopped_ephRec ..) _ d
  · rfl

/-- The end of a hold touches the tile's WAIT, its moon, the partitions and their records (R36). -/
@[simp] theorem unstopped_endHold (no : Nat) (w : WaitSt) (start : Nat) (d : Dev) :
    unstopped (endHold no w start d) = unstopped d := by
  have counted (ns : Nat) (c : Dev) : unstopped (countHold no w ns c) = unstopped c := unstopped_modMoon ..
  have released : unstopped (modTile no (fun t => { t with wait := none }) d) = unstopped d := by
    refine unstopped_modTile (fun t => ?_) no d; rfl
  have late (c : Dev) (l : Tab Part) : unstopped { c with parts := l } = unstopped c := rfl
  unfold endHold; dsimp only
  split <;> simp only [unstopped_ephAll, late, unstopped_modMoon, counted, released]

@[simp] theorem unstopped_endHolds (x : Part) (d : Dev) : unstopped (endHolds x d) = unstopped d := by
  refine forEach_same unstopped _ (fun no c => ?_) _ d
  split
  · split <;> simp
  · rfl

@[simp] theorem unstopped_parkTiles (p : Nat) (d : Dev) : unstopped (parkTiles p d) = unstopped d := by
  refine unstopped_withPart fun x => ?_
  simp only [unstopped_releasePins, unstopped_modPart]
  exact forEach_same unstopped _ (fun t => unstopped_modTile stilled_parkTile t) _ d

@[simp] theorem unstopped_leaveRunning (p : Nat) (d : Dev) : unstopped (leaveRunning p d) = unstopped d := by
  refine unstopped_withPart fun x => ?_
  dsimp only
  split
  · rfl
  · split <;> split <;> simp

@[simp] theorem unstopped_haltParts (part : Nat) (d : Dev) : unstopped (haltParts part d) = unstopped d := by
  unfold haltParts; split
  · exact forEach_same unstopped _ (fun _ _ => unstopped_leaveRunning ..) _ d
  · exact unstopped_leaveRunning part d

/-! ### The fault history -/

/-- The tiles but for their sequencers' state, and the fault history with its head. -/
def logged (d : Dev) : (Nat → Tile) × Tab HistEntry × BitVec 64 := (stillTiles d, d.flt.hist, d.flt.head)

/-- Reports and stops leave the history alone. -/
theorem logged_of_unstopped {d e : Dev} (h : unstopped e = unstopped d) : logged e = logged d :=
  congrArg (fun x => (x.2, x.1.flt.hist, x.1.flt.head)) h

theorem hist_of_logged {d e : Dev} (h : logged e = logged d) : e.flt.hist = d.flt.hist := congrArg (·.2.1) h

theorem stillTiles_of_logged {d e : Dev} (h : logged e = logged d) : stillTiles e = stillTiles d := congrArg (·.1) h

/-- One event of this class, source and cause has been appended to the history, and no tile has changed but for its
sequencer's state (R416). -/
def Appended (cls src cause : Nat) (d e : Dev) : Prop :=
  ∃ h : HistEntry, (h.cls = BitVec.ofNat 2 cls ∧ h.source = BitVec.ofNat 12 src ∧ h.cause = BitVec.ofNat 16 cause) ∧
    logged e = (stillTiles d, tput d.flt.hist (d.flt.head.toNat % 64) h, d.flt.head + 1)

section
variable {cls src cause : Nat} {d e : Dev}

theorem Appended.of_logged {e' : Dev} (h : Appended cls src cause d e) (hl : logged e' = logged e) :
    Appended cls src cause d e' :=
  let ⟨x, hx, he⟩ := h
  ⟨x, hx, hl.trans he⟩

theorem Appended.stillTiles_eq (h : Appended cls src cause d e) : stillTiles e = stillTiles d :=
  let ⟨_, _, he⟩ := h
  congrArg (·.1) he

theorem Appended.head_eq (h : Appended cls src cause d e) : e.flt.head = d.flt.head + 1 :=
  let ⟨_, _, he⟩ := h
  congrArg (·.2.2) he

theorem Appended.entered (h : Appended cls src cause d e) : Entered cls src cause d e := by
  obtain ⟨x, hx, he⟩ := h
  have hist : e.flt.hist = _ := congrArg (·.2.1) he
  exact ⟨x, by simp [hist], hx⟩

/-- Every other entry stands as it was. -/
theorem Appended.tget_other {k : Nat} (h : Appended cls src cause d e) (hk : k ≠ d.flt.head.toNat % 64) :
    tget e.flt.hist k = tget d.flt.hist k := by
  obtain ⟨x, -, he⟩ := h
  have hist : e.flt.hist = _ := congrArg (·.2.1) he
  rw [hist, tget_tput_other _ _ hk]

/-- An entry that later events leave alone stays entered. -/
theorem Entered.of_tget {e' : Dev} (h : Entered cls src cause d e)
    (hk : tget e'.flt.hist (d.flt.head.toNat % 64) = tget e.flt.hist (d.flt.head.toNat % 64)) :
    Entered cls src cause d e' :=
  let ⟨x, hx, r⟩ := h
  ⟨x, hk.trans hx, r⟩

end

/-- The next two events after an entry take other slots of the history. -/
theorem slot_next_ne (h : BitVec 64) : h.toNat % 64 ≠ (h + 1).toNat % 64 ∧ h.toNat % 64 ≠ (h + 1 + 1).toNat % 64 := by
  bv_omega

theorem history_appended (cls src cause part detail : Nat) (d : Dev) :
    Appended cls src cause d (history cls src cause part detail d) :=
  ⟨_, ⟨rfl, rfl, rfl⟩, (logged_of_unstopped (ite_keeps unstopped (unstopped_raiseVec 0 _))).trans rfl⟩

theorem recordEvent_appended (cls src cause part detail : Nat) (d : Dev) :
    Appended cls src cause d (recordEvent cls src cause part detail d) := by
  refine (history_appended cls src cause part detail d).of_logged ?_
  have records (data : Nat) (c : Dev) :
      unstopped (if part = 0xFF then ephAll false 0x22 data c else ephRec part 0x22 0xFFFF 0 data c) = unstopped c := by
    split <;> simp
  unfold recordEvent; dsimp only
  refine .trans (ite_keeps logged rfl) (logged_of_unstopped ?_)
  exact .trans (ite_keeps unstopped (records _ _)) (ite_keeps unstopped (unstopped_raiseVec 0 _))

/-- A SEAL freezes the sequencers, and leaves the tiles and the history as they are (R424). -/
theorem logged_sealModule (d : Dev) : logged (sealModule d) = logged d := by
  have tiles : stillTiles (sealModule d) = stillTiles d := by
    funext u
    simp only [stillTiles, getTile, sealModule, tget_map (fun t : Tile => { t with mode := .frozen })]
    cases tget d.tiles u <;> rfl
  simp only [logged, tiles]; rfl

theorem enterEvent_appended (cls src cause part detail : Nat) (d : Dev) :
    Appended cls src cause d (enterEvent cls src cause part detail d) := by
  refine (recordEvent_appended cls src cause part detail d).of_logged ?_
  unfold enterEvent
  refine (ite_keeps logged (logged_sealModule _)).trans ?_
  exact ite_keeps logged (logged_of_unstopped (unstopped_haltParts ..))

@[simp] theorem logged_setEsc (src : Nat) (x : Esc) (d : Dev) : logged (setEsc src x d) = logged d := rfl
@[simp] theorem logged_addPending (sub unit block : Nat) (d : Dev) : logged (addPending sub unit block d) = logged d := rfl

theorem logged_settleStep (throttle : Bool) (d : Dev) : logged (settleStep throttle d) = logged d := by
  unfold settleStep; split
  · rfl
  · exact ite_keeps logged rfl

/-- A DEGRADE is appended, and where it escalates a HALT after it. -/
theorem raiseDegrade_cases (src cause part detail : Nat) (u : Option (Nat × Nat × Nat)) (d : Dev) :
    ∃ c, Appended 1 src cause d c ∧ (logged (raiseDegrade src cause part detail u d) = logged c ∨
      Appended 2 src 1 c (raiseDegrade src cause part detail u d)) := by
  have entered := enterEvent_appended 1 src cause part detail d
  unfold raiseDegrade; dsimp only
  split
  · exact ⟨_, entered.of_logged (logged_setEsc ..), .inr (enterEvent_appended ..)⟩
  · exact ⟨_, entered, .inl (logged_setEsc ..)⟩

theorem raiseDegrade_entered (src cause part detail : Nat) (u : Option (Nat × Nat × Nat)) (d : Dev) :
    Entered 1 src cause d (raiseDegrade src cause part detail u d) := by
  obtain ⟨c, hc, h | h⟩ := raiseDegrade_cases src cause part detail u d
  · exact (hc.of_logged h).entered
  · refine hc.entered.of_tget (h.tget_other ?_)
    rw [hc.head_eq]; exact (slot_next_ne _).1

theorem stillTiles_raiseDegrade (src cause part detail : Nat) (u : Option (Nat × Nat × Nat)) (d : Dev) :
    stillTiles (raiseDegrade src cause part detail u d) = stillTiles d := by
  obtain ⟨c, hc, h | h⟩ := raiseDegrade_cases src cause part detail u d
  · exact (hc.of_logged h).stillTiles_eq
  · exact h.stillTiles_eq.trans hc.stillTiles_eq

/-- A DEGRADE and its HALT leave the entries before them alone. -/
theorem tget_raiseDegrade_before (src cause part detail : Nat) (u : Option (Nat × Nat × Nat)) {d : Dev} {h : BitVec 64}
    (hd : d.flt.head = h + 1) :
    tget (raiseDegrade src cause part detail u d).flt.hist (h.toNat % 64) = tget d.flt.hist (h.toNat % 64) := by
  obtain ⟨first, second⟩ := slot_next_ne h
  obtain ⟨c, hc, hl | hl⟩ := raiseDegrade_cases src cause part detail u d
  · exact (hc.of_logged hl).tget_other (by rwa [hd])
  · rw [hl.tget_other (by rwa [hc.head_eq, hd]), hc.tget_other (by rwa [hd])]

theorem logged_lowerTide (d : Dev) : logged (lowerTide d) = logged d := by
  rw [lowerTide, logged_settleStep]; rfl

/-- An event is appended, and that is all it appends, or it is a NOTE that escalates: then a DEGRADE is raised after it (R414). A
DEGRADE is raised as `raiseDegrade` says. -/
theorem raise_cases (cls src cause part detail : Nat) (d : Dev) :
    (∃ u, cls = 1 ∧ raise cls src cause part detail d = raiseDegrade src cause part detail u d) ∨
    ∃ c, Appended cls src cause d c ∧ (logged (raise cls src cause part detail d) = logged c ∨
      ∃ detail' u, logged (raise cls src cause part detail d) = logged (raiseDegrade src 1 part detail' u c)) := by
  unfold raise
  split
  · dsimp only
    generalize hc : setEsc src _ (enterEvent 0 src cause part detail d) = c
    have noted : Appended 0 src cause d c := hc ▸ (enterEvent_appended ..).of_logged (logged_setEsc ..)
    split
    · refine .inr ⟨c, noted, .inr ⟨escDetail (eventUnit c src detail) cause, eventUnit c src detail, ?_⟩⟩
      refine (ite_keeps logged (logged_lowerTide _)).trans ?_
      split
      · exact logged_addPending ..
      · rfl
    · exact .inr ⟨c, noted, .inl rfl⟩
  · exact .inl ⟨_, rfl, rfl⟩
  · exact .inr ⟨_, enterEvent_appended .., .inl rfl⟩

/-- An event that is raised enters the history, whatever it escalates to (R414, R416). -/
theorem raise_entered (cls src cause part detail : Nat) (d : Dev) :
    Entered cls src cause d (raise cls src cause part detail d) := by
  obtain ⟨u, rfl, h⟩ | ⟨c, hc, h | ⟨_, _, h⟩⟩ := raise_cases cls src cause part detail d
  · rw [h]; exact raiseDegrade_entered ..
  · exact (hc.of_logged h).entered
  · refine hc.entered.of_tget ?_
    rw [hist_of_logged h]; exact tget_raiseDegrade_before src 1 part _ _ hc.head_eq

/-- A fault event leaves every tile as it is but for its sequencer's state, whatever it sets in motion (R413, R414, R424). -/
theorem stillTiles_raise (cls src cause part detail : Nat) (d : Dev) :
    stillTiles (raise cls src cause part detail d) = stillTiles d := by
  obtain ⟨u, rfl, h⟩ | ⟨c, hc, h | ⟨_, _, h⟩⟩ := raise_cases cls src cause part detail d
  · rw [h]; exact stillTiles_raiseDegrade ..
  · exact (hc.of_logged h).stillTiles_eq
  · exact (stillTiles_of_logged h).trans ((stillTiles_raiseDegrade ..).trans hc.stillTiles_eq)

end Sys2Proof.Machine
end

section
/-!
SUPPORT. Registers, and what a register access does: the register it meets, what a read clears, what a write leaves (R13), and the
commands that reach the register spaces of the host and of the MP (chapters 3 and 15).
-/

namespace Sys2Proof.Machine

open Sys2Proof

/-! ### An access that meets one register -/

/-- An access at a register's own offset moves no byte. -/
@[simp] theorem moveBytes_same (o n v : Nat) : moveBytes o o n v = v % 2 ^ (8 * n) := by
  simp [moveBytes]

/-- A value written over every bit replaces the old one. -/
theorem mergeBits_full {k old v : Nat} (ho : old < 2 ^ k) (hv : v < 2 ^ k) : mergeBits old (2 ^ k - 1) v = v := by
  simp [mergeBits, Nat.and_two_pow_sub_one_eq_mod, Nat.mod_eq_of_lt ho, Nat.mod_eq_of_lt hv]

theorem rw_rd (off size v : Nat) (wr : Nat → Dev → Dev) : (rw off size v wr).rd = v := rfl
theorem w1_rd (off size v : Nat) (wr : Nat → Dev → Dev) : (w1 off size v wr).rd = v := rfl

section
variable {l : List Reg} {o n : Nat} {d : Dev}

theorem regsRead_one {r : Reg} (h : l.filter (touches o n) = [r]) (ho : r.off = o) : regsRead l o n = r.rd % 2 ^ (8 * n) := by
  simp [regsRead, h, ho]

theorem regsClear_one {r : Reg} (h : l.filter (touches o n) = [r]) : regsClear l o n d = r.clr d := by
  simp [regsClear, h, forEach]

/-- A register of RW, written whole, takes the value. -/
theorem regsWrite_rw {old : Nat} {f : Nat → Dev → Dev} (h : l.filter (touches o n) = [rw o n old f]) (ho : old < 2 ^ (8 * n))
    (v : Nat) : regsWrite l o n v d = f (v % 2 ^ (8 * n)) d := by
  have hp : 0 < 2 ^ (8 * n) := Nat.two_pow_pos _
  have mask : (2 ^ (8 * n) - 1) % 2 ^ (8 * n) = 2 ^ (8 * n) - 1 := Nat.mod_eq_of_lt (by omega)
  simp [regsWrite, h, forEach, rw, mask, mergeBits_full ho (Nat.mod_lt v hp)]

/-- A register of W1C, W1S or WO, written whole, takes the bits. -/
theorem regsWrite_w1 {old : Nat} {f : Nat → Dev → Dev} (h : l.filter (touches o n) = [w1 o n old f]) (v : Nat) :
    regsWrite l o n v d = f (v % 2 ^ (8 * n)) d := by
  have hp : 0 < 2 ^ (8 * n) := Nat.two_pow_pos _
  have mask : (2 ^ (8 * n) - 1) % 2 ^ (8 * n) = 2 ^ (8 * n) - 1 := Nat.mod_eq_of_lt (by omega)
  simp [regsWrite, h, forEach, w1, mask, Nat.and_two_pow_sub_one_eq_mod]

/-- Read-only registers take nothing (R13). -/
theorem regsWrite_readOnly (h : ∀ r ∈ l, ∀ mask v d, r.wr mask v d = d) (v : Nat) : regsWrite l o n v d = d := by
  unfold regsWrite
  generalize hk : l.filter (touches o n) = k
  have hw : ∀ r ∈ k, ∀ mask v d, r.wr mask v d = d := fun r hr => h r (List.mem_of_mem_filter (hk ▸ hr))
  clear hk
  induction k with
  | nil => rfl
  | cons r k ih =>
    simp only [forEach, List.foldl_cons, hw r (.head _)] at ih ⊢
    exact ih fun r hr => hw r (.tail _ hr)

/-- What no register's read changes, a read does not change. -/
theorem regsClear_keeps {α : Type} (g : Dev → α) (h : ∀ r ∈ l, ∀ d, g (r.clr d) = g d) : g (regsClear l o n d) = g d := by
  unfold regsClear
  generalize hk : l.filter (touches o n) = k
  have hc : ∀ r ∈ k, ∀ d, g (r.clr d) = g d := fun r hr => h r (List.mem_of_mem_filter (hk ▸ hr))
  clear hk
  induction k generalizing d with
  | nil => rfl
  | cons r k ih => exact (ih fun r hr => hc r (.tail _ hr)).trans (hc r (.head _) d)

end

/-! ### The commands -/

section
variable {s : State} {f : Dev → Dev} {c : Instr}

/-- A command of the MP, while it runs. -/
theorem gives_whenMp {e : Dev} (h : exec c s = on (whenMp f) s) (mp : mpUp s.dev = true) (he : f s.dev = e) : Gives c s e := by
  rw [Gives, h, on_eq, whenMp_runs mp, he]

theorem exec_commandMemoryWrite (tile : Fin 2304) (off : BitVec 16) (v : BitVec 64) (s : State) :
    exec (.commandMemoryWrite tile off v) s = on (whenMp (cmemWrite tile.val off.toNat v)) s := rfl

theorem exec_scratchpadWrite (tile : Fin 2304) (off : BitVec 18) (v : BitVec 64) (s : State) :
    exec (.scratchpadWrite tile off v) s = on (whenMp (spadWrite tile.val off.toNat v)) s := rfl

theorem exec_clear (tile : Fin 2304) (s : State) : exec (.clear tile) s = on (whenMp (modTile tile.val clearTile)) s := rfl

theorem exec_dbgEn (tile : Fin 2304) (v : Bool) (s : State) : exec (.dbgEn tile v) s = on (whenMp (writeDbgEn tile.val v)) s := rfl

/-- A read that does not meet the open diagnostic window completes. -/
theorem gives_readClear {sp : Space} {off : BitVec 26} {wide : Bool} {e : Dev}
    (h : diagHit s.dev sp off.toNat (if wide then 8 else 4) = false)
    (he : regRead sp off.toNat (if wide then 8 else 4) s.dev = e) : Gives (.readClear sp off wide) s e := by
  have read : exec (.readClear sp off wide) s = execReadClear sp off wide s := rfl
  simp [Gives, read, execReadClear, h, on_eq, he]

/-- A write that does not meet the open diagnostic window completes. -/
theorem gives_registerWrite {sp : Space} {off : BitVec 26} {bytes : Nat} {v : BitVec 64} {e : Dev}
    (h : diagHit s.dev sp off.toNat bytes = false) (he : regWrite sp off.toNat bytes v.toNat s.dev = e) :
    Gives (.registerWrite sp off bytes v) s e := by
  have written : exec (.registerWrite sp off bytes v) s = execRegisterWrite sp off bytes v s := rfl
  simp [Gives, written, execRegisterWrite, h, on_eq, he]

end

/-! ### BAR 0 -/

section
variable {d : Dev} {o n : Nat}

theorem diagHit_low (sp : Space) (h : o < 0x1000000) : diagHit d sp o n = false := by
  simp [diagHit, Nat.not_le.mpr h]

theorem diagHit_unaligned (sp : Space) (h : aligned o n = false) : diagHit d sp o n = false := by
  simp [diagHit, h]

theorem diagHit_mp {sp : Space} (h : sp ≠ .bar0) : diagHit d sp o n = false := by
  simp [diagHit, h]

theorem bar0Read_unaligned (h : aligned o n = false) : bar0Read o n d = countBar0 (readData (2 ^ (8 * n) - 1) d) := by
  simp [bar0Read, h]

theorem bar0Read_aligned {b : Nat} {l : List Reg} (h : aligned o n = true) (hl : bar0Regs d o = (b, l)) :
    bar0Read o n d = regsClear l (o - b) n (readData (regsRead l (o - b) n) d) := by
  simp [bar0Read, h, hl]

theorem bar0Write_unaligned (h : aligned o n = false) (v : Nat) : bar0Write o n v d = countBar0 d := by
  simp [bar0Write, h]

theorem bar0Write_aligned {b : Nat} {l : List Reg} (h : aligned o n = true) (ht : bar0Takes d o = true)
    (hl : bar0Regs d o = (b, l)) (v : Nat) : bar0Write o n v d = regsWrite l (o - b) n v d := by
  simp [bar0Write, h, ht, hl]

/-- The units outside the DMA registers take writes, SEALED or not (R424). -/
theorem bar0Takes_of_not_dma (h : o < 0x100000 ∨ 0x200000 ≤ o) : bar0Takes d o = true := by
  simp only [bar0Takes, Bool.or_eq_true, Bool.not_eq_true', Bool.and_eq_false_iff, decide_eq_false_iff_not]
  omega

end

/-- What a read of BAR 0 leaves alone: the tiles, GDDR7 and host memory. -/
def bar0Still (d : Dev) : Tab Tile × Mem × Mem := (d.tiles, d.gddr, d.host)

theorem fields_of_bar0Still {d e : Dev} (h : bar0Still e = bar0Still d) : e.tiles = d.tiles ∧ e.gddr = d.gddr ∧ e.host = d.host :=
  ⟨congrArg (·.1) h, congrArg (·.2.1) h, congrArg (·.2.2) h⟩

/-- A register whose read leaves them alone. -/
def Reg.Quiet (r : Reg) : Prop := ∀ d, bar0Still (r.clr d) = bar0Still d

@[simp] theorem quiet_ro (off size v : Nat) : (ro off size v).Quiet := fun _ => rfl
@[simp] theorem quiet_rw (off size v : Nat) (wr : Nat → Dev → Dev) : (rw off size v wr).Quiet := fun _ => rfl
@[simp] theorem quiet_w1 (off size v : Nat) (wr : Nat → Dev → Dev) : (w1 off size v wr).Quiet := fun _ => rfl
@[simp] theorem quiet_noClear (off size v : Nat) (wr : Nat → Nat → Dev → Dev) : (Reg.mk off size v id wr).Quiet := fun _ => rfl
@[simp] theorem quiet_rc (off size v : Nat) (clr : Dev → Dev) :
    (rc off size v clr).Quiet ↔ ∀ d, bar0Still (clr d) = bar0Still d := Iff.rfl

@[simp] theorem bar0Still_modGlb (f : Glb → Glb) (d : Dev) : bar0Still (modGlb f d) = bar0Still d := rfl
@[simp] theorem bar0Still_modMbx (m : Nat) (f : Mailbox → Mailbox) (d : Dev) : bar0Still (modMbx m f d) = bar0Still d := rfl
@[simp] theorem bar0Still_modPart (p : Nat) (f : Part → Part) (d : Dev) : bar0Still (modPart p f d) = bar0Still d := by
  unfold modPart; split <;> rfl

theorem identRegs_quiet (d : Dev) : ∀ r ∈ identRegs d, r.Quiet := by simp [identRegs]
theorem glbRegs_quiet (d : Dev) : ∀ r ∈ glbRegs d, r.Quiet := by simp [glbRegs]
theorem rcvRegs_quiet (d : Dev) : ∀ r ∈ rcvRegs d, r.Quiet := by simp [rcvRegs]
theorem pwrRegs_quiet (d : Dev) : ∀ r ∈ pwrRegs d, r.Quiet := by simp [pwrRegs, bar0Still]
theorem pbaRegs_quiet (d : Dev) : ∀ r ∈ pbaRegs d, r.Quiet := by simp [pbaRegs]
theorem dmaRegs_quiet (d : Dev) (c : Nat) : ∀ r ∈ dmaRegs d c, r.Quiet := by simp [dmaRegs]
theorem srvRegs_quiet (x : Part) : ∀ r ∈ srvRegs x, r.Quiet := by simp [srvRegs, modSrv]
theorem ephRegs_quiet (x : Part) : ∀ r ∈ ephRegs x, r.Quiet := by simp [ephRegs, modEph]

theorem msixRegs_quiet (d : Dev) (o : Nat) : ∀ r ∈ msixRegs d o, r.Quiet := by
  unfold msixRegs; dsimp only; split <;> simp

theorem mbxRegs_quiet (d : Dev) (m o : Nat) : ∀ r ∈ mbxRegs d m o, r.Quiet := by
  unfold mbxRegs; dsimp only
  rw [List.forall_mem_append]
  refine ⟨by simp, ?_⟩
  split
  · simp
  · split <;> simp

theorem fltRegs_quiet (d : Dev) (o : Nat) : ∀ r ∈ fltRegs d o, r.Quiet := by
  unfold fltRegs; dsimp only
  rw [List.forall_mem_append]
  refine ⟨by simp [bar0Still], ?_⟩
  split <;> simp

/-- The registers of a partition's window, where the partition is there. -/
theorem partRegs_quiet {f : Part → List Reg} (h : ∀ x, ∀ r ∈ f x, r.Quiet) (x : Option Part) :
    ∀ r ∈ (x.map f).getD [], r.Quiet := by
  cases x with
  | none => simp
  | some x => exact h x

theorem quiet_ite {c : Prop} [Decidable c] {a b : Nat × List Reg} (ha : ∀ r ∈ a.2, r.Quiet) (hb : ∀ r ∈ b.2, r.Quiet) :
    ∀ r ∈ (if c then a else b).2, r.Quiet := by
  split
  · exact ha
  · exact hb

/-- What a read of BAR 0 clears is a counter (Tables 10.4, 10.11, 15.3, 15.6, 17.6 and 18.9). -/
theorem bar0Regs_quiet (d : Dev) (o : Nat) : ∀ r ∈ (bar0Regs d o).2, r.Quiet := by
  have nothing : ∀ r ∈ ([] : List Reg), r.Quiet := by simp
  unfold bar0Regs
  exact quiet_ite (identRegs_quiet d) <| quiet_ite (glbRegs_quiet d) <| quiet_ite (rcvRegs_quiet d) <|
    quiet_ite (pwrRegs_quiet d) <| quiet_ite nothing <| quiet_ite (msixRegs_quiet d _) <| quiet_ite (pbaRegs_quiet d) <|
    quiet_ite nothing <| quiet_ite (mbxRegs_quiet d _ _) <| quiet_ite nothing <| quiet_ite (dmaRegs_quiet d _) <|
    quiet_ite nothing <| quiet_ite (fltRegs_quiet d _) <| quiet_ite (partRegs_quiet srvRegs_quiet _) <|
    quiet_ite (partRegs_quiet ephRegs_quiet _) nothing

/-- A read of BAR 0 touches no tile, no GDDR7 and no host memory. -/
theorem bar0Still_bar0Read (o n : Nat) (d : Dev) : bar0Still (bar0Read o n d) = bar0Still d := by
  cases h : aligned o n with
  | false => rw [bar0Read_unaligned h]; rfl
  | true =>
    rw [bar0Read_aligned h rfl]
    exact regsClear_keeps bar0Still (bar0Regs_quiet d o)

theorem bar0Still_regRead (o n : Nat) (d : Dev) : bar0Still (regRead .bar0 o n d) = bar0Still d :=
  whenHost_keeps bar0Still (bar0Still_bar0Read o n) d

theorem rdN_lt (m : Mem) (a n : Nat) : rdN m a n < 256 ^ n := by
  unfold rdN
  induction n generalizing a with
  | zero => simp [rdBs, leNat]
  | succ n ih =>
    have rest := ih (a + 1)
    have byte := (rdB m a).isLt
    simp only [rdBs, leNat, Nat.pow_succ]
    omega

/-! ### The identity, global, mailbox and fault registers -/

theorem regRead_bar0 {o n : Nat} {d : Dev} (h : hwUp d = true) (i : ioSecure d = true) : regRead .bar0 o n d = bar0Read o n d :=
  whenHost_runs h i

theorem regWrite_bar0 {o n : Nat} {d : Dev} (h : hwUp d = true) (i : ioSecure d = true) (v : Nat) :
    regWrite .bar0 o n v d = bar0Write o n v d :=
  whenHost_runs h i

theorem bar0Regs_ident (d : Dev) {o : Nat} (h : o < 0x1000) : bar0Regs d o = (0, identRegs d) := by
  unfold bar0Regs; dsimp only; rw [if_pos h]

theorem identRegs_readOnly (d : Dev) : ∀ r ∈ identRegs d, ∀ mask v e, r.wr mask v e = e := by simp [identRegs, ro]

/-- A write of the identity register has no effect (R6). -/
theorem bar0Write_ident {o n : Nat} {d : Dev} (ho : o < 0x1000) (h : aligned o n = true) (v : Nat) : bar0Write o n v d = d := by
  rw [bar0Write_aligned h (bar0Takes_of_not_dma (.inl (by omega))) (bar0Regs_ident d ho),
    regsWrite_readOnly (identRegs_readOnly d)]

theorem bar0Read_ident (d : Dev) : bar0Read 0 4 d = readData 0x01429216 d := by
  have one : (identRegs d).filter (touches 0 4) = [ro 0 4 0x01429216] := by simp [identRegs, touches, ro]
  rw [bar0Read_aligned rfl (bar0Regs_ident d (by decide)), regsRead_one one rfl, regsClear_one one]
  rfl

theorem bar0Read_bar0Err (d : Dev) :
    bar0Read 0x1020 4 d = modGlb (fun g => { g with bar0Err := 0 }) (readData d.glb.bar0Err.toNat d) := by
  have one : (glbRegs d).filter (touches 0x20 4) = [rc 0x20 4 d.glb.bar0Err.toNat (modGlb fun g => { g with bar0Err := 0 })] := by
    simp [glbRegs, touches, ro, rc]
  rw [bar0Read_aligned rfl (show bar0Regs d 0x1020 = (0x1000, glbRegs d) from rfl), regsRead_one one rfl, regsClear_one one]
  simp [rc, Nat.mod_eq_of_lt d.glb.bar0Err.isLt]

/-- HIST_TAIL takes a value that is not above HIST_HEAD (Table 17.6). -/
theorem bar0Write_histTail (v : BitVec 64) (d : Dev) : bar0Write 0x200010 8 v.toNat d = histTail v.toNat d := by
  have one : (fltRegs d 0x10).filter (touches 0x10 8) = [rw 0x10 8 d.flt.tail.toNat histTail] := by
    simp [fltRegs, touches, ro, rc, rw]
  rw [bar0Write_aligned rfl (bar0Takes_of_not_dma (.inr (by decide))) (show bar0Regs d 0x200010 = (0x200000, fltRegs d 0x10) from rfl),
    regsWrite_rw one d.flt.tail.isLt, Nat.mod_eq_of_lt v.isLt]

theorem histTail_taken {v : BitVec 64} {d : Dev} (h : v.toNat ≤ d.flt.head.toNat) :
    histTail v.toNat d = { d with flt := { d.flt with tail := v } } := by
  simp [histTail, Nat.not_lt.mpr h]

theorem histTail_high {v : BitVec 64} {d : Dev} (h : d.flt.head.toNat < v.toNat) : histTail v.toNat d = d := by
  simp [histTail, h]

/-- The registers of a mailbox at its offset of BAR 0 (Table 15.2). -/
theorem bar0Regs_mbx (d : Dev) {m a : Nat} (hm : m < 64) (ha : a < 4096) :
    bar0Regs d (0x10000 + 4096 * m + a) = (0x10000 + 4096 * m, mbxRegs d m a) := by
  have page : (0x10000 + 4096 * m + a) / 4096 = 16 + m := by omega
  have offset : (0x10000 + 4096 * m + a) % 4096 = a := by omega
  unfold bar0Regs; dsimp only
  iterate 8 rw [if_neg (by omega)]
  rw [if_pos (by omega), page, offset, Nat.add_sub_cancel_left, show (16 + m) * 4096 = 0x10000 + 4096 * m by omega]

/-- A 64-bit write into a mailbox's request area (Table 15.6). -/
theorem bar0Write_request {m i : Nat} (v : BitVec 64) (d : Dev) (hm : m < 64) (hi : i < 248) :
    bar0Write (0x10040 + 4096 * m + 8 * i) 8 v.toNat d = requestWrite m (8 * i) (2 ^ 64 - 1) v.toNat d := by
  have one : (mbxRegs d m (0x40 + 8 * i)).filter (touches (0x40 + 8 * i) 8) =
      [⟨0x40 + 8 * i, 8, rdN (getMbx d m).req (8 * i) 8, id, requestWrite m (8 * i)⟩] := by
    have word : (0x40 + 8 * i) / 8 * 8 = 0x40 + 8 * i := by omega
    have inside : 0x40 + 8 * i < 0x800 := by omega
    have past (k : Nat) (hk : k ≤ 0x40) : ¬ 0x40 + 8 * i < k := by omega
    simp [mbxRegs, word, inside, past, touches, ro, rc, w1]
  have place : 0x10040 + 4096 * m + 8 * i = 0x10000 + 4096 * m + (0x40 + 8 * i) := by omega
  rw [place, bar0Write_aligned (by simp [aligned]; omega) (bar0Takes_of_not_dma (.inl (by omega))) (bar0Regs_mbx d hm (by omega)),
    Nat.add_sub_cancel_left]
  simp [regsWrite, one, forEach, Nat.mod_eq_of_lt v.isLt]

/-- A write of the request area is taken in IDLE and DONE (Table 15.8). -/
theorem requestWrite_taken {m i : Nat} (v : BitVec 64) {d : Dev} (h : (getMbx d m).st = .idle ∨ (getMbx d m).st = .done) :
    requestWrite m i (2 ^ 64 - 1) v.toNat d = modMbx m (fun x => { x with req := wrN x.req i 8 v.toNat }) d := by
  have old : rdN (getMbx d m).req i 8 < 2 ^ 64 := rdN_lt _ _ 8
  simp only [requestWrite, modMbx, mergeBits_full old v.isLt]
  rcases h with h | h <;> simp [h]

/-- In POSTED and ACCEPTED it is discarded and counted (Table 15.8). -/
theorem requestWrite_discarded {m i mask v : Nat} {d : Dev} (h : (getMbx d m).st = .posted ∨ (getMbx d m).st = .accepted) :
    requestWrite m i mask v d = modMbx m (fun x => { x with errReq := satAdd16 x.errReq 1 }) d := by
  simp only [requestWrite, modMbx]
  rcases h with h | h <;> simp [h]

theorem onlyMbx_modMbx (m : Nat) (f : Mailbox → Mailbox) (d : Dev) : onlyMbx m d (modMbx m f d) :=
  ⟨rfl, fun _ h => getMbx_modMbx_other d f h⟩

/-! ### Tile registers and memories -/

theorem onlyTile_modTile (no : Nat) (f : Tile → Tile) (d : Dev) : onlyTile no d (modTile no f d) :=
  ⟨rfl, fun _ h => getTile_modTile_other d f h⟩

theorem tiles_of_untimed {d e : Dev} (h : untimed e = untimed d) : e.tiles = d.tiles := (congrArg Dev.tiles h :)

theorem out_of_untimed {d e : Dev} (h : untimed e = untimed d) : e.out = d.out := (congrArg Dev.out h :)

@[simp] theorem getTile_freeTicks (d : Dev) (u : Nat) : getTile (freeTicks d) u = getTile d u := by
  simp only [getTile, tiles_of_untimed (untimed_freeTicks d)]

/-- No tile is FROZEN while the MP runs (R105, R424). -/
theorem tileMode_of_mpUp {d : Dev} (mp : mpUp d = true) (x : Tile) : tileMode d x = x.mode := by
  have h := awake_of_mpUp mp
  simp only [awake, Bool.and_eq_true, Bool.not_eq_true'] at h
  simp [tileMode, h.2]

/-- Equal but for their sequencers' state, two tiles hold the same memories and counters. -/
theorem memories_of_stilled {t u : Tile} (h : stilled t = stilled u) :
    t.cmem = u.cmem ∧ t.spad = u.spad ∧ t.ctr0 = u.ctr0 ∧ t.cmemDiscard = u.cmemDiscard :=
  ⟨(congrArg Tile.cmem h :), (congrArg Tile.spad h :), (congrArg Tile.ctr0 h :), (congrArg Tile.cmemDiscard h :)⟩

/-- An event enters the history that an update beside the fault logic has left alone. -/
theorem Entered.of_flt {cls src cause : Nat} {d d' e : Dev} (h : Entered cls src cause d' e) (hf : d'.flt = d.flt) :
    Entered cls src cause d e := by
  unfold Entered at h ⊢; rwa [hf] at h

/-- A write that a tile does not take is noted and counted in CMEM_DISCARD, and changes no memory and no register (R107, R108,
R143). -/
theorem cmemDiscardEvent_discards (no : Nat) (idx : Option Nat) (d : Dev) :
    let e := cmemDiscardEvent no idx d
    Entered 0 (0x100 + moonOfTile no) 0x0109 d e ∧ (getTile e no).cmem = (getTile d no).cmem ∧
      (getTile e no).spad = (getTile d no).spad ∧ (getTile e no).ctr0 = (getTile d no).ctr0 ∧
      fld (getTile e no).cmemDiscard.toNat 0 16 = min (fld (getTile d no).cmemDiscard.toNat 0 16 + 1) 0xFFFF := by
  intro e
  have tile : stilled (getTile e no) = _ := congrFun (stillTiles_raise 0 (0x100 + moonOfTile no) 0x0109 _ _ _) no
  rw [stillTiles, getTile_modTile_same] at tile
  obtain ⟨cmem, spad, ctr0, count⟩ := memories_of_stilled tile
  refine ⟨(raise_entered ..).of_flt rfl, cmem, spad, ctr0, ?_⟩
  rw [count, BitVec.toNat_ofNat]
  generalize fld (getTile d no).cmemDiscard.toNat 0 16 = k
  generalize idx.getD _ = j
  simp only [fld]
  omega

theorem whenParked_parked {no : Nat} {idx : Option Nat} {f : Tile → Tile} {d : Dev} (mp : mpUp d = true)
    (h : (getTile d no).mode = .parked) : whenParked no idx f d = modTile no f d := by
  simp [whenParked, tileMode_of_mpUp mp, h]

theorem whenParked_busy {no : Nat} {idx : Option Nat} {f : Tile → Tile} {d : Dev} (mp : mpUp d = true)
    (h : (getTile d no).mode ≠ .parked) : whenParked no idx f d = cmemDiscardEvent no idx d := by
  simp [whenParked, tileMode_of_mpUp mp, h]

/-- The MP's 64-bit store into command memory (R25, R107). -/
theorem cmemWrite_taken {no o : Nat} {v : BitVec 64} {d : Dev} (mp : mpUp d = true) (ho : o % 8 = 0)
    (hm : (getTile d no).mode = .parked) (hp : planHolds d no = false) :
    cmemWrite no o v d = modTile no (fun x => { x with
      cmem := wrN x.cmem o 8 v.toNat, cmemBad := x.cmemBad.filter (fun a => decide (a < o) || decide (o + 8 ≤ a)) }) d := by
  simp [cmemWrite, ho, hp, whenParked_parked mp hm]

theorem cmemWrite_held {no o : Nat} {v : BitVec 64} {d : Dev} (mp : mpUp d = true) (hm : (getTile d no).mode = .parked)
    (hp : planHolds d no = true) : cmemWrite no o v d = d := by
  simp [cmemWrite, hp, tileMode_of_mpUp mp, hm]

theorem cmemWrite_busy {no o : Nat} {v : BitVec 64} {d : Dev} (mp : mpUp d = true) (ho : o % 8 = 0)
    (hm : (getTile d no).mode ≠ .parked) : cmemWrite no o v d = cmemDiscardEvent no (some (o / 16)) d := by
  simp [cmemWrite, ho, tileMode_of_mpUp mp, hm, whenParked_busy mp hm]

/-- The MP's 64-bit store into scratchpad (R142, R143). -/
theorem spadWrite_taken {no o : Nat} {v : BitVec 64} {d : Dev} (mp : mpUp d = true) (ho : o % 8 = 0) (hb : o < 196608)
    (hm : (getTile d no).mode = .parked) :
    spadWrite no o v d = modTile no (fun x => { x with
      spad := wrN x.spad o 8 v.toNat, spadBad := x.spadBad.filter (fun a => decide (a < o) || decide (o + 8 ≤ a)) }) d := by
  simp [spadWrite, ho, Nat.not_le.mpr hb, whenParked_parked mp hm]

theorem spadWrite_busy {no o : Nat} {v : BitVec 64} {d : Dev} (mp : mpUp d = true) (ho : o % 8 = 0) (hb : o < 196608)
    (hm : (getTile d no).mode ≠ .parked) : spadWrite no o v d = cmemDiscardEvent no none d := by
  simp [spadWrite, ho, Nat.not_le.mpr hb, whenParked_busy mp hm]

/-- A 64-bit number written into a memory reads back, and every other byte is as it was. -/
theorem wrN64_reads (m : Mem) (o : Nat) (v : BitVec 64) :
    rdN (wrN m o 8 v.toNat) o 8 = v.toNat ∧ ∀ a, a < o ∨ o + 8 ≤ a → rdB (wrN m o 8 v.toNat) a = rdB m a := by
  refine ⟨(rdN_wrN_same m o 8 _).trans (Nat.mod_eq_of_lt v.isLt), fun a ha => ?_⟩
  exact rdB_wrBs_out m o a _ (by rwa [length_toLe])

/-- DBG_EN is bit 0 of BRK_CTRL, and the other bits stand (Table 3.14). -/
theorem getLsbD_dbgEn (r : BitVec 64) (b : Bool) (i : Nat) :
    ((r &&& 0xFFFFFFFFFFFFFFFE#64) ||| BitVec.ofNat 64 (b2n b)).getLsbD i = if i = 0 then b else r.getLsbD i := by
  have mask : ∀ i, i < 64 → (0xFFFFFFFFFFFFFFFE#64).getLsbD i = decide (i ≠ 0) := by decide
  have flag : (BitVec.ofNat 64 (b2n b)).getLsbD i = (b && decide (i = 0)) := by cases b <;> simp [b2n]
  rw [BitVec.getLsbD_or, BitVec.getLsbD_and, flag]
  by_cases hw : i < 64
  · rw [mask i hw]
    by_cases hi : i = 0 <;> simp [hi]
  · have hi : i ≠ 0 := by omega
    simp [hi, BitVec.getLsbD_of_ge r i (by omega)]

/-! ### The tile registers of the MP (R112) -/

theorem touches_iff {o n : Nat} {r : Reg} : touches o n r = true ↔ r.off < o + n ∧ o < r.off + r.size := by
  simp [touches]

/-- The queue registers lie from offset 0x100 on (Table 3.11). -/
theorem touches_below {o n : Nat} (h : o + n ≤ 0x100) (f : Nat → Nat) :
    ((List.range 32).map (fun k => ro (0x100 + 4 * k) 4 (f k))).filter (touches o n) = [] := by
  simp only [List.filter_eq_nil_iff, List.mem_map]
  rintro _ ⟨k, -, rfl⟩
  rw [touches_iff]; simp only [ro]
  omega

theorem tileRegs_ctr0 (d : Dev) (no : Nat) : (tileRegs d no).filter (touches 0x40 4) = [rw 0x40 4 (getTile d no).ctr0.toNat
    (fun v => whenParked no none (fun x => { x with ctr0 := BitVec.ofNat 32 v }))] := by
  unfold tileRegs; dsimp only
  rw [List.filter_append, touches_below (by decide)]
  simp [touches, ro, rc, rw, w1]

theorem tileRegs_seqStatus (d : Dev) (no : Nat) : (tileRegs d no).filter (touches 0x68 4) = [w1 0x68 4
    (getTile d no).seqStatus.toNat (fun v => modTile no fun x => { x with
      seqStatus := clearFlags seqWatch (BitVec.ofNat 32 v) x.seqNew x.seqStatus })] := by
  unfold tileRegs; dsimp only
  rw [List.filter_append, touches_below (by decide)]
  simp [touches, ro, rc, rw, w1]

theorem regWrite_tile {tile : Fin 2304} {o n v : Nat} {d : Dev} (mp : mpUp d = true) (h : aligned o n = true) :
    regWrite (.tile tile) o n v d = regsWrite (tileRegs d tile) o n v d := by
  simp [regWrite, whenMp_runs mp, h, mpRegs]

theorem ofNat_low32 (v : BitVec 64) : BitVec.ofNat 32 (v.toNat % 2 ^ (8 * 4)) = v.setWidth 32 := by
  apply BitVec.eq_of_toNat_eq; simp

/-- A tile's counter takes a write while the tile is PARKED (R108). -/
theorem regWrite_ctr0 {tile : Fin 2304} {v : BitVec 64} {d : Dev} (mp : mpUp d = true) : regWrite (.tile tile) 0x40 4 v.toNat d =
    whenParked tile none (fun x => { x with ctr0 := v.setWidth 32 }) d := by
  rw [regWrite_tile mp rfl, regsWrite_rw (tileRegs_ctr0 d tile) (getTile d tile).ctr0.isLt, ofNat_low32]

/-- A write of SEQ_STATUS clears the flags written as 1 (R67). -/
theorem regWrite_seqStatus {tile : Fin 2304} {v : BitVec 64} {d : Dev} (mp : mpUp d = true) :
    regWrite (.tile tile) 0x68 4 v.toNat d = modTile tile (fun x => { x with
      seqStatus := clearFlags seqWatch (v.setWidth 32) x.seqNew x.seqStatus }) d := by
  rw [regWrite_tile mp rfl, regsWrite_w1 (tileRegs_seqStatus d tile), ofNat_low32]

theorem regRead_tile {tile : Fin 2304} {o n : Nat} {d : Dev} (mp : mpUp d = true) :
    regRead (.tile tile) o n d = mpRead (.tile tile) o n d := by simp [regRead, whenMp_runs mp]

theorem regRead_scratchpad {tile : Fin 2304} {o n : Nat} {d : Dev} (mp : mpUp d = true) :
    regRead (.scratchpad tile) o n d = mpRead (.scratchpad tile) o n d := by simp [regRead, whenMp_runs mp]

/-- A module that has answered a read by the MP, with its data and whether it met a parity error. -/
def answerMp (v : BitVec 64) (bad : Bool) (d : Dev) : Dev := { d with out := { d.out with data := v, parity := bad } }

theorem answerMp_frame {v : BitVec 64} {bad : Bool} {c d : Dev} (h : c.out = d.out) : { answerMp v bad c with out := d.out } = c := by
  rw [← h]; rfl

/-- A read by the MP of a register that a read does not clear happens with the free clocks caught up. -/
theorem mpRead_one {sp : Space} {o n : Nat} {d : Dev} {r : Reg} (h : aligned o n = true)
    (one : (mpRegs (freeTicks d) sp o).filter (touches o n) = [r]) (ho : r.off = o) (hc : r.clr = id) :
    mpRead sp o n d = answerMp (BitVec.ofNat 64 (r.rd % 2 ^ (8 * n))) (badParity (freeTicks d) sp o n) (freeTicks d) := by
  simp [mpRead, h, regsRead_one one ho, regsClear_one one, hc, readData, answerMp]

theorem out_freeTicks (d : Dev) : (freeTicks d).out = d.out := out_of_untimed (untimed_freeTicks d)

theorem badParity_tile (d : Dev) (tile : Fin 2304) (o n : Nat) : badParity d (.tile tile) o n = false := rfl

theorem badParity_scratchpad (d : Dev) (tile : Fin 2304) (o n : Nat) : badParity d (.scratchpad tile) o n =
    (getTile d tile).spadBad.any (fun a => decide (o ≤ a) && decide (a < o + n)) := rfl

/-- SEQ_STATUS as the MP reads it. -/
theorem mpRead_seqStatus (tile : Fin 2304) (d : Dev) :
    mpRead (.tile tile) 0x68 4 d = answerMp ((getTile d tile).seqStatus.setWidth 64) false (freeTicks d) := by
  have one : (mpRegs (freeTicks d) (.tile tile) 0x68).filter (touches 0x68 4) = _ := tileRegs_seqStatus _ tile
  have whole : (getTile d tile).seqStatus.toNat % 2 ^ (8 * 4) = _ := Nat.mod_eq_of_lt (BitVec.isLt _)
  rw [mpRead_one rfl one rfl rfl, w1_rd, getTile_freeTicks, whole, BitVec.ofNat_toNat, badParity_tile]

theorem wordRegs_scratchpad (d : Dev) (tile : Fin 2304) {o : Nat} (ho : o % 8 = 0) (hb : o < 196608) :
    (wordRegs d (.scratchpad tile) o).filter (touches o 8) =
      [rw o 8 (rdN (getTile d tile).spad o 8) (fun v => spadWrite tile o (BitVec.ofNat 64 v))] := by
  have word : o / 8 * 8 = o := by omega
  unfold wordRegs; dsimp only
  rw [word, if_neg (Nat.not_le.mpr hb)]
  simp [touches, rw]

/-- A word of scratchpad as the MP reads it, with the parity error of a byte that has one (R143). -/
theorem mpRead_scratchpad (tile : Fin 2304) {o : Nat} (d : Dev) (ho : o % 8 = 0) (hb : o < 196608) :
    mpRead (.scratchpad tile) o 8 d = answerMp (BitVec.ofNat 64 (rdN (getTile d tile).spad o 8))
      ((getTile d tile).spadBad.any (fun a => decide (o ≤ a) && decide (a < o + 8))) (freeTicks d) := by
  have one : (mpRegs (freeTicks d) (.scratchpad tile) o).filter (touches o 8) = _ := wordRegs_scratchpad _ tile ho hb
  have whole : rdN (getTile d tile).spad o 8 % 2 ^ (8 * 8) = _ := Nat.mod_eq_of_lt (rdN_lt _ o 8)
  rw [mpRead_one (by simp [aligned, ho]) one rfl rfl, rw_rd, badParity_scratchpad, getTile_freeTicks, whole]

end Sys2Proof.Machine
end

section
/-! The obligations of scope: the register spaces, and the module after reset. -/

namespace Sys2Proof.Machine

open Sys2Proof

/-- After reset every byte memory is empty. -/
theorem memWf_reset : State.reset.dev.memWf := ⟨rfl, rfl, rfl, fun _ => ⟨rfl, rfl⟩, fun _ => ⟨rfl, rfl⟩⟩

/-- After reset no partition exists. -/
theorem partsWf_reset : State.reset.dev.partsWf := fun _ _ h => by cases h

/-- After reset every tile stands at the reset values of its fields. -/
theorem getTile_reset (t : Nat) : getTile State.reset.dev t = {} := rfl

/-- Settles O56: right after reset no table lists anything, so that every record stands at the reset value of its fields. -/
theorem resetLeavesTheModuleAtRest : Obligations.ResetLeavesTheModuleAtRest := by
  unfold Obligations.ResetLeavesTheModuleAtRest
  refine ⟨rfl, memWf_reset, partsWf_reset, rfl, fun t => ⟨rfl, rfl, rfl, ?flags⟩, fun _ => rfl, fun _ => rfl,
    fun _ => ⟨rfl, rfl⟩, rfl, rfl, rfl, rfl, rfl, fun _ => ⟨rfl, rfl, rfl, rfl⟩, rfl, rfl, rfl, rfl, rfl, fun _ => rfl,
    fun _ => rfl⟩
  case flags => rw [getTile_reset]; rfl

/-- Settles O55, clause by clause: what the MP's stores, CLEAR and DBG_EN do to a tile, which accesses complete, and what the
host's and the MP's accesses leave of the register they meet. -/
theorem registersReadAndWrite : Obligations.RegistersReadAndWrite := by
  unfold Obligations.RegistersReadAndWrite
  intro s tile m sp co so ro v b wide bytes d no t x n reach refusedAt
  refine ⟨?cmem, ?held, ?cmemBusy, ?spad, ?spadBusy, ?clear, ?dbgEn, ?reads, ?writes, ?ident, ?bar0Err, ?misread, ?readOnly,
    ?miswritten, ?request, ?tail, ?tailHigh, ?seqStatus, ?spadRead, ?ctr, ?ctrBusy, ?seqClear⟩
  case cmem =>
    intro mp ho hm hp
    obtain ⟨reads, others⟩ := wrN64_reads t.cmem co.toNat v
    refine ⟨_, gives_whenMp (exec_commandMemoryWrite ..) mp (cmemWrite_taken mp ho hm hp), onlyTile_modTile .., ?_⟩
    rw [getTile_modTile_same]
    exact ⟨reads, others, rfl⟩
  case held => exact fun mp hm hp => gives_whenMp (exec_commandMemoryWrite ..) mp (cmemWrite_held mp hm hp)
  case cmemBusy =>
    intro mp ho hm
    exact ⟨_, gives_whenMp (exec_commandMemoryWrite ..) mp (cmemWrite_busy mp ho hm), cmemDiscardEvent_discards ..⟩
  case spad =>
    intro mp ho hb hm
    obtain ⟨reads, others⟩ := wrN64_reads t.spad so.toNat v
    refine ⟨_, gives_whenMp (exec_scratchpadWrite ..) mp (spadWrite_taken mp ho hb hm), onlyTile_modTile .., ?_⟩
    rw [getTile_modTile_same]
    exact ⟨reads, others, rfl⟩
  case spadBusy =>
    intro mp ho hb hm
    exact ⟨_, gives_whenMp (exec_scratchpadWrite ..) mp (spadWrite_busy mp ho hb hm), cmemDiscardEvent_discards ..⟩
  case clear =>
    intro mp
    refine ⟨_, gives_whenMp (exec_clear ..) mp rfl, onlyTile_modTile .., ?_⟩
    rw [getTile_modTile_same]
    exact ⟨fun h => by rw [clearTile, if_pos h], fun h => by rw [clearTile, if_neg h]⟩
  case dbgEn =>
    intro mp
    refine ⟨_, gives_whenMp (exec_dbgEn ..) mp rfl, onlyTile_modTile .., ?_⟩
    rw [writeDbgEn, getTile_modTile_same]
    exact ⟨getLsbD_dbgEn _ _ 0, fun i hi => (getLsbD_dbgEn _ _ i).trans (if_neg (by omega)), rfl⟩
  case reads =>
    intro h
    refine ⟨_, gives_readClear h rfl, ?_⟩
    rintro rfl
    exact fields_of_bar0Still (bar0Still_regRead ro.toNat n d)
  case writes => exact fun h => ⟨_, gives_registerWrite h rfl⟩
  case ident =>
    intro ⟨hw, io⟩
    exact ⟨_, gives_readClear (diagHit_low _ (by decide)) ((regRead_bar0 hw io).trans (bar0Read_ident d)), rfl, rfl⟩
  case bar0Err =>
    intro ⟨hw, io⟩
    exact ⟨_, gives_readClear (diagHit_low _ (by decide)) ((regRead_bar0 hw io).trans (bar0Read_bar0Err d)),
      BitVec.ofNat_toNat .., rfl, rfl⟩
  case misread =>
    intro ⟨hw, io⟩ ho
    have odd : aligned ro.toNat n = false := by simp [aligned, ho]
    exact ⟨_, gives_readClear (diagHit_unaligned _ odd) ((regRead_bar0 hw io).trans (bar0Read_unaligned odd)), rfl, rfl⟩
  case readOnly =>
    intro ⟨hw, io⟩ low ha
    exact gives_registerWrite (diagHit_low _ (by omega)) ((regWrite_bar0 hw io _).trans (bar0Write_ident (by omega) ha _))
  case miswritten =>
    intro ⟨hw, io⟩ odd
    exact gives_registerWrite (diagHit_unaligned _ odd) ((regWrite_bar0 hw io _).trans (bar0Write_unaligned odd _))
  case request =>
    intro ⟨hw, io⟩ i hi ho
    have low : ro.toNat < 0x1000000 := by omega
    have written : regWrite .bar0 ro.toNat 8 v.toNat d = _ :=
      (regWrite_bar0 hw io _).trans (ho ▸ bar0Write_request v d m.isLt hi)
    refine ⟨fun st => ?_, fun st => gives_registerWrite (diagHit_low _ low) (written.trans (requestWrite_discarded st))⟩
    obtain ⟨reads, others⟩ := wrN64_reads x.req (8 * i) v
    refine ⟨_, gives_registerWrite (diagHit_low _ low) (written.trans (requestWrite_taken v st)), onlyMbx_modMbx .., ?_⟩
    rw [getMbx_modMbx_same]
    exact ⟨reads, others⟩
  case tail =>
    intro ⟨hw, io⟩ hv
    exact gives_registerWrite (diagHit_low _ (by decide))
      ((regWrite_bar0 hw io _).trans ((bar0Write_histTail v d).trans (histTail_taken hv)))
  case tailHigh =>
    intro ⟨hw, io⟩ hv
    exact gives_registerWrite (diagHit_low _ (by decide))
      ((regWrite_bar0 hw io _).trans ((bar0Write_histTail v d).trans (histTail_high hv)))
  case seqStatus =>
    intro mp
    exact ⟨_, gives_readClear (diagHit_mp nofun) ((regRead_tile mp).trans (mpRead_seqStatus tile d)), rfl,
      answerMp_frame (out_freeTicks d)⟩
  case spadRead =>
    intro mp ho hb
    exact ⟨_, gives_readClear (diagHit_mp nofun) ((regRead_scratchpad mp).trans (mpRead_scratchpad tile d ho hb)), rfl,
      answerMp_frame (out_freeTicks d), rfl⟩
  case ctr =>
    intro mp hm
    exact gives_registerWrite (diagHit_mp nofun) ((regWrite_ctr0 mp).trans (whenParked_parked mp hm))
  case ctrBusy =>
    intro mp hm
    exact ⟨_, gives_registerWrite (diagHit_mp nofun) ((regWrite_ctr0 mp).trans (whenParked_busy mp hm)),
      cmemDiscardEvent_discards ..⟩
  case seqClear => exact fun mp => gives_registerWrite (diagHit_mp nofun) (regWrite_seqStatus mp)

end Sys2Proof.Machine
end

section
/-!
SUPPORT. What the records of an event leave alone: a partition's ephemeris, its digests and the MSI-X vectors change, and every
partition stays as it is but for its ephemeris (R280 to R285, R387).
-/

namespace Sys2Proof.Machine

open Sys2Proof

/-! ### A module but for its records -/

/-- A module but for the partitions, the rings in GDDR7, the vectors and the free values drawn. -/
def unlogged (d : Dev) : Dev := { d with parts := [], gddr := [], msix := [], out := {}, free := 0 }

/-- A partition but for its ephemeris. -/
def ephless (x : Part) : Part := { x with eph := {} }

/-- The partitions but for their ephemerides. -/
def ephlessParts (d : Dev) : Nat → Option Part := fun p => (getPart d p).map ephless

/-- One module differs from another by the records written alone. -/
structure RecordsOnly (d e : Dev) : Prop where
  rest : unlogged e = unlogged d
  parts : d.partsWf → ephlessParts e = ephlessParts d

/-- Partitions that are the same but for their ephemerides stand under the same numbers (R385). -/
theorem partsWf_of_ephlessParts {d e : Dev} (h : ephlessParts e = ephlessParts d) (wf : d.partsWf) : e.partsWf := by
  intro p x hx
  have same := congrFun h p
  simp only [ephlessParts, hx, Option.map_some] at same
  obtain ⟨y, hy, hxy⟩ := Option.map_eq_some_iff.mp same.symm
  exact (congrArg Part.pid hxy).symm.trans (wf p y hy)

namespace RecordsOnly

variable {d e c : Dev}

theorem refl (d : Dev) : RecordsOnly d d := ⟨rfl, fun _ => rfl⟩

theorem partsWf (h : RecordsOnly d e) (wf : d.partsWf) : e.partsWf := partsWf_of_ephlessParts (h.parts wf) wf

theorem trans (h : RecordsOnly d e) (g : RecordsOnly e c) : RecordsOnly d c :=
  ⟨g.rest.trans h.rest, fun wf => (g.parts (h.partsWf wf)).trans (h.parts wf)⟩

theorem tiles (h : RecordsOnly d e) : e.tiles = d.tiles := (congrArg Dev.tiles h.rest :)

theorem clk (h : RecordsOnly d e) : e.clk = d.clk := (congrArg Dev.clk h.rest :)

theorem flt (h : RecordsOnly d e) : e.flt = d.flt := (congrArg Dev.flt h.rest :)

/-- Each partition is there after the records as before, but for its ephemeris. -/
theorem getPart_some {p : Nat} {x : Part} (h : RecordsOnly d e) (wf : d.partsWf) (hx : getPart d p = some x) :
    ∃ y, getPart e p = some y ∧ ephless y = ephless x := by
  have same := congrFun (h.parts wf) p
  simp only [ephlessParts, hx, Option.map_some] at same
  exact Option.map_eq_some_iff.mp same

/-- The fault logic is no part of what records change. -/
theorem setFlt (h : RecordsOnly d e) (f : Flt) : RecordsOnly { d with flt := f } { e with flt := f } :=
  ⟨(congrArg (fun x : Dev => { x with flt := f }) h.rest :), h.parts⟩

end RecordsOnly

/-! ### Vectors, rings and ephemeris records -/

theorem recordsOnly_raiseVec (v : Nat) (d : Dev) : RecordsOnly d (raiseVec v d) := by
  unfold raiseVec; dsimp only
  split <;> exact ⟨rfl, fun _ => rfl⟩

theorem recordsOnly_ringWrite (first off : Nat) (bs : List Byte) (d : Dev) : RecordsOnly d (ringWrite first off bs d) := by
  unfold ringWrite
  split <;> exact ⟨rfl, fun _ => rfl⟩

@[simp] theorem getPart_ringWrite (first off : Nat) (bs : List Byte) (d : Dev) (p : Nat) :
    getPart (ringWrite first off bs d) p = getPart d p := by
  unfold ringWrite; split <;> rfl

@[simp] theorem partsWf_ringWrite (first off : Nat) (bs : List Byte) (d : Dev) :
    (ringWrite first off bs d).partsWf ↔ d.partsWf := by simp [Dev.partsWf]

/-- A partition that stands in the table with another ephemeris. -/
theorem recordsOnly_setEph {p : Nat} {x : Part} {d : Dev} (e : Eph) (h : d.partsWf → getPart d p = some x) :
    RecordsOnly d (setPart p { x with eph := e } d) := by
  refine ⟨rfl, fun wf => funext fun q => ?_⟩
  by_cases hq : q = p
  · subst hq; simp [ephlessParts, h wf, ephless]
  · simp [ephlessParts, getPart_setPart_other d _ hq]

theorem recordsOnly_modEph (p : Nat) (g : Eph → Eph) (d : Dev) :
    RecordsOnly d (modPart p (fun y => { y with eph := g y.eph }) d) := by
  unfold modPart
  split
  case h_1 x hx => exact recordsOnly_setEph (g x.eph) fun _ => hx
  case h_2 => exact .refl d

theorem recordsOnly_withPart {p : Nat} {f : Part → Dev → Dev} {d : Dev} (h : ∀ x, getPart d p = some x → RecordsOnly d (f x d)) :
    RecordsOnly d (withPart p f d) := by
  unfold withPart
  split
  case h_1 x hx => exact h x hx
  case h_2 => exact .refl d

/-- A record that is written where a condition holds. -/
theorem recordsOnly_when {c : Prop} [Decidable c] {d e : Dev} (h : RecordsOnly d e) : RecordsOnly d (if c then e else d) := by
  split
  · exact h
  · exact .refl d

theorem recordsOnly_forEach {α : Type} {f : α → Dev → Dev} (h : ∀ a e, RecordsOnly e (f a e)) (l : List α) (d : Dev) :
    RecordsOnly d (forEach l f d) :=
  forEach_keeps (RecordsOnly d) f (fun a e he => he.trans (h a e)) l d (.refl d)

section
variable {x : Part} {d : Dev}

theorem recordsOnly_ephWrite (own : d.partsWf → getPart d x.pid = some x) (mt orbit ts kind slot req data : Nat) :
    RecordsOnly d (ephWrite x mt orbit ts kind slot req data d) := by
  have ring := recordsOnly_ringWrite (ephFirst x) (32 * (x.eph.head.toNat % ephSize x))
    (recBytes mt orbit ts kind slot req data (x.eph.head.toNat % 65536)) d
  exact ring.trans (recordsOnly_setEph _ fun wf => by rw [getPart_ringWrite, own ((partsWf_ringWrite ..).mp wf)])

theorem recordsOnly_ephLose (own : d.partsWf → getPart d x.pid = some x) : RecordsOnly d (ephLose x d) := by
  unfold ephLose; dsimp only
  split
  · exact (recordsOnly_setEph _ own).trans (recordsOnly_raiseVec ..)
  · exact recordsOnly_setEph _ own

end

/-- A partition in hand stands under its own number where the table says so. -/
theorem own_of_getPart {p : Nat} {x : Part} {d : Dev} (h : getPart d p = some x) : d.partsWf → getPart d x.pid = some x :=
  fun wf => by rw [wf p x h, h]

theorem recordsOnly_ephGap (p : Nat) (d : Dev) : RecordsOnly d (ephGap p d) := by
  refine recordsOnly_withPart fun x hx => ?_
  split
  · exact (recordsOnly_ephWrite (own_of_getPart hx) ..).trans (recordsOnly_modEph p (fun y => { y with gap := 0 }) _)
  · exact .refl d

theorem recordsOnly_ephRecAt (p mt orbit ts kind slot req data : Nat) (d : Dev) :
    RecordsOnly d (ephRecAt p mt orbit ts kind slot req data d) := by
  refine (recordsOnly_ephGap p d).trans (recordsOnly_withPart fun x hx => ?_)
  split
  · exact .refl _
  · split
    · exact recordsOnly_ephLose (own_of_getPart hx)
    · exact recordsOnly_ephWrite (own_of_getPart hx) ..

theorem recordsOnly_ephRec (p kind slot req data : Nat) (d : Dev) : RecordsOnly d (ephRec p kind slot req data d) :=
  recordsOnly_withPart fun _ _ => recordsOnly_ephRecAt ..

theorem recordsOnly_ephAll (runningOnly : Bool) (kind data : Nat) (d : Dev) :
    RecordsOnly d (ephAll runningOnly kind data d) := by
  refine recordsOnly_forEach (fun e c => ?_) _ d
  split
  · exact .refl c
  · exact recordsOnly_ephRec ..

/-! ### Digests -/

theorem recordsOnly_writeDigest (p : Nat) (d : Dev) : RecordsOnly d (writeDigest p d) := by
  refine recordsOnly_withPart fun x hx => ?_
  split
  · exact .refl d
  · split
    · exact .refl d
    · have drawn : RecordsOnly d { d with free := d.free + 1 } := ⟨rfl, fun _ => rfl⟩
      exact (((drawn.trans (recordsOnly_ringWrite ..)).trans
        (recordsOnly_setEph _ fun _ => (getPart_ringWrite ..).trans hx)).trans (recordsOnly_ephRec ..)).trans (recordsOnly_raiseVec ..)

theorem recordsOnly_closeDigest (p : Nat) (last : BitVec 32) (d : Dev) : RecordsOnly d (closeDigest p last d) := by
  refine recordsOnly_withPart fun x hx => ?_
  split
  · exact .refl d
  · split
    · exact recordsOnly_writeDigest p d
    · exact (recordsOnly_setEph _ fun _ => hx).trans (recordsOnly_writeDigest p _)

/-! ### Fault events -/

/-- An entry of the history counts its class in the fault logic, and is a record otherwise (R416). -/
theorem history_records (cls src cause part detail : Nat) (d : Dev) :
    ∃ f : Flt, f.halts = (if cls = 2 then d.flt.halts + 1 else d.flt.halts) ∧
      RecordsOnly { d with flt := f } (history cls src cause part detail d) := by
  exact ⟨_, rfl, recordsOnly_when (recordsOnly_raiseVec ..)⟩

/-- An event that is recorded touches the fault logic, where a HALT is counted, and the records (R416 to R420). -/
theorem recordEvent_records (cls src cause part detail : Nat) (d : Dev) :
    ∃ f : Flt, f.halts = (if cls = 2 then d.flt.halts + 1 else d.flt.halts) ∧
      RecordsOnly { d with flt := f } (recordEvent cls src cause part detail d) := by
  obtain ⟨f, halts, entered⟩ := history_records cls src cause part detail d
  have record (data : Nat) (e : Dev) :
      RecordsOnly e (if part = 0xFF then ephAll false 0x22 data e else ephRec part 0x22 0xFFFF 0 data e) := by
    split
    · exact recordsOnly_ephAll ..
    · exact recordsOnly_ephRec ..
  unfold recordEvent; dsimp only
  generalize hv : (if 1 ≤ cls then raiseVec 0 (history cls src cause part detail d) else history cls src cause part detail d) = v
  have vector := entered.trans (hv ▸ recordsOnly_when (recordsOnly_raiseVec 0 _))
  generalize hw : (if (decide (cls = 1) || decide (cls = 2)) && mpUp v then _ else v) = w
  have written := vector.trans (hw ▸ recordsOnly_when (record _ v))
  by_cases drives : 2 ≤ cls
  · rw [if_pos drives]
    exact ⟨(driveFault w).flt, (congrArg Flt.halts written.flt).trans halts, written.setFlt (driveFault w).flt⟩
  · rw [if_neg drives]
    exact ⟨f, halts, written⟩

end Sys2Proof.Machine
end

section
/-!
SUPPORT. Holds: what a WAIT's release and the end of its hold leave of the tile, of its moon and of the partitions (R36, R161), and
what a HALT leaves of a tile that raised it (R413, Table 3.10).
-/

namespace Sys2Proof.Machine

open Sys2Proof

/-! ### A moon's slices -/

@[simp] theorem getSlice_modSlice_same (d : Dev) (m j : Nat) (f : MoonSlice → MoonSlice) :
    getSlice (modSlice m j f d) m j = f (getSlice d m j) := by simp [getSlice, modSlice]

@[simp] theorem restTill_modSlice (d : Dev) (m n j : Nat) (f : MoonSlice → MoonSlice) :
    (getMoon (modSlice m j f d) n).restTill = (getMoon d n).restTill := by
  by_cases h : n = m
  · subst h; simp [modSlice]
  · simp [modSlice, getMoon_modMoon_other d _ h]

/-- What leaves a moon's slices alone leaves them as they read. -/
theorem getSlice_modMoon (d : Dev) (m j : Nat) {f : Moon → Moon} (h : ∀ x, (f x).slices = x.slices) :
    getSlice (modMoon m f d) m j = getSlice d m j := by simp [getSlice, h]

theorem getTile_congr {d e : Dev} (h : e.tiles = d.tiles) (u : Nat) : getTile e u = getTile d u := by simp [getTile, h]

theorem getSlice_congr {d e : Dev} (h : e.clk = d.clk) (m j : Nat) : getSlice e m j = getSlice d m j := by
  simp [getSlice, getMoon, h]

theorem getMoon_congr {d e : Dev} (h : e.clk = d.clk) (m : Nat) : getMoon e m = getMoon d m := by simp [getMoon, h]

/-! ### A released WAIT is counted (R161) -/

section
variable (no : Nat) (w : WaitSt) (held : Bool) (d : Dev)

theorem countWait_restTill (m : Nat) : (getMoon (countWait no w held d) m).restTill = (getMoon d m).restTill := restTill_modSlice ..

/-- A released WAIT counts by the level of its queue, and no hold is counted with it. -/
theorem countWait_slice :
    let a := getSlice (countWait no w held d) (moonOfTile no) (sliceOf no)
    let b := getSlice d (moonOfTile no) (sliceOf no)
    a.waitCount0 = (if w.q < 28 then b.waitCount0 + 1 else b.waitCount0) ∧
      a.waitCount1 = (if w.q < 28 then b.waitCount1 else b.waitCount1 + 1) ∧
      a.holdCount = b.holdCount ∧ a.holdNs0 = b.holdNs0 ∧ a.holdNs1 = b.holdNs1 := by
  simp only [countWait, getSlice_modSlice_same]
  split <;> exact ⟨rfl, rfl, rfl, rfl, rfl⟩

end

/-! ### The end of a hold (R36) -/

/-- A partition whose orbit is late, where it runs. -/
def lateIfRunning (x : Part) : Part := if x.plan = .running then { x with fab := { x.fab with late := true } } else x

/-- What the end of a hold does before it is recorded. -/
def releaseHold (no : Nat) (w : WaitSt) (start : Nat) (d : Dev) : Dev :=
  { modMoon (moonOfTile no) (fun m => { m with restTill := max m.restTill d.clk.wall })
      (countHold no w ((d.clk.wall - start) / grain) d) with
    tiles := (modTile no (fun t => { t with wait := none }) d).tiles
    parts := d.parts.map (fun e => (e.1, lateIfRunning e.2)) }

section
variable (no : Nat) (w : WaitSt) (start : Nat) (d : Dev)

theorem endHold_records : RecordsOnly (releaseHold no w start d) (endHold no w start d) := by
  have late : (fun e : Nat × Part => if e.2.plan = .running then (e.1, { e.2 with fab := { e.2.fab with late := true } }) else e) =
      fun e => (e.1, lateIfRunning e.2) := by
    funext e; unfold lateIfRunning; split <;> rfl
  unfold endHold; dsimp only
  rw [late]
  exact recordsOnly_when (recordsOnly_ephAll ..)

theorem endHold_tiles : (endHold no w start d).tiles = (modTile no (fun t => { t with wait := none }) d).tiles :=
  (endHold_records no w start d).tiles

theorem endHold_clk : (endHold no w start d).clk =
    (modMoon (moonOfTile no) (fun m => { m with restTill := max m.restTill d.clk.wall })
      (countHold no w ((d.clk.wall - start) / grain) d)).clk :=
  (endHold_records no w start d).clk

theorem endHold_flt : (endHold no w start d).flt = d.flt := (endHold_records no w start d).flt

theorem endHold_wall : (endHold no w start d).clk.wall = d.clk.wall := by rw [endHold_clk]; rfl

theorem endHold_tile : getTile (endHold no w start d) no = { getTile d no with wait := none } := by
  rw [getTile_congr (endHold_tiles ..), getTile_modTile_same]

theorem endHold_other {u : Nat} (h : u ≠ no) : getTile (endHold no w start d) u = getTile d u := by
  rw [getTile_congr (endHold_tiles ..), getTile_modTile_other d _ h]

/-- The moon's clock rests up to now. -/
theorem endHold_restTill : (getMoon (endHold no w start d) (moonOfTile no)).restTill =
    max (getMoon d (moonOfTile no)).restTill d.clk.wall := by
  rw [getMoon_congr (endHold_clk ..), getMoon_modMoon_same, countHold, restTill_modSlice]

/-- A hold is counted by the level of its queue with its wall time, and no WAIT is. -/
theorem endHold_slice :
    let a := getSlice (endHold no w start d) (moonOfTile no) (sliceOf no)
    let b := getSlice d (moonOfTile no) (sliceOf no)
    let ns := BitVec.ofNat 64 ((d.clk.wall - start) / grain)
    a.holdCount = b.holdCount + 1 ∧ a.holdNs0 = (if w.q < 28 then b.holdNs0 + ns else b.holdNs0) ∧
      a.holdNs1 = (if w.q < 28 then b.holdNs1 else b.holdNs1 + ns) ∧ a.waitCount0 = b.waitCount0 ∧ a.waitCount1 = b.waitCount1 := by
  intro a b ns
  have counted : a = getSlice (countHold no w ((d.clk.wall - start) / grain) d) (moonOfTile no) (sliceOf no) :=
    (getSlice_congr (endHold_clk ..) ..).trans (getSlice_modMoon _ _ _ fun _ => rfl)
  rw [counted, countHold, getSlice_modSlice_same]
  split <;> exact ⟨rfl, rfl, rfl, rfl, rfl⟩

variable {no w start d}

theorem releaseHold_getPart (p : Nat) : getPart (releaseHold no w start d) p = (getPart d p).map lateIfRunning :=
  tget_map lateIfRunning d.parts p

theorem releaseHold_partsWf (wf : d.partsWf) : (releaseHold no w start d).partsWf := by
  intro p x hx
  rw [releaseHold_getPart] at hx
  obtain ⟨y, hy, rfl⟩ := Option.map_eq_some_iff.mp hx
  exact (apply_ite Part.pid ..).trans ((ite_self _).trans (wf p y hy))

/-- The orbit of every running partition is late. -/
theorem endHold_late (wf : d.partsWf) {p : Nat} {y : Part} (hy : getPart d p = some y) (runs : y.plan = .running) :
    ∃ z, getPart (endHold no w start d) p = some z ∧ z.fab.late = true := by
  have late : getPart (releaseHold no w start d) p = some { y with fab := { y.fab with late := true } } := by
    rw [releaseHold_getPart, hy, Option.map_some, lateIfRunning, if_pos runs]
  obtain ⟨z, hz, same⟩ := (endHold_records no w start d).getPart_some (releaseHold_partsWf wf) late
  exact ⟨z, hz, (congrArg (fun x : Part => x.fab.late) same :)⟩

end

/-! ### A tile whose partition leaves RUNNING -/

section
variable {P : Tile → Prop} {no : Nat} {d : Dev}

theorem modTile_keepsTile {k : Nat} {f : Tile → Tile} (hf : ∀ t, P t → P (f t)) (h : P (getTile d no)) :
    P (getTile (modTile k f d) no) := by
  by_cases hk : no = k
  · subst hk; rw [getTile_modTile_same]; exact hf _ h
  · rwa [getTile_modTile_other d f hk]

theorem endHold_keepsTile (release : ∀ t, P t → P { t with wait := none }) (k : Nat) (w : WaitSt) (start : Nat)
    (h : P (getTile d no)) : P (getTile (endHold k w start d) no) := by
  rw [getTile_congr (endHold_tiles ..)]
  exact modTile_keepsTile release h

theorem endHolds_keepsTile (release : ∀ t, P t → P { t with wait := none }) (x : Part) (h : P (getTile d no)) :
    P (getTile (endHolds x d) no) := by
  refine forEach_keeps (fun e => P (getTile e no)) _ (fun k e he => ?_) _ d h
  split
  · split
    · exact endHold_keepsTile release _ _ _ he
    · exact he
  · exact he

theorem tiles_releasePins (p : Nat) (d : Dev) : (releasePins p d).tiles = d.tiles := by
  unfold releasePins withPart
  split
  · dsimp only; split <;> rfl
  · rfl

theorem tiles_eclipseAll (p : Nat) (d : Dev) : (eclipseAll p d).tiles = d.tiles := by
  unfold eclipseAll withPart
  split
  · dsimp only
    rw [modPart_tiles]
    exact (recordsOnly_when (recordsOnly_forEach (fun _ _ => recordsOnly_ephRec ..) _ d)).tiles
  · rfl

theorem parkTiles_keepsTile (park : ∀ t, P t → P (parkTile t)) (p : Nat) (h : P (getTile d no)) :
    P (getTile (parkTiles p d) no) := by
  unfold parkTiles withPart
  split
  · rw [getTile_congr ((tiles_releasePins ..).trans (modPart_tiles ..))]
    exact forEach_keeps (fun e => P (getTile e no)) _ (fun _ _ => modTile_keepsTile park) _ d h
  · exact h

/-- What the release of a WAIT and the park of a tile keep of it, its partition's leaving RUNNING keeps. -/
theorem leaveRunning_keepsTile (release : ∀ t, P t → P { t with wait := none }) (park : ∀ t, P t → P (parkTile t)) (p : Nat)
    (h : P (getTile d no)) : P (getTile (leaveRunning p d) no) := by
  have closed (x : Part) (c : Dev) (hc : P (getTile c no)) :
      P (getTile (if mpUp c then closeDigest p x.orbit (eclipseAll p c) else c) no) := by
    split
    · rwa [getTile_congr ((recordsOnly_closeDigest ..).tiles.trans (tiles_eclipseAll ..))]
    · exact hc
  unfold leaveRunning withPart
  split
  · dsimp only
    split
    · exact h
    · refine closed _ _ ?_
      have left (f : Part → Part) (x : Part) : P (getTile (modPart p f (endHolds x d)) no) := by
        rw [getTile_congr (modPart_tiles ..)]
        exact endHolds_keepsTile release x h
      split
      · exact left ..
      · exact parkTiles_keepsTile park p (left ..)
  · exact h

theorem haltParts_keepsTile (release : ∀ t, P t → P { t with wait := none }) (park : ∀ t, P t → P (parkTile t)) (part : Nat)
    (h : P (getTile d no)) : P (getTile (haltParts part d) no) := by
  unfold haltParts
  split
  · exact forEach_keeps (fun e => P (getTile e no)) _ (fun _ _ => leaveRunning_keepsTile release park _) _ d h
  · exact leaveRunning_keepsTile release park part h

end

/-! ### A HALT (R413) -/

/-- A HALT is recorded, and stops its partitions. -/
theorem raise_halt (src cause part detail : Nat) (d : Dev) :
    raise 2 src cause part detail d = haltParts part (recordEvent 2 src cause part detail d) := rfl

theorem haltParts_wall (part : Nat) (d : Dev) : (haltParts part d).clk.wall = d.clk.wall :=
  (congrArg (fun x => x.1.clk.wall) (unstopped_haltParts part d) :)

theorem haltParts_flt (part : Nat) (d : Dev) : (haltParts part d).flt = d.flt :=
  (congrArg (fun x => x.1.flt) (unstopped_haltParts part d) :)

/-- Wall time does not pass in a HALT. -/
theorem raise_halt_wall (src cause part detail : Nat) (d : Dev) : (raise 2 src cause part detail d).clk.wall = d.clk.wall := by
  obtain ⟨f, -, recorded⟩ := recordEvent_records 2 src cause part detail d
  rw [raise_halt, haltParts_wall, recorded.clk]

/-- A HALT is counted once, whatever it stops (Table 17.6). -/
theorem raise_halt_halts (src cause part detail : Nat) (d : Dev) :
    (raise 2 src cause part detail d).flt.halts = d.flt.halts + 1 := by
  obtain ⟨f, halts, recorded⟩ := recordEvent_records 2 src cause part detail d
  rw [raise_halt, haltParts_flt, recorded.flt]
  exact halts

/-- A tile that is HALTED, or will be as its tick ends, and waits for nothing. -/
def HaltsAtTickEnd (t : Tile) : Prop := t.wait = none ∧ (t.mode = .run ∧ t.halting = true ∨ t.mode = .halted)

theorem parkTile_haltsAtTickEnd (t : Tile) (h : HaltsAtTickEnd t) : HaltsAtTickEnd (parkTile t) := by
  obtain ⟨-, ⟨runs, halting⟩ | halted⟩ := h
  · exact ⟨rfl, .inr (by simp [parkTile, runs, halting])⟩
  · exact ⟨rfl, .inr (by simp [parkTile, halted])⟩

/-- A tile that halts goes on to its HALT, whatever partitions the event stops. -/
theorem raise_halt_haltsAtTickEnd {no : Nat} {d : Dev} (src cause part detail : Nat) (h : HaltsAtTickEnd (getTile d no)) :
    HaltsAtTickEnd (getTile (raise 2 src cause part detail d) no) := by
  obtain ⟨f, -, recorded⟩ := recordEvent_records 2 src cause part detail d
  rw [raise_halt]
  refine haltParts_keepsTile (fun t ht => ⟨rfl, ht.2⟩) parkTile_haltsAtTickEnd part ?_
  rwa [getTile_congr recorded.tiles]

end Sys2Proof.Machine
end

section
/-! The obligations of WAITs and holds (chapters 1 and 5). -/

namespace Sys2Proof.Machine

open Sys2Proof

/-- A command of a running unit, while the module runs. -/
theorem gives_whenAwake {s : State} {f : Dev → Dev} {c : Instr} {e : Dev} (h : exec c s = on (whenAwake f) s)
    (up : awake s.dev = true) (he : f s.dev = e) : Gives c s e := by
  rw [Gives, h, on_eq, whenAwake_runs up, he]

theorem exec_waitRelease (tile : Fin 2304) (s : State) : exec (.waitRelease tile) s = on (whenAwake (waitRelease tile.val)) s := rfl

theorem exec_holdEnd (tile : Fin 2304) (s : State) : exec (.holdEnd tile) s = on (whenAwake (holdEnd tile.val)) s := rfl

theorem exec_holdLimitExpiry (tile : Fin 2304) (s : State) :
    exec (.holdLimitExpiry tile) s = on (whenAwake (holdLimitExpiry tile.val)) s := rfl

/-! ### Request round 2 -/

theorem tiles_enqueueComet (pid p : Nat) (kind : CometKind) (pkt : Packet) (second : Bool) (d : Dev) :
    (enqueueComet pid p kind pkt second d).tiles = d.tiles := by
  unfold enqueueComet; split <;> simp

theorem tiles_sendComet (pid : Nat) (kind : CometKind) (altFirst : Bool) (pkt : Packet) (d : Dev) :
    (sendComet pid kind altFirst pkt d).tiles = d.tiles := by
  unfold sendComet withPart
  split
  · dsimp only
    split
    · exact tiles_enqueueComet ..
    · rfl
  · rfl

theorem tiles_sendReceipts (pid dest orbit attempt : Nat) (gone : Bool) (recs : List (List Byte)) (d : Dev) :
    (sendReceipts pid dest orbit attempt gone recs d).tiles = d.tiles := by
  unfold sendReceipts withPart
  split
  · exact forEach_same Dev.tiles _ (fun _ _ => (tiles_sendComet ..).trans (tiles_sendComet ..)) _ d
  · rfl

/-- Request round 2 sends receipts, and touches no tile (R322). -/
theorem tiles_round2 (pid : Nat) (d : Dev) : (round2 pid d).tiles = d.tiles := by
  unfold round2 withPart
  split
  · exact forEach_same Dev.tiles _ (fun _ _ => tiles_sendReceipts ..) _ _
  · rfl

/-! ### A WAIT at its release tick -/

section
variable {no : Nat} {x : Part} {w : WaitSt} {d : Dev}

/-- A WAIT that is due to release: its partition's ticks pass, it runs in its release tick, and it does not hold (R35). -/
structure ReleaseDue (no : Nat) (x : Part) (w : WaitSt) (d : Dev) : Prop where
  part : partOfTile d no = some x
  wait : (getTile d no).wait = some w
  ticks : active x = true
  runs : (getTile d no).mode = .run
  tick : x.now = w.release
  unheld : w.hold = none

theorem ReleaseDue.guard (h : ReleaseDue no x w d) :
    (!active x || (getTile d no).mode ≠ .run || x.now ≠ w.release || w.hold.isSome) = false := by
  simp [h.ticks, h.runs, h.tick, h.unheld]

theorem waitRelease_met (h : ReleaseDue no x w d) (met : (waitMet (getTile d no) w || abandonFrees x w) = true) :
    waitRelease no d = countWait no w false (setTile d no { getTile d no with wait := none }) := by
  simp only [waitRelease, h.part, h.wait, h.guard, met, if_true, Bool.false_eq_true, if_false]

theorem waitRelease_holds (h : ReleaseDue no x w d) (unmet : waitMet (getTile d no) w = false) (kept : abandonFrees x w = false)
    (goes : x.stopping = false) :
    let e := setTile d no { getTile d no with wait := some { w with hold := some d.clk.wall } }
    waitRelease no d = if 28 ≤ w.q then round2 x.pid e else e := by
  simp only [waitRelease, h.part, h.wait, h.guard, unmet, kept, goes, Bool.or_self, Bool.false_eq_true, if_false]

/-- An abandoned transfer frees WAITs on link queues alone (R324). -/
theorem abandonFrees_memory (h : w.q < 28) : abandonFrees x w = false := by simp [abandonFrees, h]

end

/-- Settles O9: a released WAIT is counted in its moon's slice, and one that holds writes its hold into the tile before anything of
request round 2 leaves the module. -/
theorem waitsReleaseOrHold : Obligations.WaitsReleaseOrHold := by
  unfold Obligations.WaitsReleaseOrHold
  intro s no x w t sl up part ticks runs wait tick unheld
  have due : ReleaseDue no x w s.dev := ⟨part, wait, ticks, runs, tick, unheld⟩
  refine ⟨?released, ?memory, ?held⟩
  case released =>
    intro met
    obtain ⟨low, high, holds, -, -⟩ := countWait_slice no w false (setTile s.dev no { t with wait := none })
    refine ⟨_, gives_whenAwake (exec_waitRelease ..) up (waitRelease_met due met), getTile_setTile_same ..,
      fun q => ⟨low.trans (if_pos q), high.trans (if_pos q)⟩,
      fun q => ⟨high.trans (if_neg (by omega)), low.trans (if_neg (by omega))⟩, holds, rfl,
      fun u hu => getTile_setTile_other s.dev _ hu⟩
  case memory =>
    intro unmet q goes
    refine gives_whenAwake (exec_waitRelease ..) up ?_
    rw [waitRelease_holds due unmet (abandonFrees_memory q) goes, if_neg (by omega)]
  case held =>
    intro unmet kept goes
    refine ⟨_, gives_whenAwake (exec_waitRelease ..) up (waitRelease_holds due unmet kept goes), ?_⟩
    have tiles := ite_keeps Dev.tiles (c := 28 ≤ w.q)
      (tiles_round2 x.pid (setTile s.dev no { t with wait := some { w with hold := some s.dev.clk.wall } }))
    rw [getTile_congr tiles, getTile_setTile_same]

/-! ### The end of a hold, and its limit -/

@[simp] theorem getTile_passTo (g : Nat) (d : Dev) (u : Nat) : getTile (passTo g d) u = getTile d u :=
  getTile_congr (tiles_of_untimed (untimed_passTo g d)) u

theorem flt_of_untimed {d e : Dev} (h : untimed e = untimed d) : e.flt = d.flt := (congrArg Dev.flt h :)

@[simp] theorem flt_passTo (g : Nat) (d : Dev) : (passTo g d).flt = d.flt := flt_of_untimed (untimed_passTo g d)

section
variable {no : Nat} {x : Part} {w : WaitSt} {start : Nat} {d : Dev}

/-- A tile's WAIT holds since this moment (R36). -/
structure HoldsSince (no : Nat) (x : Part) (w : WaitSt) (start : Nat) (d : Dev) : Prop where
  part : partOfTile d no = some x
  wait : (getTile d no).wait = some w
  since : w.hold = some start

theorem holdEnd_met (h : HoldsSince no x w start d) (met : (waitMet (getTile d no) w || abandonFrees x w) = true) :
    holdEnd no d = countWait no w true (endHold no w start d) := by
  simp only [holdEnd, h.part, h.wait, h.since, met, if_true]

/-- The HALT of a hold that outlasts its limit (R37). -/
def outlastHold (no : Nat) (x : Part) (w : WaitSt) (start : Nat) (d : Dev) : Dev :=
  raise 2 (0x100 + moonOfTile no) 0x0107 x.pid (no + w.idx * 2 ^ 12 + w.q * 2 ^ 24)
    (modTile no (fun t => { t with halting := true, haltCause := 0 }) (endHold no w start d))

theorem holdLimitExpiry_unmet (h : HoldsSince no x w start d) (unmet : waitMet (getTile d no) w = false)
    (kept : abandonFrees x w = false) :
    holdLimitExpiry no d = whenDue (start + usG x.holdUs) (outlastHold no x w start) d := by
  simp only [holdLimitExpiry, h.part, h.wait, h.since, unmet, kept, Bool.or_self, Bool.false_eq_true, if_false]
  rfl

/-- The HALT takes no time, and is counted. -/
theorem outlastHold_wall : (outlastHold no x w start d).clk.wall = d.clk.wall := by
  rw [outlastHold, raise_halt_wall, modTile_clk, endHold_wall]

theorem outlastHold_halts : (outlastHold no x w start d).flt.halts = d.flt.halts + 1 := by
  rw [outlastHold, raise_halt_halts, modTile_flt, endHold_flt]

theorem outlastHold_entered : Entered 2 (0x100 + moonOfTile no) 0x0107 d (outlastHold no x w start d) :=
  (raise_entered ..).of_flt ((modTile_flt ..).trans (endHold_flt ..))

/-- The tile that raised it halts with its tick. -/
theorem outlastHold_tile (runs : (getTile d no).mode = .run) :
    HaltsAtTickEnd (getTile (outlastHold no x w start d) no) := by
  refine raise_halt_haltsAtTickEnd _ _ _ _ ?_
  rw [getTile_modTile_same, endHold_tile]
  exact ⟨rfl, .inl ⟨runs, rfl⟩⟩

/-- What the HALT of a limit that has come leaves, with the fault logic as it stood in another module. -/
theorem outlastHold_outcome {c : Dev} (runs : (getTile d no).mode = .run) (flt : d.flt = c.flt)
    (come : start + usG x.holdUs ≤ d.clk.wall) :
    let e := outlastHold no x w start d
    ((getTile e no).halting = true ∨ (getTile e no).mode = .halted) ∧ (getTile e no).wait = none ∧
      start + usG x.holdUs ≤ e.clk.wall ∧ e.clk.wall = d.clk.wall ∧ e.flt.halts = c.flt.halts + 1 ∧
      Entered 2 (0x100 + moonOfTile no) 0x0107 c e := by
  obtain ⟨unwaiting, halts⟩ := outlastHold_tile (x := x) (w := w) (start := start) runs
  exact ⟨halts.imp_left And.right, unwaiting, come.trans_eq outlastHold_wall.symm, outlastHold_wall,
    outlastHold_halts.trans (by rw [flt]), outlastHold_entered.of_flt flt⟩

end

/-- Settles O10: a hold's end is counted in its moon's slice before its records, which no clause speaks of; the tile that raises the
HALT of the limit has `halting` set in RUN, and the stop of its partition turns that into HALTED. -/
theorem holdsEndOrHalt : Obligations.HoldsEndOrHalt := by
  unfold Obligations.HoldsEndOrHalt
  intro s no x w start t m ns sl up wf part wait since
  have holds : HoldsSince no x w start s.dev := ⟨part, wait, since⟩
  refine ⟨?ends, ?halts, ?early⟩
  case ends =>
    intro met
    obtain ⟨low, high, count, ns0, ns1⟩ := countWait_slice no w true (endHold no w start s.dev)
    obtain ⟨held, ns0', ns1', low', high'⟩ := endHold_slice no w start s.dev
    refine ⟨_, gives_whenAwake (exec_holdEnd ..) up (holdEnd_met holds met), endHold_tile .., count.trans held, ?level0, ?level1,
      (countWait_restTill ..).trans (endHold_restTill ..), fun p y hy runs => endHold_late wf hy runs, endHold_wall ..,
      fun u hu => endHold_other _ _ _ _ hu⟩
    case level0 =>
      intro q
      rw [if_pos q] at ns0' low
      exact ⟨ns0.trans ns0', low.trans (by rw [low'])⟩
    case level1 =>
      intro q
      rw [if_neg (by omega)] at ns1' high
      exact ⟨ns1.trans ns1', high.trans (by rw [high'])⟩
  case halts =>
    intro unmet kept runs
    have limit := holdLimitExpiry_unmet holds unmet kept
    refine ⟨fun now => ?_, fun later pass => ?_⟩
    · exact ⟨_, gives_whenAwake (exec_holdLimitExpiry ..) up (limit.trans (whenDue_now now)), outlastHold_outcome runs rfl now⟩
    · exact ⟨_, gives_whenAwake (exec_holdLimitExpiry ..) up (limit.trans (whenDue_later later pass)),
        outlastHold_outcome (by rwa [getTile_passTo]) (flt_passTo ..) (passTo_wall ..)⟩
  case early =>
    intro unmet kept ⟨later, stays⟩
    exact gives_whenAwake (exec_holdLimitExpiry ..) up ((holdLimitExpiry_unmet holds unmet kept).trans (whenDue_early later stays))

end Sys2Proof.Machine
end

section
/-!
SUPPORT. Mailbox commands: a command whose turn it is, the bytes of its answer, and what an answer leaves alone (R380 to R386).
-/

namespace Sys2Proof.Machine

open Sys2Proof

/-! ### A command whose turn it is -/

section
variable {code m : Nat} {c : Instr} {s : State} {e : Dev}

/-- A command of module scope has its own effect when its turn has come. -/
theorem gives_turn {f : List Byte → Dev → Dev} (h : exec c s = on (command code m f) s) (t : Turn code m s.dev)
    (he : f (payload s.dev m) s.dev = e) : Gives c s e := by
  obtain ⟨turn, shape, room⟩ := t
  rw [Gives, h, on_eq, command_turn turn shape room]
  exact congrArg (fun d => Host.Outcome.next { s with dev := d }) he

/-- A command of partition scope has its effect on the partition of its block. -/
theorem gives_partTurn {x : Part} {f : Part → List Byte → Dev → Dev} (h : exec c s = on (partCommand code m f) s)
    (t : PartTurn code m x s.dev) (he : f x (payload s.dev m) s.dev = e) : Gives c s e := by
  obtain ⟨⟨turn, shape, room⟩, block⟩ := t
  rw [Gives, h, on_eq, partCommand_turn turn shape room block]
  exact congrArg (fun d => Host.Outcome.next { s with dev := d }) he

end

/-! ### The bytes of a memory -/

theorem rdBs_add (m : Mem) (a n k : Nat) : rdBs m a (n + k) = rdBs m a n ++ rdBs m (a + n) k := by
  induction n generalizing a with
  | zero => simp [rdBs]
  | succ n ih => rw [Nat.succ_add, rdBs, rdBs, ih, Nat.add_assoc, Nat.add_comm 1 n, List.cons_append]

/-- The last part of what is written reads back after the first. -/
theorem rdBs_wrBs_append (m : Mem) (a : Nat) (l r : List Byte) : rdBs (wrBs m a (l ++ r)) (a + l.length) r.length = r := by
  have whole := rdBs_wrBs_same m a (l ++ r)
  rw [List.length_append, rdBs_add] at whole
  exact (List.append_inj whole (length_rdBs ..)).2

/-! ### Answers -/

section
variable (m st reason : Nat) (pl : List Byte) (d : Dev)

theorem answer_parts : (answer m st reason pl d).parts = d.parts := (congrArg Dev.parts (answer_frame m st reason pl d) :)

theorem answer_host : (answer m st reason pl d).host = d.host := (congrArg Dev.host (answer_frame m st reason pl d) :)

theorem getPart_answer (p : Nat) : getPart (answer m st reason pl d) p = getPart d p := by simp [getPart, answer_parts]

theorem getMbx_raiseVec (v : Nat) (n : Nat) : getMbx (raiseVec v d) n = getMbx d n := by simp [getMbx, raiseVec_mbx]

/-- The payload of an answer stands in the reply area behind its header of 16 bytes (Table 15.7). -/
theorem rdBs_answer : rdBs (getMbx (answer m st reason pl d) m).reply 16 pl.length = pl := by
  simp only [answer, getMbx_raiseVec, getMbx_modMbx_same]
  exact rdBs_wrBs_append _ 0 _ pl

/-- A number that is answered reads back from the reply area. -/
theorem rdN_answer (n v : Nat) : rdN (getMbx (answer m st reason (toLe n v) d) m).reply 16 n = v % 256 ^ n := by
  have reply := rdBs_answer m st reason (toLe n v) d
  rw [length_toLe] at reply
  rw [rdN, reply, leNat_toLe]

end

/-- Bytes that are written to host memory stand there after the answer, and every other byte is as it was. -/
theorem answer_hostWr (m st reason : Nat) (pl : List Byte) (a : Nat) (bs : List Byte) (d : Dev) :
    let e := answer m st reason pl (hostWr a bs d)
    rdBs e.host a bs.length = bs ∧ ∀ b, b < a ∨ a + bs.length ≤ b → rdB e.host b = rdB d.host b := by
  simp only [answer_host]
  exact ⟨rdBs_wrBs_same .., fun b hb => rdB_wrBs_out _ _ _ _ hb⟩

end Sys2Proof.Machine
end

section
/-! The obligation of the reports and limits that a mailbox reads and writes (chapters 1, 5, 6 and 15). -/

namespace Sys2Proof.Machine

open Sys2Proof

theorem exec_holdLimit (m : Fin 64) (s : State) : exec (.holdLimit m) s = execHoldLimit m s := rfl
theorem exec_levelReport (m : Fin 64) (s : State) : exec (.levelReport m) s = execLevelReport m s := rfl
theorem exec_transitRead (m : Fin 64) (s : State) : exec (.transitRead m) s = execTransitRead m s := rfl
theorem exec_dirRead (m : Fin 64) (s : State) : exec (.dirRead m) s = execDirRead m s := rfl
theorem exec_stepLimit (m : Fin 64) (s : State) : exec (.stepLimit m) s = execStepLimit m s := rfl

section
variable {m : Fin 64} {s : State} {x : Part}

/-! ### HOLD_LIMIT (R37) -/

/-- A partition with a new hold limit: one that runs takes it at its next boundary. -/
def withHoldLimit (v : Nat) (y : Part) : Part :=
  if y.plan = .running then { y with holdNext := some v } else { y with holdUs := v, holdNext := none }

theorem gives_holdLimit_read (t : PartTurn 0x0207 m x s.dev) (h : lf (payload s.dev m) 0 4 = 0) :
    Gives (.holdLimit m) s (answer m stOk 0 (toLe 4 (x.holdNext.getD x.holdUs)) s.dev) :=
  gives_partTurn (exec_holdLimit m s) t (if_pos h)

theorem gives_holdLimit_outside (t : PartTurn 0x0207 m x s.dev)
    (h : 0 < lf (payload s.dev m) 0 4 ∧ lf (payload s.dev m) 0 4 < 100 ∨ 100000 < lf (payload s.dev m) 0 4) :
    Gives (.holdLimit m) s (answer m stBadArg 0 [] s.dev) := by
  refine gives_partTurn (exec_holdLimit m s) t ((if_neg (by omega)).trans (if_pos ?_))
  simp only [Bool.or_eq_true, decide_eq_true_eq]
  omega

theorem gives_holdLimit_inside (t : PartTurn 0x0207 m x s.dev) (low : 100 ≤ lf (payload s.dev m) 0 4)
    (high : lf (payload s.dev m) 0 4 ≤ 100000) :
    Gives (.holdLimit m) s (answer m stOk 0 (toLe 4 (lf (payload s.dev m) 0 4))
      (modPart x.pid (withHoldLimit (lf (payload s.dev m) 0 4)) s.dev)) := by
  refine gives_partTurn (exec_holdLimit m s) t ((if_neg (by omega)).trans (if_neg ?_))
  simp only [Bool.or_eq_true, decide_eq_true_eq]
  omega

/-! ### LEVEL_REPORT, TRANSIT_READ and DIR_READ (R159, R163, R386) -/

theorem gives_levelReport (t : PartTurn 0x0206 m x s.dev) (formed : x.level.body ≠ []) :
    Gives (.levelReport m) s (answer m stOk 0 (toLe 4 x.level.orbit.toNat ++ x.level.body) s.dev) := by
  refine gives_partTurn (exec_levelReport m s) t ?_
  rw [if_neg (by simpa using formed)]

theorem gives_transitRead (t : Turn 0x0105 m s.dev) (ok : hostOk s.dev (lf (payload s.dev m) 0 8) transitTable.length = true) :
    Gives (.transitRead m) s (answer m stOk 0 [] (hostWr (lf (payload s.dev m) 0 8) transitTable s.dev)) :=
  gives_turn (exec_transitRead m s) t (if_pos ok)

theorem length_hashBytes (h : Hash) : (hashBytes h).length = 48 := by simp [hashBytes, toBe]

/-- A directory entry has 96 bytes (R386). -/
theorem length_dirEntry (d : Dev) (slot : Nat) : (dirEntry d slot).length = 96 := by
  unfold dirEntry
  split <;> simp only [List.length_append, length_toLe, List.length_replicate, length_hashBytes, List.length_singleton]

theorem length_directory (d : Dev) : ((List.range 64).flatMap (dirEntry d)).length = 6144 := by
  simp [List.length_flatMap, length_dirEntry]

theorem gives_dirRead (t : Turn 0x0106 m s.dev) (ready : storeReady s.dev = true)
    (ok : hostOk s.dev (lf (payload s.dev m) 0 8) 6144 = true) :
    Gives (.dirRead m) s (answer m stOk 0 (toLe 1 (s.dev.store.imgs.filter (fun e => e.2.committed)).length)
      (hostWr (lf (payload s.dev m) 0 8) ((List.range 64).flatMap (dirEntry s.dev)) s.dev)) :=
  gives_turn (exec_dirRead m s) t ((if_neg (by simp [ready])).trans (if_neg (by simp [ok])))

/-! ### STEP_LIMIT (R171) -/

/-- A module with another operator limit on the tile step. -/
def withStepLimit (v : Nat) (d : Dev) : Dev := { d with pwr := { d.pwr with opLimit := BitVec.ofNat 3 v } }

theorem gives_stepLimit_met (t : Turn 0x0104 m s.dev) (v : lf (payload s.dev m) 0 1 ≤ 7)
    (met : stepAbove (withStepLimit (lf (payload s.dev m) 0 1) s.dev) = false) :
    Gives (.stepLimit m) s (answer m stOk 0 (toLe 1 s.dev.clk.step.toNat) (withStepLimit (lf (payload s.dev m) 0 1) s.dev)) :=
  gives_turn (exec_stepLimit m s) t ((if_neg (by omega)).trans (if_neg (Bool.eq_false_iff.mp met)))

theorem gives_stepLimit_busy (t : Turn 0x0104 m s.dev) (v : lf (payload s.dev m) 0 1 ≤ 7)
    (above : stepAbove (withStepLimit (lf (payload s.dev m) 0 1) s.dev) = true) (busy : s.dev.clk.busy = true) :
    Gives (.stepLimit m) s (beginCmd m (withStepLimit (lf (payload s.dev m) 0 1) s.dev)) :=
  gives_turn (exec_stepLimit m s) t (((if_neg (by omega)).trans (if_pos above)).trans (congrArg (beginCmd m) (if_pos busy)))

theorem stepAbove_of_lt {d : Dev} (h : wantStep d < d.clk.step.toNat) : stepAbove d = true := by simp [stepAbove, h]

/-- An operator limit that brings the step below the one in force starts a step change, and the command waits for it. -/
theorem gives_stepLimit_starts (t : Turn 0x0104 m s.dev) (v : lf (payload s.dev m) 0 1 ≤ 7) (idle : s.dev.clk.busy = false)
    (lower : wantStep (withStepLimit (lf (payload s.dev m) 0 1) s.dev) < s.dev.clk.step.toNat) :
    let e := withStepLimit (lf (payload s.dev m) 0 1) s.dev
    Gives (.stepLimit m) s (beginCmd m (startStep (wantStep e) false e)) :=
  gives_turn (exec_stepLimit m s) t (((if_neg (by omega)).trans (if_pos (stepAbove_of_lt lower))).trans
    (congrArg (beginCmd m) (if_neg (Bool.eq_false_iff.mp idle))))

theorem beginCmd_begun (m : Nat) (d : Dev) : (getMbx (beginCmd m d) m).st = .accepted ∧ (getMbx (beginCmd m d) m).begun = true := by
  simp [beginCmd]

end

/-- Settles O24: what each of the five commands answers, with the bytes read back from the mailbox and from host memory. -/
theorem reportsAndLimits : Obligations.ReportsAndLimits := by
  unfold Obligations.ReportsAndLimits
  intro s m x d pl v
  refine ⟨gives_holdLimit_read, ?limit, gives_holdLimit_outside, gives_levelReport, ?transit, ?directory, fun t le => ?step⟩
  case limit =>
    intro t low high here
    have there : getPart (modPart x.pid (withHoldLimit v) d) x.pid = some (withHoldLimit v x) := by
      rw [getPart_modPart_same, here, Option.map_some]
    refine ⟨_, _, gives_holdLimit_inside t low high, (getPart_answer ..).trans there, fun runs => if_pos runs,
      fun stands => if_neg stands, ?_⟩
    rw [rdN_answer]
    exact Nat.mod_eq_of_lt (show v < 256 ^ 4 by omega)
  case transit =>
    intro t ok
    obtain ⟨written, others⟩ := answer_hostWr m stOk 0 [] (lf pl 0 8) transitTable d
    exact ⟨_, gives_transitRead t ok, written, (answer_done ..).1, others⟩
  case directory =>
    intro t ready ok
    obtain ⟨written, others⟩ := answer_hostWr m stOk 0 (toLe 1 (d.store.imgs.filter (fun e => e.2.committed)).length) (lf pl 0 8)
      ((List.range 64).flatMap (dirEntry d)) d
    rw [length_directory] at written others
    exact ⟨_, gives_dirRead t ready ok, written, others, rdN_answer ..⟩
  case step =>
    refine ⟨gives_stepLimit_met t le, gives_stepLimit_busy t le, fun lower idle => ?_⟩
    obtain ⟨accepted, begun⟩ := beginCmd_begun m (startStep (wantStep (withStepLimit (lf pl 0 1) d)) false
      (withStepLimit (lf pl 0 1) d))
    exact ⟨_, gives_stepLimit_starts t le idle lower, accepted, begun, rfl, rfl⟩

end Sys2Proof.Machine
end

section
/-!
SUPPORT. A tile command at its issue tick: what `issueCmd` does where its predicate or a shadow skips the command, where an operand is
reserved, and where it issues (R77 to R87, R109), with the facts about tiles and the table of tiles that this rests on.
-/

namespace Sys2Proof.Machine

open Sys2Proof

/-! ### One tile, written twice -/

theorem tput_tput {α : Type} (t : Tab α) (k : Nat) (v w : α) : tput (tput t k v) k w = tput t k w := by
  induction t with
  | nil => simp [tput]
  | cons e r ih =>
    by_cases before : k < e.1
    · simp [tput, before]
    · by_cases here : e.1 = k
      · simp [tput, here]
      · simp [tput, before, here, ih]

theorem setTile_setTile (d : Dev) (k : Nat) (t u : Tile) : setTile (setTile d k t) k u = setTile d k u := by
  simp [setTile, tput_tput]

theorem modTile_setTile (d : Dev) (k : Nat) (t : Tile) (f : Tile → Tile) : modTile k f (setTile d k t) = setTile d k (f t) := by
  rw [modTile, getTile_setTile_same, setTile_setTile]

theorem onlyTile_setTile (d : Dev) (k : Nat) (t : Tile) : onlyTile k d (setTile d k t) :=
  ⟨rfl, fun _ h => getTile_setTile_other d t h⟩

/-! ### A flag of SEQ_STATUS -/

/-- A flag that a command sets stands in the status register (R113). -/
theorem getLsbD_setFlags {watch fl r : BitVec 32} {idx : Option Nat} {i : Nat} (hi : i < 16) (h : fl.getLsbD i = true) :
    (setFlags watch fl idx r).getLsbD i = true := by
  refine BitVec.getLsbD_append.trans ?_
  simp [hi, h]

theorem getLsbD_setSeq {fl : BitVec 32} {idx i : Nat} {t : Tile} (hi : i < 16) (h : fl.getLsbD i = true) :
    (setSeq idx fl t).seqStatus.getLsbD i = true :=
  show (setFlags seqWatch fl (some idx) t.seqStatus).getLsbD i = true from getLsbD_setFlags hi h

/-! ### The tile past its slot -/

theorem fetch_idx (t : Tile) : (fetch t).idx = t.pc := rfl

/-- Past a slot a tile differs by its place in the stream alone (R80, R91). -/
theorem passSlot_eq (x : Part) (slot : Nat) (t : Tile) : passSlot x slot t =
    { t with pc := (loopEnd t.pc t.loops).1, loops := (loopEnd t.pc t.loops).2, nextIssue := x.now + slot } := rfl

theorem getCtr_passed (x : Part) (t : Tile) (k : Nat) : getCtr (passed x t) k = getCtr t k := by
  unfold getCtr; split <;> rfl

/-! ### Issue -/

/-- A tile fetches a word in the tick it is due to issue (R80). -/
structure FetchDue (no : Nat) (x : Part) (d : Dev) : Prop where
  part : partOfTile d no = some x
  ticks : active x = true
  due : issueDue x (getTile d no) = true
  index : (getTile d no).pc ≤ 4095

section
variable {opc no : Nat} {always : Bool} {bad : TileCmd → Tile → Bool} {eff : Effect} {x : Part} {d : Dev}

theorem FetchDue.guard (h : FetchDue no x d) :
    (!active x || !issueDue x (getTile d no) || decide (4095 < (getTile d no).pc)) = false := by
  simp [h.ticks, h.due, h.index]

/-- A word with bad parity issues nothing, and halts the tile (R77). -/
theorem issueCmd_badParity (h : FetchDue no x d) (parity : fetchBad (getTile d no) = true) :
    issueCmd opc always bad eff no d = tileHalt no x ⟨1, (getTile d no).pc, 0, 0⟩ d := by
  simp only [issueCmd, h.part, h.guard, parity, Bool.false_eq_true, if_false, if_true]

/-- What a command that is fetched whole does, whatever skips it. -/
theorem issueCmd_fetched (h : FetchDue no x d) (parity : fetchBad (getTile d no) = false)
    (word : (fetch (getTile d no)).opc = opc) :
    let t := getTile d no
    let c := fetch t
    let skip := !always && (t.skipLeft ≠ 0 || !predTrue t c.pred)
    let badop := !skip && bad c t
    let e := setTile d no (passSlot x c.issue (if badop then setSeq c.idx sqBadop (counted t) else counted t))
    let e := if skip || badop then e else eff c x no e
    issueCmd opc always bad eff no d = if breakMatch (counted t) c then fireBreak no x e else e := by
  simp only [issueCmd, h.part, h.guard, parity, word, ne_eq, not_true_eq_false, Bool.false_eq_true, if_false]

theorem issueCmd_skipped (h : FetchDue no x d) (parity : fetchBad (getTile d no) = false)
    (word : (fetch (getTile d no)).opc = opc) (whole : Unbroken (getTile d no))
    (skip : (getTile d no).skipLeft ≠ 0 ∨ predTrue (getTile d no) (fetch (getTile d no)).pred = false) :
    issueCmd opc false bad eff no d = setTile d no (passed x (getTile d no)) := by
  have skips : ((getTile d no).skipLeft ≠ 0 || !predTrue (getTile d no) (fetch (getTile d no)).pred) = true := by
    simpa using skip
  rw [issueCmd_fetched h parity word, show breakMatch _ _ = false from whole]
  simp only [skips, Bool.not_false, Bool.true_and, Bool.not_true, Bool.false_and, Bool.or_false, Bool.false_eq_true, if_false,
    if_true]
  rfl

theorem Issues.fetchDue (h : Issues opc always no x d) : FetchDue no x d :=
  let ⟨_, part, ticks, due, index, _⟩ := h
  ⟨part, ticks, due, index⟩

/-- Nothing skips a command that issues (R84, R85). -/
theorem Issues.unskipped (h : Issues opc always no x d) :
    (!always && ((getTile d no).skipLeft ≠ 0 || !predTrue (getTile d no) (fetch (getTile d no)).pred)) = false := by
  obtain ⟨-, -, -, -, -, -, -, rfl | ⟨shadow, pred⟩⟩ := h
  · rfl
  · simp [shadow, pred]

/-- What a command that issues does, with the break that matches beside it (R79, R109). -/
theorem issueCmd_issues (h : Issues opc always no x d) :
    let t := getTile d no
    let c := fetch t
    let e := if bad c t then setTile d no (passSlot x c.issue (setSeq t.pc sqBadop (counted t)))
      else eff c x no (setTile d no (passed x t))
    issueCmd opc always bad eff no d = if breakMatch (counted t) c then fireBreak no x e else e := by
  have ⟨_, _, _, _, _, parity, word, _⟩ := h
  have fetched := issueCmd_fetched (always := always) (bad := bad) (eff := eff) h.fetchDue parity word
  simp only [h.unskipped, Bool.not_false, Bool.true_and, Bool.false_or] at fetched
  dsimp only
  rw [fetched]
  cases bad (fetch (getTile d no)) (getTile d no) <;> rfl

theorem issueCmd_reserved (h : Issues opc always no x d) (whole : Unbroken (getTile d no))
    (reserved : bad (fetch (getTile d no)) (getTile d no) = true) : issueCmd opc always bad eff no d =
      setTile d no (passSlot x (fetch (getTile d no)).issue (setSeq (getTile d no).pc sqBadop (counted (getTile d no)))) := by
  rw [issueCmd_issues h, show breakMatch _ _ = false from whole, reserved]; rfl

theorem issueCmd_runs (h : Runs opc always no x d) (ok : bad (fetch (getTile d no)) (getTile d no) = false) :
    issueCmd opc always bad eff no d = eff (fetch (getTile d no)) x no (setTile d no (passed x (getTile d no))) := by
  rw [issueCmd_issues h.1, show breakMatch _ _ = false from h.2, ok]; rfl

theorem issueCmd_breaks (h : Issues opc always no x d) (brk : breakMatch (counted (getTile d no)) (fetch (getTile d no)) = true)
    (ok : bad (fetch (getTile d no)) (getTile d no) = false) : issueCmd opc always bad eff no d =
      fireBreak no x (eff (fetch (getTile d no)) x no (setTile d no (passed x (getTile d no)))) := by
  rw [issueCmd_issues h, brk, ok]; rfl

end

/-! ### Commands that issue complete -/

section
variable {opc no : Nat} {always : Bool} {bad : TileCmd → Tile → Bool} {x : Part} {s : State} {c : Instr}

/-- A tile command that issues has its effect on the module with its tile past the slot. -/
theorem gives_issue {eff : Effect} {e : Dev} (h : exec c s = on (whenAwake (issueCmd opc always bad eff no)) s)
    (r : Runs opc always no x s.dev) (ok : bad (fetch (getTile s.dev no)) (getTile s.dev no) = false)
    (he : eff (fetch (getTile s.dev no)) x no (setTile s.dev no (passed x (getTile s.dev no))) = e) : Gives c s e :=
  gives_whenAwake h r.1.1 ((issueCmd_runs r ok).trans he)

/-- A tile command with an effect on its tile alone. -/
theorem gives_onTile {f : TileCmd → Tile → Tile} {u : Tile} (h : exec c s = on (whenAwake (issueCmd opc always bad (onTile f) no)) s)
    (r : Runs opc always no x s.dev) (ok : bad (fetch (getTile s.dev no)) (getTile s.dev no) = false)
    (hu : f (fetch (getTile s.dev no)) (passed x (getTile s.dev no)) = u) : Gives c s (setTile s.dev no u) :=
  gives_issue h r ok ((modTile_setTile ..).trans (by rw [hu]))

end

end Sys2Proof.Machine
end

section
/-! The obligations of the commands that control and move (chapter 3). -/

namespace Sys2Proof.Machine

open Sys2Proof

theorem exec_nop (tile : Fin 2304) (s : State) :
    exec (.nop tile) s = on (whenAwake (issueCmd 0x00 false noBad (fun _ _ _ d => d) tile.val)) s := rfl

theorem exec_cnt (tile : Fin 2304) (s : State) : exec (.cnt tile) s = on (whenAwake
    (issueCmd 0x20 false (fun c _ => fld c.ops 2 2 = 3 || fld c.ops 6 26 ≠ 0) (onTile cntEffect) tile.val)) s := rfl

theorem exec_cmp (tile : Fin 2304) (s : State) : exec (.cmp tile) s = on (whenAwake
    (issueCmd 0x21 false (fun c _ => 4 < fld c.ops 4 3 || fld c.ops 10 22 ≠ 0) (onTile cmpEffect) tile.val)) s := rfl

theorem exec_skip (tile : Fin 2304) (s : State) : exec (.skip tile) s = on (whenAwake
    (issueCmd 0x22 false (fun c _ => fld c.ops 8 56 ≠ 0) (onTile fun c t => { t with skipLeft := fld c.ops 0 8 }) tile.val)) s := rfl

theorem exec_spld (tile : Fin 2304) (s : State) :
    exec (.spld tile) s = on (whenAwake (issueCmd 0x24 false noBad spldEffect tile.val)) s := rfl

theorem exec_rept (tile : Fin 2304) (s : State) : exec (.rept tile) s = on (whenAwake (rept tile.val)) s := rfl

theorem exec_mark (tile : Fin 2304) (s : State) : exec (.mark tile) s = on (whenAwake
    (issueCmd 0x30 true (fun c _ => fld c.ops 1 15 ≠ 0 || fld c.ops 32 32 ≠ 0) markEffect tile.val)) s := rfl

theorem exec_send (tile : Fin 2304) (s : State) : exec (.send tile) s = on (whenAwake
    (issueCmd 0x10 false (fun c _ => fld c.ops 33 2 = 3 || fld c.ops 43 21 ≠ 0) (onTile sendEffect) tile.val)) s := rfl

theorem exec_recv (tile : Fin 2304) (s : State) : exec (.recv tile) s = on (whenAwake
    (issueCmd 0x11 false (fun c _ => fld c.ops 16 48 ≠ 0) (onTile recvEffect) tile.val)) s := rfl

theorem exec_wait (tile : Fin 2304) (s : State) : exec (.wait tile) s = on (whenAwake
    (issueCmd 0x14 false (fun c _ => fld c.ops 16 48 ≠ 0) waitEffect tile.val)) s := rfl

/-- Settles O3: a skipped command passes its slot, a reserved operand adds BADOP to that, and a break acts on what the command left. -/
theorem skippedAndReservedCommands : Obligations.SkippedAndReservedCommands := by
  unfold Obligations.SkippedAndReservedCommands
  intro opc no always bad eff x d t part ticks due index parity word
  refine ⟨fun whole skip => issueCmd_skipped ⟨part, ticks, due, index⟩ parity word whole skip, fun whole issues reserved => ?_,
    fun brk issues ok => issueCmd_breaks issues brk ok⟩
  have set := issueCmd_reserved (eff := eff) issues whole reserved
  refine ⟨set, ?_⟩
  rw [set, getTile_setTile_same]
  exact getLsbD_setSeq (by decide) (by decide)

/-! ### Counters, predicates and blocks -/

/-- CNT past its slot, for an operation that Table 3.5 lists. -/
theorem cntEffect_passed (c : TileCmd) (x : Part) (t : Tile) : cntEffect c (passed x t) = setCtr (fld c.ops 0 2)
    (if fld c.ops 2 2 = 0 then BitVec.ofNat 32 (fld c.ops 32 32)
     else if fld c.ops 2 2 = 1 then getCtr t (fld c.ops 0 2) + BitVec.ofNat 32 (fld c.ops 32 32)
     else getCtr t (fld c.ops 4 2)) (passed x t) := by
  unfold cntEffect
  simp only [getCtr_passed]
  congr 1
  split
  case h_1 h => rw [if_pos h]
  case h_2 h => rw [if_neg (by omega), if_pos h]
  case h_3 h0 h1 => rw [if_neg h0, if_neg h1]

/-- CMP past its slot, for a comparison that Table 3.6 lists. -/
theorem cmpEffect_passed (c : TileCmd) (x : Part) (t : Tile) :
    let a := getCtr t (fld c.ops 2 2)
    let b := if bit c.ops 7 then getCtr t (fld c.ops 8 2) else BitVec.ofNat 32 (fld c.ops 32 32)
    let r := if fld c.ops 4 3 = 0 then a == b else if fld c.ops 4 3 = 1 then a != b
      else if fld c.ops 4 3 = 2 then decide (a < b) else if fld c.ops 4 3 = 3 then decide (b ≤ a) else (a &&& b) != 0
    cmpEffect c (passed x t) = { passed x t with pred := BitVec.ofNat 4 (setBit t.pred.toNat (fld c.ops 0 2) r) } := by
  intro a b r
  unfold cmpEffect
  simp only [getCtr_passed]
  congr 3
  split
  case h_1 h => exact (if_pos h).symm
  case h_2 h => exact ((if_neg (by omega)).trans (if_pos h)).symm
  case h_3 h => exact ((if_neg (by omega)).trans ((if_neg (by omega)).trans (if_pos h))).symm
  case h_4 h => exact ((if_neg (by omega)).trans ((if_neg (by omega)).trans ((if_neg (by omega)).trans (if_pos h)))).symm
  case h_5 h0 h1 h2 h3 => exact ((if_neg h0).trans ((if_neg h1).trans ((if_neg h2).trans (if_neg h3)))).symm

/-- SPLD copies the bits that stood before the write of tick 128 up to that tick (R83, R95). -/
theorem spldEffect_setTile (c : TileCmd) (x : Part) (no : Nat) (d : Dev) (t : Tile) :
    spldEffect c x no (setTile d no t) =
      setTile d no { t with slotPred := if x.staged = true ∧ x.tick ≤ 128 then t.slotOld else t.slotStage } := by
  rw [spldEffect, modTile_setTile]
  simp only [Bool.and_eq_true, decide_eq_true_eq]

section
variable {c : TileCmd} {open_ : List Loop} {t : Tile}

/-- A REPT opens its body on the open blocks. -/
theorem reptEffect_opens (room : open_.length < 4) (inside : c.idx < 4095) : reptEffect c open_ t = { t with
    pc := c.idx + 1, loops := ⟨c.idx + 1, min (c.idx + fld c.ops 0 8 + 1) 4095, fld c.ops 8 16 + 1⟩ :: open_ } := by
  simp [reptEffect, Nat.not_le.mpr room, show ¬ min (c.idx + fld c.ops 0 8 + 1) 4095 ≤ c.idx by omega]

/-- A REPT at the last index has no body. -/
theorem reptEffect_empty (room : open_.length < 4) (last : c.idx = 4095) : reptEffect c open_ t = t := by
  simp [reptEffect, Nat.not_le.mpr room, show min (c.idx + fld c.ops 0 8 + 1) 4095 ≤ c.idx by omega]

/-- A REPT inside four blocks runs its body once, with NEST. -/
theorem reptEffect_nests (full : 4 ≤ open_.length) (inside : c.idx < 4095) : reptEffect c open_ t = { setSeq c.idx sqNest t with
    pc := c.idx + 1, loops := stretchLoop (min (c.idx + fld c.ops 0 8 + 1) 4095) open_ } := by
  simp [reptEffect, full, show ¬ min (c.idx + fld c.ops 0 8 + 1) 4095 ≤ c.idx by omega]

theorem reptEffect_nests_empty (full : 4 ≤ open_.length) (last : c.idx = 4095) :
    reptEffect c open_ t = setSeq c.idx sqNest t := by
  simp [reptEffect, full, show min (c.idx + fld c.ops 0 8 + 1) 4095 ≤ c.idx by omega]

end

theorem markEffect_end {c : TileCmd} (h : bit c.ops 0 = false) (x : Part) (no : Nat) (d : Dev) (t : Tile) :
    markEffect c x no (setTile d no t) = setTile d no { t with pc := 0, ended := true, loops := [], skipLeft := 0 } := by
  rw [markEffect, h, if_neg (by decide), modTile_setTile]; rfl

theorem markEffect_stamp {c : TileCmd} (h : bit c.ops 0 = true) (x : Part) (no : Nat) (d : Dev) (t : Tile) :
    markEffect c x no (setTile d no t) = setTile d no { t with
      markLog := BitVec.ofNat 64 (x.now % 2 ^ 40 + fld c.ops 16 16 * 2 ^ 40 + 2 ^ 63) } := by
  rw [markEffect, h, if_pos rfl, modTile_setTile]

section
variable {s : State} {no : Fin 2304} {x : Part} {u : Tile}

theorem gives_cnt (r : Runs 0x20 false no.val x s.dev) (listed : fld (fetch (getTile s.dev no)).ops 2 2 ≠ 3)
    (zero : fld (fetch (getTile s.dev no)).ops 6 26 = 0)
    (hu : cntEffect (fetch (getTile s.dev no)) (passed x (getTile s.dev no)) = u) : Gives (.cnt no) s (setTile s.dev no u) :=
  gives_onTile (exec_cnt no s) r (by simp [zero, listed]) hu

theorem gives_cmp (r : Runs 0x21 false no.val x s.dev) (listed : fld (fetch (getTile s.dev no)).ops 4 3 ≤ 4)
    (zero : fld (fetch (getTile s.dev no)).ops 10 22 = 0)
    (hu : cmpEffect (fetch (getTile s.dev no)) (passed x (getTile s.dev no)) = u) : Gives (.cmp no) s (setTile s.dev no u) :=
  gives_onTile (exec_cmp no s) r (by simp [zero, listed]) hu

theorem gives_rept (r : Runs 0x23 true no.val x s.dev) (zero : fld (fetch (getTile s.dev no)).ops 24 40 = 0)
    (hu : reptEffect (fetch (getTile s.dev no)) (getTile s.dev no).loops (passed x (getTile s.dev no)) = u) :
    Gives (.rept no) s (setTile s.dev no u) := by
  refine gives_whenAwake (exec_rept no s) r.1.1 ?_
  rw [rept, issueCmd_runs r (by simp [zero]), onTile, modTile_setTile, hu]

theorem gives_mark {e : Dev} (r : Runs 0x30 true no.val x s.dev) (flags : fld (fetch (getTile s.dev no)).ops 1 15 = 0)
    (zero : fld (fetch (getTile s.dev no)).ops 32 32 = 0)
    (he : markEffect (fetch (getTile s.dev no)) x no (setTile s.dev no (passed x (getTile s.dev no))) = e) :
    Gives (.mark no) s e :=
  gives_issue (exec_mark no s) r (by simp [flags, zero]) he

end

/-- Settles O4, a command at a time: each issues on the tile past its slot. -/
theorem controlCommandsOfATile : Obligations.ControlCommandsOfATile := by
  unfold Obligations.ControlCommandsOfATile
  intro s no x t c imm
  refine ⟨fun r => gives_issue (exec_nop no s) r rfl rfl, fun r listed zero => gives_cnt r listed zero (cntEffect_passed ..),
    fun r listed zero => gives_cmp r listed zero (cmpEffect_passed ..),
    fun r zero => gives_onTile (exec_skip no s) r (decide_eq_false (not_not_intro zero)) rfl,
    fun r => gives_issue (exec_spld no s) r rfl (spldEffect_setTile ..), fun r zero => ?rept, fun r flags zero => ?mark⟩
  case rept =>
    intro last
    exact ⟨fun room inside => gives_rept r zero (reptEffect_opens room inside),
      fun room last => gives_rept r zero (reptEffect_empty room last),
      fun full inside => gives_rept r zero (reptEffect_nests full inside),
      fun full last => gives_rept r zero (reptEffect_nests_empty full last)⟩
  case mark =>
    exact ⟨fun h => gives_mark r flags zero (markEffect_end h ..), fun h => gives_mark r flags zero (markEffect_stamp h ..)⟩

/-! ### Movement engines -/

/-- A tile whose command, where one of the same engine was still being carried out, has set ENG_OVL (R82). -/
def overlapped (busy : Bool) (idx : Nat) (t : Tile) : Tile := if busy then setSeq idx sqEngOvl t else t

theorem overlapped_flag (idx : Nat) (t : Tile) : (overlapped true idx t).seqStatus.getLsbD 4 = true :=
  getLsbD_setSeq (by decide) (by decide)

/-- SEND hands its engine the command, in place of one it is still carrying out (R100). -/
theorem sendEffect_eq (c : TileCmd) (t : Tile) :
    sendEffect c t = { overlapped (t.eng.send.any (fun e => e.left ≠ 0)) c.idx t with eng := { t.eng with
      send := if fld c.ops 0 16 = 0 then none else some ⟨fld c.ops 0 16, BitVec.ofNat 64 c.ops, c.qa, c.idx⟩ } } := by
  unfold sendEffect
  cases h : t.eng.send with
  | none => rfl
  | some e => by_cases left : e.left = 0 <;> simp [left, overlapped, setSeq]

/-- RECV hands its engine the command, in place of one it is still carrying out (R101). -/
theorem recvEffect_eq (c : TileCmd) (t : Tile) :
    recvEffect c t = { overlapped (t.eng.recv.any (fun e => e.left ≠ 0)) c.idx t with eng := { t.eng with
      recv := if fld c.ops 0 16 = 0 then none else some ⟨fld c.ops 0 16, 24 + c.qa % 8, c.qd, c.idx⟩ } } := by
  unfold recvEffect
  cases h : t.eng.recv with
  | none => rfl
  | some e => by_cases left : e.left = 0 <;> simp [left, overlapped, setSeq]

theorem sendEffect_idle {t : Tile} (c : TileCmd) (idle : t.eng.send = none) :
    sendEffect c t = { t with eng := (sendEffect c t).eng } := by
  rw [sendEffect_eq, idle]; rfl

theorem recvEffect_idle {t : Tile} (c : TileCmd) (idle : t.eng.recv = none) :
    recvEffect c t = { t with eng := (recvEffect c t).eng } := by
  rw [recvEffect_eq, idle]; rfl

theorem sendEffect_busy {t : Tile} {e : SendCmd} (c : TileCmd) (busy : t.eng.send = some e) (left : e.left ≠ 0) :
    (sendEffect c t).seqStatus.getLsbD 4 = true := by
  rw [sendEffect_eq, busy, Option.any_some, decide_eq_true left]
  exact overlapped_flag c.idx t

theorem recvEffect_busy {t : Tile} {e : RecvCmd} (c : TileCmd) (busy : t.eng.recv = some e) (left : e.left ≠ 0) :
    (recvEffect c t).seqStatus.getLsbD 4 = true := by
  rw [recvEffect_eq, busy, Option.any_some, decide_eq_true left]
  exact overlapped_flag c.idx t

/-- A WAIT that begins has met its count where its queue holds it already (R161). -/
theorem noteMet_new (now : Nat) (t : Tile) (w : WaitSt) (new : w.met = none) : noteMet now { t with wait := some w } =
    { t with wait := some { w with met := if w.n ≤ (getQ t w.q).count then some now else none } } := by
  have queue : (getQ { t with wait := some w } w.q).count = (getQ t w.q).count := rfl
  by_cases met : w.n ≤ (getQ t w.q).count
  · simp [noteMet, new, queue, met]
  · simp [noteMet, queue, met, ← new]

/-- WAIT watches its queue from its issue tick to its release tick (R35, R103). -/
theorem waitEffect_setTile (c : TileCmd) (x : Part) (no : Nat) (d : Dev) (t : Tile) :
    waitEffect c x no (setTile d no t) = setTile d no { t with wait := some {
      q := 24 + c.qa % 8, n := fld c.ops 0 16, issue := x.now, release := x.now + c.issue
      met := if fld c.ops 0 16 ≤ (getQ t (24 + c.qa % 8)).count then some x.now else none, hold := none, idx := c.idx } } := by
  rw [waitEffect, modTile_setTile, noteMet_new _ _ _ rfl]

/-- Settles O6: each engine's command and the WAIT stand in the tile past its slot; ENG_OVL is what an engine at work adds. -/
theorem movementCommandsStartTheirEngine : Obligations.MovementCommandsStartTheirEngine := by
  unfold Obligations.MovementCommandsStartTheirEngine
  intro s no x t c n
  refine ⟨fun r dir zero => ?send, fun r zero => ?recv, fun r zero => ?wait⟩
  case send =>
    refine ⟨_, gives_onTile (exec_send no s) r (by simp [dir, zero, c, t]) rfl, onlyTile_setTile .., ?_⟩
    rw [getTile_setTile_same]
    exact ⟨by rw [sendEffect_eq]; rfl, fun idle => sendEffect_idle c idle, fun e busy left => sendEffect_busy c busy left⟩
  case recv =>
    refine ⟨_, gives_onTile (exec_recv no s) r (by simp [zero, c, t]) rfl, onlyTile_setTile .., ?_⟩
    rw [getTile_setTile_same]
    exact ⟨by rw [recvEffect_eq]; rfl, fun idle => recvEffect_idle c idle, fun e busy left => recvEffect_busy c busy left⟩
  case wait => exact ⟨_, gives_issue (exec_wait no s) r (by simp [zero, c, t]) (waitEffect_setTile ..), rfl, rfl, rfl, rfl, rfl, rfl⟩

end Sys2Proof.Machine
end

section
/-!
SUPPORT. An update of every listed tile of a partition, as breaks, stops and a plan's start make it: what it leaves of each tile, and
that it touches nothing else.
-/

namespace Sys2Proof.Machine

open Sys2Proof

/-! ### The tiles that a table lists -/

theorem mem_keys_iff {α : Type} (t : Tab α) (k : Nat) : k ∈ t.map (·.1) ↔ tget t k ≠ none := by
  induction t with
  | nil => simp [tget]
  | cons e r ih =>
    by_cases h : e.1 = k
    · simp [tget, h]
    · simp only [List.map_cons, List.mem_cons, ih, tget, if_neg h, Ne.symm h, false_or]

/-- A write leaves no number out of a table. -/
theorem tget_tput_listed {α : Type} {t : Tab α} {u : Nat} (k : Nat) (v : α) (h : tget t u ≠ none) : tget (tput t k v) u ≠ none := by
  by_cases hu : u = k
  · simp [hu]
  · rwa [tget_tput_other t v hu]

theorem mem_listedTiles {d : Dev} {x : Part} {u : Nat} :
    u ∈ listedTiles d x ↔ tget d.tiles u ≠ none ∧ x.mask.getLsbD (blockOfTile u) = true := by
  rw [listedTiles, List.mem_filter, mem_keys_iff]

/-! ### An update of each tile of a list -/

section
variable {f : Tile → Tile} (l : List Nat) (d : Dev)

/-- An update that comes to the same when it is made again leaves each tile of a list updated, however often the list names it. -/
theorem getTile_forEach_modTile (again : ∀ t, f (f t) = f t) (u : Nat) :
    getTile (forEach l (fun no => modTile no f) d) u = if u ∈ l then f (getTile d u) else getTile d u := by
  induction l generalizing d with
  | nil => rfl
  | cons no r ih =>
    have step : forEach (no :: r) (fun no => modTile no f) d = forEach r (fun no => modTile no f) (modTile no f d) := rfl
    by_cases h : u = no
    · subst h; simp [step, ih, again]
    · simp [step, ih, h, getTile_modTile_other d f h]

theorem forEach_modTile_frame : { forEach l (fun no => modTile no f) d with tiles := d.tiles } = d :=
  congrArg (fun e : Dev => { e with tiles := d.tiles })
    (forEach_same (fun e : Dev => { e with tiles := [] }) (fun no => modTile no f) (fun _ _ => rfl) l d)

theorem forEach_modTile_parts : (forEach l (fun no => modTile no f) d).parts = d.parts :=
  (congrArg Dev.parts (forEach_modTile_frame (f := f) l d) :)

end

/-- Every listed tile of a partition is updated. -/
theorem getTile_listed {f : Tile → Tile} (again : ∀ t, f (f t) = f t) {d : Dev} {x : Part} {u : Nat} (listed : tget d.tiles u ≠ none)
    (own : x.mask.getLsbD (blockOfTile u) = true) : getTile (forEach (listedTiles d x) (fun no => modTile no f) d) u = f (getTile d u) := by
  rw [getTile_forEach_modTile _ _ again, if_pos (mem_listedTiles.mpr ⟨listed, own⟩)]

/-- No tile of another block is. -/
theorem getTile_unowned {f : Tile → Tile} (again : ∀ t, f (f t) = f t) {d : Dev} {x : Part} {u : Nat}
    (other : x.mask.getLsbD (blockOfTile u) = false) : getTile (forEach (listedTiles d x) (fun no => modTile no f) d) u = getTile d u := by
  rw [getTile_forEach_modTile _ _ again, if_neg fun h => ?_]
  rw [(mem_listedTiles.mp h).2] at other
  cases other

end Sys2Proof.Machine
end

section
/-! The obligation of breaks (R109, R110). -/

namespace Sys2Proof.Machine

open Sys2Proof

/-- What BRK does past its slot: it fires a break where DBG_EN and CMD_EN are 1. -/
def brkEffect : Effect := fun _ x no d =>
  let b := (getTile d no).brkCtrl.toNat
  if bit b 0 && bit b 3 then fireBreak no x d else d

theorem exec_brk (tile : Fin 2304) (s : State) :
    exec (.brk tile) s = on (whenAwake (issueCmd 0x31 false noBad brkEffect tile.val)) s := rfl

theorem exec_breakPark (p : Fin 16) (s : State) : exec (.breakPark p) s = on (whenAwake (breakPark p.val)) s := rfl

theorem bit_toNat {w : Nat} (v : BitVec w) (i : Nat) : bit v.toNat i = v.getLsbD i := by
  simp [bit, BitVec.getLsbD, Nat.testBit_eq_decide_div_mod_eq, beq_eq_decide]

theorem brkEffect_setTile (c : TileCmd) (x : Part) (no : Nat) (d : Dev) (t : Tile) : brkEffect c x no (setTile d no t) =
    if t.brkCtrl.getLsbD 0 && t.brkCtrl.getLsbD 3 then fireBreak no x (setTile d no t) else setTile d no t := by
  simp only [brkEffect, getTile_setTile_same, bit_toNat]

/-- An update of a partition touches the table of partitions alone. -/
theorem modPart_frame (p : Nat) (f : Part → Part) (d : Dev) : { modPart p f d with parts := d.parts } = d := by
  unfold modPart; split <;> rfl

/-! ### A break fires -/

section
variable (no : Nat) (x : Part) (d : Dev)

/-- A tile in which a break has fired. -/
def hitTile (t : Tile) : Tile := { t with brkHit := true }

/-- A tile that records its partition's break tick. -/
def noteBreak (now : Nat) (t : Tile) : Tile := { t with brkTick := BitVec.ofNat 40 (now % 2 ^ 40) }

theorem noteBreak_again (now : Nat) (t : Tile) : noteBreak now (noteBreak now t) = noteBreak now t := rfl

/-- The first break of a partition sets its break tick, and every listed tile of it records that. -/
theorem fireBreak_first (first : x.brk = none) : fireBreak no x d =
    modPart x.pid (fun y => { y with brk := some ⟨x.now⟩ })
      (forEach (listedTiles (modTile no hitTile d) x) (fun u => modTile u (noteBreak x.now)) (modTile no hitTile d)) := by
  simp only [fireBreak, first, Option.isSome_none, Bool.false_eq_true, if_false]; rfl

/-- A later one joins it. -/
theorem fireBreak_joins {b : BreakSt} (joins : x.brk = some b) : fireBreak no x d = modTile no hitTile d := by
  simp only [fireBreak, joins, Option.isSome_some, if_true]; rfl

theorem fireBreak_hits : (getTile (fireBreak no x d) no).brkHit = true := by
  cases h : x.brk with
  | none =>
    rw [fireBreak_first no x d h, getTile_congr (modPart_tiles ..), getTile_forEach_modTile _ _ (noteBreak_again _), getTile_modTile_same]
    split <;> rfl
  | some b => rw [fireBreak_joins no x d h, getTile_modTile_same]; rfl

theorem fireBreak_getPart (here : getPart d x.pid = some x) :
    getPart (fireBreak no x d) x.pid = some { x with brk := some (x.brk.getD ⟨x.now⟩) } := by
  cases h : x.brk with
  | none =>
    have same : getPart _ x.pid = getPart d x.pid := congrArg (tget · x.pid) (forEach_modTile_parts (f := noteBreak x.now)
      (listedTiles (modTile no hitTile d) x) (modTile no hitTile d))
    rw [fireBreak_first no x d h, getPart_modPart_same, same, here]; rfl
  | some b =>
    rw [fireBreak_joins no x d h, Option.getD_some, ← h]; exact here

theorem fireBreak_frame : { fireBreak no x d with tiles := d.tiles, parts := d.parts } = d := by
  cases h : x.brk with
  | none =>
    let rest (e : Dev) : Dev := { e with tiles := d.tiles, parts := d.parts }
    have noted := congrArg rest (forEach_modTile_frame (f := noteBreak x.now) (listedTiles (modTile no hitTile d) x) (modTile no hitTile d))
    rw [fireBreak_first no x d h]
    exact (congrArg rest (modPart_frame ..)).trans noted
  | some b => rw [fireBreak_joins no x d h]; rfl

theorem fireBreak_notes (first : x.brk = none) {u : Nat} (listed : tget d.tiles u ≠ none)
    (own : x.mask.getLsbD (blockOfTile u) = true) :
    (getTile (fireBreak no x d) u).brkTick = BitVec.ofNat 40 (x.now % 2 ^ 40) := by
  rw [fireBreak_first no x d first, getTile_congr (modPart_tiles ..), getTile_listed (noteBreak_again _) (tget_tput_listed _ _ listed) own]
  rfl

end

/-! ### The partition parks -/

/-- A tile that a break parks (R110). -/
def parkResumable (t : Tile) : Tile := if t.mode = .run then { t with mode := .parked, resumable := true } else t

theorem parkResumable_again (t : Tile) : parkResumable (parkResumable t) = parkResumable t := by
  unfold parkResumable
  by_cases h : t.mode = .run <;> simp [h]

/-- A break that is 16 ticks old parks the partition. -/
theorem breakPark_due {p : Nat} {y : Part} {b : BreakSt} {d : Dev} (here : getPart d p = some y) (brk : y.brk = some b)
    (runs : y.plan = .running) (old : b.at_ + 16 ≤ y.now) : breakPark p d =
      setPart p { y with brk := none, parked := true } (forEach (listedTiles d y) (fun no => modTile no parkResumable) d) := by
  have due : (decide (y.plan ≠ .running) || decide (y.now < b.at_ + 16)) = false := by simp [runs, old]
  simp only [breakPark, withPart_some _ here, brk, due, Bool.false_eq_true, if_false]; rfl

/-- Settles O7: a break that BRK fires is one like any other, and acts as NOP where DBG_EN or CMD_EN is 0. -/
theorem breaksParkThePartition : Obligations.BreaksParkThePartition := by
  unfold Obligations.BreaksParkThePartition
  intro s no x t
  refine ⟨fun r here => ⟨fun dbg cmd => ?fires, fun off => ?nop⟩, fun p y b up here brk runs old => ?parks⟩
  case fires =>
    have on : (t.brkCtrl.getLsbD 0 && t.brkCtrl.getLsbD 3) = true := by rw [dbg, cmd]; rfl
    have frame := fireBreak_frame no x (setTile s.dev no (passed x t))
    exact ⟨_, gives_issue (exec_brk no s) r rfl ((brkEffect_setTile ..).trans (if_pos on)), fireBreak_hits ..,
      fireBreak_getPart _ _ _ here, congrArg (fun e : Dev => { e with tiles := s.dev.tiles, parts := s.dev.parts }) frame,
      fun first u listed own => fireBreak_notes _ _ _ first (tget_tput_listed _ _ listed) own⟩
  case nop =>
    have off : (t.brkCtrl.getLsbD 0 && t.brkCtrl.getLsbD 3) = false := Bool.and_eq_false_iff.mpr off
    exact gives_issue (exec_brk no s) r rfl ((brkEffect_setTile ..).trans (if_neg (Bool.eq_false_iff.mp off)))
  case parks =>
    refine ⟨_, gives_whenAwake (exec_breakPark p s) up (breakPark_due here brk runs old), getPart_setPart_same .., ?_,
      fun u listed own run => ?_⟩
    · exact congrArg (fun e : Dev => { e with parts := s.dev.parts }) (forEach_modTile_frame (listedTiles s.dev y) s.dev)
    · rw [getTile_congr (setPart_tiles ..), getTile_listed parkResumable_again listed own, parkResumable, if_pos run]
      exact ⟨rfl, rfl⟩

end Sys2Proof.Machine
end

section
/-! The obligation of LOAD and STORE (chapters 3 and 7). -/

namespace Sys2Proof.Machine

open Sys2Proof

/-- The operand fields that a LOAD or STORE may not have in its tile, whatever the tables hold (R97, R104, R189). -/
def loadBad (c : TileCmd) (t : Tile) : Bool := moveBad c.ops (moveWidth t false c) false || (getQ t (24 + c.qd % 4)).depth = 0

def storeBad (c : TileCmd) (t : Tile) : Bool := moveBad c.ops (moveWidth t true c) true

theorem exec_load (tile : Fin 2304) (s : State) :
    exec (.load tile) s = on (whenAwake (issueCmd 0x12 false loadBad (moveEffect false) tile.val)) s := rfl

theorem exec_store (tile : Fin 2304) (s : State) :
    exec (.store tile) s = on (whenAwake (issueCmd 0x13 false storeBad (moveEffect true) tile.val)) s := rfl

/-! ### Translation reads no tile -/

section
variable (d : Dev) (k : Nat) (t : Tile)

theorem weightPieces_setTile (x : Part) (runs : List TierRun) (base a lim : Nat) (cs : List (Nat × Nat × Nat)) :
    weightPieces (setTile d k t) x runs base a lim cs = weightPieces d x runs base a lim cs := by
  induction cs with
  | nil => rfl
  | cons c r ih => simp only [weightPieces, ih]; rfl

theorem indexPieces_setTile (page : Nat) (store : Bool) (cs : List (Nat × Nat × Nat)) :
    indexPieces (setTile d k t) page store cs = indexPieces d page store cs := by
  induction cs with
  | nil => rfl
  | cons c r ih => simp only [indexPieces, ih]; rfl

theorem slotPieces_setTile (pages : List Nat) (p0 : Nat) (store : Bool) (cs : List (Nat × Nat × Nat)) :
    slotPieces (setTile d k t) pages p0 store cs = slotPieces d pages p0 store cs := by
  induction cs with
  | nil => rfl
  | cons c r ih => simp only [slotPieces, ih]; rfl

theorem resolveReq_setTile (x : Part) (q ops width : Nat) (store : Bool) :
    resolveReq (setTile d k t) x q ops width store = resolveReq d x q ops width store := by
  simp only [resolveReq, resolveWeight, resolveIndex, resolveSlot, weightPieces_setTile, indexPieces_setTile, slotPieces_setTile]
  rfl

end

/-! ### A request entry is taken (R188) -/

section
variable (ps : List Piece) (no : Nat) (r : MemReq) (d : Dev)

/-- A tile with another entry in its request queue. -/
def pushReq (r : MemReq) (t : Tile) : Tile := { t with reqs := t.reqs ++ [{ r with id := t.reqNext }], reqNext := t.reqNext + 1 }

theorem noteWaiting_frame : { noteWaiting ps d with chans := d.chans } = d :=
  congrArg (fun e : Dev => { e with chans := d.chans })
    (forEach_same (fun e : Dev => { e with chans := [] })
      (fun c d => modChan c (fun y => { y with qmax := BitVec.ofNat 32 (max y.qmax.toNat (waitingOn d c)) }) d) (fun _ _ => rfl) _ d)

/-- Beside the tile's queue, an entry is counted at its memory moon, and a LOAD's at its channels. -/
theorem takeEntry_eq : ∃ count, takeEntry no r d = modMm (tileQ no) count
    (if r.isStore then modTile no (pushReq r) d else noteWaiting r.pieces (modTile no (pushReq r) d)) := ⟨_, rfl⟩

theorem takeEntry_frame : { takeEntry no r d with mm := d.mm, chans := d.chans } = modTile no (pushReq r) d := by
  obtain ⟨count, taken⟩ := takeEntry_eq no r d
  rw [taken]
  cases r.isStore with
  | true => rfl
  | false => exact congrArg (fun e : Dev => { e with mm := d.mm }) (noteWaiting_frame r.pieces (modTile no (pushReq r) d))

theorem takeEntry_tiles : (takeEntry no r d).tiles = (modTile no (pushReq r) d).tiles :=
  (congrArg Dev.tiles (takeEntry_frame no r d) :)

theorem getTile_takeEntry : getTile (takeEntry no r d) no = pushReq r (getTile d no) := by
  rw [getTile_congr (takeEntry_tiles ..), getTile_modTile_same]

theorem getTile_takeEntry_other {u : Nat} (h : u ≠ no) : getTile (takeEntry no r d) u = getTile d u := by
  rw [getTile_congr (takeEntry_tiles ..), getTile_modTile_other d _ h]

/-- A STORE's entry touches no channel. -/
theorem takeEntry_store_frame (store : r.isStore = true) : { takeEntry no r d with mm := d.mm } = modTile no (pushReq r) d := by
  obtain ⟨count, taken⟩ := takeEntry_eq no r d
  rw [taken, store]; rfl

end

/-! ### LOAD and STORE at their issue tick -/

/-- The entry of a LOAD or STORE whose operands resolve to these pieces (R188 to R190). -/
def entryOf (store : Bool) (c : TileCmd) (x : Part) (t : Tile) (pieces : List Piece) (slot : Option Nat) : MemReq := {
  id := t.reqNext, isStore := store, q := c.qd % 4, len := fld c.ops 42 16, width := moveWidth t store c, done := 0
  pieces := pieces, orbit := x.orbit, slot := slot, idx := c.idx }

/-- A LOAD or STORE whose address is good and meets no bad page takes an entry, and a STORE starts its engine before that. -/
theorem moveEffect_takes {store : Bool} {c : TileCmd} {x : Part} {no : Nat} {d : Dev} {pieces : List Piece} {slot : Option Nat}
    (len : fld c.ops 42 16 ≠ 0) (room : (getTile d no).reqs.length < 32)
    (good : resolveReq d x (tileQ no) c.ops (moveWidth (getTile d no) store c) store = .ok pieces slot none 0) :
    moveEffect store c x no d = takeEntry no { entryOf store c x (getTile d no) pieces slot with id := 0 }
      (if store then modTile no (storeEngine c (some (getTile d no).reqNext)) d else d) := by
  simp only [moveEffect, good, len, Nat.not_le.mpr room, if_false, if_true]
  cases slot <;> rfl

section
variable (c : TileCmd) (req : Option Nat) (t : Tile)

/-- A STORE gives up the entry of the one it ends (R82). -/
theorem storeEngine_reqs : (storeEngine c req t).reqs =
    t.reqs.filter (fun r => !(t.eng.store.any (fun k => r.isStore && r.id = k.req))) := by
  unfold storeEngine
  cases h : t.eng.store with
  | none => simp
  | some k => simp

theorem storeEngine_eng : (storeEngine c req t).eng = { t.eng with
    store := req.map (fun r => ⟨fld c.ops 42 16, c.qa, c.idx, r⟩) } := by
  unfold storeEngine
  split <;> rfl

theorem storeEngine_reqNext : (storeEngine c req t).reqNext = t.reqNext := by
  unfold storeEngine
  split <;> rfl

theorem storeEngine_flag (busy : t.eng.store ≠ none) : (storeEngine c req t).seqStatus.getLsbD 4 = true := by
  obtain ⟨k, hk⟩ := Option.ne_none_iff_exists'.mp busy
  simp only [storeEngine, hk]
  exact getLsbD_setSeq (fl := sqEngOvl) (idx := c.idx) (t := t) (by decide) (by decide)

end

/-- Settles O12: the entry is taken in the module with the tile past its slot, and translation does not see the difference. -/
theorem loadAndStoreTakeAnEntry : Obligations.LoadAndStoreTakeAnEntry := by
  unfold Obligations.LoadAndStoreTakeAnEntry
  intro s no x pieces slot t c e len room
  let p := passed x t
  let d := setTile s.dev no.val p
  have tile : getTile d no.val = p := getTile_setTile_same ..
  have takes (store : Bool) (good : resolveReq s.dev x (tileQ no.val) c.ops (moveWidth t store c) store = .ok pieces slot none 0) :
      moveEffect store c x no.val d = takeEntry no.val { e store with id := 0 }
        (if store then modTile no.val (storeEngine c (some t.reqNext)) d else d) := by
    refine (moveEffect_takes len (by rwa [tile]) ((resolveReq_setTile ..).trans (by rwa [tile]))).trans ?_
    rw [tile]; rfl
  have other (r : MemReq) (q : Tile) (u : Nat) (h : u ≠ no.val) :
      getTile (takeEntry no.val r (setTile s.dev no.val q)) u = getTile s.dev u :=
    (getTile_takeEntry_other _ _ _ h).trans (getTile_setTile_other s.dev q h)
  refine ⟨fun r listed depth good => ?load, fun r listed good => ?store⟩
  case load =>
    have ok : loadBad c t = false := by simp [loadBad, listed, depth]
    let r0 : MemReq := { e false with id := 0 }
    have loads : moveEffect false c x no.val d = takeEntry no.val r0 d := takes false good
    have taken : getTile (takeEntry no.val r0 d) no.val = pushReq r0 p := (getTile_takeEntry ..).trans (by rw [tile])
    refine ⟨_, gives_issue (exec_load no s) r ok loads, by rw [taken]; rfl, by rw [taken]; rfl, ?_, other r0 p⟩
    exact congrArg (fun f : Dev => { f with tiles := s.dev.tiles }) (takeEntry_frame no.val r0 d)
  case store =>
    let q := storeEngine c (some t.reqNext) p
    let r0 : MemReq := { e true with id := 0 }
    have started : modTile no.val (storeEngine c (some t.reqNext)) d = setTile s.dev no.val q := modTile_setTile ..
    have stores : moveEffect true c x no.val d = takeEntry no.val r0 (setTile s.dev no.val q) :=
      (takes true good).trans (congrArg (takeEntry no.val r0) started)
    have taken : getTile (takeEntry no.val r0 (setTile s.dev no.val q)) no.val = pushReq r0 q :=
      (getTile_takeEntry ..).trans (by rw [getTile_setTile_same])
    refine ⟨_, gives_issue (exec_store no s) r listed stores, ?_, fun busy => ?_, ?_, ?_, other r0 q⟩
    · rw [taken, pushReq, storeEngine_reqNext c (some t.reqNext) p, storeEngine_reqs c (some t.reqNext) p]; rfl
    · rw [taken]
      exact storeEngine_flag c (some t.reqNext) p busy
    · rw [taken]
      exact storeEngine_eng c (some t.reqNext) p
    · exact congrArg (fun f : Dev => { f with tiles := s.dev.tiles }) (takeEntry_store_frame no.val r0 (setTile s.dev no.val q) rfl)

end Sys2Proof.Machine
end

section
/-!
SUPPORT. A HALT in a partition whose tick passes: what it leaves of the fault logic, of the partition and of its tiles until that tick
ends (R105, R413, R420, Table 3.10).
-/

namespace Sys2Proof.Machine

open Sys2Proof

/-! ### FAULT_N -/

/-- A HALT drives FAULT_N from this moment (R420). -/
theorem recordEvent_drives (src cause part detail : Nat) (d : Dev) :
    (recordEvent 2 src cause part detail d).flt.hold = true ∧
      (recordEvent 2 src cause part detail d).flt.pulse = some (d.clk.wall + usG 10) := by
  obtain ⟨f, -, recorded⟩ := recordEvent_records 2 src cause part detail d
  have pulse : (recordEvent 2 src cause part detail d).flt.pulse =
      some ((recordEvent 2 src cause part detail d).clk.wall + usG 10) := rfl
  exact ⟨rfl, by rw [pulse, recorded.clk]⟩

theorem raise_halt_flt (src cause part detail : Nat) (d : Dev) :
    let e := raise 2 src cause part detail d
    e.flt.halts = d.flt.halts + 1 ∧ e.flt.hold = true ∧ e.flt.pulse = some (d.clk.wall + usG 10) := by
  have drives := recordEvent_drives src cause part detail d
  refine ⟨raise_halt_halts .., ?_⟩
  rw [raise_halt, haltParts_flt]
  exact drives

/-! ### The partition -/

/-- A partition but for its ephemeris and whether its orbit is late, which records and the end of a hold change. -/
def unhurried (x : Part) : Part := { ephless x with fab := { x.fab with late := false } }

theorem unhurried_of_ephless {x y : Part} (h : ephless y = ephless x) : unhurried y = unhurried x :=
  congrArg (fun z : Part => { z with fab := { z.fab with late := false } }) h

theorem unhurried_lateIfRunning (x : Part) : unhurried (lateIfRunning x) = unhurried x := by
  unfold lateIfRunning; split <;> rfl

/-- A partition stands in the table as it stood, but for its ephemeris and whether its orbit is late, and each under its number. -/
def Stands (p : Nat) (x : Part) (d : Dev) : Prop := d.partsWf ∧ ∃ y, getPart d p = some y ∧ unhurried y = unhurried x

section
variable {p : Nat} {x : Part} {d e : Dev}

theorem Stands.of_records (h : Stands p x d) (r : RecordsOnly d e) : Stands p x e := by
  obtain ⟨wf, y, hy, same⟩ := h
  obtain ⟨z, hz, records⟩ := r.getPart_some wf hy
  exact ⟨r.partsWf wf, z, hz, (unhurried_of_ephless records).trans same⟩

theorem Stands.of_parts (h : Stands p x d) (same : e.parts = d.parts) : Stands p x e := by
  have get (q : Nat) : getPart e q = getPart d q := congrArg (tget · q) same
  obtain ⟨wf, y, hy, hxy⟩ := h
  exact ⟨fun q z hz => wf q z ((get q).symm.trans hz), y, (get p).trans hy, hxy⟩

theorem Stands.endHold (h : Stands p x d) (no : Nat) (w : WaitSt) (start : Nat) : Stands p x (endHold no w start d) := by
  obtain ⟨wf, y, hy, same⟩ := h
  have released : Stands p x (releaseHold no w start d) :=
    ⟨releaseHold_partsWf wf, lateIfRunning y, by rw [releaseHold_getPart, hy, Option.map_some],
      (unhurried_lateIfRunning y).trans same⟩
  exact released.of_records (endHold_records ..)

theorem Stands.endHolds (h : Stands p x d) (y : Part) : Stands p x (endHolds y d) := by
  refine forEach_keeps (Stands p x) _ (fun no e he => ?_) _ d h
  split
  · split
    · exact he.endHold ..
    · exact he
  · exact he

end

/-- A partition that leaves RUNNING, with the tick in hand still to end or not (R26). -/
def leaving (ticks : Bool) (y : Part) : Part := { y with
  plan := .stopped, lastOrbit := y.orbit, lastTs := BitVec.ofNat 40 (y.now % 2 ^ 40), brk := none, parked := false
  entering := false, stopping := ticks, fab := { y.fab with pace := none, paceMt := none }
  job := if y.job.st = .running then { y.job with st := .stopped } else y.job }

theorem partsWf_modPart {p : Nat} {f : Part → Part} {d : Dev} (keeps : ∀ x, (f x).pid = x.pid) (wf : d.partsWf) :
    (modPart p f d).partsWf := by
  intro q y hy
  by_cases hq : q = p
  · subst hq
    rw [getPart_modPart_same] at hy
    obtain ⟨x, hx, rfl⟩ := Option.map_eq_some_iff.mp hy
    exact (keeps x).trans (wf q x hx)
  · rw [getPart_modPart_other d f hq] at hy
    exact wf q y hy

/-- A partition leaves RUNNING while its tick passes: its tiles go on to the tick's end (Table 1.5). -/
theorem leaveRunning_ticking {p : Nat} {y : Part} {d : Dev} (here : getPart d p = some y) (runs : y.plan = .running)
    (ticks : (active y && decide (y.tick < (y.info.map (·.orbitLen)).getD 0)) = true) :
    let e := modPart p (leaving true) (endHolds y d)
    leaveRunning p d = if mpUp e then closeDigest p y.orbit (eclipseAll p e) else e := by
  simp only [leaveRunning, withPart_some _ here, runs, ticks, ne_eq, not_true_eq_false, if_false, if_true]
  rfl

/-- A partition has left RUNNING in this orbit, with its tick still to end. -/
def Left (p : Nat) (orbit : BitVec 32) (d : Dev) : Prop :=
  d.partsWf ∧ ∃ y, getPart d p = some y ∧ y.plan = .stopped ∧ y.stopping = true ∧ y.lastOrbit = orbit

section
variable {p : Nat} {orbit : BitVec 32} {d e : Dev}

theorem Left.of_records (h : Left p orbit d) (r : RecordsOnly d e) : Left p orbit e := by
  obtain ⟨wf, y, hy, plan, stopping, last⟩ := h
  obtain ⟨z, hz, same⟩ := r.getPart_some wf hy
  exact ⟨r.partsWf wf, z, hz, (congrArg Part.plan same :).trans plan, (congrArg Part.stopping same :).trans stopping,
    (congrArg Part.lastOrbit same :).trans last⟩

/-- Eclipsing its requests, the partition stays as it has stopped. -/
theorem Left.eclipseAll (h : Left p orbit d) : Left p orbit (eclipseAll p d) := by
  obtain ⟨-, y, hy, -⟩ := id h
  have recorded : Left p orbit (if isLeader y then
      forEach y.srv.reqs (fun r => ephRec p 0x06 (r.slot.getD 0xFFFF) r.id.toNat 7) d else d) :=
    h.of_records (recordsOnly_when (recordsOnly_forEach (fun _ _ => recordsOnly_ephRec ..) _ d))
  obtain ⟨wf, z, hz, stopped⟩ := recorded
  unfold Machine.eclipseAll
  rw [withPart_some _ hy]
  exact ⟨partsWf_modPart (fun _ => rfl) wf, _, (getPart_modPart_same ..).trans (congrArg (Option.map _) hz), stopped⟩

/-- A running partition that stops while its tick passes stays stopping until the tick ends. -/
theorem leaveRunning_left {y : Part} (wf : d.partsWf) (here : getPart d p = some y) (runs : y.plan = .running)
    (ticks : (active y && decide (y.tick < (y.info.map (·.orbitLen)).getD 0)) = true) : Left p y.orbit (leaveRunning p d) := by
  obtain ⟨wf', z, hz, same⟩ := Stands.endHolds (p := p) (x := y) ⟨wf, y, here, rfl⟩ y
  have left : Left p y.orbit (modPart p (leaving true) (endHolds y d)) :=
    ⟨partsWf_modPart (fun _ => rfl) wf', leaving true z, by rw [getPart_modPart_same, hz, Option.map_some], rfl, rfl,
      (congrArg Part.orbit same :)⟩
  rw [leaveRunning_ticking here runs ticks]
  split
  · exact left.eclipseAll.of_records (recordsOnly_closeDigest ..)
  · exact left

/-- Until then its tiles go on, but for the WAITs that held. -/
theorem leaveRunning_tiles {y : Part} (here : getPart d p = some y) (runs : y.plan = .running)
    (ticks : (active y && decide (y.tick < (y.info.map (·.orbitLen)).getD 0)) = true) :
    (leaveRunning p d).tiles = (endHolds y d).tiles := by
  rw [leaveRunning_ticking here runs ticks]
  refine (ite_keeps Dev.tiles ?_).trans (modPart_tiles ..)
  rw [(recordsOnly_closeDigest ..).tiles, tiles_eclipseAll]

end

end Sys2Proof.Machine
end

section
/-! The obligation of fetches that halt the tile (R77, R79, R105). -/

namespace Sys2Proof.Machine

open Sys2Proof

theorem exec_illOpc (tile : Fin 2304) (s : State) : exec (.illOpc tile) s = on (whenAwake (illOpc tile.val)) s := rfl

/-! ### A tile that halts in its tick -/

/-- A partition that runs, in whose present tick a tile is due to issue, stands under its own number. -/
structure HaltDue (no : Nat) (x : Part) (d : Dev) : Prop extends FetchDue no x d where
  wf : d.partsWf
  pid : x.pid < 16
  here : getPart d x.pid = some x
  runs : x.plan = .running

section
variable {no : Nat} {x : Part} {d : Dev}

theorem issueDue_spec {t : Tile} (h : issueDue x t = true) :
    t.mode = .run ∧ t.wait = none ∧ x.tick < (x.info.map (·.orbitLen)).getD 0 := by
  simp only [issueDue, Bool.and_eq_true, decide_eq_true_eq, Option.isNone_iff_eq_none] at h
  obtain ⟨⟨⟨⟨⟨mode, -⟩, -⟩, wait⟩, -⟩, tick⟩ := h
  exact ⟨mode, wait, tick⟩

/-- A tile that has raised a HALT with this cause at this index, in the tick in hand. -/
def Halting (cause pc : Nat) (t : Tile) : Prop :=
  t.halting = true ∧ t.mode = .run ∧ t.haltCause = BitVec.ofNat 8 cause ∧ t.pc = pc

/-- What a HALT that a tile raises leaves before its tick ends: the tile, FAULT_N, the history and its partition (R105, R413, R420). -/
theorem tileHalt_halts (h : HaltDue no x d) (e : HaltEv) :
    let c := tileHalt no x e d
    Halting e.cause (getTile d no).pc (getTile c no) ∧
      (c.flt.halts = d.flt.halts + 1 ∧ c.flt.hold = true ∧ c.flt.pulse = some (d.clk.wall + usG 10)) ∧
      Entered 2 (0x100 + moonOfTile no) (0x100 + e.cause) d c ∧ Left x.pid x.orbit c := by
  intro c
  let f := modTile no (fun t => { t with halting := true, haltCause := BitVec.ofNat 8 e.cause }) d
  let r := recordEvent 2 (0x100 + moonOfTile no) (0x100 + e.cause) x.pid
    (no + e.idx % 4096 * 2 ^ 12 + e.q * 2 ^ 24 + e.found * 2 ^ 29) f
  obtain ⟨flt, -, recorded⟩ := recordEvent_records 2 (0x100 + moonOfTile no) (0x100 + e.cause) x.pid
    (no + e.idx % 4096 * 2 ^ 12 + e.q * 2 ^ 24 + e.found * 2 ^ 29) f
  have stops : c = leaveRunning x.pid r := by
    have named : x.pid ≠ 0xFF := by have := h.pid; omega
    exact (raise_halt ..).trans (if_neg named)
  obtain ⟨y, hy, same⟩ := recorded.getPart_some (d := { f with flt := flt }) h.wf h.here
  obtain ⟨mode, -, inOrbit⟩ := issueDue_spec h.due
  have runs : y.plan = .running := (congrArg Part.plan same :).trans h.runs
  have ticks : (active y && decide (y.tick < (y.info.map (·.orbitLen)).getD 0)) = true := by
    have same' : _ = (active x && decide (x.tick < (x.info.map (·.orbitLen)).getD 0)) :=
      (congrArg (fun z : Part => active z && decide (z.tick < (z.info.map (·.orbitLen)).getD 0)) same :)
    exact same'.trans (by simp [h.ticks, inOrbit])
  refine ⟨?tile, raise_halt_flt .., (raise_entered ..).of_flt rfl, ?part⟩
  case tile =>
    rw [stops, getTile_congr (leaveRunning_tiles hy runs ticks)]
    refine endHolds_keepsTile (fun t ht => ht) y ?_
    rw [getTile_congr recorded.tiles]
    show Halting _ _ (getTile f no)
    rw [getTile_modTile_same]
    exact ⟨rfl, mode, rfl, rfl⟩
  case part =>
    have orbit : y.orbit = x.orbit := (congrArg Part.orbit same :)
    rw [stops, ← orbit]
    exact leaveRunning_left (recorded.partsWf h.wf) hy runs ticks

end

/-- A word with bad parity, whoever looks at it, and a word whose opcode is not listed. -/
theorem illOpc_badParity {no : Nat} {x : Part} {d : Dev} (h : FetchDue no x d) (parity : fetchBad (getTile d no) = true) :
    illOpc no d = tileHalt no x ⟨1, (getTile d no).pc, 0, 0⟩ d := by
  simp only [illOpc, h.part, h.guard, parity, Bool.false_eq_true, if_false, if_true]

theorem illOpc_unlisted {no : Nat} {x : Part} {d : Dev} (h : FetchDue no x d) (parity : fetchBad (getTile d no) = false)
    (unlisted : listedOpc (fetch (getTile d no)).opc = false) : illOpc no d = tileHalt no x ⟨2, (getTile d no).pc, 0, 0⟩ d := by
  simp only [illOpc, h.part, h.guard, parity, unlisted, Bool.false_eq_true, if_false]

/-! ### The end of that tick -/

theorem parkTile_again (t : Tile) : parkTile (parkTile t) = parkTile t := by
  unfold parkTile
  cases t.mode <;> cases t.halting <;> rfl

/-- As its tick ends a partition's listed tiles park. -/
theorem getTile_parkTiles {p u : Nat} {x : Part} {d : Dev} (here : getPart d p = some x) (listed : tget d.tiles u ≠ none)
    (own : x.mask.getLsbD (blockOfTile u) = true) : getTile (parkTiles p d) u = parkTile (getTile d u) := by
  rw [parkTiles, withPart_some _ here, getTile_congr ((tiles_releasePins ..).trans (modPart_tiles ..)),
    getTile_listed parkTile_again listed own]

/-- Settles O8: both causes enter through the HALT of the tile, whose partition is stopped with its tick in hand. -/
theorem badFetchesHaltTheTile : Obligations.BadFetchesHaltTheTile := by
  unfold Obligations.BadFetchesHaltTheTile
  intro s no x t halted up wf pid part here runs ticks due index
  have h : HaltDue no.val x s.dev := ⟨⟨part, ticks, due, index⟩, wf, pid, here, runs⟩
  have halts (cause : Nat) : halted cause (tileHalt no.val x ⟨cause, t.pc, 0, 0⟩ s.dev) := by
    obtain ⟨⟨halting, mode, haltCause, pc⟩, ⟨count, hold, pulse⟩, entered, -, left⟩ := tileHalt_halts h ⟨cause, t.pc, 0, 0⟩
    exact ⟨halting, mode, haltCause, pc, count, hold, pulse, entered, left⟩
  refine ⟨fun u listed own run => ?ends, fun parity => ?parity, fun parity unlisted => ?unlisted⟩
  case ends =>
    rw [getTile_parkTiles here listed own, parkTile, if_pos run]
  case parity =>
    refine ⟨⟨_, gives_whenAwake (exec_illOpc no s) up (illOpc_badParity h.toFetchDue parity), halts 1⟩,
      _, gives_whenAwake (exec_nop no s) up (issueCmd_badParity h.toFetchDue parity), halts 1, fun opc always bad eff => ?_⟩
    exact issueCmd_badParity h.toFetchDue parity
  case unlisted => exact ⟨_, gives_whenAwake (exec_illOpc no s) up (illOpc_unlisted h.toFetchDue parity unlisted), halts 2⟩

end Sys2Proof.Machine
end

section
/-!
SUPPORT. The table of the next orbit while it is built: what the records and requests of a slot leave of its partition, and which
pages are pinned (R240, R266, R280).
-/

namespace Sys2Proof.Machine

open Sys2Proof

/-! ### A partition's own records change its ephemeris alone -/

section
variable {p : Nat} {x : Part} {d : Dev}

theorem getPart_raiseVec (v : Nat) (d : Dev) (q : Nat) : getPart (raiseVec v d) q = getPart d q := by
  unfold raiseVec; dsimp only; split <;> rfl

theorem getPart_ephWrite (mt orbit ts kind slot req data : Nat) :
    ∃ e, getPart (ephWrite x mt orbit ts kind slot req data d) x.pid = some { x with eph := e } :=
  ⟨_, getPart_setPart_same ..⟩

theorem getPart_ephLose : ∃ e, getPart (ephLose x d) x.pid = some { x with eph := e } := by
  unfold ephLose; dsimp only
  split
  · exact ⟨_, (getPart_raiseVec ..).trans (getPart_setPart_same ..)⟩
  · exact ⟨_, getPart_setPart_same ..⟩

theorem getPart_ephGap (here : getPart d p = some x) (own : x.pid = p) :
    ∃ e, getPart (ephGap p d) p = some { x with eph := e } := by
  subst own
  rw [ephGap, withPart_some _ here]
  split
  · obtain ⟨e, he⟩ := getPart_ephWrite (x := x) (d := d) d.mt.mt.toNat (stampOrbit x) (stampTs x) 0x31 0xFFFF 0 (x.eph.gap % 2 ^ 32)
    exact ⟨_, (getPart_modPart_same ..).trans (congrArg (Option.map _) he)⟩
  · exact ⟨x.eph, here⟩

theorem getPart_ephRecAt (here : getPart d p = some x) (own : x.pid = p) (mt orbit ts kind slot req data : Nat) :
    ∃ e, getPart (ephRecAt p mt orbit ts kind slot req data d) p = some { x with eph := e } := by
  obtain ⟨e, gap⟩ := getPart_ephGap here own
  subst own
  rw [ephRecAt, withPart_some _ gap]
  split
  · exact ⟨e, gap⟩
  · split
    · exact getPart_ephLose (x := { x with eph := e })
    · exact getPart_ephWrite (x := { x with eph := e }) ..

theorem getPart_ephRec (here : getPart d p = some x) (own : x.pid = p) (kind slot req data : Nat) :
    ∃ e, getPart (ephRec p kind slot req data d) p = some { x with eph := e } := by
  rw [ephRec, withPart_some _ here]
  exact getPart_ephRecAt here own ..

theorem RecordsOnly.cpt {d e : Dev} (h : RecordsOnly d e) : e.cpt = d.cpt := (congrArg Dev.cpt h.rest :)

end

/-! ### The requests of a slot -/

/-- A partition but for its ephemeris and its live requests. -/
def unserved (x : Part) : Part := { ephless x with srv := { x.srv with reqs := [] } }

/-- A partition stands in the table as it stood, but for its ephemeris and its live requests. -/
def Kept (x : Part) (d : Dev) : Prop := ∃ y, getPart d x.pid = some y ∧ unserved y = unserved x

/-- One module differs from another by a partition's records and live requests, and no entry of the context page table does. -/
structure Serves (x : Part) (d e : Dev) : Prop where
  kept : Kept x d → Kept x e
  cpt : e.cpt = d.cpt

section
variable {x : Part} {d e c : Dev}

theorem Serves.refl (x : Part) (d : Dev) : Serves x d d := ⟨id, rfl⟩

theorem Serves.trans (h : Serves x d e) (g : Serves x e c) : Serves x d c := ⟨g.kept ∘ h.kept, g.cpt.trans h.cpt⟩

theorem serves_when {b : Prop} [Decidable b] (h : Serves x d e) : Serves x d (if b then e else d) := by
  split
  · exact h
  · exact .refl x d

theorem serves_ephRecAt (mt orbit ts kind slot req data : Nat) (d : Dev) :
    Serves x d (ephRecAt x.pid mt orbit ts kind slot req data d) := by
  refine ⟨fun ⟨y, here, same⟩ => ?_, (recordsOnly_ephRecAt ..).cpt⟩
  obtain ⟨e, recorded⟩ := getPart_ephRecAt here (congrArg Part.pid same :) mt orbit ts kind slot req data
  exact ⟨_, recorded, same⟩

theorem serves_ephRec (kind slot req data : Nat) (d : Dev) : Serves x d (ephRec x.pid kind slot req data d) := by
  refine ⟨fun ⟨y, here, same⟩ => ?_, (recordsOnly_ephRec ..).cpt⟩
  obtain ⟨e, recorded⟩ := getPart_ephRec here (congrArg Part.pid same :) kind slot req data
  exact ⟨_, recorded, same⟩

theorem serves_reqRec (w : Stamp) (kind slot : Nat) (id : BitVec 32) (data : Nat) (d : Dev) :
    Serves x d (reqRec x w kind slot id data d) := serves_when (serves_ephRecAt ..)

theorem serves_modReq (id : BitVec 32) (f : Req → Req) (d : Dev) : Serves x d (modReq x.pid id f d) := by
  refine ⟨fun ⟨y, here, same⟩ => ?_, modPart_cpt ..⟩
  exact ⟨_, (getPart_modPart_same ..).trans (congrArg (Option.map _) here), same⟩

theorem serves_eclipseReq (r : Req) (cause : Nat) (d : Dev) : Serves x d (eclipseReq x r cause d) :=
  (serves_modReq ..).trans (serves_reqRec ..)

theorem serves_rideSlot (r : Req) (s : Nat) (e : PlaceEntry) (cause : Nat) (d : Dev) : Serves x d (rideSlot x r s e cause d) := by
  refine .trans ?_ (serves_modReq ..)
  cases r.st with
  | waiting =>
    have placed := serves_reqRec (x := x) (stampNow d x) 0x02 s r.id e.gen.toNat d
    dsimp only
    split
    · exact placed
    · exact placed.trans (serves_reqRec ..)
  | eclipsed => exact serves_reqRec ..
  | running => exact .refl x d

end

/-! ### Pins (R240) -/

theorem ePinned_setBit (v : Nat) : ePinned (setBit v 1 true % 2 ^ 64) = true := by
  simp only [ePinned, bit, setBit, b2n, if_true, beq_iff_eq]
  split
  · omega
  · omega

theorem cptE_setCpt_same (i v : Nat) (d : Dev) : cptE (setCpt i v d) i = v % 2 ^ 64 := by
  simp [cptE, setCpt]

theorem cptE_setCpt_other {i j : Nat} (v : Nat) (d : Dev) (h : j ≠ i) : cptE (setCpt i v d) j = cptE d j := by
  simp [cptE, setCpt, tget_tput_other _ _ h]

theorem cptE_congr {d e : Dev} (h : e.cpt = d.cpt) (i : Nat) : cptE e i = cptE d i := by simp [cptE, h]

/-- The pages pinned are pinned, and so is what was. -/
theorem ePinned_pinPages (ps : List Nat) (d : Dev) (i : Nat) (h : i ∈ ps ∨ ePinned (cptE d i) = true) :
    ePinned (cptE (pinPages ps d) i) = true := by
  induction ps generalizing d with
  | nil => exact h.resolve_left List.not_mem_nil
  | cons p r ih =>
    refine ih _ ?_
    by_cases hp : i = p
    · right
      rw [hp, cptE_setCpt_same, ePinned_setBit]
    · rw [cptE_setCpt_other _ _ hp]
      simpa [hp] using h

theorem pinPages_parts (ps : List Nat) (d : Dev) : (pinPages ps d).parts = d.parts :=
  forEach_same Dev.parts (fun p d => setCpt p (setBit (cptE d p) 1 true) d) (fun _ _ => rfl) ps d

/-! ### The bank being built -/

/-- A bank built so far from a placement, in this module: it carries the placement's entries, its partition and the pins stand, and in
a single-module job its page lists name pinned pages alone (R241, R266, R270). -/
structure Built (x : Part) (t : Tab PlaceEntry) (d : Dev) (b : SlotBank) (c : Dev) : Prop where
  kept : Kept x c
  pins : ∀ i, ePinned (cptE d i) = true → ePinned (cptE c i) = true
  orbit : b.orbit = x.srv.nextFor
  places : ∀ k v, tget b.slots k = some v → (k, v.place) ∈ t
  pinned : x.job.modules ≤ 1 → ∀ i ∈ b.lists, ePinned (cptE c i) = true

section
variable {x : Part} {t : Tab PlaceEntry} {d c c' : Dev} {b : SlotBank} {s : Nat} {e : PlaceEntry}

theorem Built.serves (h : Built x t d b c) (r : Serves x c c') : Built x t d b c' := by
  refine ⟨r.kept h.kept, fun i hi => ?_, h.orbit, h.places, fun single i hi => ?_⟩
  · rw [cptE_congr r.cpt]; exact h.pins i hi
  · rw [cptE_congr r.cpt]; exact h.pinned single i hi

/-- A slot of the placement enters. -/
theorem Built.place (h : Built x t d b c) (mem : (s, e) ∈ t) {v : SlotEntry} (hv : v.place = e) :
    Built x t d { b with slots := tput b.slots s v } c := by
  refine ⟨h.kept, h.pins, h.orbit, fun k u hu => ?_, h.pinned⟩
  by_cases hk : k = s
  · subst hk
    rw [tget_tput_same, Option.some.injEq] at hu
    rwa [← hu, hv]
  · rw [tget_tput_other _ _ hk] at hu
    exact h.places k u hu

/-- In a larger job the lists may name any page (R268). -/
theorem Built.listMulti (h : Built x t d b c) (multi : 1 < x.job.modules) (ps : List Nat) :
    Built x t d { b with lists := b.lists ++ ps } c :=
  ⟨h.kept, h.pins, h.orbit, h.places, fun single => absurd multi (by omega)⟩

/-- Pages that are listed are pinned with that. -/
theorem Built.listPinned (h : Built x t d b c) (ps : List Nat) : Built x t d { b with lists := b.lists ++ ps } (pinPages ps c) := by
  refine ⟨?_, fun i hi => ePinned_pinPages ps c i (.inr (h.pins i hi)), h.orbit, h.places, fun single i hi => ?_⟩
  · obtain ⟨y, here, same⟩ := h.kept
    exact ⟨y, (congrArg (tget · x.pid) (pinPages_parts ps c)).trans here, same⟩
  · exact ePinned_pinPages ps c i ((List.mem_append.mp hi).symm.imp_right (h.pinned single i))

/-- A request that loses its slot is eclipsed where it ran (R241, R244). -/
theorem Built.eclipse (h : Built x t d b c) (r : Req) (cause : Nat) :
    Built x t d b (if r.st = .running then eclipseReq x r cause c else c) := h.serves (serves_when (serves_eclipseReq ..))

/-- A slot's turn in the table being built. -/
theorem buildSlot_built (h : Built x t d b c) (mem : (s, e) ∈ t) (f : List Nat) :
    Built x t d (buildSlot x s e (b, f, c)).1 (buildSlot x s e (b, f, c)).2.2 := by
  unfold buildSlot; dsimp only
  split
  case h_1 unknown =>
    split
    · exact h.place mem rfl
    · exact h
  case h_2 r known =>
    split
    case isTrue full =>
      split
      · exact (h.place mem rfl).serves (serves_rideSlot ..)
      · exact h.eclipse r 3
    case isFalse room =>
      split
      case isTrue fenced => exact (h.eclipse r 5).serves (serves_modReq ..)
      case isFalse unfenced =>
        split
        case h_1 p k fails =>
          have recorded := h.serves (serves_ephRec 0x16 s e.id.toNat (p + k * 2 ^ 20) c)
          split
          case isTrue multi =>
            exact ((recorded.listMulti (of_decide_eq_true multi) r.pages).place mem rfl).serves (serves_rideSlot ..)
          case isFalse single => exact recorded.eclipse r 4
        case h_2 good => exact ((h.listPinned r.pages).place mem rfl).serves (serves_rideSlot ..)

/-- The table of a placement, built slot by slot. -/
theorem foldl_buildSlot_built (l : Tab PlaceEntry) (sub : ∀ q ∈ l, q ∈ t) (a : SlotBank × List Nat × Dev)
    (h : Built x t d a.1 a.2.2) :
    let z := l.foldl (fun a q => buildSlot x q.1 q.2 a) a
    Built x t d z.1 z.2.2 := by
  induction l generalizing a with
  | nil => exact h
  | cons q r ih =>
    exact ih (fun u hu => sub u (.tail _ hu)) _ (buildSlot_built h (sub q (.head _)) a.2.1)

/-- A bank with nothing in it yet. -/
theorem built_empty (here : getPart d x.pid = some x) (t : Tab PlaceEntry) : Built x t d { orbit := x.srv.nextFor } d :=
  ⟨⟨x, here, rfl⟩, fun _ => id, rfl, fun _ _ h => (by cases h), fun _ _ h => (by cases h)⟩

end

/-- Every page of a slot stands in its bank's page list area (R270). -/
theorem mem_lists_of_mem_pagesOf {b : SlotBank} {v : SlotEntry} {i : Nat} (h : i ∈ pagesOf b v) : i ∈ b.lists :=
  List.mem_of_mem_drop (List.mem_of_mem_take h)

end Sys2Proof.Machine
end

section
/-! The obligation of the slot table (R95, R240, R241, R266, R272). -/

namespace Sys2Proof.Machine

open Sys2Proof

theorem exec_slotTableBuild (p : Fin 16) (s : State) : exec (.slotTableBuild p) s = on (whenMp (slotTableBuild p.val)) s := rfl

theorem exec_slotStageWrite (p : Fin 16) (s : State) : exec (.slotStageWrite p) s = on (whenAwake (slotStageWrite p.val)) s := rfl

/-- The serving engine with a bank ready beside the one in force. -/
def readyBank (b : SlotBank) (fences : List Nat) (s : Serving) : Serving := { s with
  bank0 := if s.bank then b else s.bank0, bank1 := if s.bank then s.bank1 else b, ready := true, fenceNext := fences }

theorem otherBank_readyBank (y : Part) (b : SlotBank) (fences : List Nat) :
    otherBank { y with srv := readyBank b fences y.srv } = b := by
  unfold otherBank readyBank
  cases y.srv.bank <;> rfl

theorem bankOf_readyBank (y : Part) (b : SlotBank) (fences : List Nat) :
    bankOf { y with srv := readyBank b fences y.srv } = bankOf y := by
  unfold bankOf readyBank
  cases y.srv.bank <;> rfl

/-- A running partition builds the table of the placement made, once. -/
theorem slotTableBuild_made {p : Nat} {x : Part} {t : Tab PlaceEntry} {d : Dev} (here : getPart d p = some x) (runs : x.plan = .running)
    (unready : x.srv.ready = false) (made : x.srv.next = .made t) :
    let z := t.foldl (fun a q => buildSlot x q.1 q.2 a) ({ orbit := x.srv.nextFor }, [], d)
    slotTableBuild p d = modSrv p (readyBank z.1 z.2.1) z.2.2 := by
  simp only [slotTableBuild, withPart_some _ here, made, runs, unready, ne_eq, not_true_eq_false, decide_false, Bool.or_self,
    Bool.false_eq_true, if_false]
  rfl

/-- No slot predicate changes outside tick 128 (R95). -/
theorem slotStageWrite_off {p : Nat} {x : Part} {d : Dev} (here : getPart d p = some x) (off : x.tick ≠ 128) :
    slotStageWrite p d = d := by
  have idle : (!active x || decide (x.tick ≠ 128) || x.staged) = true := by simp [off]
  rw [slotStageWrite, withPart_some _ here, if_pos idle]

/-- Settles O33: the table is built slot by slot from an empty bank, and takes its place in the bank that is not in force. -/
theorem slotTablesAreBuiltAside : Obligations.SlotTablesAreBuiltAside := by
  unfold Obligations.SlotTablesAreBuiltAside
  intro s p x t here own
  refine ⟨fun mp runs unready made => ?built, fun up off => ?off⟩
  case built =>
    let z := t.foldl (fun a q => buildSlot x q.1 q.2 a) ({ orbit := x.srv.nextFor }, [], s.dev)
    have built : Built x t s.dev z.1 z.2.2 := foldl_buildSlot_built t (fun _ => id) _ (built_empty (own ▸ here) t)
    obtain ⟨y, there, same⟩ := built.kept
    rw [own] at there
    have ready : getPart (modSrv p (readyBank z.1 z.2.1) z.2.2) p = some { y with srv := readyBank z.1 z.2.1 y.srv } := by
      rw [modSrv, getPart_modPart_same, there, Option.map_some]
    have cpt (i : Nat) : cptE (modSrv p (readyBank z.1 z.2.1) z.2.2) i = cptE z.2.2 i := cptE_congr (modPart_cpt ..) i
    refine ⟨_, _, gives_whenMp (exec_slotTableBuild p s) mp (slotTableBuild_made here runs unready made), ready, rfl, ?_, ?_, ?_⟩
    · exact (congrArg (fun w : Part => w.srv.bank) same :)
    · exact (bankOf_readyBank ..).trans (congrArg bankOf same :)
    rw [otherBank_readyBank]
    refine ⟨built.orbit, built.places, fun single k v hv i hi => ?_, fun i hi => ?_⟩
    · rw [cpt]; exact built.pinned single i (mem_lists_of_mem_pagesOf hi)
    · rw [cpt]; exact built.pins i hi
  case off => exact gives_whenAwake (exec_slotStageWrite p s) up (slotStageWrite_off here off)

end Sys2Proof.Machine
end

section
/-!
A refutation: a module whose table of partitions lists a number twice. `Dev.partsWf` speaks of the entries that `getPart` finds; a block
is looked up through the whole list (`partOfBlock`), the entries behind another of the same number too (R286, R350).
-/

namespace Sys2Proof.Machine

open Sys2Proof

/-- A plan of two modules in which logical port 0 of rank 0 faces rank 1. -/
def planOfTwo : PlanInfo where
  mask := 1
  relaxed := false
  tagged := false
  orbitLen := 16384
  boundaryLen := 0
  maxStep := 7
  hash := 0
  wref := ⟨0, true, false, 2, 4, 8, 8, 0, 0⟩
  topo := ⟨2, 0, false, 0, 0, 0, [(0, 1)], []⟩
  ports := []
  waits := []
  craterGen := 0
  seams := []

/-- Partition 5, whose discovery of that neighbour runs out at wall time 0. -/
def discovering : Part := { pid := 5, mask := 1, info := some planOfTwo, job := { st := .preparing } }

/-- What stands behind the entry of partition 1: a record of partition 5, READY. -/
def behind : Part := { discovering with job := { st := .ready } }

/-- The module: port 0 is UP, and the table lists partition 1 twice. -/
def listedTwice : Dev where
  ports := [(0, { st := .up })]
  parts := [(1, { pid := 1, mask := 0 }), (1, behind), (5, discovering)]
  glb := { mpReady := true }
  pwr := { resetHeld := false }

theorem getPart_listedTwice (p : Nat) : getPart listedTwice p =
    if 1 = p then some { pid := 1, mask := 0 } else if 1 = p then some behind else if 5 = p then some discovering else none := rfl

theorem partsWf_listedTwice : listedTwice.partsWf := by
  intro p x here
  rw [getPart_listedTwice] at here
  split_ifs at here with one five
  · exact Option.some.inj here ▸ one
  · exact Option.some.inj here ▸ five

/-- The neighbour of logical port 0 has not been found. -/
theorem facing_discovering : facing discovering = [(0, 0, 1)] := by decide

/-- Port 0 goes DARK for the partition that the block's lookup finds, which is the record behind: its job restarts discovery under
number 5, and the failure just set is overwritten. -/
theorem discTimeout_listedTwice : (getPart (discTimeout 5 listedTwice) 5).map (·.job.st) = some .preparing := by decide

theorem exec_discTimeout (p : Fin 16) (s : State) : exec (.discTimeout p) s = on (whenMp (discTimeout p.val)) s := rfl

/-- What a command gives is one module. -/
theorem Gives.unique {c : Instr} {s : State} {d e : Dev} (h : Gives c s d) (k : Gives c s e) : d = e :=
  congrArg State.dev (Host.Outcome.next.inj (h.symm.trans k))

/-- Refutes O40: a discovery that runs out need not leave its job FAILED. The statement asks of the table only that each entry
`getPart` finds carries its number; in `listedTwice` a hidden entry takes the failure back. -/
theorem not_jobsStartTheirPlan : ¬ Obligations.JobsStartTheirPlan := by
  unfold Obligations.JobsStartTheirPlan
  intro h
  obtain ⟨-, -, -, -, timeout, -⟩ := h { dev := listedTwice } 5 discovering partsWf_listedTwice rfl
  have missing : (facing discovering).filter (fun e => !discovering.job.discOk.getLsbD e.1) ≠ [] := by
    rw [facing_discovering]; decide
  have mp : mpUp listedTwice = true := by decide
  obtain ⟨e, y, gives, there, failed, -⟩ := (timeout mp rfl missing).1 (by decide)
  have stepped : Gives (.discTimeout 5) { dev := listedTwice } (discTimeout (5 : Fin 16).val listedTwice) :=
    gives_whenMp (exec_discTimeout ..) mp rfl
  have left : (getPart e (5 : Fin 16).val).map (·.job.st) = some .preparing := stepped.unique gives ▸ discTimeout_listedTwice
  rw [there, Option.map_some, failed] at left
  exact absurd left (by decide)

end Sys2Proof.Machine
end

section
/-! The obligation of the commands of the compute units (chapter 4). -/

namespace Sys2Proof.Machine

open Sys2Proof

/-! ### A command for a unit -/

/-- The effect of a command that a compute unit takes at its issue tick. -/
def onUnit (issue : (now idx qa qb qd ops : Nat) → Tile → Tile) : Effect :=
  fun c x no d => modTile no (issue x.now c.idx c.qa c.qb c.qd c.ops) d

theorem exec_matq (tile : Fin 2304) (s : State) : exec (.matq tile) s = on (whenAwake
    (issueCmd 0x01 false (fun c _ => matBad c.ops) (onUnit issueMat) tile.val)) s := rfl

theorem exec_vecq (tile : Fin 2304) (s : State) : exec (.vecq tile) s = on (whenAwake
    (issueCmd 0x02 false (fun c _ => vecBad c.ops) (onUnit issueVec) tile.val)) s := rfl

theorem exec_funq (tile : Fin 2304) (s : State) : exec (.funq tile) s = on (whenAwake
    (issueCmd 0x03 false (fun c _ => funBad c.ops) (onUnit issueFun) tile.val)) s := rfl

/-- A command for a unit that issues changes its tile alone: the tile is past the slot, and the unit has the command. -/
theorem gives_onUnit {opc no : Nat} {always : Bool} {bad : TileCmd → Tile → Bool} {x : Part} {s : State} {i : Instr}
    {issue : (now idx qa qb qd ops : Nat) → Tile → Tile} {u : Tile}
    (h : exec i s = on (whenAwake (issueCmd opc always bad (onUnit issue) no)) s) (r : Runs opc always no x s.dev)
    (ok : bad (fetch (getTile s.dev no)) (getTile s.dev no) = false)
    (hu : let c := fetch (getTile s.dev no)
      issue x.now c.idx c.qa c.qb c.qd c.ops (passed x (getTile s.dev no)) = u) : Gives i s (setTile s.dev no u) :=
  gives_issue h r ok ((modTile_setTile ..).trans (congrArg _ hu))

/-! ### What each unit takes -/

section
variable {now idx qa qb qd ops : Nat} {t : Tile}

theorem issueMat_frame : issueMat now idx qa qb qd ops t = { t with mat := (issueMat now idx qa qb qd ops t).mat } := rfl

theorem issueVec_frame : issueVec now idx qa qb qd ops t = { t with vec := (issueVec now idx qa qb qd ops t).vec } := rfl

theorem issueFun_frame : issueFun now idx qa qb qd ops t = { t with fn := (issueFun now idx qa qb qd ops t).fn } := rfl

theorem issueMat_acc : (issueMat now idx qa qb qd ops t).mat.acc = if bit ops 61 then [] else t.mat.acc := rfl

theorem issueMat_stat : (issueMat now idx qa qb qd ops t).mat.stat = [] := rfl

theorem issueMat_latch : (issueMat now idx qa qb qd ops t).mat.latch = if bit ops 63 then t.mat.latch else [] := rfl

/-- The matrix unit takes every MATQ; where the command drains, ACC goes out at the drain's first push tick (R118, R123). -/
theorem issueMat_takes : ∃ k, (issueMat now idx qa qb qd ops t).mat.cur = some k ∧ k.start = now ∧ k.qa = qa ∧ k.qb = qb ∧
    k.fa = fld ops 32 4 ∧ k.fb = fld ops 36 4 ∧ k.kb = fld ops 40 10 + 1 ∧ k.cols = fld ops 50 5 + 1 ∧
    (issueMat now idx qa qb qd ops t).mat.drain = if bit ops 62 then
      some ⟨now + matLw k + matS k + 7, BitVec.ofNat 32 ops, k.cols, fld ops 55 6 + 1, qd, idx⟩ else none :=
  ⟨_, rfl, rfl, rfl, rfl, rfl, rfl, rfl, rfl, rfl⟩

/-- A VECQ of no vectors leaves its unit without a command, an earlier one included (R117). -/
theorem issueVec_idle (none_ : fld ops 16 16 = 0) : (issueVec now idx qa qb qd ops t).vec.cur = none := if_pos none_

theorem issueVec_takes (some_ : fld ops 16 16 ≠ 0) : ∃ k, (issueVec now idx qa qb qd ops t).vec.cur = some k ∧ k.start = now ∧
    k.op = fld ops 0 6 ∧ k.n = fld ops 16 16 ∧ k.popped = 0 ∧ k.qa = qa ∧ k.qb = qb ∧ k.qd = qd ∧
    k.fi = fld ops 8 4 ∧ k.fo = fld ops 12 4 ∧ k.imm = BitVec.ofNat 32 (fld ops 32 32) :=
  ⟨_, if_neg some_, rfl, rfl, rfl, rfl, rfl, rfl, rfl, rfl, rfl, rfl⟩

/-- A FUNQ of no vectors leaves its unit without a command, an earlier one included (R117). -/
theorem issueFun_idle (none_ : fld ops 16 16 = 0) : (issueFun now idx qa qb qd ops t).fn.cur = none := if_pos none_

theorem issueFun_takes (some_ : fld ops 16 16 ≠ 0) : ∃ k, (issueFun now idx qa qb qd ops t).fn.cur = some k ∧ k.start = now ∧
    k.fn = fld ops 0 6 ∧ k.n = fld ops 16 16 ∧ k.popped = 0 ∧ k.qa = qa ∧ k.qb = qb ∧ k.qd = qd ∧
    k.fi = fld ops 8 4 ∧ k.fo = fld ops 12 4 :=
  ⟨_, if_neg some_, rfl, rfl, rfl, rfl, rfl, rfl, rfl, rfl, rfl⟩

end

/-- Settles O5, a unit at a time: the command issues on the tile past its slot, where the units still are as they were, and each unit
takes it in place of an earlier one. -/
theorem computeCommandsStartTheirUnit : Obligations.ComputeCommandsStartTheirUnit := by
  unfold Obligations.ComputeCommandsStartTheirUnit
  intro s no x t c
  refine ⟨fun r ok => ?matq, fun r ok => ?vecq, fun r ok => ?funq⟩
  case matq =>
    exact ⟨_, _, gives_onUnit (exec_matq no s) r ok issueMat_frame, rfl, issueMat_acc, issueMat_stat, issueMat_latch, issueMat_takes⟩
  case vecq => exact ⟨_, gives_onUnit (exec_vecq no s) r ok issueVec_frame, issueVec_idle, issueVec_takes⟩
  case funq => exact ⟨_, gives_onUnit (exec_funq no s) r ok issueFun_frame, issueFun_idle, issueFun_takes⟩

end Sys2Proof.Machine
end

section
/-!
A refutation: a LOAD of no elements in the request queue. R188 gives such a LOAD no entry, and no run puts one there, but the statement
takes the oldest entry as it stands.
-/

namespace Sys2Proof.Machine

open Sys2Proof

/-- A LOAD of no elements in the request queue of tile 0, for memory queue 0 and slot 0. -/
def emptyLoad : MemReq := {
  id := 0, isStore := false, q := 0, len := 0, width := 4, done := 0, pieces := [⟨4, .gddr 0⟩], orbit := 0, slot := some 0, idx := 0 }

/-- The partition of block 0. -/
def blockZero : Part := { pid := 0, mask := 1 }

/-- A tile of that partition with room in memory queue 0, slot 0 fenced at its memory moon, and every GDDR7 channel as reset left it. -/
def awaitingNothing : Dev where
  parts := [(0, blockZero)]
  tiles := [(0, { queues := [(24, { depth := 4, wcode := 1 })], reqs := [emptyLoad] })]
  mm := [(0, { slotFence := 1 })]
  pwr := { resetHeld := false }

/-- The fence finds nothing left to move, so that the piece stays in GDDR7, on a channel that is not UP. -/
theorem deliver_awaitingNothing : deliver 0 0 awaitingNothing = awaitingNothing := by decide +kernel

theorem exec_memoryDelivery (tile : Fin 2304) (q : Fin 4) (s : State) :
    exec (.memoryDelivery tile q) s = on (whenAwake (deliver tile.val q.val)) s := rfl

/-- Refutes O11: a LOAD whose slot is fenced need not deliver. In `awaitingNothing` its LOAD has no element left, and `fenceReq` voids
what is left alone. -/
theorem not_movementsOfDataLand : ¬ Obligations.MovementsOfDataLand := by
  unfold Obligations.MovementsOfDataLand
  intro h
  obtain ⟨-, delivery, -⟩ := h { dev := awaitingNothing } 0 0 (by decide)
  obtain ⟨-, fenced⟩ := delivery blockZero emptyLoad rfl rfl rfl rfl
  obtain ⟨e, gives, count, -⟩ := fenced (by decide +kernel)
  have stepped : Gives (.memoryDelivery 0 0) { dev := awaitingNothing } awaitingNothing :=
    gives_whenAwake (exec_memoryDelivery 0 0 _) (by decide) deliver_awaitingNothing
  rw [← stepped.unique gives] at count
  exact absurd count (by decide)

end Sys2Proof.Machine
end

section
/-!
Byte memories in canonical form (`Dev.memWf`), first for updates of the records: `rest` says that an update which writes none of
the bytes keeps the form, the others carry it through a choice, a fold, a table or a write. From here on one lemma for each
function of the model says that the function keeps the form; it has the function's name under `Dev.memWf` (under `Tile.memWf` and
`Work.memWf` for what works on one tile), so that the proofs read in the order the model applies the functions.
-/

namespace Sys2Proof.Machine

open Sys2Proof

/-- A tile's two memories are in their canonical form. -/
def Tile.memWf (t : Tile) : Prop := Mem.wf t.cmem = true ∧ Mem.wf t.spad = true

/-- The tile of a tick's work has its memories in their canonical form. -/
def Work.memWf (w : Work) : Prop := w.t.memWf

/-- A mailbox's two areas are in their canonical form. -/
def Mailbox.memWf (x : Mailbox) : Prop := Mem.wf x.req = true ∧ Mem.wf x.reply = true

section
variable {d e : Dev} {t u : Tile} {v w : Work} {x : Mailbox} {α β : Type} {c : Prop} [Decidable c]

theorem Dev.memWf_iff : d.memWf ↔ Mem.wf d.host = true ∧ Mem.wf d.gddr = true ∧ Mem.wf d.store.bytes = true ∧
    (∀ t, (getTile d t).memWf) ∧ ∀ m, (getMbx d m).memWf := Iff.rfl

protected theorem Dev.memWf.host (h : d.memWf) : Mem.wf d.host = true := h.1
protected theorem Dev.memWf.gddr (h : d.memWf) : Mem.wf d.gddr = true := h.2.1
protected theorem Dev.memWf.bytes (h : d.memWf) : Mem.wf d.store.bytes = true := h.2.2.1
protected theorem Dev.memWf.getTile (h : d.memWf) (t : Nat) : (getTile d t).memWf := h.2.2.2.1 t
protected theorem Dev.memWf.getMbx (h : d.memWf) (m : Nat) : (getMbx d m).memWf := h.2.2.2.2 m

theorem Tile.memWf_default : ({} : Tile).memWf := ⟨rfl, rfl⟩

section
variable {clk : Clk} {mt : Mt} {chans : Tab Chan} {mm : Tab MemMoon} {dma : Tab Dma} {ports : Tab Port} {parts : Tab Part}
  {glb : Glb} {ident : Ident} {rcv : Rcv} {pwr : Pwr} {otp : Otp} {rom : Rom} {flash : Flash} {crater : Crater} {flt : Flt}
  {sec : Sec} {jtag : JtagOp} {jrnA jrnB : List (List Byte)} {retired failing uncorr soft : List Nat} {corrected : Tab Nat}
  {corrMs : Option Nat} {imgs : Tab ImgSlot} {replayed stopping : Bool} {cfg : HostCfg} {msix : Tab MsixVec}
  {hostBad : List (Nat × Nat)} {cpt wpt : Tab (BitVec 64)} {cptBad wptBad : List Nat} {rot : Tab Nat} {ranks : Tab (BitVec 32)}
  {budgets : Tab (BitVec 128)} {bist : Option BistRun} {out : Out} {free : Nat}

/-- Whatever an update writes beside the tiles, the mailboxes and the bytes of host memory, GDDR7 and the weight store. -/
protected theorem Dev.memWf.rest (h : d.memWf) : Dev.memWf { d with
    clk, mt, chans, mm, dma, ports, parts, glb, ident, rcv, pwr, otp, rom, flash, crater, flt, sec, jtag
    store := {
      bytes := d.store.bytes, jrnA, jrnB, retired, failing, uncorr, soft, corrected, corrMs, imgs, replayed, stopping }
    cfg, msix, hostBad, cpt, wpt, cptBad, wptBad, rot, ranks, budgets, bist, out, free } := h
end

section
variable {mode : SeqMode} {halting resumable brkHit : Bool} {pc : Nat} {haltCause : BitVec 8} {loops : List Loop}
  {skipLeft nextIssue : Nat} {ended : Bool} {issueCount : BitVec 48} {brkCtrl : BitVec 64} {brkCount : BitVec 48}
  {brkTick : BitVec 40} {ctr0 ctr1 ctr2 ctr3 : BitVec 32} {pred : BitVec 4} {slotPred slotStage slotOld : BitVec 64}
  {seqStatus cmemDiscard : BitVec 32} {markLog : BitVec 64} {arithStatus : BitVec 32} {seqNew arithNew : BitVec 16}
  {wait : Option WaitSt} {queues : Tab Queue} {mat : MatUnit} {vec : VecUnit} {fn : FunUnit}
  {matPipe vecPipe fnPipe : List PipeItem} {eng : Engines} {router : Router} {reqs : List MemReq} {reqNext : Nat}
  {cmemBad spadBad : List Nat} {no : Nat} {tag : Option Hash} {bad : List HaltEv}

/-- Whatever an update writes beside the bytes of the command memory and the scratchpad. -/
protected theorem Tile.memWf.rest (h : t.memWf) : Tile.memWf { t with
    mode, halting, resumable, brkHit, pc, haltCause, loops, skipLeft, nextIssue, ended, issueCount, brkCtrl, brkCount, brkTick
    ctr0, ctr1, ctr2, ctr3, pred, slotPred, slotStage, slotOld, seqStatus, cmemDiscard, markLog, arithStatus, seqNew, arithNew
    wait, queues, mat, vec, fn, matPipe, vecPipe, fnPipe, eng, router, reqs, reqNext, cmemBad, spadBad } := h

protected theorem Work.memWf.rest (h : w.memWf) : Work.memWf { no, tag, bad, t := {
    cmem := w.t.cmem, spad := w.t.spad, mode, halting, resumable, brkHit, pc, haltCause, loops, skipLeft, nextIssue, ended
    issueCount, brkCtrl, brkCount, brkTick, ctr0, ctr1, ctr2, ctr3, pred, slotPred, slotStage, slotOld, seqStatus, cmemDiscard
    markLog, arithStatus, seqNew, arithNew, wait, queues, mat, vec, fn, matPipe, vecPipe, fnPipe, eng, router, reqs
    reqNext, cmemBad, spadBad } } := h

/-- A tile at work. -/
protected theorem Tile.memWf.work (h : t.memWf) : Work.memWf ⟨t, no, tag, bad⟩ := h
end

section
variable {st : MbxSt} {seq errReq errPost : BitVec 16} {postAt order : Nat} {begun : Bool}

/-- Whatever an update writes beside the bytes of the two areas. -/
protected theorem Mailbox.memWf.rest (h : x.memWf) : Mailbox.memWf { x with st, seq, errReq, errPost, postAt, order, begun } := h
end

protected theorem Dev.memWf.ite (h : d.memWf) (k : e.memWf) : (if c then d else e).memWf :=
  iteInduction (motive := Dev.memWf) (fun _ => h) fun _ => k

protected theorem Tile.memWf.ite (h : t.memWf) (k : u.memWf) : (if c then t else u).memWf :=
  iteInduction (motive := Tile.memWf) (fun _ => h) fun _ => k

protected theorem Work.memWf.ite (h : v.memWf) (k : w.memWf) : (if c then v else w).memWf :=
  iteInduction (motive := Work.memWf) (fun _ => h) fun _ => k

protected theorem Dev.memWf.iteSnd {p q : α × Dev} (h : p.2.memWf) (k : q.2.memWf) : (if c then p else q).2.memWf :=
  iteInduction (motive := fun r : α × Dev => r.2.memWf) (fun _ => h) fun _ => k

protected theorem Work.memWf.iteSnd {p q : α × Work} (h : p.2.memWf) (k : q.2.memWf) : (if c then p else q).2.memWf :=
  iteInduction (motive := fun r : α × Work => r.2.memWf) (fun _ => h) fun _ => k

/-- The device that a function of the model hands on beside its answer. -/
protected theorem Dev.memWf.of_eq {p : α × Dev} {a : α} (h : p.2.memWf) (eq : p = (a, e)) : e.memWf := by
  rw [eq] at h
  exact h

/-- The tile's work that a function of the model hands on beside its answer. -/
protected theorem Work.memWf.of_eq {p : α × Work} {a : α} (h : p.2.memWf) (eq : p = (a, w)) : w.memWf := by
  rw [eq] at h
  exact h

protected theorem Work.memWf.foldl {l : List α} {f : Work → α → Work} (h : w.memWf) (keep : ∀ a v, v.memWf → (f v a).memWf) :
    (l.foldl f w).memWf := List.foldlRecOn l f h fun v k a _ => keep a v k

protected theorem Work.memWf.foldlSnd {l : List α} {f : β × Work → α → β × Work} {a : β × Work} (h : a.2.memWf)
    (keep : ∀ x b, b.2.memWf → (f b x).2.memWf) : (l.foldl f a).2.memWf :=
  List.foldlRecOn (motive := fun b : β × Work => b.2.memWf) l f h fun b k x _ => keep x b k

protected theorem Dev.memWf.foldlSnd {l : List α} {f : β × Dev → α → β × Dev} {a : β × Dev} (h : a.2.memWf)
    (keep : ∀ x b, b.2.memWf → (f b x).2.memWf) : (l.foldl f a).2.memWf :=
  List.foldlRecOn (motive := fun b : β × Dev => b.2.memWf) l f h fun b k x _ => keep x b k

protected theorem Dev.memWf.forEach {l : List α} {f : α → Dev → Dev} (h : d.memWf) (keep : ∀ a e, e.memWf → (f a e).memWf) :
    (forEach l f d).memWf := forEach_keeps _ f keep l d h

/-- An update for each of a list, of which only those on the list need keep the memories. -/
protected theorem Dev.memWf.forEachOf {l : List α} {f : α → Dev → Dev} (h : d.memWf)
    (keep : ∀ a ∈ l, ∀ e, e.memWf → (f a e).memWf) : (forEach l f d).memWf :=
  List.foldlRecOn l (fun e a => f a e) h fun e k a there => keep a there e k

protected theorem Dev.memWf.setTile {no : Nat} (h : d.memWf) (k : t.memWf) : (setTile d no t).memWf := by
  refine Dev.memWf_iff.2 ⟨h.host, h.gddr, h.bytes, fun u => ?_, h.getMbx⟩
  by_cases same : u = no
  · rw [same, getTile_setTile_same]; exact k
  · rw [getTile_setTile_other d t same]; exact h.getTile u

protected theorem Dev.memWf.modTile {no : Nat} {f : Tile → Tile} (h : d.memWf) (keep : ∀ t, t.memWf → (f t).memWf) :
    (modTile no f d).memWf := h.setTile (keep _ (h.getTile no))

protected theorem Dev.memWf.modMbx {m : Nat} {f : Mailbox → Mailbox} (h : d.memWf) (keep : ∀ x, x.memWf → (f x).memWf) :
    (modMbx m f d).memWf := by
  refine Dev.memWf_iff.2 ⟨h.host, h.gddr, h.bytes, h.getTile, fun n => ?_⟩
  by_cases same : n = m
  · rw [same, getMbx_modMbx_same]; exact keep _ (h.getMbx m)
  · rw [getMbx_modMbx_other d f same]; exact h.getMbx n

/-- An update of every tile that the table lists. -/
protected theorem Dev.memWf.mapTiles (f : Tile → Tile) (h : d.memWf) (keep : ∀ t, t.memWf → (f t).memWf) :
    Dev.memWf { d with tiles := d.tiles.map (fun e => (e.1, f e.2)) } := by
  refine Dev.memWf_iff.2 ⟨h.host, h.gddr, h.bytes, fun no => ?_, h.getMbx⟩
  have k := h.getTile no
  unfold Machine.getTile at k ⊢
  simp only [tget_map]
  cases there : tget d.tiles no with
  | none => exact Tile.memWf_default
  | some t =>
    rw [there] at k
    exact keep t k

protected theorem Dev.memWf.writeGddr {m : Mem} (h : d.memWf) (k : Mem.wf m = true) : Dev.memWf { d with gddr := m } :=
  Dev.memWf_iff.2 ⟨h.host, k, h.bytes, h.getTile, h.getMbx⟩

protected theorem Dev.memWf.writeHost {m : Mem} (h : d.memWf) (k : Mem.wf m = true) : Dev.memWf { d with host := m } :=
  Dev.memWf_iff.2 ⟨k, h.gddr, h.bytes, h.getTile, h.getMbx⟩

protected theorem Dev.memWf.writeStore {s : Store} (h : d.memWf) (k : Mem.wf s.bytes = true) : Dev.memWf { d with store := s } :=
  Dev.memWf_iff.2 ⟨h.host, h.gddr, k, h.getTile, h.getMbx⟩

theorem filter_wf {m : Mem} (p : Nat × Byte → Bool) (h : Mem.wf m = true) : Mem.wf (List.filter p m) = true := by
  obtain ⟨sorted, nonzero⟩ := (Mem.wf_iff m).1 h
  exact (Mem.wf_iff _).2 ⟨sorted.filter _, fun cell there => nonzero cell (List.mem_of_mem_filter there)⟩

protected theorem Dev.memWf.modPart {p : Nat} {f : Part → Part} (h : d.memWf) : (modPart p f d).memWf := by
  unfold Machine.modPart
  split
  · exact h.rest
  · exact h

protected theorem Dev.memWf.withPart {p : Nat} {f : Part → Dev → Dev} (h : d.memWf) (keep : ∀ x e, e.memWf → (f x e).memWf) :
    (withPart p f d).memWf := by
  unfold Machine.withPart
  split
  · exact keep _ _ h
  · exact h
end

/-- A step that leaves every memory in its form, whatever next state it gives. -/
def KeepsMem (run : State → Host.Outcome State Fault Refusal) : Prop :=
  ∀ s t, s.dev.memWf → run s = .next t → t.dev.memWf

theorem keepsMem_on {f : Dev → Dev} (keep : ∀ d, d.memWf → (f d).memWf) : KeepsMem (on f) := fun _ _ h stepped => by
  rw [on_next stepped]
  exact keep _ h

end Sys2Proof.Machine
end

section
/-!
The memories under updates of the module's records and the conditions under which a command runs at all.
-/

namespace Sys2Proof.Machine

open Sys2Proof

variable {d : Dev} {m c q p w : Nat} {f : Dev → Dev} {throttle : Bool}

protected theorem Dev.memWf.setMoon {x : Moon} (h : d.memWf) : (setMoon d m x).memWf := h.rest

protected theorem Dev.memWf.modMoon {f : Moon → Moon} (h : d.memWf) : (modMoon m f d).memWf := h.setMoon

protected theorem Dev.memWf.modSlice {s : Nat} {f : MoonSlice → MoonSlice} (h : d.memWf) : (modSlice m s f d).memWf := h.modMoon

protected theorem Dev.memWf.modChan {f : Chan → Chan} (h : d.memWf) : (modChan c f d).memWf := h.rest

protected theorem Dev.memWf.modMm {f : MemMoon → MemMoon} (h : d.memWf) : (modMm q f d).memWf := h.rest

protected theorem Dev.memWf.modDma {f : Dma → Dma} (h : d.memWf) : (modDma c f d).memWf := h.rest

protected theorem Dev.memWf.modPort {f : Port → Port} (h : d.memWf) : (modPort p f d).memWf := h.rest

protected theorem Dev.memWf.setPart {x : Part} (h : d.memWf) : (setPart p x d).memWf := h.rest

protected theorem Tile.memWf.setQ {x : Queue} {t : Tile} (h : t.memWf) : (setQ q x t).memWf := h.rest

protected theorem Dev.memWf.advance {g : Nat} (h : d.memWf) : (advance g d).memWf := h.rest

protected theorem Dev.memWf.advanceTo (h : d.memWf) : (advanceTo w d).memWf := h.advance

protected theorem Dev.memWf.draw (h : d.memWf) : (draw w d).2.memWf := h.rest

protected theorem Dev.memWf.whenHw (h : d.memWf) (keep : ∀ a, a.memWf → (f a).memWf) : (whenHw f d).memWf := .ite (keep _ h) h

protected theorem Dev.memWf.whenHost (h : d.memWf) (keep : ∀ a, a.memWf → (f a).memWf) : (whenHost f d).memWf := .ite (keep _ h) h

protected theorem Dev.memWf.whenBell (h : d.memWf) (keep : ∀ a, a.memWf → (f a).memWf) : (whenBell f d).memWf := .ite (keep _ h) h

protected theorem Dev.memWf.whenAwake (h : d.memWf) (keep : ∀ a, a.memWf → (f a).memWf) : (whenAwake f d).memWf :=
  .ite (keep _ h) h

protected theorem Dev.memWf.whenMp (h : d.memWf) (keep : ∀ a, a.memWf → (f a).memWf) : (whenMp f d).memWf := .ite (keep _ h) h

protected theorem Dev.memWf.startStep {tgt : Nat} (h : d.memWf) : (startStep tgt throttle d).memWf := h.rest

protected theorem Dev.memWf.settleStep (h : d.memWf) : (settleStep throttle d).memWf := .ite h.rest (.ite h.startStep h)

protected theorem Dev.memWf.lowerTide (h : d.memWf) : (lowerTide d).memWf := h.rest.settleStep

end Sys2Proof.Machine
end

section
/-!
The memories under the clocks of the moons and the passing of wall time.
-/

namespace Sys2Proof.Machine

open Sys2Proof

variable {d : Dev} {w : Nat}

protected theorem Dev.memWf.modMoons {l : List Nat} {f : Moon → Moon} (h : d.memWf) : (modMoons l f d).memWf :=
  h.forEach fun _ _ k => k.modMoon

protected theorem Dev.memWf.beginTick (h : d.memWf) : (beginTick d).memWf :=
  ((h.forEach fun _ _ k => k.modMoon).forEach fun _ _ k => k.modMoon).advanceTo

protected theorem Dev.memWf.freeTicks (h : d.memWf) : (freeTicks d).memWf := h.forEach fun _ _ k => k.modMoon

protected theorem Dev.memWf.stepTicks {fuel : Nat} (h : d.memWf) : (stepTicks w fuel d).memWf := by
  induction fuel generalizing d with
  | zero => exact h
  | succ n ih => exact .ite (ih h.beginTick) h

protected theorem Dev.memWf.coast (h : d.memWf) : (coast w d).memWf := .ite h (.ite h.stepTicks h.stepTicks.modMoons)

protected theorem Dev.memWf.passTo (h : d.memWf) : (passTo w d).memWf := h.coast.advanceTo.freeTicks

protected theorem Dev.memWf.whenDue {f : Dev → Dev} (h : d.memWf) (keep : ∀ a, a.memWf → (f a).memWf) : (whenDue w f d).memWf :=
  .ite (keep _ h) (.ite (keep _ h.passTo) h)

protected theorem Dev.memWf.letPass {g : Nat} (h : d.memWf) : (letPass g d).memWf := .ite h.passTo h

end Sys2Proof.Machine
end

section
/-!
The memories under what the module reports. Only a ring of the ephemeris or of the digests takes bytes, in GDDR7.
-/

namespace Sys2Proof.Machine

open Sys2Proof

variable {d : Dev} {x : Part} {v mt orbit ts kind slot req data p no cls src cause part detail : Nat} {w : WaitSt}

protected theorem Dev.memWf.raiseVec (h : d.memWf) : (raiseVec v d).memWf := .ite h.rest h.rest

protected theorem Dev.memWf.setCpt {i : Nat} (h : d.memWf) : (setCpt i v d).memWf := h.rest

protected theorem Dev.memWf.ringWrite {first off : Nat} {bs : List Byte} (h : d.memWf) : (ringWrite first off bs d).memWf := by
  unfold ringWrite
  split
  · exact h.writeGddr (wrBs_wf _ _ _ h.gddr)
  · exact h

protected theorem Dev.memWf.ephWrite (h : d.memWf) : (ephWrite x mt orbit ts kind slot req data d).memWf := h.ringWrite.setPart

protected theorem Dev.memWf.ephLose (h : d.memWf) : (ephLose x d).memWf := .ite h.setPart.raiseVec h.setPart

protected theorem Dev.memWf.ephGap (h : d.memWf) : (ephGap p d).memWf := h.withPart fun _ _ k => .ite k.ephWrite.modPart k

protected theorem Dev.memWf.ephRecAt (h : d.memWf) : (ephRecAt p mt orbit ts kind slot req data d).memWf :=
  h.ephGap.withPart fun _ _ k => .ite k (.ite k.ephLose k.ephWrite)

protected theorem Dev.memWf.ephRec (h : d.memWf) : (ephRec p kind slot req data d).memWf := h.withPart fun _ _ k => k.ephRecAt

protected theorem Dev.memWf.ephAll {runningOnly : Bool} (h : d.memWf) : (ephAll runningOnly kind data d).memWf :=
  h.forEach fun _ _ k => .ite k k.ephRec

protected theorem Dev.memWf.writeDigest (h : d.memWf) : (writeDigest p d).memWf := by
  unfold writeDigest
  refine h.withPart fun _ _ k => ?_
  split
  · exact k
  · exact .ite k k.rest.ringWrite.setPart.ephRec.raiseVec

protected theorem Dev.memWf.closeDigest {last : BitVec 32} (h : d.memWf) : (closeDigest p last d).memWf :=
  h.withPart fun _ _ k => .ite k (.ite k.writeDigest k.setPart.writeDigest)

protected theorem Dev.memWf.addPending {sub unit block : Nat} (h : d.memWf) : (addPending sub unit block d).memWf := h.rest

protected theorem Dev.memWf.releasePins (h : d.memWf) : (releasePins p d).memWf := h.withPart fun _ _ k => .ite k k.rest

protected theorem Dev.memWf.eclipseAll (h : d.memWf) : (eclipseAll p d).memWf :=
  h.withPart fun _ _ k => .modPart (.ite (k.forEach fun _ _ l => l.ephRec) k)

protected theorem Dev.memWf.countHold {ns : Nat} (h : d.memWf) : (countHold no w ns d).memWf := h.modSlice

protected theorem Dev.memWf.endHold {start : Nat} (h : d.memWf) : (endHold no w start d).memWf := by
  unfold endHold
  extract_lets _ _ _ ended
  have k : ended.memWf := (h.modTile fun _ l => l.rest).countHold.modMoon.rest
  exact .ite k.ephAll k

protected theorem Dev.memWf.endHolds (h : d.memWf) : (endHolds x d).memWf := by
  unfold endHolds
  refine h.forEach fun _ _ k => ?_
  split
  · split
    · exact k.endHold
    · exact k
  · exact k

protected theorem Tile.memWf.parkTile {t : Tile} (h : t.memWf) : (parkTile t).memWf := h.rest

protected theorem Dev.memWf.parkTiles (h : d.memWf) : (parkTiles p d).memWf :=
  h.withPart fun _ _ k => ((k.forEach fun _ _ l => l.modTile fun _ n => n.parkTile).modPart).releasePins

protected theorem Dev.memWf.leaveRunning (h : d.memWf) : (leaveRunning p d).memWf := by
  unfold leaveRunning
  refine h.withPart fun x e k => ?_
  extract_lets ticks stopped parked
  have l : parked.memWf := .ite k.endHolds.modPart k.endHolds.modPart.parkTiles
  exact .ite k (.ite l.eclipseAll.closeDigest l)

protected theorem Dev.memWf.history (h : d.memWf) : (history cls src cause part detail d).memWf := .ite h.rest.raiseVec h.rest

protected theorem Dev.memWf.driveFault (h : d.memWf) : (driveFault d).memWf := h.rest

protected theorem Dev.memWf.haltParts (h : d.memWf) : (haltParts part d).memWf :=
  .ite (h.forEach fun _ _ k => k.leaveRunning) h.leaveRunning

protected theorem Dev.memWf.sealModule (h : d.memWf) : (sealModule d).memWf :=
  (h.mapTiles (fun t => { t with mode := .frozen }) fun _ k => k.rest).rest

protected theorem Dev.memWf.recordEvent (h : d.memWf) : (recordEvent cls src cause part detail d).memWf := by
  unfold recordEvent
  extract_lets entered raised data noted
  have k : raised.memWf := .ite h.history.raiseVec h.history
  have l : noted.memWf := .ite (.ite k.ephAll k.ephRec) k
  exact .ite l.driveFault l

protected theorem Dev.memWf.enterEvent (h : d.memWf) : (enterEvent cls src cause part detail d).memWf :=
  .ite (.sealModule (.ite h.recordEvent.haltParts h.recordEvent)) (.ite h.recordEvent.haltParts h.recordEvent)

protected theorem Dev.memWf.setEsc {e : Esc} (h : d.memWf) : (setEsc src e d).memWf := h.rest

protected theorem Dev.memWf.raiseDegrade {u : Option (Nat × Nat × Nat)} (h : d.memWf) :
    (raiseDegrade src cause part detail u d).memWf :=
  .ite h.enterEvent.setEsc.enterEvent h.enterEvent.setEsc

protected theorem Dev.memWf.raise (h : d.memWf) : (raise cls src cause part detail d).memWf := by
  unfold raise
  split
  · extract_lets _ _ noted u degraded queued
    have k : degraded.memWf := h.enterEvent.setEsc.raiseDegrade
    have l : queued.memWf := by
      unfold queued
      clear_value u
      split
      · exact k.addPending
      · exact k
    exact .ite (.ite l.lowerTide l) h.enterEvent.setEsc
  · exact h.raiseDegrade
  · exact h.enterEvent

end Sys2Proof.Machine
end

section
/-!
The memories under posting and answering commands. The answer's bytes go into a mailbox, and the host's memory is written at its
bytes.
-/

namespace Sys2Proof.Machine

open Sys2Proof

variable {d : Dev} {m st reason code : Nat} {pl : List Byte}

protected theorem Dev.memWf.hostWr {a : Nat} {bs : List Byte} (h : d.memWf) : (hostWr a bs d).memWf :=
  h.writeHost (wrBs_wf _ _ _ h.host)

protected theorem Dev.memWf.answer (h : d.memWf) : (answer m st reason pl d).memWf := by
  refine Dev.memWf.raiseVec (h.modMbx fun _ k => ?_)
  exact ⟨k.1, wrBs_wf _ _ _ k.2⟩

protected theorem Dev.memWf.beginCmd (h : d.memWf) : (beginCmd m d).memWf := h.modMbx fun _ k => k.rest

protected theorem Dev.memWf.command {f : List Byte → Dev → Dev} (h : d.memWf) (keep : ∀ a b, b.memWf → (f a b).memWf) :
    (command code m f d).memWf := by
  unfold command
  split
  · split
    · exact h.answer
    · exact .ite h.answer (keep _ _ h)
  · exact h

protected theorem Dev.memWf.partCommand {f : Part → List Byte → Dev → Dev} (h : d.memWf)
    (keep : ∀ a b c, c.memWf → (f a b c).memWf) : (partCommand code m f d).memWf := by
  unfold partCommand
  refine h.command fun _ _ k => ?_
  split
  · exact keep _ _ _ k
  · exact k

protected theorem Dev.memWf.answerBegun (h : d.memWf) : (answerBegun code st reason pl d).memWf :=
  h.forEach fun _ _ k => .ite k.answer k

protected theorem Dev.memWf.post (h : d.memWf) : (post m d).memWf := by
  unfold post
  dsimp only
  split
  · exact h.modMbx fun _ k => k.rest
  · exact h.modMbx fun _ k => k.rest
  · exact .ite (h.modMbx fun _ k => k.rest).rest.answer (h.modMbx fun _ k => k.rest).rest

theorem execPost_keepsMem {m : Fin 64} : KeepsMem (execPost m) := keepsMem_on fun _ h => h.whenHost fun _ k => k.post

protected theorem Dev.memWf.mpAccept (h : d.memWf) : (mpAccept m d).memWf := by
  unfold mpAccept
  dsimp only
  split
  · split
    · exact h.answer
    · exact .ite h.answer (h.modMbx fun _ k => k.rest)
  · exact h

theorem execMpAccept_keepsMem {m : Fin 64} : KeepsMem (execMpAccept m) := keepsMem_on fun _ h => h.mpAccept

protected theorem Dev.memWf.auto (h : d.memWf) : (auto m d).memWf := .ite (h.whenDue fun _ k => k.answer) h

theorem execAuto_keepsMem {m : Fin 64} : KeepsMem (execAuto m) := keepsMem_on fun _ h => h.whenHw fun _ k => k.auto

protected theorem Dev.memWf.shed (h : d.memWf) : (shed d).memWf :=
  .ite h.rest (h.rest.forEach fun _ _ k => .ite k.answer k).raiseVec

theorem execShed_keepsMem : KeepsMem execShed := keepsMem_on fun _ h => h.whenMp fun _ k => k.shed

protected theorem Dev.memWf.shedClear (h : d.memWf) : (shedClear d).memWf := by
  unfold shedClear
  split
  · exact h.whenDue fun _ k => k.rest
  · exact h

theorem execShedClear_keepsMem : KeepsMem execShedClear := keepsMem_on fun _ h => h.whenMp fun _ k => k.shedClear

end Sys2Proof.Machine
end

section
/-!
The memories under the fault logic's commands, self-test and the crater map.
-/

namespace Sys2Proof.Machine

open Sys2Proof

variable {d : Dev} {m : Fin 64}

theorem execFaultEvent_keepsMem {cls : BitVec 2} {src : BitVec 12} {cause : BitVec 16} {part : BitVec 8} {detail : BitVec 64} :
    KeepsMem (execFaultEvent cls src cause part detail) :=
  keepsMem_on fun _ h => h.whenHw fun _ k => k.raise

theorem execPulseEnd_keepsMem : KeepsMem execPulseEnd := keepsMem_on fun _ h => by
  split
  · exact h.whenDue fun _ k => k.rest
  · exact h

theorem execWatchdog_keepsMem : KeepsMem execWatchdog := keepsMem_on fun _ h => h.whenAwake fun _ k => .ite k k.rest.raise

theorem execSeFail_keepsMem : KeepsMem execSeFail := keepsMem_on fun _ h => h.whenAwake fun _ k => k.rest.raise

theorem execAliveToggle_keepsMem : KeepsMem execAliveToggle :=
  keepsMem_on fun _ h => .ite h (h.whenDue fun _ k => .ite k.rest.rest k.rest.rest)

theorem execFaultHoldClear_keepsMem : KeepsMem (execFaultHoldClear m) :=
  keepsMem_on fun _ h => .ite h.answer (h.command fun _ _ k => .ite k.rest.answer k.answer)

theorem execEscalationSet_keepsMem : KeepsMem (execEscalationSet m) :=
  keepsMem_on fun _ h => h.command fun _ _ k => .ite k.answer ((k.forEach fun _ _ l => l.setEsc).answer)

protected theorem Dev.memWf.writeSlot (h : d.memWf) : (writeSlot d).memWf := h.rest

protected theorem Dev.memWf.reportFind {f : Findings} {groups : BitVec 8} (h : d.memWf) : (reportFind f groups d).memWf :=
  .ite (h.forEach fun _ _ k => k.raiseDegrade).raise (h.forEach fun _ _ k => k.raiseDegrade)

theorem execCraterRead_keepsMem : KeepsMem (execCraterRead m) :=
  keepsMem_on fun _ h => h.command fun _ _ k => .ite k.hostWr.answer k.answer

theorem execBistRun_keepsMem : KeepsMem (execBistRun m) :=
  keepsMem_on fun _ h => h.command fun _ _ k => .ite k.answer (.ite k.answer (.ite k.answer (.ite k.answer (.ite k.answer
    k.rest.beginCmd))))

theorem execBistRunEnd_keepsMem {find : Findings} : KeepsMem (execBistRunEnd find) :=
  keepsMem_on fun _ h => h.whenMp fun d k => by
    split
    · exact k
    · next r _ =>
      extract_lets reported _ _ _ _ _ _ _ _ marked _ _ written
      have l : reported.memWf := k.reportFind
      have erased : Mem.wf (if r.full && r.groups.getLsbD 4 then [] else reported.gddr) = true := by
        split
        · rfl
        · exact l.gddr
      refine .ite l.rest ?_
      have m : marked.memWf := (l.writeGddr erased).rest
      have n : written.memWf := Dev.memWf.settleStep (Dev.memWf.writeSlot m.rest)
      exact .ite n.answer n

end Sys2Proof.Machine
end

section
/-!
The memories under power, temperature, the sideband and the host link.
-/

namespace Sys2Proof.Machine

open Sys2Proof

variable {d : Dev} {mv ca watts core : BitVec 16} {t : BitVec 40} {ok : BitVec 5} {f : Dev → Dev}

protected theorem Dev.memWf.throttle (h : d.memWf) : (throttle d).memWf := .ite h.settleStep h

protected theorem Dev.memWf.powerOver (h : d.memWf) : (powerOver d).memWf :=
  .ite h.rest (.ite h.rest (.ite (.ite h.rest h.rest.raise) h.rest.raise.throttle))

protected theorem Dev.memWf.measured (h : d.memWf) : (measured mv ca watts core d).memWf :=
  .ite (.powerOver (.ite h.rest.rest.throttle h.rest)) (.rest (.ite h.rest.rest.throttle h.rest))

theorem execPowerMeasurement_keepsMem : KeepsMem (execPowerMeasurement mv ca watts core) :=
  keepsMem_on fun _ h => h.whenAwake fun _ k => k.whenDue fun _ l => l.measured

theorem execPowerCeilingRaise_keepsMem : KeepsMem execPowerCeilingRaise := keepsMem_on fun _ h => by
  refine h.whenMp fun _ k => ?_
  split
  · exact k
  · exact k.whenDue fun _ l => .ite l.rest l.rest.rest.throttle

theorem execInputRange_keepsMem {out : Bool} : KeepsMem (execInputRange out) :=
  keepsMem_on fun _ h => h.whenAwake fun _ k => .ite k.rest.raise.throttle k.rest.throttle

protected theorem Dev.memWf.thermCheck {k : Nat} (h : d.memWf) : (thermCheck k d).memWf := by
  unfold thermCheck
  dsimp only
  split
  · exact h.raise
  · split
    · split
      · exact h.rest
      · exact .ite h h.rest.raise.throttle
    · exact h.rest

protected theorem Dev.memWf.thermCool (h : d.memWf) : (thermCool d).memWf := by
  unfold thermCool
  split
  · split
    · exact h.rest
    · exact .ite h h.rest.throttle
  · exact h.rest

protected theorem Dev.memWf.thermRead (h : d.memWf) : (thermRead t ok d).memWf :=
  .ite (h.rest.forEach fun _ _ k => k.thermCheck).throttle (h.rest.forEach fun _ _ k => k.thermCheck).throttle.thermCool

theorem execThermalRead_keepsMem : KeepsMem (execThermalRead t ok) :=
  keepsMem_on fun _ h => h.whenMp fun _ k => k.whenDue fun _ l => l.thermRead

theorem execSensorFail_keepsMem {s : Fin 5} : KeepsMem (execSensorFail s) :=
  keepsMem_on fun _ h => h.whenMp fun _ k => k.rest.raise.throttle

theorem execVcoreUv_keepsMem : KeepsMem execVcoreUv := keepsMem_on fun _ h => h.whenAwake fun _ k => k.raise

theorem execVcoreOv_keepsMem : KeepsMem execVcoreOv := keepsMem_on fun _ h => h.whenAwake fun _ k => k.raise

theorem execVcoreOcp_keepsMem : KeepsMem execVcoreOcp := keepsMem_on fun _ h => h.whenAwake fun _ k => k.raise

theorem execPhaseFail_keepsMem : KeepsMem execPhaseFail := keepsMem_on fun _ h => h.whenAwake fun _ k => k.rest.raise.throttle

protected theorem Dev.memWf.respond {l : List Byte} (h : d.memWf) : (respond l d).memWf := h.rest

protected theorem Dev.memWf.fromVendor (h : d.memWf) : (fromVendor d).memWf := h.rest

protected theorem Dev.memWf.sideband (h : d.memWf) (keep : ∀ a, a.memWf → (f a).memWf) : (sideband f d).memWf :=
  .ite h.respond (.fromVendor (.ite h.respond (keep _ h)))

theorem execIdentRead_keepsMem : KeepsMem execIdentRead := keepsMem_on fun _ h => h.sideband fun _ k => k.respond

theorem execSensorRead_keepsMem : KeepsMem execSensorRead := keepsMem_on fun _ h => h.sideband fun _ k => k.respond

theorem execPowerLimit_keepsMem : KeepsMem (execPowerLimit watts) :=
  keepsMem_on fun _ h => h.sideband fun _ k => .ite k.respond k.rest.respond

theorem execFaultSummary_keepsMem : KeepsMem execFaultSummary := keepsMem_on fun _ h => h.sideband fun _ k => k.respond

theorem execQuiesce_keepsMem : KeepsMem execQuiesce :=
  keepsMem_on fun _ h => h.sideband fun _ k => (k.forEach fun _ _ l => l.leaveRunning).respond

protected theorem Dev.memWf.mctp (h : d.memWf) (keep : ∀ a, a.memWf → (f a).memWf) : (mctp f d).memWf := .ite (keep _ h) h.respond

theorem execSetEndpointId_keepsMem {eid : BitVec 8} : KeepsMem (execSetEndpointId eid) :=
  keepsMem_on fun _ h => h.mctp fun _ k => .ite k.respond k.rest.respond

theorem execGetEndpointId_keepsMem : KeepsMem execGetEndpointId := keepsMem_on fun _ h => h.mctp fun _ k => k.respond

theorem execGetMctpVersionSupport_keepsMem {ty : BitVec 8} : KeepsMem (execGetMctpVersionSupport ty) :=
  keepsMem_on fun _ h => h.mctp fun _ k => .ite k.respond k.respond

theorem execGetMessageTypeSupport_keepsMem : KeepsMem execGetMessageTypeSupport :=
  keepsMem_on fun _ h => h.mctp fun _ k => k.respond

theorem execSnoop_keepsMem : KeepsMem execSnoop := keepsMem_on fun _ h => h.whenAwake fun _ k => k.rest

theorem execBiasFlip_keepsMem : KeepsMem execBiasFlip := keepsMem_on fun _ h => h.whenAwake fun _ k => k.rest

theorem execHostLinkTrained_keepsMem {cxl : Bool} {width rate : BitVec 3} : KeepsMem (execHostLinkTrained cxl width rate) :=
  keepsMem_on fun _ h => h.whenAwake fun _ k => .ite k (.ite k.rest k.rest.raise.raiseVec)

theorem execPerstN_keepsMem : KeepsMem execPerstN := keepsMem_on fun _ h => .ite h h.rest

theorem execHeartbeatIncrement_keepsMem {busy : BitVec 10} : KeepsMem (execHeartbeatIncrement busy) :=
  keepsMem_on fun _ h => h.whenMp fun _ k => k.whenDue fun _ l => l.rest

theorem execBar0ErrRead_keepsMem {off : BitVec 26} {bytes : Nat} : KeepsMem (execBar0ErrRead off bytes) :=
  keepsMem_on fun _ h => .ite h h.rest

end Sys2Proof.Machine
end

section
/-!
The memories under the weight store and the installation commands. A block is erased, then programmed.
-/

namespace Sys2Proof.Machine

open Sys2Proof

variable {d : Dev} {slot index n : Nat} {i : ImgSlot} {r : JrnRec} {m : Fin 64}

protected theorem Dev.memWf.setImg (h : d.memWf) : (setImg slot i d).memWf := h.rest

protected theorem Dev.memWf.writeJrnA (h : d.memWf) : (writeJrnA r d).memWf := h.rest

protected theorem Dev.memWf.writeJrnB (h : d.memWf) : (writeJrnB r d).memWf := h.rest

protected theorem Dev.memWf.journal {kind sblk : Nat} (h : d.memWf) : (journal kind slot sblk index d).memWf :=
  h.writeJrnA.writeJrnB

protected theorem Dev.memWf.eraseBlock {b : Nat} (h : d.memWf) : (eraseBlock b d).memWf := h.writeStore (zeroBs_wf _ _ _ h.bytes)

protected theorem Dev.memWf.deleteImage (h : d.memWf) : (deleteImage slot d).memWf := by
  unfold deleteImage
  split
  · exact h
  · exact (h.journal.forEach fun _ _ k => k.eraseBlock.journal).rest

protected theorem Dev.memWf.countSoft {cs : List Nat} (h : d.memWf) : (countSoft cs d).memWf := .ite h (.ite h.rest h.rest.raise)

protected theorem Dev.memWf.storeNote {a : Nat} (h : d.memWf) : (storeNote a n d).memWf := h.countSoft

protected theorem Dev.memWf.imgNote {off : Nat} (h : d.memWf) : (imgNote i off n d).memWf := h.forEach fun _ _ k => k.storeNote

theorem execInstallOpen_keepsMem : KeepsMem (execInstallOpen m) := keepsMem_on fun _ h => by
  refine h.command fun _ _ k => ?_
  dsimp only
  split
  · exact k.answer
  · split
    · exact k.answer
    · split
      · exact k.answer
      · split
        · exact k.rest.answer
        · split
          · exact k.answer
          · split
            · exact .answer (.ite k.rest k)
            · exact .answer (.rest (.forEach (.raise (.ite k.rest k)) fun _ _ l => l.ephRec))

protected theorem Dev.memWf.installReady {m : Nat} {f : Dev → Dev} (h : d.memWf) (keep : ∀ a, a.memWf → (f a).memWf) :
    (installReady m f d).memWf :=
  .ite h.answer (keep _ h)

theorem execImageBegin_keepsMem : KeepsMem (execImageBegin m) := keepsMem_on fun _ h => by
  refine h.command fun _ _ k => k.installReady fun _ l => ?_
  dsimp only
  split
  · exact l.answer
  · split
    · exact .ite l.answer (.ite l.answer l.answer)
    · exact l.journal.setImg.answer

protected theorem Dev.memWf.programBlock {bytes : List Byte} {fuel : Nat} (h : d.memWf) :
    (programBlock slot index bytes fuel d).2.memWf := by
  induction fuel generalizing d with
  | zero => exact h
  | succ n ih =>
    unfold programBlock
    split
    · exact h
    · refine .iteSnd (ih h.journal.journal.rest) ?_
      exact (h.journal.eraseBlock.writeStore (wrBs_wf _ _ _ h.journal.eraseBlock.bytes)).journal

theorem execBlockWrite_keepsMem : KeepsMem (execBlockWrite m) :=
  keepsMem_on fun _ h => h.command fun _ _ k => k.installReady fun e l => by
    dsimp only
    split
    · exact l.answer
    · refine .ite l.answer (.ite l.answer (.ite l.answer (.ite l.answer ?_)))
      split
      · next d programmed => exact (Dev.memWf.of_eq l.programBlock programmed).answer
      · next d programmed => exact (Dev.memWf.of_eq l.programBlock programmed).setImg.answer

protected theorem Dev.memWf.shardNotes {man : ManInfo} {es : List (Nat × Shard)} (h : d.memWf) : (shardNotes i man es d).memWf :=
  h.forEach fun _ _ k => k.imgNote

theorem execImageCommit_keepsMem : KeepsMem (execImageCommit m) := keepsMem_on fun _ h => by
  refine h.command fun _ _ k => k.installReady fun _ l => ?_
  dsimp only
  split
  · exact l.answer
  · split
    · exact l.answer
    · split
      · exact l.answer
      · split
        · exact l.imgNote.answer
        · split
          · exact l.imgNote.shardNotes.answer
          · exact l.imgNote.shardNotes.journal.setImg.answer

theorem execImageDelete_keepsMem : KeepsMem (execImageDelete m) :=
  keepsMem_on fun _ h => h.command fun _ _ k => k.installReady fun _ l => .ite l.answer (.ite l.answer l.deleteImage.answer)

theorem execInstallClose_keepsMem : KeepsMem (execInstallClose m) :=
  keepsMem_on fun _ h => h.command fun _ _ k => k.installReady fun _ l => l.rest.answer

theorem execJournalReplay_keepsMem : KeepsMem execJournalReplay :=
  keepsMem_on fun _ h => h.whenAwake fun _ k => .ite k ((k.rest.forEach fun _ _ l => l.eraseBlock.journal).forEach fun _ _ l =>
    l.imgNote).rest

theorem execStoreReady_keepsMem : KeepsMem execStoreReady := keepsMem_on fun _ h => h.whenAwake fun _ k => .ite k.rest k

theorem execDirRead_keepsMem : KeepsMem (execDirRead m) :=
  keepsMem_on fun _ h => h.command fun _ _ k => .ite k.answer (.ite k.answer k.hostWr.answer)

end Sys2Proof.Machine
end

section
/-!
The memories under tokens, the life cycle, attestation and the test port.
-/

namespace Sys2Proof.Machine

open Sys2Proof

variable {d : Dev} {target : BitVec 3} {slot index : BitVec 8} {nonce : BitVec 256} {id : BitVec 32} {s : Fin 3}

protected theorem Dev.memWf.eraseImages (h : d.memWf) : (eraseImages d).memWf :=
  .forEach (.ite h h.rest) fun _ _ k => k.deleteImage

protected theorem Dev.memWf.lcErase (h : d.memWf) : (lcErase target d).memWf := by
  unfold lcErase
  dsimp only
  split
  · exact Dev.memWf_iff.2 ⟨h.host, h.gddr, rfl, h.getTile, h.getMbx⟩
  · exact h.rest.eraseImages
  · exact .ite h.rest.eraseImages h
  · exact h

protected theorem Dev.memWf.lcMove (h : d.memWf) : (lcMove target d).memWf := h.rest.lcErase.rest

protected theorem Dev.memWf.applyToken {host : Nat} {t : List Byte} (h : d.memWf) : (applyToken host t d).memWf := by
  unfold applyToken
  split
  · exact h.rest
  · exact h.rest
  · exact h.rest
  · exact h.rest.lcMove
  · exact h.lcMove
  · exact h.lcMove
  · exact h.lcMove
  · exact h.rest.lcMove
  · exact h

theorem execTokenApply_keepsMem {m : Fin 64} : KeepsMem (execTokenApply m) := keepsMem_on fun _ h => by
  refine h.command fun _ _ k => ?_
  dsimp only
  split
  · exact k.draw.rest.answer
  · split
    · exact k.answer
    · split
      · exact .answer (.ite k.rest k)
      · exact .answer (.ephAll (.raise (.applyToken (.ite k.rest k))))
  · exact k.answer

protected theorem Dev.memWf.spdm {need : Nat} {f : Dev → Dev} (h : d.memWf) (keep : ∀ a, a.memWf → (f a).memWf) :
    (spdm need f d).memWf :=
  .ite h.respond (.ite h.respond (keep _ h))

theorem execGetVersion_keepsMem : KeepsMem execGetVersion := keepsMem_on fun _ h => .ite h.respond h.rest.respond

theorem execGetCapabilities_keepsMem : KeepsMem execGetCapabilities := keepsMem_on fun _ h => h.spdm fun _ k => k.rest.respond

theorem execNegotiateAlgorithms_keepsMem {asym hash : BitVec 32} {dhe aead : BitVec 16} :
    KeepsMem (execNegotiateAlgorithms asym hash dhe aead) :=
  keepsMem_on fun _ h => h.spdm fun _ k => .ite k.rest.respond k.respond

theorem execGetDigests_keepsMem : KeepsMem execGetDigests := keepsMem_on fun _ h => h.spdm fun _ k => k.respond

theorem execGetCertificate_keepsMem {off len : BitVec 16} : KeepsMem (execGetCertificate slot off len) :=
  keepsMem_on fun _ h => h.spdm fun _ k => .ite k.respond k.respond

protected theorem Dev.memWf.signed {l : List Byte} {nonce : Nat} (h : d.memWf) : (signed l nonce d).memWf := h.rest.respond

theorem execChallenge_keepsMem : KeepsMem (execChallenge slot nonce) :=
  keepsMem_on fun _ h => h.spdm fun _ k => .ite k.respond k.rest.signed

theorem execGetMeasurements_keepsMem {sign : Bool} : KeepsMem (execGetMeasurements index sign nonce) := keepsMem_on fun _ h => by
  refine h.spdm fun _ k => ?_
  dsimp only
  split
  · exact k.respond
  · exact .ite k.signed k.respond

theorem execKeyExchange_keepsMem {id : BitVec 16} {share : BitVec 768} : KeepsMem (execKeyExchange slot id share) :=
  keepsMem_on fun _ h => h.spdm fun _ k => .ite k.respond (.ite k.respond k.rest.rest.rest.signed)

protected theorem Dev.memWf.inSession {f : Session → Dev → Dev} (h : d.memWf) (keep : ∀ a b, b.memWf → (f a b).memWf) :
    (inSession id f d).memWf := by
  unfold inSession
  refine h.spdm fun _ k => ?_
  split
  · exact keep _ _ k
  · exact k.respond

protected theorem Dev.memWf.modSession {f : Session → Session} (h : d.memWf) : (modSession id f d).memWf := h.rest

protected theorem Dev.memWf.dropSession (h : d.memWf) : (dropSession id d).memWf := h.rest

theorem execFinish_keepsMem {ok : Bool} : KeepsMem (execFinish id ok) :=
  keepsMem_on fun _ h => h.inSession fun _ _ k => .ite k.respond (.ite k.modSession.respond k.dropSession.respond)

theorem execKeyUpdate_keepsMem : KeepsMem (execKeyUpdate id) :=
  keepsMem_on fun _ h => h.inSession fun _ _ k => .ite k.modSession.respond k.respond

theorem execHeartbeat_keepsMem : KeepsMem (execHeartbeat id) := keepsMem_on fun _ h => h.inSession fun _ _ k => k.respond

theorem execEndSession_keepsMem : KeepsMem (execEndSession id) :=
  keepsMem_on fun _ h => h.inSession fun _ _ k => .ite k.dropSession.respond k.respond

theorem execIdeKeyManagement_keepsMem : KeepsMem (execIdeKeyManagement id s) :=
  keepsMem_on fun _ h => h.inSession fun _ _ k => .ite k.respond k.rest.respond

theorem execIdeIntegrity_keepsMem : KeepsMem (execIdeIntegrity s) :=
  keepsMem_on fun _ h => h.whenAwake fun _ k => .ite k k.rest.raise

theorem execDoeDiscovery_keepsMem : KeepsMem (execDoeDiscovery index) :=
  keepsMem_on fun _ h => .ite h.respond (.ite h.respond h.respond)

theorem execIeee11491Instruction_keepsMem {ins : JtagOp} : KeepsMem (execIeee11491Instruction ins) :=
  keepsMem_on fun _ h => .ite h h.rest

end Sys2Proof.Machine
end

section
/-!
The memories under resets and the start-up sequence. What a reset forgets is empty afterwards, and what it keeps stands as it did.
-/

namespace Sys2Proof.Machine

open Sys2Proof

variable {d : Dev} {find : Findings}

protected theorem Dev.memWf.keepStored (h : d.memWf) : (keepStored d).memWf :=
  Dev.memWf_iff.2 ⟨h.host, rfl, h.bytes, fun _ => Tile.memWf_default, fun _ => ⟨rfl, rfl⟩⟩

protected theorem Dev.memWf.cutShort (h : d.memWf) : (cutShort d).memWf := .ite h (.ite h h.rest.rest)

protected theorem Dev.memWf.moduleReset (h : d.memWf) : (moduleReset d).memWf := by
  have kept := h.cutShort.keepStored
  have spads := h.mapTiles (fun t => { spad := t.spad, spadBad := t.spadBad }) fun _ k => ⟨rfl, k.2⟩
  exact Dev.memWf_iff.2 ⟨kept.host, kept.gddr, kept.bytes, spads.getTile, kept.getMbx⟩

protected theorem Dev.memWf.unpowered (h : d.memWf) : (unpowered d).memWf := h.cutShort.keepStored.rest

theorem execInputRise_keepsMem : KeepsMem execInputRise := keepsMem_on fun _ h => by
  split
  · exact h
  · refine .keepStored ?_
    split
    · exact h.advanceTo
    · exact h

theorem execInputFall_keepsMem : KeepsMem execInputFall := keepsMem_on fun _ h => .ite h.rest h

theorem execHoldUpEnd_keepsMem : KeepsMem execHoldUpEnd := keepsMem_on fun _ h => .ite (h.whenDue fun _ k => k.rest.unpowered) h

theorem execOvervoltage_keepsMem : KeepsMem execOvervoltage := keepsMem_on fun _ h => .ite h.unpowered h

theorem execRailFail_keepsMem {k : Fin 8} : KeepsMem (execRailFail k) := keepsMem_on fun _ h => .ite h (.ite h.rest h.rest.raise)

theorem execRstN_keepsMem {ns : Nat} : KeepsMem (execRstN ns) :=
  keepsMem_on fun _ h => .ite h.letPass (.ite h.letPass.moduleReset (.ite h.letPass.rest.moduleReset h.letPass.rest))

protected theorem Dev.memWf.recoveryWait {reason : Nat} (h : d.memWf) : (recoveryWait reason d).memWf := h.rest

protected theorem Dev.memWf.startImage {st : BitVec 3} {host : Bool} {img : List Byte} (h : d.memWf) :
    (startImage st host img d).memWf := by
  unfold startImage
  exact h.rest

protected theorem Dev.memWf.stepEnded {n : Nat} (h : d.memWf) : (stepEnded n d).memWf := h.rest

protected theorem Dev.memWf.startClocks (h : d.memWf) : (startClocks find d).memWf :=
  .stepEnded (.forEach (.ite h.rest.raise h.rest) fun _ _ k => k.raise)

protected theorem Dev.memWf.trainChannels {marked : List Nat} (h : d.memWf) : (trainChannels find marked d).memWf :=
  (h.rest.forEach fun _ _ k => .ite k.raise k).stepEnded

protected theorem Dev.memWf.mergeCrater (h : d.memWf) : (mergeCrater find d).memWf :=
  .stepEnded (.ite (.writeSlot (.rest (.ite h.raise h))) (.rest (.ite h.raise h)))

protected theorem Dev.memWf.mpReady (h : d.memWf) : (mpReady d).memWf := h.rest.stepEnded.raiseVec

protected theorem Dev.memWf.zeroSpads (h : d.memWf) : (zeroSpads d).memWf :=
  h.mapTiles (fun t => { t with spad := [], spadBad := [] }) fun _ k => ⟨k.1, rfl⟩

protected theorem Dev.memWf.startUp (h : d.memWf) : (startUp find d).memWf := by
  unfold startUp
  extract_lets clocked reported _ tested _ zeroed merged checked
  have k : reported.memWf := h.startClocks.reportFind
  have l : tested.memWf := k.stepEnded
  have m : merged.memWf := l.zeroSpads.stepEnded.trainChannels.mergeCrater
  have n : checked.memWf := .ite m m.raise
  exact .ite k.rest (.ite l.rest.raise n.mpReady)

theorem execInternalResetRelease_keepsMem : KeepsMem (execInternalResetRelease find) :=
  keepsMem_on fun _ h => by
    refine .ite h ?_
    extract_lets _ _ _ released moved
    have k : released.memWf := h.advance.rest
    have l : moved.memWf := by
      unfold moved
      split
      · exact k.lcMove
      · exact k
    refine .ite l.recoveryWait ?_
    split
    · exact l.recoveryWait
    · exact .ite l.recoveryWait l.startImage.startUp

protected theorem Dev.memWf.writeGo (h : d.memWf) : (writeGo d).memWf := .ite h h.rest

protected theorem Dev.memWf.recoveryGo (h : d.memWf) : (recoveryGo find d).memWf := by
  unfold recoveryGo
  dsimp only
  split
  · exact h.writeGo
  · split
    · exact h.writeGo.rest
    · split
      · exact h.writeGo.rest
      · exact .ite (.ite h.writeGo.rest h.writeGo.rest.startImage.startUp) h.writeGo.rest.startImage.startUp

theorem execRecoveryGo_keepsMem : KeepsMem (execRecoveryGo find) := keepsMem_on fun _ h => h.whenAwake fun _ k => k.recoveryGo

end Sys2Proof.Machine
end

section
/-!
The memories under tile steps, tides, references, PLLs and seam groups.
-/

namespace Sys2Proof.Machine

open Sys2Proof

variable {d : Dev} {ns m ps : Nat} {tgt : BitVec 3} {moon : Fin 45} {b v : Bool} {pll : Fin 12} {g : Fin 9}

protected theorem Dev.memWf.clkEvent {bits : Nat} (h : d.memWf) : (clkEvent bits d).memWf := .ite h.rest.ephAll h.rest

protected theorem Dev.memWf.resumeTiles {w : Nat} (h : d.memWf) : (resumeTiles w d).memWf := h.advanceTo.rest

protected theorem Dev.memWf.goStep (h : d.memWf) : (goStep tgt d).memWf := .ite h.rest h.rest.startStep

theorem execGo_keepsMem : KeepsMem (execGo tgt) := keepsMem_on fun _ h => h.whenAwake fun _ k => k.goStep

protected theorem Dev.memWf.stepSettled (h : d.memWf) : (stepSettled d).memWf := h.answerBegun.answerBegun

protected theorem Dev.memWf.takeStep (h : d.memWf) : (takeStep d).memWf := h.rest

protected theorem Dev.memWf.nextStep (h : d.memWf) : (nextStep d).memWf :=
  .ite h.rest.startStep (.ite h.rest.startStep h.rest.stepSettled)

protected theorem Dev.memWf.stepChangeResume (h : d.memWf) : (stepChangeResume ns d).memWf :=
  .ite h (.nextStep (.ite h.resumeTiles.takeStep.ephAll h.resumeTiles.takeStep))

theorem execStepChangeResume_keepsMem : KeepsMem (execStepChangeResume ns) :=
  keepsMem_on fun _ h => h.whenAwake fun _ k => k.stepChangeResume

theorem execStepLimit_keepsMem {m : Fin 64} : KeepsMem (execStepLimit m) :=
  keepsMem_on fun _ h => h.command fun _ _ k => .ite k.answer (.ite (.beginCmd (.ite k.rest k.rest.startStep)) k.rest.answer)

protected theorem Dev.memWf.drawBytes {n : Nat} (h : d.memWf) : (drawBytes n d).2.memWf := h.rest

protected theorem Dev.memWf.freePipe {l : List PipeItem} (h : d.memWf) : (freePipe l d).2.memWf := by
  induction l generalizing d with
  | nil => exact h
  | cons i r ih =>
    have k : (drawBytes i.bytes.length d).2.memWf := h.drawBytes
    exact ih k

protected theorem Dev.memWf.freeTile {t : Nat} (h : d.memWf) : (freeTile t d).memWf :=
  h.freePipe.freePipe.freePipe.rest.setTile (h.getTile _).rest

protected theorem Dev.memWf.freeWbuf {l : List WbEntry} (h : d.memWf) : (freeWbuf l d).2.memWf := by
  induction l generalizing d with
  | nil => exact h
  | cons w r ih =>
    have k : (drawBytes w.bytes.length d).2.memWf := h.drawBytes
    exact ih k

protected theorem Dev.memWf.droopUnstretched (h : d.memWf) : (droopUnstretched m d).memWf :=
  .ite (h.forEach fun _ _ k => k.freeTile) (.ite h.freeWbuf.modMm h)

protected theorem Dev.memWf.droopSet (h : d.memWf) : (droopSet m ps d).memWf := h.modMoons

protected theorem Dev.memWf.droop {mv : Nat} (h : d.memWf) : (droop m mv ps d).memWf :=
  .ite h (.ite h.freeTicks.droopSet h.droopUnstretched)

theorem execDroop_keepsMem {sag : Sag} : KeepsMem (execDroop moon sag) := keepsMem_on fun _ h => h.whenAwake fun _ k => k.droop

protected theorem Dev.memWf.tideExcursion (h : d.memWf) : (tideExcursion m d).memWf := h.modMoon.rest.raise

theorem execTideExcursion_keepsMem : KeepsMem (execTideExcursion moon) :=
  keepsMem_on fun _ h => h.whenAwake fun _ k => .ite k.freeTicks k.freeTicks.tideExcursion

theorem execTideCeilingRaise_keepsMem : KeepsMem execTideCeilingRaise :=
  keepsMem_on fun _ h => h.whenMp fun _ k => .ite k (k.whenDue fun _ l => l.rest.settleStep)

theorem execCouplingPause_keepsMem {moon : Fin 36} : KeepsMem (execCouplingPause moon ns) :=
  keepsMem_on fun _ h => h.whenAwake fun _ k => .ite k k.modMoon

protected theorem Dev.memWf.setRefBad (h : d.memWf) : (setRefBad b v d).memWf := .ite h.rest.rest h.rest.rest

protected theorem Dev.memWf.lockPlls (h : d.memWf) : (lockPlls v d).memWf := h.forEach fun _ _ k => k.modMoons

protected theorem Dev.memWf.takeRef (h : d.memWf) : (takeRef b d).memWf := h.rest.lockPlls

protected theorem Dev.memWf.selectRef (h : d.memWf) : (selectRef v d).memWf := .ite h.rest h.rest.takeRef.clkEvent

theorem execRefPref_keepsMem : KeepsMem (execRefPref v) := keepsMem_on fun _ h => h.whenAwake fun _ k => k.selectRef

protected theorem Dev.memWf.setRefAuto (h : d.memWf) : (setRefAuto v d).memWf := .ite h.rest.takeRef.clkEvent h.rest

theorem execReferenceBad_keepsMem : KeepsMem (execReferenceBad b) :=
  keepsMem_on fun _ h => h.whenAwake fun _ k => by
    extract_lets bad
    have l : bad.memWf := k.setRefBad.clkEvent
    exact .ite k (.ite l.rest.clkEvent.raise (.ite l (.ite l.takeRef.clkEvent.raise l.rest.clkEvent.raise)))

theorem execReferenceGood_keepsMem : KeepsMem (execReferenceGood b) :=
  keepsMem_on fun _ h => h.whenAwake fun _ k => .ite k <| k.whenDue fun _ l => by
    extract_lets good
    have m : good.memWf := l.setRefBad
    exact .ite m.takeRef (.ite m.takeRef.clkEvent m)

theorem execHoldoverExpiry_keepsMem : KeepsMem execHoldoverExpiry := keepsMem_on fun _ h => by
  refine h.whenAwake fun _ k => ?_
  split
  · exact k
  · exact k.whenDue fun _ l => l.rest.lockPlls.clkEvent

protected theorem Dev.memWf.enterRetrain {c : Nat} (h : d.memWf) : (enterRetrain c d).memWf := .ite h h.modChan.raise

protected theorem Dev.memWf.alignGroups {l : List Nat} (h : d.memWf) : (alignGroups l v d).memWf :=
  h.forEach fun _ _ k => k.modMoons

theorem execPllLockLoss_keepsMem : KeepsMem (execPllLockLoss pll) :=
  keepsMem_on fun _ h => h.whenAwake fun _ k => .ite k (.raise (.clkEvent (.ite k.rest.modMoons.alignGroups k.rest.modMoons)))

protected theorem Dev.memWf.pllRelock {p : Nat} (h : d.memWf) : (pllRelock p d).memWf := by
  unfold pllRelock
  refine .ite h ?_
  extract_lets at_
  split
  next v e drawn =>
  have k : e.memWf := .of_eq h.draw drawn
  extract_lets _ locked w passed
  have l : locked.memWf := k.rest.modMoons
  have m : passed.memWf := .ite l.passTo l
  exact .ite l.resumeTiles.alignGroups.clkEvent (.ite (m.forEach fun _ _ n => n.enterRetrain) m)

theorem execPllRelock_keepsMem : KeepsMem (execPllRelock pll) := keepsMem_on fun _ h => h.whenAwake fun _ k => k.pllRelock

theorem execPllFail_keepsMem : KeepsMem (execPllFail pll) :=
  keepsMem_on fun _ h => h.whenAwake fun _ k => .ite (k.whenDue fun _ l => l.rest.raise) k

theorem execSeamPhaseError_keepsMem : KeepsMem (execSeamPhaseError g) :=
  keepsMem_on fun _ h => h.whenAwake fun _ k => .ite k k.rest.alignGroups

theorem execSeamRealign_keepsMem : KeepsMem (execSeamRealign g) :=
  keepsMem_on fun _ h => h.whenAwake fun _ k => .ite k k.rest.rest.resumeTiles.alignGroups.clkEvent.raise

theorem execSeamFail_keepsMem : KeepsMem (execSeamFail g) :=
  keepsMem_on fun _ h => h.whenAwake fun _ k => .ite k k.passTo.rest.raise

end Sys2Proof.Machine
end

section
/-!
The memories under what the ports of a partition have in common.
-/

namespace Sys2Proof.Machine

open Sys2Proof

variable {d : Dev} {x : Part} {pid p attempt : Nat} {kind : CometKind} {pkt : Packet}

protected theorem Dev.memWf.enqueueComet {second : Bool} (h : d.memWf) : (enqueueComet pid p kind pkt second d).memWf :=
  .ite h.modPart h.modPort

protected theorem Dev.memWf.sendComet {altFirst : Bool} (h : d.memWf) : (sendComet pid kind altFirst pkt d).memWf := by
  unfold sendComet
  refine h.withPart fun _ _ k => ?_
  split
  · exact k.enqueueComet
  · exact k.setPart

protected theorem Dev.memWf.sendReceipts {dest orbit : Nat} {gone : Bool} {recs : List (List Byte)} (h : d.memWf) :
    (sendReceipts pid dest orbit attempt gone recs d).memWf :=
  h.withPart fun _ _ k => k.forEach fun _ _ l => l.sendComet.sendComet

protected theorem Dev.memWf.askAgain {es : List Inbound} (h : d.memWf) : (askAgain pid attempt es d).memWf :=
  h.forEach fun _ _ k => k.sendReceipts

protected theorem Dev.memWf.round2 (h : d.memWf) : (round2 pid d).memWf := h.withPart fun _ _ k => k.setPart.askAgain

protected theorem Dev.memWf.abandon {f : Inbound → Bool} (h : d.memWf) : (abandon pid f d).memWf := by
  unfold abandon
  refine h.withPart fun _ _ k => ?_
  dsimp only
  split
  · exact k
  · exact .ite k.setPart (.ite k.setPart.raise.ephRec k.setPart.raise)

protected theorem Dev.memWf.queueMark {m : MarkSet} (h : d.memWf) : (queueMark x m d).memWf :=
  h.forEach fun _ _ k => k.enqueueComet

protected theorem Dev.memWf.advanceMarks {orbit : BitVec 32} {fuel : Nat} (h : d.memWf) :
    (advanceMarks pid orbit fuel d).memWf := by
  induction fuel generalizing d with
  | zero => exact h
  | succ n ih =>
    unfold advanceMarks
    split
    · exact h
    · split
      · exact h
      · refine .ite h (.ite h.setPart ?_)
        split
        · exact h
        · exact ih h.setPart.queueMark

protected theorem Dev.memWf.jobIrq (h : d.memWf) : (jobIrq pid d).memWf := h.raiseVec

protected theorem Dev.memWf.modSrv {f : Serving → Serving} (h : d.memWf) : (modSrv pid f d).memWf := h.modPart

protected theorem Dev.memWf.modJob {f : Job → Job} (h : d.memWf) : (modJob pid f d).memWf := h.modPart

protected theorem Dev.memWf.fabricLoses (h : d.memWf) : (fabricLoses x p d).memWf :=
  h.modPort.modPart.abandon.forEach fun _ _ k => k.advanceMarks

protected theorem Dev.memWf.portLeft (h : d.memWf) : (portLeft p d).memWf := by
  unfold portLeft
  split
  · exact h
  · dsimp only
    split
    · exact .ite h.fabricLoses h
    · split
      · exact .modJob (.modJob (.ite h.fabricLoses h))
      · exact .jobIrq (.modJob (.modJob (.ite h.fabricLoses h)))
      · exact .modJob (.ite h.fabricLoses h)

protected theorem Dev.memWf.movePort {st : PortSt} {f : Port → Port} (h : d.memWf) : (movePort p st f d).memWf :=
  .ite h.modPort.portLeft h.modPort

protected theorem Dev.memWf.portDown {cause lane : Nat} (h : d.memWf) : (portDown p cause lane d).memWf := by
  unfold portDown
  exact h.movePort.raise

protected theorem Dev.memWf.setDark (h : d.memWf) : (setDark p d).memWf := .ite h.modPort.movePort h.modPort

protected theorem Dev.memWf.assignStripes (h : d.memWf) : (assignStripes p d).memWf := by
  unfold assignStripes
  dsimp only
  split
  · exact h
  · split
    · exact h.modPort
    · exact .ite h.modPort h.modPort
    · exact h.portDown

protected theorem Dev.memWf.enterTraining (h : d.memWf) : (enterTraining p d).memWf :=
  .ite h.movePort.setDark h.movePort.assignStripes

protected theorem Dev.memWf.clearDark (h : d.memWf) : (clearDark p d).memWf := .ite h.modPort.enterTraining h.modPort

protected theorem Dev.memWf.writeJobId {v : BitVec 32} (h : d.memWf) : (writeJobId p v d).memWf :=
  .ite h.modPort h.modPort.enterTraining

protected theorem Dev.memWf.failDiscovery {reason : Nat} (h : d.memWf) : (failDiscovery pid reason d).memWf :=
  h.withPart fun _ _ k => (k.setPart.forEach fun _ _ l => l.setDark).jobIrq

protected theorem Dev.memWf.allGood (h : d.memWf) : (allGood pid d).memWf := h.withPart fun _ _ k => .ite k.setPart.jobIrq k

protected theorem Dev.memWf.discover (h : d.memWf) : (discover p d).memWf := by
  unfold discover
  split
  · exact h
  · dsimp only
    split
    · exact h
    · exact .ite h (.ite h.modJob.allGood h.modJob.failDiscovery)

protected theorem Dev.memWf.settleUp (h : d.memWf) : (settleUp p d).memWf := .ite h.setDark h.discover

protected theorem Dev.memWf.endMove (h : d.memWf) : (endMove p d).memWf := .ite h (.ite h.modPort.movePort.settleUp h.modPort)

protected theorem Dev.memWf.portUp (h : d.memWf) : (portUp p d).memWf := .settleUp (.ite h.movePort.raise h.movePort)

end Sys2Proof.Machine
end

section
/-!
The memories under the flag registers of a tile.
-/

namespace Sys2Proof.Machine

open Sys2Proof

variable {t : Tile} {idx : Nat} {fl : BitVec 32}

protected theorem Tile.memWf.setArith {fl : Fl} (h : t.memWf) : (setArith idx fl t).memWf := h.rest

protected theorem Tile.memWf.setSeq (h : t.memWf) : (setSeq idx fl t).memWf := h.rest

protected theorem Tile.memWf.setSeqMesh (h : t.memWf) : (setSeqMesh fl t).memWf := h.rest

end Sys2Proof.Machine
end

section
/-!
The memories under queue ends. A push is the one operation of a tile's queues that writes the scratchpad.
-/

namespace Sys2Proof.Machine

open Sys2Proof

variable {w : Work} {q idx : Nat} {bytes : List Byte}

protected theorem Tile.memWf.enqueue {bad : List Nat} {tag : Option (BitVec 16)} {t : Tile} (h : t.memWf) :
    (enqueue q bytes bad tag t).memWf := by
  refine Tile.memWf.setQ ?_
  exact ⟨h.1, wrBs_wf _ _ _ h.2⟩

protected theorem Work.memWf.push (h : w.memWf) : (push q idx bytes w).memWf :=
  .ite h.setSeq.work (.ite h.enqueue.work (.ite h.rest h.setSeq.work))

protected theorem Work.memWf.pop {n : Nat} {recv : Bool} (h : w.memWf) : (pop q n idx recv w).2.memWf :=
  .iteSnd h (.iteSnd h.setSeq.work (Tile.memWf.ite h.setQ.setSeq h.setQ).work)

protected theorem Work.memWf.pop1 (h : w.memWf) : (pop1 q idx w).2.memWf := by
  unfold pop1
  exact h.pop

protected theorem Work.memWf.flag {fl : Fl} (h : w.memWf) : (flag idx fl w).memWf := .ite h h.setArith.work

end Sys2Proof.Machine
end

section
/-!
The memories under the compute units tick by tick. They read the scratchpad through queue ends.
-/

namespace Sys2Proof.Machine

open Sys2Proof

variable {t : Tile} {w : Work} {n idx i now j qa qb qd ops : Nat} {c : MatCmd}

protected theorem Work.memWf.popScaled {q fmt : Nat} (h : w.memWf) : (popScaled q n fmt idx w).2.memWf := by
  unfold popScaled
  exact .iteSnd h.pop.pop h.pop

protected theorem Work.memWf.fromLatch (h : w.memWf) : (fromLatch i n idx w).2.memWf := .ite h.setSeq.work h

protected theorem Work.memWf.landMat {f : MatFlight} (h : w.memWf) : (landMat f w).memWf := h.foldl fun _ _ k => k.rest.flag

protected theorem Work.memWf.beginDrain (h : w.memWf) : (beginDrain now w).memWf := by
  unfold beginDrain
  split
  · exact .ite h h.rest.flag
  · exact h

protected theorem Work.memWf.matLand (h : w.memWf) : (matLand now w).memWf := h.rest.foldl fun _ _ k => k.landMat

protected theorem Work.memWf.statPop (h : w.memWf) : (statPop c j i w).memWf := by
  unfold statPop
  exact h.popScaled.rest

protected theorem Work.memWf.streamCol {col : Nat} (h : w.memWf) : (streamCol c now j col w).memWf := by
  unfold streamCol
  exact (Work.memWf.iteSnd h.fromLatch h.popScaled).rest

protected theorem Work.memWf.matPops (h : w.memWf) : (matPops now w).memWf := by
  unfold matPops
  split
  · exact h
  · extract_lets rel lw sl j s _ _ primed loaded streamed
    have k : primed.memWf := .ite h.rest h
    have l : loaded.memWf := .ite k.statPop k
    have n : streamed.memWf := .ite l.streamCol l
    exact .ite h.statPop (.ite n.rest n)

protected theorem Tile.memWf.issueMat (h : t.memWf) : (issueMat now idx qa qb qd ops t).memWf := h.rest

protected theorem Work.memWf.vecOut {items : List PipeItem} (h : w.memWf) : (vecOut items w).memWf := h.rest

protected theorem Work.memWf.vecPops (h : w.memWf) : (vecPops now w).memWf := by
  unfold vecPops
  split
  · exact h
  · split
    · exact h
    · extract_lets per n
      split
      next as w1 first =>
      have k1 : w1.memWf := .of_eq h.pop first
      split
      next bv w2 scalar =>
      have k2 : w2.memWf := by
        refine .of_eq (.iteSnd ?_ ?_) scalar
        · exact k1.pop1
        · exact k1
      split
      next bs w3 second =>
      have k3 : w3.memWf := .of_eq (.iteSnd (.iteSnd k2 k2.pop) k2) second
      extract_lets c'
      split
      next c4 w4 worked =>
      have k4 : w4.memWf := by
        refine .of_eq (.iteSnd ?_ ?_) worked
        · exact k3.foldlSnd fun _ _ l => l.flag
        · exact k3.foldl fun _ _ l => l.vecOut.flag
      extract_lets sent c5
      have k5 : sent.memWf := .ite k4.vecOut k4
      refine .ite k5.rest (.ite ?_ k5.rest)
      exact k5.rest.vecOut.flag

protected theorem Tile.memWf.issueVec (h : t.memWf) : (issueVec now idx qa qb qd ops t).memWf := h.rest

protected theorem Work.memWf.funPops (h : w.memWf) : (funPops now w).memWf := by
  unfold funPops
  split
  · exact h
  · extract_lets rel rate n
    refine .ite h ?_
    split
    next as w1 popped =>
    have k1 : w1.memWf := .of_eq h.pop popped
    split
    next c2 w2 scaled =>
    have k2 : w2.memWf := by
      refine .of_eq (.iteSnd ?_ ?_) scaled
      · exact k1.pop1
      · exact k1
    exact Work.memWf.rest (k2.foldl fun _ _ l => Work.memWf.flag (Work.memWf.rest l))

protected theorem Tile.memWf.issueFun (h : t.memWf) : (issueFun now idx qa qb qd ops t).memWf := h.rest

end Sys2Proof.Machine
end

section
/-!
The memories under the sequencer and its commands.
-/

namespace Sys2Proof.Machine

open Sys2Proof

variable {d : Dev} {t : Tile} {x : Part} {no : Nat} {c : TileCmd} {tile : Fin 2304}

protected theorem Tile.memWf.setCtr {k : Nat} {v : BitVec 32} (h : t.memWf) : (setCtr k v t).memWf := by
  unfold setCtr
  split
  · exact h.rest
  · exact h.rest
  · exact h.rest
  · exact h.rest

protected theorem Dev.memWf.tileHalt {e : HaltEv} (h : d.memWf) : (tileHalt no x e d).memWf := (h.modTile fun _ k => k.rest).raise

protected theorem Dev.memWf.settleWork {w : Work} (h : d.memWf) (hw : w.memWf) : (settleWork x w d).memWf := by
  unfold settleWork
  dsimp only
  split
  · exact h.setTile hw
  · exact (h.setTile hw).tileHalt

protected theorem Dev.memWf.fireBreak (h : d.memWf) : (fireBreak no x d).memWf :=
  .ite (h.modTile fun _ k => k.rest) ((h.modTile fun _ k => k.rest).forEach fun _ _ k => k.modTile fun _ l => l.rest).modPart

protected theorem Tile.memWf.passSlot {slot : Nat} (h : t.memWf) : (passSlot x slot t).memWf := h.rest

protected theorem Tile.memWf.counted (h : t.memWf) : (counted t).memWf := h.rest

protected theorem Dev.memWf.onTile {f : TileCmd → Tile → Tile} (h : d.memWf) (keep : ∀ a b, b.memWf → (f a b).memWf) :
    (onTile f c x no d).memWf :=
  h.modTile fun _ k => keep _ _ k

protected theorem Dev.memWf.issueCmd {opc : Nat} {always : Bool} {bad : TileCmd → Tile → Bool} {eff : Effect} (h : d.memWf)
    (keep : ∀ a b c e, e.memWf → (eff a b c e).memWf) : (issueCmd opc always bad eff no d).memWf := by
  unfold issueCmd
  split
  · exact h
  · extract_lets t c skip badop brk passed done
    have counted : Tile.memWf (if badop then setSeq c.idx sqBadop (counted t) else counted t) :=
      .ite (Tile.memWf.counted (h.getTile no)).setSeq (Tile.memWf.counted (h.getTile no))
    have k : passed.memWf := h.setTile counted.passSlot
    have l : done.memWf := .ite k (keep _ _ _ _ k)
    exact .ite h (.ite h.tileHalt (.ite h (.ite l.fireBreak l)))

theorem execNop_keepsMem : KeepsMem (execNop tile) := keepsMem_on fun _ h => h.whenAwake fun _ k => k.issueCmd fun _ _ _ _ l => l

protected theorem Dev.memWf.illOpc (h : d.memWf) : (illOpc no d).memWf := by
  unfold illOpc
  split
  · exact h
  · exact .ite h (.ite h.tileHalt (.ite h h.tileHalt))

theorem execIllOpc_keepsMem : KeepsMem (execIllOpc tile) := keepsMem_on fun _ h => h.whenAwake fun _ k => k.illOpc

theorem execMatq_keepsMem : KeepsMem (execMatq tile) :=
  keepsMem_on fun _ h => h.whenAwake fun _ k => k.issueCmd fun _ _ _ _ l => l.modTile fun _ n => n.issueMat

theorem execVecq_keepsMem : KeepsMem (execVecq tile) :=
  keepsMem_on fun _ h => h.whenAwake fun _ k => k.issueCmd fun _ _ _ _ l => l.modTile fun _ n => n.issueVec

theorem execFunq_keepsMem : KeepsMem (execFunq tile) :=
  keepsMem_on fun _ h => h.whenAwake fun _ k => k.issueCmd fun _ _ _ _ l => l.modTile fun _ n => n.issueFun

protected theorem Tile.memWf.cntEffect (h : t.memWf) : (cntEffect c t).memWf := h.setCtr

theorem execCnt_keepsMem : KeepsMem (execCnt tile) :=
  keepsMem_on fun _ h => h.whenAwake fun _ k => k.issueCmd fun _ _ _ _ l => l.onTile fun _ _ n => n.cntEffect

protected theorem Tile.memWf.cmpEffect (h : t.memWf) : (cmpEffect c t).memWf := h.rest

theorem execCmp_keepsMem : KeepsMem (execCmp tile) :=
  keepsMem_on fun _ h => h.whenAwake fun _ k => k.issueCmd fun _ _ _ _ l => l.onTile fun _ _ n => n.cmpEffect

theorem execSkip_keepsMem : KeepsMem (execSkip tile) :=
  keepsMem_on fun _ h => h.whenAwake fun _ k => k.issueCmd fun _ _ _ _ l => l.onTile fun _ _ n => n.rest

protected theorem Tile.memWf.reptEffect {open_ : List Loop} (h : t.memWf) : (reptEffect c open_ t).memWf :=
  .ite (.ite h.setSeq h) (.rest (.ite h.setSeq h))

protected theorem Dev.memWf.rept (h : d.memWf) : (rept no d).memWf :=
  h.issueCmd fun _ _ _ _ k => k.onTile fun _ _ l => l.reptEffect

theorem execRept_keepsMem : KeepsMem (execRept tile) := keepsMem_on fun _ h => h.whenAwake fun _ k => k.rept

protected theorem Dev.memWf.spldEffect (h : d.memWf) : (spldEffect c x no d).memWf := h.modTile fun _ k => k.rest

theorem execSpld_keepsMem : KeepsMem (execSpld tile) :=
  keepsMem_on fun _ h => h.whenAwake fun _ k => k.issueCmd fun _ _ _ _ l => l.spldEffect

protected theorem Tile.memWf.endStream (h : t.memWf) : (endStream t).memWf := h.rest

protected theorem Dev.memWf.markEffect (h : d.memWf) : (markEffect c x no d).memWf :=
  .ite (h.modTile fun _ k => k.rest) (h.modTile fun _ k => k.endStream)

theorem execMark_keepsMem : KeepsMem (execMark tile) :=
  keepsMem_on fun _ h => h.whenAwake fun _ k => k.issueCmd fun _ _ _ _ l => l.markEffect

theorem execBrk_keepsMem : KeepsMem (execBrk tile) :=
  keepsMem_on fun _ h => h.whenAwake fun _ k => k.issueCmd fun _ _ _ _ l => .ite l.fireBreak l

protected theorem Tile.memWf.sendEffect (h : t.memWf) : (sendEffect c t).memWf := by
  unfold sendEffect
  extract_lets t' n
  have k : t'.memWf := by
    dsimp only [t']
    split
    · exact .ite h h.setSeq
    · exact h
  exact k.rest

theorem execSend_keepsMem : KeepsMem (execSend tile) :=
  keepsMem_on fun _ h => h.whenAwake fun _ k => k.issueCmd fun _ _ _ _ l => l.onTile fun _ _ n => n.sendEffect

protected theorem Tile.memWf.recvEffect (h : t.memWf) : (recvEffect c t).memWf := by
  unfold recvEffect
  extract_lets t' n
  have k : t'.memWf := by
    dsimp only [t']
    split
    · exact .ite h h.setSeq
    · exact h
  exact k.rest

theorem execRecv_keepsMem : KeepsMem (execRecv tile) :=
  keepsMem_on fun _ h => h.whenAwake fun _ k => k.issueCmd fun _ _ _ _ l => l.onTile fun _ _ n => n.recvEffect

protected theorem Tile.memWf.noteMet {now : Nat} (h : t.memWf) : (noteMet now t).memWf := by
  unfold noteMet
  split
  · exact .ite h.rest h
  · exact h

protected theorem Dev.memWf.waitEffect (h : d.memWf) : (waitEffect c x no d).memWf :=
  h.modTile fun _ k => Tile.memWf.noteMet k.rest

theorem execWait_keepsMem : KeepsMem (execWait tile) :=
  keepsMem_on fun _ h => h.whenAwake fun _ k => k.issueCmd fun _ _ _ _ l => l.waitEffect

protected theorem Dev.memWf.countWait {w : WaitSt} {held : Bool} (h : d.memWf) : (countWait no w held d).memWf := h.modSlice

protected theorem Dev.memWf.waitRelease (h : d.memWf) : (waitRelease no d).memWf := by
  unfold waitRelease
  split
  · extract_lets _ held
    have k : held.memWf := h.setTile (h.getTile _).rest
    exact .ite h (.ite (h.setTile (h.getTile _).rest).countWait (.ite h (.ite k.round2 k)))
  · exact h

theorem execWaitRelease_keepsMem : KeepsMem (execWaitRelease tile) := keepsMem_on fun _ h => h.whenAwake fun _ k => k.waitRelease

protected theorem Dev.memWf.holdEnd (h : d.memWf) : (holdEnd no d).memWf := by
  unfold holdEnd
  split
  · split
    · exact .ite h.endHold.countWait h
    · exact h
  · exact h

theorem execHoldEnd_keepsMem : KeepsMem (execHoldEnd tile) := keepsMem_on fun _ h => h.whenAwake fun _ k => k.holdEnd

protected theorem Dev.memWf.holdLimitExpiry (h : d.memWf) : (holdLimitExpiry no d).memWf := by
  unfold holdLimitExpiry
  split
  · split
    · exact .ite h (h.whenDue fun _ k => (k.endHold.modTile fun _ l => l.rest).raise)
    · exact h
  · exact h

theorem execHoldLimitExpiry_keepsMem : KeepsMem (execHoldLimitExpiry tile) :=
  keepsMem_on fun _ h => h.whenAwake fun _ k => k.holdLimitExpiry

protected theorem Dev.memWf.matqDrain (h : d.memWf) : (matqDrain no d).memWf := by
  unfold matqDrain
  split
  · exact h
  · exact .ite (h.settleWork (h.getTile _).work.beginDrain) h

theorem execMatqDrain_keepsMem : KeepsMem (execMatqDrain tile) := keepsMem_on fun _ h => h.whenAwake fun _ k => k.matqDrain

protected theorem Dev.memWf.breakPark {p : Nat} (h : d.memWf) : (breakPark p d).memWf := by
  unfold breakPark
  refine h.withPart fun _ _ k => ?_
  split
  · exact .ite k ((k.forEach fun _ _ l => l.modTile fun _ n => .ite n.rest n).setPart)
  · exact k

theorem execBreakPark_keepsMem {part : Fin 16} : KeepsMem (execBreakPark part) :=
  keepsMem_on fun _ h => h.whenAwake fun _ k => k.breakPark

end Sys2Proof.Machine
end

section
/-!
The memories under the memory path of a tile. A delivery writes a scratchpad, a write-buffer element GDDR7.
-/

namespace Sys2Proof.Machine

open Sys2Proof

variable {d : Dev} {t : Tile} {x : Part} {q r no idx : Nat} {ps : List Piece} {c : TileCmd} {tile : Fin 2304} {corrected : Bool}

protected theorem Dev.memWf.setFence {s : Nat} (h : d.memWf) : (setFence q s d).memWf := h.modMm

protected theorem Dev.memWf.markFenced (h : d.memWf) : (markFenced x r d).memWf := h.modPart

protected theorem Dev.memWf.detectFence {tile cause page pieces : Nat} (h : d.memWf) :
    (detectFence q tile x r cause page pieces d).memWf := by
  unfold detectFence
  extract_lets s fenced counted rung _ flagged marked
  have k : rung.memWf := h.setFence.modMm.forEach fun _ _ k => k.modMm
  have entry : (setCpt page (setBit (cptE rung page) 7 true) rung).memWf := k.setCpt
  have l : flagged.memWf := .ite entry.rest k
  have m : marked.memWf := l.markFenced
  exact .ite m.ephRec m

protected theorem Dev.memWf.fenceReceive (h : d.memWf) : (fenceReceive q d).memWf := by
  unfold fenceReceive
  split
  · exact h
  · exact h.modMm.setFence

theorem execFenceReceive_keepsMem {q : Fin 4} : KeepsMem (execFenceReceive q) :=
  keepsMem_on fun _ h => h.whenAwake fun _ k => k.fenceReceive

protected theorem Dev.memWf.reqOverflow (h : d.memWf) : (reqOverflow no idx x d).memWf := h.modMm.raise

protected theorem Dev.memWf.noteWaiting (h : d.memWf) : (noteWaiting ps d).memWf := h.forEach fun _ _ k => k.modChan

protected theorem Dev.memWf.takeEntry {r : MemReq} (h : d.memWf) : (takeEntry no r d).memWf :=
  .modMm (.ite (h.modTile fun _ k => k.rest) (h.modTile fun _ k => k.rest).noteWaiting)

protected theorem Tile.memWf.storeEngine {req : Option Nat} (h : t.memWf) : (storeEngine c req t).memWf := by
  unfold storeEngine
  dsimp only
  split
  · have k : (setSeq c.idx sqEngOvl t).memWf := h.setSeq
    exact k.rest
  · exact h.rest

protected theorem Dev.memWf.moveEffect {store : Bool} (h : d.memWf) : (moveEffect store c x no d).memWf := by
  unfold moveEffect
  extract_lets _ _ _ _ _ noted
  have k : noted.memWf := .ite (h.modTile fun _ l => l.storeEngine) h
  split
  · exact h.modTile fun _ l => l.setSeq
  · exact .ite h.reqOverflow h.raise
  · refine .ite (.ite (h.modTile fun _ l => l.storeEngine) h) (.ite h.reqOverflow ?_)
    extract_lets _ taken
    have l : taken.memWf := k.takeEntry
    split
    · exact l.detectFence
    · exact .ite l l.modMm
    · exact l

theorem execLoad_keepsMem : KeepsMem (execLoad tile) :=
  keepsMem_on fun _ h => h.whenAwake fun _ k => k.issueCmd fun _ _ _ _ l => l.moveEffect

theorem execStore_keepsMem : KeepsMem (execStore tile) :=
  keepsMem_on fun _ h => h.whenAwake fun _ k => k.issueCmd fun _ _ _ _ l => l.moveEffect

protected theorem Dev.memWf.countMove {write : Bool} (h : d.memWf) : (countMove q write ps d).memWf := by
  unfold countMove
  refine h.forEach fun _ _ k => ?_
  split
  · exact .ite k.modChan k.modChan.modMm
  · exact k

protected theorem Tile.memWf.stepReq {id : Nat} (h : t.memWf) : (stepReq id t).memWf := h.rest

protected theorem Dev.memWf.fenceReq {r : MemReq} (h : d.memWf) : (fenceReq x no r d).2.memWf :=
  .iteSnd h (h.modTile fun _ k => k.rest).modMm

protected theorem Dev.memWf.passRetries {tries : Tab Nat} (h : d.memWf) : (passRetries tries d).memWf :=
  h.forEach fun _ _ k => k.modChan

protected theorem Dev.memWf.deliver (h : d.memWf) : (deliver no q d).memWf := by
  unfold deliver
  split
  · exact h
  · split
    · exact h
    · refine .ite h.fenceReq (.passRetries (.countMove ?_))
      exact h.fenceReq.setTile (h.fenceReq.getTile _).enqueue.stepReq.noteMet

theorem execMemoryDelivery_keepsMem {q : Fin 4} : KeepsMem (execMemoryDelivery tile q) :=
  keepsMem_on fun _ h => h.whenAwake fun _ k => k.deliver

protected theorem Dev.memWf.tieredRead (h : d.memWf) : (tieredRead no q corrected d).memWf := by
  unfold tieredRead
  split
  · exact h
  · split
    · exact h
    · dsimp only
      split
      · exact h
      · split
        · exact .storeNote (.modTile (.ite h.countSoft h) fun _ k => k.rest)
        · split
          · exact (h.modTile fun _ k => k.rest).detectFence
          · exact h.raise
          · exact h.raise

theorem execTieredRead_keepsMem {q : Fin 4} : KeepsMem (execTieredRead tile q corrected) :=
  keepsMem_on fun _ h => h.whenAwake fun _ k => k.tieredRead

protected theorem Dev.memWf.bufferStore {req : Nat} {bytes : List Byte} {bad : Bool} (h : d.memWf) :
    (bufferStore no x req bytes bad d).2.memWf := by
  unfold bufferStore
  split
  · exact h
  · dsimp only
    split
    · exact h.fenceReq.modTile fun _ k => k.stepReq
    · split
      · exact h.fenceReq.modTile fun _ k => k.stepReq
      · exact (h.fenceReq.modTile fun _ k => k.stepReq).modMm.noteWaiting

theorem writePieces_wf {l : List Piece} {b : List Byte} {m : Mem} (h : Mem.wf m = true) : Mem.wf (writePieces l b m) = true := by
  induction l generalizing b m with
  | nil => exact h
  | cons p r ih =>
    refine ih ?_
    split
    · exact wrBs_wf _ _ _ h
    · exact h

protected theorem Dev.memWf.storeWrite (h : d.memWf) : (storeWrite q idx d).memWf := by
  unfold storeWrite
  dsimp only
  split
  · exact h
  · refine .ite h (.releasePins (.ite h.modMm.raise (.passRetries (.countMove ?_))))
    exact h.modMm.writeGddr (writePieces_wf h.gddr)

theorem execStoreWrite_keepsMem {q : Fin 4} : KeepsMem (execStoreWrite q idx) :=
  keepsMem_on fun _ h => h.whenAwake fun _ k => k.storeWrite

end Sys2Proof.Machine
end

section
/-!
The memories under the tick, tile by tile, and the tick a module takes while no command waits.
-/

namespace Sys2Proof.Machine

open Sys2Proof

variable {d : Dev} {t : Tile} {w : Work} {x : Part} {no now pid : Nat} {i : MeshIn}

protected theorem Dev.memWf.addInput (h : d.memWf) : (addInput no i d).memWf := h.modTile fun _ k => k.rest

protected theorem Dev.memWf.addArrival (h : d.memWf) : (addArrival no i d).memWf := h.modTile fun _ k => k.rest

protected theorem Dev.memWf.routeTile (h : d.memWf) : (routeTile x no d).memWf := by
  unfold routeTile
  extract_lets now t due _ taken pick
  have k : taken.memWf := h.setTile (h.getTile no).rest
  split
  · exact k
  · extract_lets sent kept n
    have l : sent.memWf := k.forEach fun o e l => by
      split
      · exact l.addInput
      · exact l
    have j : kept.memWf := by
      dsimp only [kept]
      split
      · exact .ite l.addArrival l
      · exact l
    exact .ite j j.modSlice

protected theorem Dev.memWf.peekTile {next tick : Nat} (h : d.memWf) : (peekTile next tick no d).memWf := by
  unfold peekTile
  dsimp only
  split
  · exact h
  · split
    · exact h.addArrival
    · exact h

protected theorem Dev.memWf.meshPush {w : MeshWord} (h : d.memWf) : (meshPush no x w d).memWf := by
  unfold meshPush
  extract_lets t sl bad counted
  have k : counted.memWf := .ite h.modSlice h
  have overflown : (modTile no (setSeqMesh sqOvf) d).memWf := h.modTile fun _ l => l.setSeqMesh
  exact .ite (h.modTile fun _ k => k.rest).modSlice.raise <| .ite h.modSlice <| .ite overflown <|
    .ite (k.modTile fun _ l => l.enqueue) (.ite h.tileHalt overflown)

protected theorem Dev.memWf.meshArrival (h : d.memWf) : (meshArrival no d).memWf := by
  unfold meshArrival
  split
  · exact h
  · dsimp only
    split
    · exact h
    · exact .ite h (h.setTile (h.getTile _).rest).meshPush

theorem execMeshArrival_keepsMem {tile : Fin 2304} : KeepsMem (execMeshArrival tile) :=
  keepsMem_on fun _ h => h.whenAwake fun _ k => k.meshArrival

protected theorem Work.memWf.recvLand (h : w.memWf) : (recvLand now w).memWf := h.rest.foldl fun _ _ k => k.push

protected theorem Work.memWf.pipePush {l : List PipeItem} (h : w.memWf) : (pipePush now l w).2.memWf :=
  h.foldl fun _ _ k => k.push

protected theorem Work.memWf.tickPushes (h : w.memWf) : (tickPushes now w).memWf := by
  unfold tickPushes
  extract_lets landed
  have k : landed.memWf := h.recvLand.matLand
  split
  next l w1 pushed =>
  have k1 : w1.memWf := .of_eq k.pipePush pushed
  extract_lets _ e2
  have k2 : e2.memWf := k1.rest
  split
  next l' w3 pushed =>
  have k3 : w3.memWf := .of_eq k2.pipePush pushed
  extract_lets _ e4
  have k4 : e4.memWf := k3.rest
  split
  next l'' w5 pushed =>
  have k5 : w5.memWf := .of_eq k4.pipePush pushed
  exact k5.rest

protected theorem Work.memWf.sendPop (h : w.memWf) : (sendPop now w).2.memWf := by
  unfold sendPop
  split
  · exact h
  · exact .iteSnd h.pop1.rest h.pop1.rest.rest

protected theorem Work.memWf.recvPop (h : w.memWf) : (recvPop now w).memWf := by
  unfold recvPop
  split
  · exact h
  · exact h.pop.rest

protected theorem Work.memWf.storePop (h : w.memWf) : (storePop w).2.memWf := by
  unfold storePop
  split
  · exact h
  · exact h.pop1.rest

protected theorem Tile.memWf.pastEnd (h : t.memWf) : (pastEnd x t).memWf := .ite h.endStream.setSeqMesh h

protected theorem Tile.memWf.tileTick (h : t.memWf) : (tileTick x no t).2.memWf := by
  unfold tileTick
  extract_lets pushed popped
  have k : popped.memWf := h.pastEnd.work.tickPushes.matPops.vecPops.funPops
  split
  next o w1 sent =>
  have k1 : w1.memWf := .of_eq k.sendPop sent
  split
  next s w2 stored =>
  have k2 : w2.memWf := .of_eq k1.recvPop.storePop stored
  exact k2.rest

protected theorem Dev.memWf.tickTile {a : List TickHalt × Dev} (h : a.2.memWf) : (tickTile x no a).2.memWf := by
  unfold tickTile
  split
  next o w ticked =>
  extract_lets put sent
  have k : put.memWf := h.setTile (Work.memWf.of_eq (Tile.memWf.tileTick (h.getTile no)) ticked)
  have l : sent.memWf := k.forEach fun _ _ l => l.modPort
  split
  next ok e stored =>
  refine Dev.memWf.of_eq ?_ stored
  split
  · exact l.bufferStore
  · exact l

protected theorem Dev.memWf.raiseHalt {v : TickHalt} (h : d.memWf) : (raiseHalt x v d).memWf := by
  unfold raiseHalt
  split
  · exact h.tileHalt
  · exact h.raise

protected theorem Dev.memWf.stallTick (h : d.memWf) : (stallTick x d).memWf := by
  unfold stallTick
  refine h.forEach fun _ _ k => ?_
  split
  · exact .ite k k.modPort
  · exact k

protected theorem Dev.memWf.endTick (h : d.memWf) : (endTick pid d).memWf :=
  h.withPart fun _ _ k => .ite k.modPart.parkTiles k.modPart

protected theorem Dev.memWf.partTick (h : d.memWf) : (partTick x d).memWf :=
  .endTick (.forEach (.forEach (.forEach (.foldlSnd h fun _ _ k => k.tickTile) fun _ _ k => k.routeTile) fun _ _ k => k.peekTile)
    fun _ _ k => k.raiseHalt)

protected theorem Dev.memWf.finishStop (h : d.memWf) : (finishStop pid d).memWf := h.withPart fun _ _ k => .ite k.partTick k

protected theorem Dev.memWf.moonsTick (h : d.memWf) : (moonsTick d).memWf := .ite h.beginTick.freeTicks h.advance

protected theorem Dev.memWf.latticeTick (h : d.memWf) : (latticeTick d).memWf :=
  ((h.forEach fun _ _ k => k.partTick).forEach fun _ _ k => k.stallTick).moonsTick

protected theorem Dev.memWf.pausedTick (h : d.memWf) : (pausedTick d).memWf := (h.forEach fun _ _ k => k.partTick).letPass

protected theorem Dev.memWf.idle (h : d.memWf) : (idle d).memWf := by
  unfold idle
  extract_lets moved
  have k : moved.memWf := h.forEach fun _ _ l => l.endMove
  exact .ite h (.ite k.pausedTick (.ite k k.latticeTick))

end Sys2Proof.Machine
end

section
/-!
The memories under level reports.
-/

namespace Sys2Proof.Machine

open Sys2Proof

protected theorem Dev.memWf.formLevel {pid : Nat} {d : Dev} (h : d.memWf) : (formLevel pid d).memWf :=
  h.withPart fun _ _ k => k.setPart

theorem execLevelReport_keepsMem {m : Fin 64} : KeepsMem (execLevelReport m) :=
  keepsMem_on fun _ h => h.partCommand fun _ _ _ k => k.answer

end Sys2Proof.Machine
end

section
/-!
The memories under DMA channels. A burst writes host memory or GDDR7.
-/

namespace Sys2Proof.Machine

open Sys2Proof

variable {d : Dev} {c status ch n : Nat} {v : Bool} {x : DmaXfer}

protected theorem Dev.memWf.dmaIrq {f : Dma → Dma} (h : d.memWf) : (dmaIrq c f d).memWf := h.modDma.raiseVec

protected theorem Dev.memWf.dmaEn (h : d.memWf) : (dmaEn c v d).memWf := .ite (.ite h (.ite h.modDma h.modDma)) h.modDma

theorem execDmaEn_keepsMem {c : Fin 32} : KeepsMem (execDmaEn c v) := keepsMem_on fun _ h => h.whenBell fun _ k => k.dmaEn

protected theorem Dev.memWf.dmaAbort (h : d.memWf) : (dmaAbort c d).memWf := .ite h (.ite h.modDma h.dmaIrq)

theorem execAbort_keepsMem {c : Fin 32} : KeepsMem (execAbort c) := keepsMem_on fun _ h => h.whenBell fun _ k => k.dmaAbort

protected theorem Dev.memWf.dmaResume (h : d.memWf) : (dmaResume c d).memWf := h.modDma

theorem execResume_keepsMem {c : Fin 32} : KeepsMem (execResume c) := keepsMem_on fun _ h => h.whenBell fun _ k => k.dmaResume

protected theorem Dev.memWf.dmaTail {v : BitVec 16} (h : d.memWf) : (dmaTail c v d).memWf := h.modDma

theorem execTail_keepsMem {c : Fin 32} {v : BitVec 16} : KeepsMem (execTail c v) :=
  keepsMem_on fun _ h => h.whenBell fun _ k => k.dmaTail

protected theorem Dev.memWf.unlockPage (h : d.memWf) : (unlockPage x d).memWf := by
  unfold unlockPage
  split
  · exact h.setCpt
  · exact h

protected theorem Dev.memWf.endXfer (h : d.memWf) : (endXfer c status d).memWf := by
  unfold endXfer
  split
  · exact h
  · exact .modDma (.ite h.unlockPage.setCpt h.unlockPage)

protected theorem Dev.memWf.enterPage (h : d.memWf) : (enterPage c d).memWf := by
  unfold enterPage
  split
  · exact .ite h.endXfer (.ite h.endXfer (.ite h.endXfer (.ite h.modDma (.ite h.endXfer (.ite h.endXfer h.setCpt.modDma)))))
  · exact h.endXfer
  · exact h

protected theorem Dev.memWf.lockWaitEnd (h : d.memWf) : (lockWaitEnd c d).memWf := by
  unfold lockWaitEnd
  dsimp only
  split
  · exact .ite h h.modDma.enterPage
  · exact h

theorem execLockWaitEnd_keepsMem {c : Fin 32} : KeepsMem (execLockWaitEnd c) :=
  keepsMem_on fun _ h => h.whenAwake fun _ k => k.lockWaitEnd

protected theorem Dev.memWf.readFails (h : d.memWf) : (readFails c status d).memWf := h.dmaIrq

protected theorem Dev.memWf.descriptorRead (h : d.memWf) : (descriptorRead c d).memWf :=
  .ite h (.ite h.readFails (.ite h.readFails (.ite h.modDma (.ite h.modDma.endXfer h.modDma.enterPage))))

theorem execDescriptorRead_keepsMem {c : Fin 32} : KeepsMem (execDescriptorRead c) :=
  keepsMem_on fun _ h => h.whenAwake fun _ k => k.descriptorRead

theorem execDescriptorReadFail_keepsMem {c : Fin 32} : KeepsMem (execDescriptorReadFail c) :=
  keepsMem_on fun _ h => h.whenAwake fun _ k => .ite k k.rest.readFails

protected theorem Dev.memWf.countOther (h : d.memWf) : (countOther ch n d).memWf := h.modChan.modMm

protected theorem Dev.memWf.passOther (h : d.memWf) : (passOther ch d).memWf := h.passRetries.modChan

protected theorem Dev.memWf.countBurst {mem : Option (Nat × Nat)} (h : d.memWf) : (countBurst c n mem d).memWf := by
  unfold countBurst
  dsimp only
  split
  · exact h.modDma.countOther
  · exact h.modDma

protected theorem Dev.memWf.leavePage (h : d.memWf) : (leavePage c x d).memWf := by
  unfold leavePage
  split
  · exact h
  · exact .modDma (.ite h.unlockPage.setCpt h.unlockPage)

protected theorem Dev.memWf.burst (h : d.memWf) : (burst c d).memWf := by
  unfold burst
  extract_lets k
  split
  · exact h
  · split
    · exact h
    · refine .ite h ?_
      extract_lets n host entry addr data moved
      refine .ite h.endXfer (.ite h (.ite h.endXfer ?_))
      clear_value data
      split
      · exact h.endXfer
      · extract_lets written noted counted
        have w : written.memWf := .ite h.hostWr (h.writeGddr (wrBs_wf _ _ _ h.gddr))
        have l : noted.memWf := .ite w.storeNote w.passRetries
        have m : counted.memWf := l.modDma.countBurst
        exact .ite m.leavePage.endXfer (.ite m.leavePage.enterPage m)

theorem execBurst_keepsMem {c : Fin 32} : KeepsMem (execBurst c) := keepsMem_on fun _ h => h.whenAwake fun _ k => k.burst

theorem execHostCompletionTimeout_keepsMem {c : Fin 32} : KeepsMem (execHostCompletionTimeout c) := keepsMem_on fun _ h => by
  refine h.whenAwake fun _ k => ?_
  split
  · exact .ite k k.endXfer
  · exact k

protected theorem Dev.memWf.writeBack (h : d.memWf) : (writeBack c status x d).memWf := by
  unfold writeBack
  extract_lets _ _ written ended
  have k : ended.memWf := .modDma (.ite h.hostWr h)
  exact .ite (.ite k.dmaIrq k) (.ite k k.dmaIrq)

protected theorem Dev.memWf.dmaWriteBack (h : d.memWf) : (dmaWriteBack c d).memWf := by
  unfold dmaWriteBack
  dsimp only
  split
  · split
    · exact .ite h (.ite h.writeBack.modDma h.writeBack)
    · exact h
  · exact h

theorem execWriteBack_keepsMem {c : Fin 32} : KeepsMem (execWriteBack c) :=
  keepsMem_on fun _ h => h.whenAwake fun _ k => k.dmaWriteBack

protected theorem Dev.memWf.abortWriteBack (h : d.memWf) : (abortWriteBack c d).memWf := by
  unfold abortWriteBack
  dsimp only
  split
  · exact h
  · split
    · exact h
    · split
      · exact .ite h h.endXfer
      · exact .dmaIrq (.writeBack (.ite h h.endXfer))

theorem execAbortWriteBack_keepsMem {c : Fin 32} : KeepsMem (execAbortWriteBack c) :=
  keepsMem_on fun _ h => h.whenAwake fun _ k => k.abortWriteBack

end Sys2Proof.Machine
end

section
/-!
The memories under the GDDR7 channels, the page commands and the CXL.mem window. A channel that goes down loses its bytes.
-/

namespace Sys2Proof.Machine

open Sys2Proof

variable {d : Dev} {x : Part} {c p i flags n len : Nat} {ch : Fin 48} {who : Reader} {granule : BitVec 11} {m : Fin 64} {off :
  BitVec 36} {bytes : List Byte}

theorem execRefresh_keepsMem {ns : Nat} : KeepsMem (execRefresh ch ns) :=
  keepsMem_on fun _ h => h.whenAwake fun _ k => .ite k.modChan k

protected theorem Dev.memWf.startRetrain (h : d.memWf) : (startRetrain c d).memWf := h.whenDue fun _ k => k.enterRetrain

protected theorem Dev.memWf.routineRetrain (h : d.memWf) : (routineRetrain c d).memWf :=
  .ite h (.ite (.ite h h.startRetrain) (h.whenDue fun _ k => .ite k.modChan k.startRetrain))

theorem execRoutineRetraining_keepsMem : KeepsMem (execRoutineRetraining ch) :=
  keepsMem_on fun _ h => h.whenAwake fun _ k => k.routineRetrain

theorem execRetrainingDeferralExpiry_keepsMem : KeepsMem (execRetrainingDeferralExpiry ch) :=
  keepsMem_on fun _ h => h.whenAwake fun _ k => .ite (k.whenDue fun _ l => l.startRetrain) k

theorem execCrcRetraining_keepsMem : KeepsMem (execCrcRetraining ch) :=
  keepsMem_on fun _ h => h.whenAwake fun _ k => .ite k.enterRetrain k

protected theorem Dev.memWf.trainingPass (h : d.memWf) : (trainingPass c d).memWf := .ite h h.modChan

theorem execTrainingPass_keepsMem : KeepsMem (execTrainingPass ch) := keepsMem_on fun _ h => h.whenAwake fun _ k => k.trainingPass

protected theorem Dev.memWf.chanDown (h : d.memWf) : (chanDown c d).memWf := by
  have k : Dev.memWf { d with gddr := d.gddr.filter (fun e => chanOf e.1 ≠ c) } := h.writeGddr (filter_wf _ h.gddr)
  unfold chanDown
  dsimp only
  split
  · exact k.rest.raise
  · exact k.rest.recordEvent

theorem execTrainingFail_keepsMem : KeepsMem (execTrainingFail ch) :=
  keepsMem_on fun _ h => h.whenAwake fun _ k => .ite k (.ite k.modChan k.chanDown)

protected theorem Dev.memWf.tryAgain (h : d.memWf) : (tryAgain c who d).memWf := by
  unfold tryAgain
  dsimp only
  split
  · split
    · exact h.modChan.modTile fun _ k => k.rest
    · exact h.modChan
  · exact h.modChan.modDma
  · exact h.modChan.modMm
  · exact h.modChan.modChan

protected theorem Dev.memWf.dropAccess (h : d.memWf) : (dropAccess who d).memWf := by
  unfold dropAccess
  split
  · exact h.modTile fun _ k => k.rest
  · split
    · exact h.setCpt.endXfer
    · exact h
  · exact h.modMm
  · exact h

protected theorem Dev.memWf.readFail (h : d.memWf) : (readFail c who granule d).memWf := by
  unfold readFail
  split
  next v e drawn =>
  have k : e.memWf := .of_eq h.draw drawn
  dsimp only
  split
  · exact k.modChan.dropAccess.raise.releasePins
  · exact k.modChan.dropAccess.recordEvent

protected theorem Dev.memWf.readCrcFail {uncorr : Bool} (h : d.memWf) : (readCrcFail c who granule uncorr d).memWf :=
  .ite h (.ite h.tryAgain h.readFail)

theorem execReadCrcFail_keepsMem {err : ReadErr} : KeepsMem (execReadCrcFail ch who err) :=
  keepsMem_on fun _ h => h.whenAwake fun _ k => k.readCrcFail

theorem execEccRead_keepsMem {count : Nat} : KeepsMem (execEccRead ch count) :=
  keepsMem_on fun _ h => h.whenAwake fun _ k => k.whenDue fun _ l => .ite l.modChan l.modChan.raise

theorem execDeviceTemperatureRead_keepsMem {temp : BitVec 8} : KeepsMem (execDeviceTemperatureRead ch temp) :=
  keepsMem_on fun _ h => h.whenAwake fun _ k => k.whenDue fun _ l => l.modChan

protected theorem Dev.memWf.mapPage {unit : Nat} (h : d.memWf) : (mapPage p i flags unit d).2.2.memWf := by
  unfold mapPage
  dsimp only
  split
  · exact h
  · split
    · exact h
    · split
      · exact h.rest
      · split
        · exact h
        · split
          · split
            · exact h.rest
            · exact h
          · split
            · exact h
            · next f _ =>
              have k : Dev.memWf { d with gddr := zeroBs d.gddr (f * 65536) 65536 } := h.writeGddr (zeroBs_wf _ _ _ h.gddr)
              exact k.rest

protected theorem Dev.memWf.mapPages {u : Nat} {l : List Nat} (h : d.memWf) : (mapPages p flags n i u l d).2.2.memWf := by
  induction n generalizing i u l d with
  | zero => exact h
  | succ n ih =>
    unfold mapPages
    dsimp only
    split
    · exact ih h.mapPage
    · exact h.mapPage

theorem execPageMap_keepsMem : KeepsMem (execPageMap m) :=
  keepsMem_on fun _ h => h.partCommand fun _ _ _ k => .ite k.answer k.mapPages.answer

protected theorem Dev.memWf.unmapPage (h : d.memWf) : (unmapPage x i d).2.memWf := .iteSnd h (.iteSnd h (.iteSnd h h.setCpt.rest))

protected theorem Dev.memWf.unmapPages {k : Nat} (h : d.memWf) : (unmapPages x n i k d).2.2.memWf := by
  induction n generalizing i k d with
  | zero => exact h
  | succ n ih =>
    unfold unmapPages
    dsimp only
    split
    · exact ih h.unmapPage
    · exact h.unmapPage

theorem execPageUnmap_keepsMem : KeepsMem (execPageUnmap m) :=
  keepsMem_on fun _ h => h.partCommand fun _ _ _ k => .ite k.answer k.unmapPages.answer

theorem execPageRead_keepsMem : KeepsMem (execPageRead m) :=
  keepsMem_on fun _ h => h.partCommand fun _ _ _ k => .ite k.answer (.ite k.answer k.answer)

protected theorem Dev.memWf.poisonRead (h : d.memWf) : (poisonRead d).memWf := h.rest

protected theorem Dev.memWf.windowRead (h : d.memWf) : (windowRead off len d).memWf :=
  .ite h (.ite h.poisonRead (.ite h h.rest.countOther.passOther))

theorem execWindowRead_keepsMem : KeepsMem (execWindowRead off len) := keepsMem_on fun _ h => h.windowRead

protected theorem Dev.memWf.windowWrite (h : d.memWf) : (windowWrite off bytes d).memWf := by
  refine .ite h (.ite h.rest (.passOther (.countOther ?_)))
  exact h.writeGddr (wrBs_wf _ _ _ h.gddr)

theorem execWindowWrite_keepsMem : KeepsMem (execWindowWrite off bytes) := keepsMem_on fun _ h => h.windowWrite

theorem execWindowTimeout_keepsMem : KeepsMem (execWindowTimeout off len) := keepsMem_on fun _ h => .ite h.letPass.poisonRead h

end Sys2Proof.Machine
end

section
/-!
The memories under the optical link. What a port delivers goes into the queues of a tile.
-/

namespace Sys2Proof.Machine

open Sys2Proof

variable {d : Dev} {x : Part} {p lane : Nat} {v : Bool} {port : Fin 32} {c : List Byte} {pkt : Packet} {e : OutEntry} {segs :
  List (BitVec 16)} {rx : LaneRx} {m : Fin 64}

protected theorem Dev.memWf.portOff (h : d.memWf) : (portOff p d).memWf := h.movePort

protected theorem Dev.memWf.portEn (h : d.memWf) : (portEn p v d).memWf :=
  .ite h.modPort.portOff (.ite h.modPort.enterTraining h.modPort)

theorem execPortEn_keepsMem : KeepsMem (execPortEn port v) := keepsMem_on fun _ h => h.whenAwake fun _ k => k.portEn

protected theorem Dev.memWf.portRetrain (h : d.memWf) : (portRetrain p d).memWf := .ite h h.enterTraining

theorem execRetrain_keepsMem : KeepsMem (execRetrain port) := keepsMem_on fun _ h => h.whenAwake fun _ k => k.portRetrain

theorem execDark_keepsMem : KeepsMem (execDark port v) := keepsMem_on fun _ h => by
  refine h.whenAwake fun _ k => ?_
  split
  · exact k.setDark
  · exact k.clearDark

protected theorem Dev.memWf.forceDown (h : d.memWf) : (forceDown p d).memWf := .ite h.portDown h

theorem execForceDown_keepsMem : KeepsMem (execForceDown port) := keepsMem_on fun _ h => h.whenAwake fun _ k => k.forceDown

theorem execJobIdWrite_keepsMem {v : BitVec 32} : KeepsMem (execJobIdWrite port v) :=
  keepsMem_on fun _ h => h.whenAwake fun _ k => k.writeJobId

protected theorem Dev.memWf.laneTimeout (h : d.memWf) : (laneTimeout p lane d).memWf :=
  .ite h (h.whenDue fun _ k => k.modPort.assignStripes)

theorem execLaneAcquisitionTimeout_keepsMem {lane : Fin 5} : KeepsMem (execLaneAcquisitionTimeout port lane) :=
  keepsMem_on fun _ h => h.whenAwake fun _ k => k.laneTimeout

protected theorem Dev.memWf.compareCell (h : d.memWf) : (compareCell p c d).memWf := .ite h.modPort.portUp h.modPort

protected theorem Dev.memWf.sendTraining (h : d.memWf) : (sendTraining p d).memWf := .ite h.modPort h

protected theorem Dev.memWf.trainingCell (h : d.memWf) : (trainingCell p c d).memWf := by
  unfold trainingCell
  split
  · exact h
  · refine .sendTraining ?_
    split
    · dsimp only
      split
      · exact .ite h.modPort.enterTraining.modJob h.modPort.enterTraining
      · exact h.modPort.enterTraining
    · exact .ite h.modPort h.modPort.compareCell

theorem execTrainingCell_keepsMem {cell : List Byte} : KeepsMem (execTrainingCell port cell) :=
  keepsMem_on fun _ h => h.whenAwake fun _ k => k.trainingCell

protected theorem Dev.memWf.trainTimeout (h : d.memWf) : (trainTimeout p d).memWf := .ite h (h.whenDue fun _ k => k.modPort)

theorem execTrainTimeout_keepsMem : KeepsMem (execTrainTimeout port) :=
  keepsMem_on fun _ h => h.whenAwake fun _ k => k.trainTimeout

protected theorem Dev.memWf.linkNote {cause : Nat} (h : d.memWf) : (linkNote p cause lane d).memWf := h.raise

protected theorem Dev.memWf.dropPacket {count : Port → Port} (h : d.memWf) : (dropPacket p count d).memWf :=
  .ite h.modPort h.modPort.linkNote

protected theorem Dev.memWf.countRx (h : d.memWf) : (countRx p pkt d).memWf := h.modPort

protected theorem Dev.memWf.relayPacket (h : d.memWf) : (relayPacket x p pkt d).memWf :=
  .ite h.countRx.modPort.sendComet h.countRx.modPort

protected theorem Dev.memWf.dropWaiting (h : d.memWf) : (dropWaiting x p d).memWf := by
  unfold dropWaiting
  split
  · exact h
  · exact h.modPort.modPart

protected theorem Dev.memWf.receiveData {onward : Bool} (h : d.memWf) : (receiveData x p pkt onward d).memWf := by
  unfold receiveData
  split
  · exact h.dropPacket
  · exact .ite h.dropPacket (.ite h.dropWaiting.modPart.modPort.relayPacket h.dropWaiting.modPart.modPort.countRx)

protected theorem Dev.memWf.fabricPacket (h : d.memWf) : (fabricPacket x p pkt d).memWf := .ite h.modPart.modPort h.modPart

protected theorem Dev.memWf.receivePacket {reserved : Bool} (h : d.memWf) : (receivePacket x p pkt reserved d).memWf :=
  .ite h.dropPacket (.ite h.dropPacket (.ite h.relayPacket (.ite h.dropPacket (.ite (.fabricPacket (.ite h.relayPacket h))
    h.receiveData))))

protected theorem Dev.memWf.packetReceived {bytes : List Byte} (h : d.memWf) : (packetReceived p bytes d).memWf := by
  unfold packetReceived
  dsimp only
  split
  · exact h
  · split
    · exact h
    · split
      · exact h.modPort
      · exact h.modPort.dropPacket
      · exact h.modPort.dropPacket
      · exact h.modPort.receivePacket

theorem execPacketReceived_keepsMem {cells : List Byte} : KeepsMem (execPacketReceived port cells) :=
  keepsMem_on fun _ h => h.whenAwake fun _ k => k.packetReceived

protected theorem Dev.memWf.deliveryPush (h : d.memWf) : (deliveryPush p d).memWf := by
  unfold deliveryPush
  split
  · refine .ite h (.modPort (h.setTile (Tile.memWf.noteMet ?_)))
    exact List.foldlRecOn _ _ (h.getTile _) fun _ k _ _ => k.enqueue
  · exact h

theorem execDeliveryPush_keepsMem : KeepsMem (execDeliveryPush port) :=
  keepsMem_on fun _ h => h.whenAwake fun _ k => k.deliveryPush

protected theorem Dev.memWf.streamAppend (h : d.memWf) : (streamAppend p d).memWf := by
  unfold streamAppend
  split
  · exact h
  · exact .ite h.modPort.raise h.modPort.modPort

theorem execStreamAppend_keepsMem : KeepsMem (execStreamAppend port) :=
  keepsMem_on fun _ h => h.whenAwake fun _ k => k.streamAppend

protected theorem Dev.memWf.transmit (h : d.memWf) : (transmit p pkt d).memWf := h.modPort

protected theorem Dev.memWf.evict {fuel : Nat} (h : d.memWf) : (evict p fuel d).memWf := by
  induction fuel generalizing d with
  | zero => exact h
  | succ n ih => exact .ite h.modPort (ih h.modPort.linkNote)

protected theorem Dev.memWf.holdCopy {c : HeldCopy} (h : d.memWf) : (holdCopy p c d).memWf := h.modPort.evict

protected theorem Dev.memWf.formerSends {bad : List Nat} {n : Nat} (h : d.memWf) : (formerSends bad n d).2.memWf :=
  .iteSnd h.rest h

protected theorem Dev.memWf.sourceSlot {masks : List (BitVec 64)} (h : d.memWf) : (sourceSlot x p masks e d).memWf := by
  unfold sourceSlot
  dsimp only
  exact .ite h.modPort (.ite h.modPort.raise (.ite h.modPort.formerSends h.modPort.formerSends.modPart.transmit.holdCopy))

protected theorem Dev.memWf.forwardSlot (h : d.memWf) : (forwardSlot x p e d).memWf := by
  unfold forwardSlot
  split
  · exact h
  · dsimp only
    split
    · exact .ite h.modPort.transmit h.modPort.linkNote
    · exact h.modPort.linkNote

protected theorem Dev.memWf.slotStart (h : d.memWf) : (slotStart p d).memWf := by
  unfold slotStart
  split
  · exact h
  · split
    · exact h
    · dsimp only
      split
      · exact h
      · split
        · exact h.modPort
        · exact .ite h.modPort.forwardSlot h.modPort.sourceSlot

theorem execSlotStart_keepsMem : KeepsMem (execSlotStart port) := keepsMem_on fun _ h => h.whenAwake fun _ k => k.slotStart

protected theorem Dev.memWf.clearSecond (h : d.memWf) : (clearSecond p d).memWf := h.modPort

protected theorem Dev.memWf.cometSent (h : d.memWf) : (cometSent x pkt d).memWf := by
  unfold cometSent
  split
  · exact h
  · split
    · exact h.modPart
    · exact h.modPart
    · exact h

protected theorem Dev.memWf.sendInComet {c at_ : Nat} (h : d.memWf) : (sendInComet x p c at_ d).memWf := by
  unfold sendInComet
  extract_lets numbered pass
  have k : numbered.memWf := h.modPort
  have l : ∀ e, e.memWf → (pass e).memWf := fun e n => by
    dsimp only [pass]
    split
    · exact n.clearSecond
    · exact n
  refine .ite k ?_
  split
  · exact l _ k
  · exact (l _ k.modPort).transmit.cometSent

protected theorem Dev.memWf.cometSlot (h : d.memWf) : (cometSlot p d).memWf := by
  unfold cometSlot
  split
  · exact h
  · exact .ite (h.whenDue fun _ k => k.sendInComet) (.ite h h.modPort.sendInComet)

theorem execCometSlot_keepsMem : KeepsMem (execCometSlot port) := keepsMem_on fun _ h => h.whenAwake fun _ k => k.cometSlot

protected theorem Dev.memWf.notePower {power : BitVec 16} (h : d.memWf) : (notePower p lane power d).memWf := h.modPort

protected theorem Dev.memWf.lockLoss (h : d.memWf) : (lockLoss p lane segs d).memWf := .ite h (.ite h.modPort h.modPort)

theorem execLockLoss_keepsMem : KeepsMem (execLockLoss port rx) :=
  keepsMem_on fun _ h => h.whenAwake fun _ k => k.notePower.lockLoss

protected theorem Dev.memWf.failLane (h : d.memWf) : (failLane p lane d).memWf :=
  .ite h.modPort.portDown (.ite h.modPort.modPort.raise (.ite h.modPort.portDown h.modPort.movePort))

protected theorem Dev.memWf.laneFailed (h : d.memWf) : (laneFailed p lane d).memWf := by
  unfold laneFailed
  dsimp only
  split
  · exact .ite (h.whenDue fun _ k => k.failLane) h
  · exact h

theorem execLaneFailed_keepsMem {lane : Fin 5} : KeepsMem (execLaneFailed port lane) :=
  keepsMem_on fun _ h => h.whenAwake fun _ k => k.laneFailed

protected theorem Dev.memWf.lockRegain (h : d.memWf) : (lockRegain p lane segs d).memWf := by
  unfold lockRegain
  dsimp only
  split
  · exact h
  · split
    · exact .ite h h.modPort.assignStripes
    · split
      · exact h.modPort
      · exact .ite h.portDown.modPort (.ite h.failLane.modPort (.ite h.modPort.modPort.modPort.linkNote h.modPort.modPort))

theorem execLockRegain_keepsMem : KeepsMem (execLockRegain port rx) :=
  keepsMem_on fun _ h => h.whenAwake fun _ k => k.notePower.lockRegain

protected theorem Dev.memWf.outageExpiry (h : d.memWf) : (outageExpiry p d).memWf := by
  unfold outageExpiry
  split
  · exact .ite (h.whenDue fun _ k => k.portDown) h
  · exact h

theorem execPortOutageExpiry_keepsMem : KeepsMem (execPortOutageExpiry port) :=
  keepsMem_on fun _ h => h.whenAwake fun _ k => k.outageExpiry

protected theorem Dev.memWf.haloReq (h : d.memWf) : (haloReq p lane d).memWf := .ite h h.movePort.raise

theorem execHaloReq_keepsMem {lane : Fin 5} : KeepsMem (execHaloReq port lane) :=
  keepsMem_on fun _ h => h.whenAwake fun _ k => k.haloReq

protected theorem Dev.memWf.haloAck (h : d.memWf) : (haloAck p lane d).memWf := .ite h.modPort h

theorem execHaloAck_keepsMem {lane : Fin 5} : KeepsMem (execHaloAck port lane) :=
  keepsMem_on fun _ h => h.whenAwake fun _ k => k.haloAck

protected theorem Dev.memWf.deskewDone (h : d.memWf) : (deskewDone p d).memWf := .ite (.ite h.portDown h.modPort.portUp) h

theorem execDeskewDone_keepsMem : KeepsMem (execDeskewDone port) := keepsMem_on fun _ h => h.whenAwake fun _ k => k.deskewDone

protected theorem Dev.memWf.substTimeout (h : d.memWf) : (substTimeout p d).memWf := by
  unfold substTimeout
  split
  · exact .ite (h.whenDue fun _ k => k.portDown) h
  · exact h

theorem execSubstTimeout_keepsMem : KeepsMem (execSubstTimeout port) :=
  keepsMem_on fun _ h => h.whenAwake fun _ k => k.substTimeout

protected theorem Dev.memWf.farDown (h : d.memWf) : (farDown p d).memWf := .ite h.portDown h

theorem execFarDownSeen_keepsMem : KeepsMem (execFarDownSeen port) := keepsMem_on fun _ h => h.whenAwake fun _ k => k.farDown

protected theorem Dev.memWf.laserOff (h : d.memWf) : (laserOff p d).memWf := by
  unfold laserOff
  split
  · exact .ite (h.whenDue fun _ k => k.modPort) h
  · exact h

theorem execLaserOff_keepsMem : KeepsMem (execLaserOff port) := keepsMem_on fun _ h => h.whenAwake fun _ k => k.laserOff

theorem execPortRead_keepsMem : KeepsMem (execPortRead m) := keepsMem_on fun _ h => by
  refine h.partCommand fun _ _ _ k => ?_
  split
  · exact k.answer
  · exact k.modPort.answer

theorem execPortCtrl_keepsMem : KeepsMem (execPortCtrl m) := keepsMem_on fun _ h => by
  refine h.partCommand fun _ _ _ k => ?_
  split
  · exact k.answer
  · split
    · exact .ite k.portRetrain.answer k.answer
    · exact k.forceDown.answer
    · exact k.answer

end Sys2Proof.Machine
end

section
/-!
The memories under keeping the plan across modules.
-/

namespace Sys2Proof.Machine

open Sys2Proof

variable {d : Dev} {x : Part} {pid pos req orbit attempt : Nat} {part : Fin 16} {m : Fin 64}

protected theorem Dev.memWf.takeInbox {f : Packet → Bool} {act : Part → Received → Dev → Dev} (h : d.memWf)
    (keep : ∀ a b c, c.memWf → (act a b c).memWf) : (takeInbox pid f act d).memWf := by
  unfold takeInbox
  refine h.withPart fun _ _ k => ?_
  split
  · exact k
  · exact keep _ _ _ k.setPart

protected theorem Dev.memWf.dueSlotEnd {p : Nat} (h : d.memWf) : (dueSlotEnd p pos d).memWf := by
  unfold dueSlotEnd
  split
  · exact h
  · split
    · exact h
    · exact .ite h h.setPart.askAgain

theorem execDueSlotEnd_keepsMem {port : Fin 32} : KeepsMem (execDueSlotEnd port pos) :=
  keepsMem_on fun _ h => h.whenAwake fun _ k => k.dueSlotEnd

protected theorem Dev.memWf.serveKey {k : Nat × Nat × Nat} {a : List (Nat × Nat × Nat) × Dev} (h : a.2.memWf) :
    (serveKey pid req orbit attempt k a).2.memWf := by
  unfold serveKey
  split
  · exact h
  · dsimp only
    refine .iteSnd h ?_
    split
    · exact h.setPart.sendComet
    · exact .iteSnd h.setPart h.setPart.modPart

protected theorem Dev.memWf.serveRecord {rec : List Byte} {a : List (List Byte) × Dev} (h : a.2.memWf) :
    (serveRecord pid req orbit attempt rec a).2.memWf :=
  .foldlSnd h fun _ _ k => k.serveKey

protected theorem Dev.memWf.receipt (h : d.memWf) : (receipt pid d).memWf :=
  h.takeInbox fun _ _ _ k => .ite k.modPart.abandon (.sendReceipts (.foldlSnd k fun _ _ l => l.serveRecord))

theorem execReceipt_keepsMem : KeepsMem (execReceipt part) := keepsMem_on fun _ h => h.whenAwake fun _ k => k.receipt

protected theorem Dev.memWf.fabSecond (h : d.memWf) : (fabSecond pid d).memWf := by
  unfold fabSecond
  refine h.withPart fun _ _ k => ?_
  split
  · exact k
  · exact .ite k (k.whenDue fun _ l => l.raise)

theorem execFabSecond_keepsMem : KeepsMem (execFabSecond part) := keepsMem_on fun _ h => h.whenAwake fun _ k => k.fabSecond

protected theorem Dev.memWf.learnFences {bits : Nat} {all : Bool} (h : d.memWf) : (learnFences pid orbit bits all d).memWf :=
  h.withPart fun _ _ k => k.forEach fun _ _ l => (l.forEach fun _ _ n => n.setFence).markFenced

protected theorem Dev.memWf.formRound1 {orbit : BitVec 32} {stale : Bool} {start : BitVec 64} (h : d.memWf) :
    (formRound1 pid orbit stale start d).memWf :=
  h.withPart fun _ _ k => .advanceMarks (.queueMark (.ite k.setPart.learnFences k.setPart))

protected theorem Dev.memWf.orbitMark (h : d.memWf) : (orbitMark pid d).memWf :=
  h.takeInbox fun _ _ _ k => k.setPart.learnFences.advanceMarks

protected theorem Dev.memWf.markTimeout (h : d.memWf) : (markTimeout pid d).memWf := h.withPart fun _ _ k => .ite k.raise k

theorem execMarkTimeout_keepsMem : KeepsMem (execMarkTimeout part) := keepsMem_on fun _ h => h.whenAwake fun _ k => k.markTimeout

protected theorem Dev.memWf.takeParent (h : d.memWf) : (takeParent d).memWf := by
  unfold takeParent
  split
  · exact h
  · split
    · exact h.rest
    · exact h.rest

protected theorem Dev.memWf.time (h : d.memWf) : (time pid d).memWf :=
  h.takeInbox fun _ _ _ k => .ite k.takeParent k.takeParent.rest

theorem execTime_keepsMem : KeepsMem (execTime part) := keepsMem_on fun _ h => h.whenAwake fun _ k => k.time

protected theorem Dev.memWf.timeParentLoss (h : d.memWf) : (timeParentLoss d).memWf := by
  unfold timeParentLoss
  dsimp only
  split
  · exact .ite h.takeParent (h.takeParent.whenDue fun _ k => k.rest)
  · exact h.takeParent

theorem execTimeParentLoss_keepsMem : KeepsMem execTimeParentLoss :=
  keepsMem_on fun _ h => h.whenAwake fun _ k => k.timeParentLoss

theorem execTimeRoot_keepsMem : KeepsMem (execTimeRoot m) := keepsMem_on fun _ h => by
  refine h.command fun _ _ k => ?_
  split
  · exact k.rest.answer
  · exact .ite k.rest.takeParent.answer k.answer
  · exact k.answer

protected theorem Dev.memWf.flood {except : Option Nat} {pl : List Byte} (h : d.memWf) : (flood pid except pl d).memWf :=
  h.withPart fun _ _ k => k.setPart.forEach fun _ _ l => l.enqueueComet

protected theorem Dev.memWf.keepPart {orbit : BitVec 32} {part : Nat} {b : List Byte} (h : d.memWf) :
    (keepPart x orbit part b d).memWf :=
  h.modSrv

protected theorem Dev.memWf.keepStale {orbit : BitVec 32} (h : d.memWf) : (keepStale x orbit d).memWf := h.modSrv

protected theorem Dev.memWf.mgmtAct {r : Received} (h : d.memWf) : (mgmtAct x r d).memWf := by
  unfold mgmtAct
  dsimp only
  split
  · exact h
  · split
    · exact h.flood.keepPart
    · exact h.flood.keepStale
    · exact h.flood.modPart
    · exact h.flood

theorem execMgmt_keepsMem : KeepsMem (execMgmt part) :=
  keepsMem_on fun _ h => h.whenMp fun _ k => k.takeInbox fun _ _ _ l => l.mgmtAct

theorem execRouteSwitch_keepsMem : KeepsMem (execRouteSwitch m) :=
  keepsMem_on fun _ h => h.partCommand fun _ _ _ k => .ite k.answer k.modPart.flood.answer

end Sys2Proof.Machine
end

section
/-!
The memories under the weight pages of copy slots and adapter areas.
-/

namespace Sys2Proof.Machine

open Sys2Proof

variable {d : Dev} {x : Part} {pid s first n : Nat}

protected theorem Dev.memWf.modW {f : Weights → Weights} (h : d.memWf) : (modW pid f d).memWf := h.modPart

protected theorem Dev.memWf.setCopy {c : CopySlot} (h : d.memWf) : (setCopy pid s c d).memWf := h.modW

protected theorem Dev.memWf.freePages (h : d.memWf) : (freePages x first n d).memWf := h.rest

protected theorem Dev.memWf.freeCopy (h : d.memWf) : (freeCopy pid s d).memWf := h.withPart fun _ _ k => k.freePages.setCopy

protected theorem Dev.memWf.fillPages {resident : Nat} {unit : Nat → Option Nat} {p : Nat} {e : Dev} (h : d.memWf)
    (filled : fillPages x first resident unit n p d = some e) : e.memWf := by
  induction n generalizing p d with
  | zero => cases filled; exact h
  | succ n ih =>
    unfold fillPages at filled
    dsimp only at filled
    split at filled
    · refine ih ?_ filled
      split
      · exact h.rest
      · exact h.rest
    · split at filled
      · exact ih h.rest filled
      · cases filled

protected theorem Dev.memWf.writeWeights {addr : Nat} {bytes : List Byte} (h : d.memWf) :
    (writeWeights x addr bytes d).memWf := by
  refine Dev.memWf.foldlSnd h fun c a k => .ite (.passOther (.countOther ?_)) k
  exact k.writeGddr (wrBs_wf _ _ _ k.gddr)

end Sys2Proof.Machine
end

section
/-!
The memories under the serving engine.
-/

namespace Sys2Proof.Machine

open Sys2Proof

variable {d : Dev} {x : Part} {pid slot cause n c : Nat} {id : BitVec 32} {w : Stamp} {r : Req} {pages : List Nat} {part : Fin
  16} {v : Bool} {m : Fin 64} {t : Tab PlaceEntry} {s : Step} {e : PlaceEntry}

protected theorem Dev.memWf.modReq {f : Req → Req} (h : d.memWf) : (modReq pid id f d).memWf := h.modSrv

protected theorem Dev.memWf.reqRec {kind data : Nat} (h : d.memWf) : (reqRec x w kind slot id data d).memWf := .ite h.ephRecAt h

protected theorem Dev.memWf.endReq {status reason : Nat} (h : d.memWf) : (endReq pid r slot status reason w d).memWf := by
  unfold endReq
  refine h.withPart fun _ _ k => .reqRec (.modPart ?_)
  split
  · exact .ite k.freeCopy k
  · exact k

protected theorem Dev.memWf.eclipseReq (h : d.memWf) : (eclipseReq x r cause d).memWf := h.modReq.reqRec

protected theorem Dev.memWf.pageNote {page off : Nat} (h : d.memWf) : (pageNote page off n d).memWf := .ite h.storeNote h

protected theorem Dev.memWf.acceptDesc {b : List Byte} (h : d.memWf) : (acceptDesc x b pages d).memWf := by
  unfold acceptDesc
  dsimp only
  split
  · exact h.modSrv.reqRec
  · exact h.modSrv.reqRec

protected theorem Dev.memWf.submit (h : d.memWf) : (submit pid d).memWf := by
  unfold submit
  refine h.withPart fun _ _ k => ?_
  split
  · exact k
  · exact .ite k (.modSrv (.ite k.pageNote.acceptDesc k.reqRec))

theorem execSubmit_keepsMem : KeepsMem (execSubmit part) := keepsMem_on fun _ h => h.whenMp fun _ k => k.submit

protected theorem Dev.memWf.setAdmit (h : d.memWf) : (setAdmit pid v d).memWf := .ite h h.modSrv

theorem execAdmitWrite_keepsMem : KeepsMem (execAdmitWrite part v) := keepsMem_on fun _ h => h.whenHost fun _ k => k.setAdmit

protected theorem Dev.memWf.reqCommand {code m : Nat} {f : Part → Req → List Byte → Dev → Dev} (h : d.memWf)
    (keep : ∀ a b c e, e.memWf → (f a b c e).memWf) : (reqCommand code m f d).memWf := by
  unfold reqCommand
  refine h.partCommand fun _ _ _ k => ?_
  split
  · exact keep _ _ _ _ k
  · exact k.answer

theorem execReqCancel_keepsMem : KeepsMem (execReqCancel m) :=
  keepsMem_on fun _ h => h.reqCommand fun _ _ _ _ k => k.modReq.answer

theorem execReqEclipse_keepsMem : KeepsMem (execReqEclipse m) :=
  keepsMem_on fun _ h => h.reqCommand fun _ _ _ _ k => k.modReq.answer

theorem execReqResume_keepsMem : KeepsMem (execReqResume m) :=
  keepsMem_on fun _ h => h.reqCommand fun _ _ _ _ k => k.modReq.answer

theorem execReqRemap_keepsMem : KeepsMem (execReqRemap m) := keepsMem_on fun _ h => by
  refine h.reqCommand fun _ _ _ _ k => ?_
  dsimp only
  split
  · exact k.answer
  · split
    · exact k.answer
    · split
      · exact k.answer
      · exact .ite k.modReq.answer k.answer

theorem execBudgetSet_keepsMem : KeepsMem (execBudgetSet m) :=
  keepsMem_on fun _ h => h.partCommand fun _ _ _ k => .ite k.answer ((k.forEach fun _ _ l => l.rest).modSrv).answer

theorem execSelectorLoad_keepsMem : KeepsMem (execSelectorLoad m) := keepsMem_on fun _ h => by
  refine h.partCommand fun _ _ _ k => ?_
  dsimp only
  split
  · exact k.answer
  · exact .ite k.answer (.ite k.answer (.ite k.answer (.ite k.answer k.modSrv.answer)))

protected theorem Dev.memWf.slotStageWrite (h : d.memWf) : (slotStageWrite pid d).memWf :=
  h.withPart fun _ _ k => .ite k ((k.forEach fun _ _ l => l.modTile fun _ n => n.rest).forEach fun _ _ l => l.modTile fun _ n =>
    n.rest).modPart

theorem execSlotStageWrite_keepsMem : KeepsMem (execSlotStageWrite part) :=
  keepsMem_on fun _ h => h.whenAwake fun _ k => k.slotStageWrite

protected theorem Dev.memWf.settleOne (h : d.memWf) : (settleOne pid c d).memWf :=
  h.withPart fun _ _ k => .ite k.modSrv k.modSrv.ephRec

protected theorem Dev.memWf.settle (h : d.memWf) : (settle pid d).memWf :=
  h.withPart fun _ _ k => .ite k (k.forEach fun _ _ l => l.settleOne).modSrv

protected theorem Dev.memWf.placeEnds {f : Req → Bool} (h : d.memWf) : (placeEnds pid f d).memWf :=
  h.withPart fun _ _ k => k.forEach fun _ _ l => .ite l.endReq (.ite l.endReq l)

protected theorem Dev.memWf.sendPlacement (h : d.memWf) : (sendPlacement pid t d).memWf :=
  h.withPart fun _ _ k => .ite k (k.forEach fun _ _ l => l.flood)

protected theorem Dev.memWf.formPlacement (h : d.memWf) : (formPlacement pid d).memWf := by
  unfold formPlacement
  refine h.withPart fun _ _ k => ?_
  split
  · exact k
  · refine .sendPlacement (.modSrv (k.forEach fun _ _ l => ?_))
    split
    · exact l
    · split
      · exact l.eclipseReq
      · exact l.eclipseReq
      · exact l

protected theorem Dev.memWf.placement (h : d.memWf) : (placement pid d).memWf :=
  h.withPart fun _ _ k => .ite k k.settle.placeEnds.formPlacement

theorem execPlacement_keepsMem : KeepsMem (execPlacement part) := keepsMem_on fun _ h => h.whenMp fun _ k => k.placement

protected theorem Dev.memWf.stale (h : d.memWf) : (stale pid d).memWf := h.withPart fun _ _ k => .ite k (.flood (.ite k.modSrv k))

theorem execStale_keepsMem : KeepsMem (execStale part) := keepsMem_on fun _ h => h.whenMp fun _ k => k.stale

protected theorem Dev.memWf.followPlacement (h : d.memWf) : (followPlacement pid t d).memWf :=
  h.placeEnds.withPart fun _ _ k => k.forEach fun _ _ l => l.eclipseReq

protected theorem Dev.memWf.holdPlacement (h : d.memWf) : (holdPlacement pid d).memWf := by
  unfold holdPlacement
  refine h.withPart fun _ _ k => ?_
  split
  · exact .ite k.modSrv.followPlacement k
  · exact k

protected theorem Dev.memWf.placementReceive (h : d.memWf) : (placementReceive pid d).memWf :=
  (h.takeInbox fun _ _ _ k => k.mgmtAct).holdPlacement

theorem execPlacementReceive_keepsMem : KeepsMem (execPlacementReceive part) :=
  keepsMem_on fun _ h => h.whenMp fun _ k => k.placementReceive

protected theorem Dev.memWf.pinPages (h : d.memWf) : (pinPages pages d).memWf := h.forEach fun _ _ k => k.setCpt

protected theorem Dev.memWf.rideSlot {s : Nat} (h : d.memWf) : (rideSlot x r s e cause d).memWf := by
  unfold rideSlot
  refine .modReq ?_
  split
  · exact .ite h.reqRec h.reqRec.reqRec
  · exact h.reqRec
  · exact h

protected theorem Dev.memWf.buildSlot {s : Nat} {a : SlotBank × List Nat × Dev} (h : a.2.2.memWf) :
    (buildSlot x s e a).2.2.memWf := by
  unfold buildSlot
  split
  next t f d =>
  replace h : d.memWf := h
  extract_lets multi
  split
  · split
    · exact h
    · exact h
  · next r _ =>
    have eclipsed : ∀ n, (if r.st = .running then eclipseReq x r n d else d).memWf := fun _ => .ite h.eclipseReq h
    extract_lets area entry
    split
    · split
      · exact h.rideSlot
      · exact eclipsed _
    · split
      · exact (eclipsed _).modReq
      · split
        · extract_lets noted
          have k : noted.memWf := h.ephRec
          split
          · exact k.rideSlot
          · exact .ite k.eclipseReq k
        · exact h.pinPages.rideSlot

protected theorem Dev.memWf.slotTableBuild (h : d.memWf) : (slotTableBuild pid d).memWf := by
  unfold slotTableBuild
  refine h.withPart fun x e k => ?_
  split
  · refine .ite k (.modSrv ?_)
    exact List.foldlRecOn (motive := fun b : SlotBank × List Nat × Dev => b.2.2.memWf) _ _ k fun _ l _ _ => l.buildSlot
  · exact k

theorem execSlotTableBuild_keepsMem : KeepsMem (execSlotTableBuild part) :=
  keepsMem_on fun _ h => h.whenMp fun _ k => k.slotTableBuild

protected theorem Dev.memWf.tokenAt {pos : Nat} (h : d.memWf) : (tokenAt d pages pos).2.memWf := by
  unfold tokenAt
  extract_lets off
  split
  · exact h.pageNote
  · split
    next v e drawn => exact .of_eq h.draw drawn

protected theorem Dev.memWf.charge (h : d.memWf) : (charge pid c n d).memWf := h.modSrv

protected theorem Dev.memWf.loseToken (h : d.memWf) : (loseToken x s r w d).memWf := h.modReq.reqRec

protected theorem Dev.memWf.deliverToken {late : Bool} (h : d.memWf) : (deliverToken x s r late w d).memWf := by
  unfold deliverToken
  dsimp only
  exact .ite h.tokenAt.modReq.charge.reqRec.endReq (.ite h.tokenAt.modReq.charge.reqRec.endReq h.tokenAt.modReq.charge.reqRec)

protected theorem Dev.memWf.deliverStep (h : d.memWf) : (deliverStep x s d).memWf := by
  unfold deliverStep
  extract_lets w emit
  split
  · exact .ite h.reqRec h
  · split
    · exact h
    · refine .ite h ?_
      extract_lets late deliver recorded charged
      have delivered : ∀ e, e.memWf → (deliver e).memWf := fun _ k => .ite k.loseToken k.deliverToken
      have k : charged.memWf := h.reqRec.modReq.charge
      exact .ite (.ite k.endReq (.ite (delivered _ k) k)) (delivered _ h)

protected theorem Dev.memWf.ckptCapture (h : d.memWf) : (ckptCapture pid d).memWf := by
  unfold ckptCapture
  refine h.withPart fun _ _ k => ?_
  split
  · exact k
  · split
    · exact k
    · exact .ite k (.modPart (.ite k k.hostWr))

theorem execOrbitMark_keepsMem : KeepsMem (execOrbitMark part) :=
  keepsMem_on fun _ h => h.whenAwake fun _ k => k.orbitMark.whenMp fun _ l => l.ckptCapture

protected theorem Dev.memWf.tokenDelivery (h : d.memWf) : (tokenDelivery pid d).memWf := by
  unfold tokenDelivery
  refine h.withPart fun _ _ k => ?_
  split
  · exact k
  · split
    · exact k
    · exact .ite k (k.forEach fun _ _ l => .modSrv (.ite l l.deliverStep))

theorem execTokenDelivery_keepsMem : KeepsMem (execTokenDelivery part) :=
  keepsMem_on fun _ h => h.whenMp fun _ k => k.tokenDelivery.ckptCapture

theorem execGap_keepsMem : KeepsMem (execGap part) := keepsMem_on fun _ h => h.whenMp fun _ k => k.ephGap

end Sys2Proof.Machine
end

section
/-!
The memories under loading and replacing weights, which writes GDDR7 shard by shard.
-/

namespace Sys2Proof.Machine

open Sys2Proof

variable {d : Dev} {x : Part} {pid event shard st idx : Nat} {host : Bool} {a : Adapter} {l : Load} {m : Fin 64} {s : Shard}
  {part : Fin 16}

protected theorem Dev.memWf.weightRec {status : Nat} (h : d.memWf) : (weightRec pid event shard host status d).memWf := h.ephRec

protected theorem Dev.memWf.adapterRec (h : d.memWf) : (adapterRec pid event a d).memWf := h.ephRec

protected theorem Dev.memWf.setLoad (h : d.memWf) : (setLoad pid l d).memWf := h.modW

protected theorem Dev.memWf.dropLoad {m : Nat} (h : d.memWf) : (dropLoad pid m d).memWf := h.modW

protected theorem Dev.memWf.modAdapter {handle gen : BitVec 32} {f : Adapter → Adapter} (h : d.memWf) :
    (modAdapter pid handle gen f d).memWf :=
  h.modW

protected theorem Dev.memWf.freeAdapter (h : d.memWf) : (freeAdapter pid a d).memWf :=
  h.withPart fun _ _ k => k.setPart.freePages.adapterRec

protected theorem Dev.memWf.readyAdapter (h : d.memWf) : (readyAdapter pid a d).memWf :=
  h.withPart fun _ _ k => k.adapterRec.modAdapter.forEach fun _ _ l => l.modAdapter.adapterRec

protected theorem Dev.memWf.stepAdapters (h : d.memWf) : (stepAdapters pid d).memWf :=
  (h.withPart fun _ _ k => k.forEach fun _ _ l => l.readyAdapter).withPart fun _ _ k => k.forEach fun _ _ l => l.freeAdapter

protected theorem Dev.memWf.stepAdaptersNow (h : d.memWf) : (stepAdaptersNow pid d).memWf :=
  h.withPart fun _ _ k => .ite k k.stepAdapters

protected theorem Dev.memWf.failLoad (h : d.memWf) : (failLoad pid l st shard host d).memWf := by
  unfold failLoad
  refine h.withPart fun _ _ k => .answer (.weightRec ?_)
  split
  · exact k.dropLoad.freeCopy
  · split
    · exact k.dropLoad.freeAdapter
    · exact k.dropLoad

protected theorem Dev.memWf.loadDone (h : d.memWf) : (loadDone pid l d).memWf := by
  unfold loadDone
  refine h.withPart fun _ _ k => .answer (.stepAdaptersNow (.weightRec ?_))
  split
  · exact k.dropLoad.setCopy
  · split
    · exact k.dropLoad.modAdapter.modW
    · exact k.dropLoad

protected theorem Dev.memWf.sourceNote {s : Source} {off n : Nat} (h : d.memWf) : (sourceNote s off n d).memWf := by
  unfold sourceNote
  split
  · split
    · exact h.imgNote
    · exact h
  · exact h

protected theorem Dev.memWf.refetch (h : d.memWf) : (refetch pid l s d).2.memWf := h.raise.weightRec

protected theorem Dev.memWf.goOn (h : d.memWf) : (goOn pid l d).memWf :=
  .ite h.loadDone (.setLoad (.foldlSnd h fun _ _ k => .iteSnd k.refetch k))

protected theorem Dev.memWf.shardFails (h : d.memWf) : (shardFails pid l s d).memWf := .ite h.failLoad (.ite h.failLoad h.goOn)

protected theorem Dev.memWf.withShard {m : Nat} {f : Part → Load → Shard → Dev → Dev} (h : d.memWf)
    (keep : ∀ a b c e, e.memWf → (f a b c e).memWf) : (withShard pid m idx f d).memWf := by
  unfold withShard
  refine h.withPart fun _ _ k => ?_
  split
  · exact k
  · split
    · exact k
    · exact keep _ _ _ _ k

protected theorem Dev.memWf.tierEntries {first resident : Nat} {r : TierRun} (h : d.memWf) :
    (tierEntries x first resident r d).memWf :=
  h.forEach fun _ _ k => .ite k k.rest

protected theorem Dev.memWf.tierShard {src : Source} (h : d.memWf) : (tierShard pid l s src d).memWf := by
  unfold tierShard
  refine h.withPart fun _ _ k => ?_
  split
  · exact .ite k (k.setCopy.forEach fun _ _ l => l.tierEntries)
  · exact k

protected theorem Dev.memWf.shardFetchDone {m : Nat} (h : d.memWf) : (shardFetchDone pid m idx d).memWf := by
  unfold shardFetchDone
  refine h.withShard fun _ _ _ _ k => ?_
  dsimp only
  split
  · exact k.shardFails
  · exact .ite k.writeWeights.sourceNote.tierShard.goOn k.writeWeights.sourceNote.shardFails

theorem execShardFetchDone_keepsMem : KeepsMem (execShardFetchDone part m shard) :=
  keepsMem_on fun _ h => h.whenMp fun _ k => k.shardFetchDone

theorem execShardTimeout_keepsMem : KeepsMem (execShardTimeout part m shard) :=
  keepsMem_on fun _ h => h.whenMp fun _ k => k.withShard fun _ _ _ _ l => l.whenDue fun _ n => n.failLoad

protected theorem Dev.memWf.takeManifest {man : ManInfo} {es : List (Nat × Shard)} (h : d.memWf) :
    (takeManifest pid l man es d).memWf := by
  unfold takeManifest
  refine h.withPart fun x e k => ?_
  split
  · exact k.failLoad
  · extract_lets r
    split
    · exact k.failLoad
    · split
      · split
        · exact k.failLoad
        · next filled => exact (k.fillPages filled).setCopy.weightRec.setLoad.goOn
      · split
        · exact k.failLoad
        · next filled => exact (k.fillPages filled).modW.adapterRec.setLoad.goOn

protected theorem Dev.memWf.manifestFails (h : d.memWf) : (manifestFails pid l st d).memWf := by
  unfold manifestFails
  split
  · dsimp only
    split
    · exact h.failLoad
    · exact h.setLoad
  · exact .ite h.failLoad h.setLoad

protected theorem Dev.memWf.withManifest {m : Nat} {f : Load → Nat → Dev → Dev} (h : d.memWf)
    (keep : ∀ a b c, c.memWf → (f a b c).memWf) : (withManifest pid m f d).memWf := by
  unfold withManifest
  refine h.withPart fun _ _ k => ?_
  split
  · exact k
  · split
    · exact k
    · exact keep _ _ _ k

protected theorem Dev.memWf.withoutPrimary (h : d.memWf) : (withoutPrimary pid l st d).memWf := .ite h.manifestFails h.setLoad

protected theorem Dev.memWf.manifestReadDone {m : Nat} (h : d.memWf) : (manifestReadDone pid m d).memWf := by
  unfold manifestReadDone
  refine h.withManifest fun _ _ _ k => k.withPart fun _ _ l => ?_
  dsimp only
  split
  · exact l.sourceNote.manifestFails
  · split
    · exact .ite l.sourceNote.goOn l.sourceNote.manifestFails
    · exact .ite l.sourceNote.takeManifest (.ite l.sourceNote.manifestFails l.sourceNote.withoutPrimary)

theorem execManifestReadDone_keepsMem : KeepsMem (execManifestReadDone part m) :=
  keepsMem_on fun _ h => h.whenMp fun _ k => k.manifestReadDone

theorem execManifestReadTimeout_keepsMem : KeepsMem (execManifestReadTimeout part m) :=
  keepsMem_on fun _ h => h.whenMp fun _ k => k.withManifest fun _ _ _ l => l.whenDue fun _ n => n.manifestFails

protected theorem Dev.memWf.beginLoad {m : Nat} {t : LoadTarget} {rank : Nat} {pri alt : Source} (h : d.memWf) :
    (beginLoad pid m t rank pri alt d).memWf :=
  h.modW.beginCmd

theorem execWeightLoad_keepsMem : KeepsMem (execWeightLoad m) := keepsMem_on fun _ h => by
  refine h.partCommand fun _ _ _ k => ?_
  split
  · dsimp only
    split
    · exact k.answer
    · exact .ite k.answer (.ite k.answer (.ite k.answer (.ite k.answer k.setCopy.beginLoad)))

theorem execAdapterLoad_keepsMem : KeepsMem (execAdapterLoad m) := keepsMem_on fun _ h => by
  refine h.partCommand fun _ _ _ k => ?_
  split
  · dsimp only
    split
    · exact k.answer
    · exact k.answer
    · split
      · exact k.answer
      · split
        · exact k.answer
        · split
          · exact k.answer
          · exact k.beginLoad

theorem execAdapterDelete_keepsMem : KeepsMem (execAdapterDelete m) :=
  keepsMem_on fun _ h => h.partCommand fun _ _ _ k => .ite k.answer (.ite k.answer k.modW.stepAdaptersNow.answer)

protected theorem Dev.memWf.restartReq {r : Req} {upTo : BitVec 32} (h : d.memWf) : (restartReq x r upTo d).memWf :=
  h.modReq.reqRec

protected theorem Dev.memWf.flipNow {slot : Nat} (h : d.memWf) : (flipNow pid slot d).memWf :=
  h.withPart fun _ _ k => k.modW.setCopy.weightRec

protected theorem Dev.memWf.boundaryFlip {orbit : BitVec 32} (h : d.memWf) : (boundaryFlip pid orbit d).memWf := by
  unfold boundaryFlip
  refine h.withPart fun _ _ k => ?_
  split
  · exact k
  · exact (k.forEach fun _ _ l => l.restartReq).flipNow

theorem execWeightFlip_keepsMem : KeepsMem (execWeightFlip m) := keepsMem_on fun _ h => by
  refine h.partCommand fun _ _ _ k => ?_
  dsimp only
  split
  · exact k.answer
  · exact .ite k.answer (.ite k.answer (.ite k.answer (.ite k.answer (.ite k.modW.answer k.flipNow.answer))))

theorem execWeightRelease_keepsMem {k : Release} : KeepsMem (execWeightRelease k) :=
  keepsMem_on fun _ h => h.partCommand fun _ _ _ k => .ite k.answer (.ite (.answer (.freeCopy (.modW (.ite (k.forEach fun _ _ l
    => l.restartReq) k)))) k.answer)

end Sys2Proof.Machine
end

section
/-!
The memories under jobs and checkpoints. A checkpoint's image is written to host memory.
-/

namespace Sys2Proof.Machine

open Sys2Proof

variable {d : Dev} {x : Part} {pid : Nat} {m : Fin 64} {part : Fin 16}

theorem execRankWrite_keepsMem : KeepsMem (execRankWrite m) :=
  keepsMem_on fun _ h => h.partCommand fun _ _ _ k => .ite k.answer (.ite k.answer (.ite k.answer (.ite k.answer ((k.forEach fun
    _ _ l => l.rest).answer))))

protected theorem Dev.memWf.prepare {i : PlanInfo} {tag epoch rank ms : Nat} (h : d.memWf) :
    (prepare x i tag epoch rank ms d).memWf :=
  (((h.setPart.forEach fun _ _ k => k.modPort).forEach fun _ _ k => k.writeJobId).forEach fun _ _ k => k.setDark).allGood

theorem execJobPrepare_keepsMem : KeepsMem (execJobPrepare m) := keepsMem_on fun _ h => by
  refine h.partCommand fun _ _ _ k => ?_
  dsimp only
  split
  · exact k.prepare.answer
  · exact k.answer

protected theorem Dev.memWf.discTimeout (h : d.memWf) : (discTimeout pid d).memWf :=
  h.withPart fun _ _ k => .ite k (k.whenDue fun _ l => .ite l.modJob l.modJob.failDiscovery)

theorem execDiscTimeout_keepsMem : KeepsMem (execDiscTimeout part) := keepsMem_on fun _ h => h.whenMp fun _ k => k.discTimeout

theorem execJobGo_keepsMem : KeepsMem (execJobGo m) :=
  keepsMem_on fun _ h => h.partCommand fun _ _ _ k => .ite k.answer (.ite k.answer k.modJob.answer)

protected theorem Dev.memWf.whenMt {t : BitVec 64} {f : Dev → Dev} (h : d.memWf) (keep : ∀ a, a.memWf → (f a).memWf) :
    (whenMt t f d).memWf :=
  .ite (keep _ h) (h.whenDue fun _ k => (keep _ (.ite k.rest k)))

protected theorem Dev.memWf.pinStatic (h : d.memWf) : (pinStatic x d).memWf := h.pinPages

protected theorem Dev.memWf.startPlan (h : d.memWf) : (startPlan x d).memWf :=
  (h.setPart.forEach fun _ _ k => k.modPort).rest.pinStatic

protected theorem Dev.memWf.jobStart (h : d.memWf) : (jobStart pid d).memWf :=
  h.withPart fun _ _ k => .ite k (k.whenMt fun _ l => l.startPlan)

theorem execJobStart_keepsMem : KeepsMem (execJobStart part) := keepsMem_on fun _ h => h.whenMp fun _ k => k.jobStart

protected theorem Tile.memWf.startTile {t : Tile} (h : t.memWf) : (startTile t).memWf := h.rest

protected theorem Dev.memWf.entryDone (h : d.memWf) : (entryDone pid d).memWf :=
  h.withPart fun _ _ k => .ite k ((k.forEach fun _ _ l => l.modTile fun _ n => n.startTile).forEach fun _ _ l =>
    l.modPort).modPart

theorem execRunningEntryCleanUpDone_keepsMem : KeepsMem (execRunningEntryCleanUpDone part) :=
  keepsMem_on fun _ h => h.whenAwake fun _ k => k.entryDone

protected theorem Dev.memWf.jobStop (h : d.memWf) : (jobStop pid d).memWf :=
  h.leaveRunning.withPart fun _ _ k => (k.forEach fun _ _ l => l.writeJobId.modPort.clearDark).modJob

theorem execJobStop_keepsMem : KeepsMem (execJobStop m) :=
  keepsMem_on fun _ h => h.partCommand fun _ _ _ k => .answer (.ite k k.jobStop)

theorem execCkptTake_keepsMem : KeepsMem (execCkptTake m) :=
  keepsMem_on fun _ h => h.partCommand fun _ _ _ k => .ite k.answer (.ite k.answer (.ite k.answer k.modJob.answer))

protected theorem Dev.memWf.ckptWriteDone (h : d.memWf) : (ckptWriteDone pid d).memWf := by
  unfold ckptWriteDone
  refine h.ckptCapture.withPart fun _ _ k => ?_
  split
  · exact .jobIrq (.modJob (.ite k.hostWr.hostWr k))
  · exact k

theorem execCheckpointWriteDone_keepsMem : KeepsMem (execCheckpointWriteDone part) :=
  keepsMem_on fun _ h => h.whenMp fun _ k => k.ckptWriteDone

protected theorem Dev.memWf.restore {header body : List Byte} (h : d.memWf) : (restore x header body d).memWf :=
  (h.forEach fun _ _ k => k.rest).modPart

theorem execCkptRestore_keepsMem : KeepsMem (execCkptRestore m) :=
  keepsMem_on fun _ h => h.partCommand fun _ _ _ k => .ite k.answer (.ite k.answer (.ite k.answer (.ite k.answer (.ite k.answer
    (.ite k.answer k.restore.answer)))))

end Sys2Proof.Machine
end

section
/-!
The memories under orbit boundaries and pacing pauses.
-/

namespace Sys2Proof.Machine

open Sys2Proof

variable {d : Dev} {t : Tile} {old : Part} {pid : Nat} {start : BitVec 64} {part : Fin 16}

protected theorem Dev.memWf.noteSteps (h : d.memWf) : (noteSteps pid start d).memWf :=
  h.withPart fun _ _ k => .ite k.modSrv k.modSrv.modSrv

protected theorem Dev.memWf.clearStatus {x : Part} {no : Nat} (h : d.memWf) : (clearStatus x no d).memWf := by
  unfold clearStatus
  extract_lets t a s cleared noted
  have k : cleared.memWf := h.setTile (Tile.memWf.rest (h.getTile no))
  have l : noted.memWf := .ite k k.ephRec
  exact .ite l l.ephRec

protected theorem Dev.memWf.tideRecords (h : d.memWf) : (tideRecords pid d).memWf := by
  unfold tideRecords
  refine h.forEach fun _ _ k => ?_
  split
  · exact k.modMoon.ephRec
  · exact k

protected theorem Dev.memWf.boundaryDigest {stale : Bool} {ended : BitVec 32} (h : d.memWf) :
    (boundaryDigest pid stale ended d).memWf :=
  h.withPart fun _ _ k => .ite k.setPart.closeDigest k.setPart

protected theorem Dev.memWf.clearFence {s : Nat} (h : d.memWf) : (clearFence s d).memWf := h.forEach fun _ _ k => k.modMm

protected theorem Dev.memWf.fenceSlot {r : Nat} (h : d.memWf) : (fenceSlot pid r d).memWf :=
  h.withPart fun _ _ k => (k.forEach fun _ _ l => l.setFence).markFenced

protected theorem Dev.memWf.carryFences (h : d.memWf) : (carryFences pid old d).memWf :=
  h.withPart fun _ _ k => (k.forEach fun _ _ l => l.clearFence).modPart

protected theorem Dev.memWf.switchTable (h : d.memWf) : (switchTable pid old d).memWf := by
  unfold switchTable
  refine h.withPart fun x e k => ?_
  extract_lets go keep _ switched carried held noted
  have l : held.memWf := k.setPart.carryFences.holdPlacement
  have m : noted.memWf := l.ephRec
  exact .ite (l.forEach fun _ _ n => n.fenceSlot) (.ite m (m.forEach fun _ _ n => n.fenceSlot))

protected theorem Dev.memWf.pruneGone (h : d.memWf) : (pruneGone pid d).memWf := h.withPart fun _ _ k => k.setPart

protected theorem Dev.memWf.unpinPages (h : d.memWf) : (unpinPages pid d).memWf := h.withPart fun _ _ k => k.rest

protected theorem Dev.memWf.applyCredits (h : d.memWf) : (applyCredits pid d).memWf :=
  h.withPart fun _ _ k => (k.forEach fun _ _ l => l.rest).modSrv

protected theorem Dev.memWf.applyRoutes (h : d.memWf) : (applyRoutes pid d).memWf := h.modPart

protected theorem Dev.memWf.switchEpoch (h : d.memWf) : (switchEpoch pid d).memWf := h.modPart

protected theorem Dev.memWf.boundarySet {orbit : BitVec 32} (h : d.memWf) : (boundarySet pid orbit d).memWf :=
  h.boundaryFlip.stepAdapters.applyCredits.applyRoutes.unpinPages

protected theorem Tile.memWf.restartTile {now : Nat} (h : t.memWf) : (restartTile now t).memWf := .ite h h.rest

protected theorem Tile.memWf.overrun (h : t.memWf) : (overrun t).memWf := .ite h.setSeqMesh h

protected theorem Tile.memWf.emptyLinks (h : t.memWf) : (emptyLinks t).memWf := h.rest

protected theorem Dev.memWf.deferredRetrain {c : Nat} (h : d.memWf) : (deferredRetrain c d).memWf := .ite h.enterRetrain h

protected theorem Dev.memWf.fabricStart (h : d.memWf) : (fabricStart pid old d).memWf := by
  unfold fabricStart
  extract_lets held left kept
  have k : held.memWf := h.withPart fun _ _ k => k.forEach fun _ _ l => l.modPort
  have l : left.memWf := .ite (k.forEach fun _ _ l => l.modTile fun _ n => n.emptyLinks) k
  have n : kept.memWf := l.modPart
  exact n.withPart fun _ _ j => j.abandon.modPart

protected theorem Dev.memWf.nextOrbit (h : d.memWf) : (nextOrbit pid d).memWf := h.modPart

protected theorem Dev.memWf.beginPace (h : d.memWf) : (beginPace pid start d).memWf := .ite h.modPart h

protected theorem Dev.memWf.closeOrbit (h : d.memWf) : (closeOrbit pid start d).memWf := by
  unfold closeOrbit
  extract_lets settled formed sent cleared
  have k : settled.memWf := h.withPart fun _ _ k => .ite k.settle k
  have l : sent.memWf := k.noteSteps.formLevel.withPart fun _ _ l => l.formRound1
  have m : cleared.memWf := l.withPart fun _ _ m => m.forEach fun _ _ n => (n.modTile fun _ o => o.overrun).clearStatus
  exact m.tideRecords

protected theorem Dev.memWf.orbitBoundary (h : d.memWf) : (orbitBoundary pid d).memWf := by
  unfold orbitBoundary
  refine h.withPart fun _ _ k => .ite k ?_
  extract_lets start entered
  split
  · exact k.closeOrbit.nextOrbit
  · extract_lets digested switched placed started restarted retrained
    have l : switched.memWf := k.closeOrbit.nextOrbit.boundaryDigest.switchTable
    have m : placed.memWf := .ite l.boundarySet l
    have n : started.memWf := m.switchEpoch.pruneGone.fabricStart
    have o : restarted.memWf := n.forEach fun _ _ k => k.modTile fun _ k => k.restartTile
    have p : retrained.memWf := o.forEach fun _ _ k => k.deferredRetrain
    exact p.beginPace.ckptCapture

theorem execOrbitBoundary_keepsMem : KeepsMem (execOrbitBoundary part) :=
  keepsMem_on fun _ h => h.whenMp fun _ k => k.orbitBoundary

protected theorem Dev.memWf.pacingEnd (h : d.memWf) : (pacingEnd pid d).memWf := by
  unfold pacingEnd
  refine h.withPart fun _ _ k => ?_
  split
  · exact k.whenMt fun _ l => l.resumeTiles.modPart
  · exact k

theorem execPacingEnd_keepsMem : KeepsMem (execPacingEnd part) := keepsMem_on fun _ h => h.whenAwake fun _ k => k.pacingEnd

end Sys2Proof.Machine
end

section
/-!
The memories under partitions and their plans. A tile that is installed gets its command memory from the image; a partition that
goes leaves its frames zero.
-/

namespace Sys2Proof.Machine

open Sys2Proof

variable {d : Dev} {t : Tile} {pid : Nat} {img : List Byte} {m : Fin 64}

protected theorem Tile.memWf.installTile {no : Nat} (h : t.memWf) : (installTile img no t).memWf := ⟨cells_wf _ _, h.2⟩

protected theorem Dev.memWf.installPlan (h : d.memWf) : (installPlan pid img d).memWf :=
  h.withPart fun _ _ k => (k.forEach fun _ _ l => l.modTile fun _ n => n.installTile).setPart

theorem execPlanLoad_keepsMem : KeepsMem (execPlanLoad m) := keepsMem_on fun _ h => by
  refine h.partCommand fun _ _ _ k => ?_
  split
  · split
    · exact k.answer
    · split
      · exact k.answer
      · split
        · exact k.answer
        · exact .ite k.installPlan.settleStep.beginCmd k.installPlan.answer

protected theorem Tile.memWf.clearTile (h : t.memWf) : (clearTile t).memWf := .ite h.rest h

protected theorem Dev.memWf.clearHalted (h : d.memWf) : (clearHalted pid d).memWf :=
  h.withPart fun _ _ k => k.forEach fun _ _ l => l.modTile fun _ n => n.clearTile

protected theorem Dev.memWf.dropPlan (h : d.memWf) : (dropPlan pid d).memWf :=
  ((h.clearHalted.withPart fun _ _ k => k.forEach fun _ _ l => l.failLoad).withPart fun _ _ k => k.forEach fun _ _ l =>
    l.endReq).modPart.settleStep

theorem execPlanUnload_keepsMem : KeepsMem (execPlanUnload m) :=
  keepsMem_on fun _ h => h.partCommand fun _ _ _ k => .ite k.finishStop.dropPlan.answer k.answer

theorem execPartStop_keepsMem : KeepsMem (execPartStop m) :=
  keepsMem_on fun _ h => h.partCommand fun _ _ _ k => .ite k.leaveRunning.answer k.answer

theorem execPartRestart_keepsMem : KeepsMem (execPartRestart m) :=
  keepsMem_on fun _ h => h.partCommand fun _ _ _ k => .ite k.answer (.ite k.finishStop.dropPlan.answer
    k.finishStop.clearHalted.modPart.answer)

theorem execPartResume_keepsMem : KeepsMem (execPartResume m) :=
  keepsMem_on fun _ h => h.partCommand fun _ _ _ k => .ite k.answer ((k.forEach fun _ _ l => l.modTile fun _ n => .ite n.rest
    n).modPart).answer

theorem execHoldLimit_keepsMem : KeepsMem (execHoldLimit m) :=
  keepsMem_on fun _ h => h.partCommand fun _ _ _ k => .ite k.answer (.ite k.answer k.modPart.answer)

theorem execTransitRead_keepsMem : KeepsMem (execTransitRead m) :=
  keepsMem_on fun _ h => h.command fun _ _ k => .ite k.hostWr.answer k.answer

protected theorem Tile.memWf.createTile (_ : t.memWf) : (createTile t).memWf := ⟨rfl, rfl⟩

theorem execPartCreate_keepsMem : KeepsMem (execPartCreate m) :=
  keepsMem_on fun _ h => h.command fun _ _ k => by
    extract_lets mask pid x created emptied trained
    have l : emptied.memWf := k.rest.setPart.forEach fun _ _ l => l.modTile fun _ n => n.createTile
    have n : trained.memWf := l.forEach fun _ _ n => .ite n.enterTraining n
    exact .ite k.answer (.ite k.answer n.answer)

protected theorem Dev.memWf.destroyPart {x : Part} (h : d.memWf) : (destroyPart x d).memWf := by
  have k : Dev.memWf { d with gddr := (partFrames d x).foldl (fun m f => zeroBs m f.1 f.2) d.gddr } :=
    h.writeGddr (List.foldlRecOn (motive := fun m => Mem.wf m = true) _ _ h.gddr fun _ k _ _ => zeroBs_wf _ _ _ k)
  exact k.rest.forEach fun _ _ l => l.portOff

theorem execPartDestroy_keepsMem : KeepsMem (execPartDestroy m) := keepsMem_on fun _ h => by
  refine h.command fun _ _ k => ?_
  split
  · exact k.answer
  · exact .ite k.answer k.destroyPart.answer

end Sys2Proof.Machine
end

section
/-!
The memories under the functions that writes of registers call, among them the writes of command memory and scratchpad.
-/

namespace Sys2Proof.Machine

open Sys2Proof

variable {d : Dev} {mask v m o c p t : Nat} {idx : Option Nat} {f : Fab → Fab} {sp : Space} {off : BitVec 26} {tile : Fin 2304}

protected theorem Dev.memWf.modGlb {f : Glb → Glb} (h : d.memWf) : (modGlb f d).memWf := h.rest

protected theorem Dev.memWf.modRcv {f : Rcv → Rcv} (h : d.memWf) : (modRcv f d).memWf := h.rest

protected theorem Dev.memWf.writeRcvCtrl (h : d.memWf) : (writeRcvCtrl mask v d).memWf := .ite h.modRcv.writeGo h.modRcv

protected theorem Dev.memWf.setMask {mask : Bool} (h : d.memWf) : (setMask v mask d).memWf := .ite h.rest.rest h.rest

protected theorem Dev.memWf.modVec {f : MsixVec → MsixVec} (h : d.memWf) : (modVec v f d).memWf := h.rest

protected theorem Dev.memWf.requestWrite (h : d.memWf) : (requestWrite m o mask v d).memWf := by
  refine h.modMbx fun _ k => ?_
  split
  · exact ⟨wrN_wf _ _ _ _ k.1, k.2⟩
  · exact k

protected theorem Dev.memWf.dmaCtrl (h : d.memWf) : (dmaCtrl c v d).memWf := by
  unfold dmaCtrl
  extract_lets stops enabled aborted
  have k : enabled.memWf := .ite h.modDma.dmaEn h.modDma
  have l : aborted.memWf := .ite k.dmaAbort k
  exact .ite l.dmaResume l

protected theorem Dev.memWf.dmaStatusClear (h : d.memWf) : (dmaStatusClear c v d).memWf := h.modDma

protected theorem Dev.memWf.dmaIdle {f : Dma → Dma} (h : d.memWf) : (dmaIdle c f d).memWf := h.modDma

protected theorem Dev.memWf.histTail (h : d.memWf) : (histTail v d).memWf := .ite h h.rest

protected theorem Dev.memWf.whileClosed {f : Serving → Serving} (h : d.memWf) : (whileClosed p f d).memWf := h.modSrv

protected theorem Dev.memWf.modEph {f : Eph → Eph} (h : d.memWf) : (modEph p f d).memWf := h.modPart

protected theorem Dev.memWf.writeEphCfg (h : d.memWf) : (writeEphCfg p v d).memWf := h.modPart

protected theorem Dev.memWf.writeDigCfg (h : d.memWf) : (writeDigCfg p v d).memWf := h.modPart

protected theorem Dev.memWf.writeDigTail (h : d.memWf) : (writeDigTail p v d).memWf := h.modEph.whenMp fun _ k => k.writeDigest

protected theorem Dev.memWf.countBar0 (h : d.memWf) : (countBar0 d).memWf := h.modGlb

protected theorem Dev.memWf.readData (h : d.memWf) : (readData v d).memWf := h.rest

protected theorem Dev.memWf.cmemDiscardEvent (h : d.memWf) : (cmemDiscardEvent t idx d).memWf :=
  (h.modTile fun _ k => k.rest).raise

protected theorem Dev.memWf.whenParked {f : Tile → Tile} (h : d.memWf) (keep : ∀ a, a.memWf → (f a).memWf) :
    (whenParked t idx f d).memWf :=
  .ite (h.modTile fun _ k => (keep _ k)) h.cmemDiscardEvent

protected theorem Dev.memWf.writeBrkCtrl (h : d.memWf) : (writeBrkCtrl t v d).memWf := h.modTile fun _ k => k.rest

protected theorem Dev.memWf.writeDroop (h : d.memWf) : (writeDroop m v d).memWf := .ite h h.modMoon

protected theorem Dev.memWf.portCtrl (h : d.memWf) : (portCtrl p v d).memWf := by
  unfold portCtrl
  extract_lets enabled darkened retrained
  have k : enabled.memWf := .ite h.portEn h
  have l : darkened.memWf := .ite (.ite k.setDark k.clearDark) k
  have m : retrained.memWf := .ite l.portRetrain l
  exact .ite m.forceDown m

protected theorem Dev.memWf.writeClkCtrl (h : d.memWf) : (writeClkCtrl mask v d).memWf := by
  unfold writeClkCtrl
  extract_lets _ cleared auto pref tgt
  have k : cleared.memWf := .ite h.rest h
  have l : auto.memWf := .ite k.setRefAuto k
  have n : pref.memWf := .ite l.selectRef l
  exact .ite n.goStep (.ite n n.rest)

protected theorem Dev.memWf.whileStill (h : d.memWf) : (whileStill p f d).memWf := h.modPart

protected theorem Dev.memWf.writeTiming (h : d.memWf) : (writeTiming p v d).memWf := .ite h h.whileStill

protected theorem Dev.memWf.writeMode (h : d.memWf) : (writeMode p v d).memWf := .ite h h.whileStill

protected theorem Dev.memWf.modFabReg (h : d.memWf) : (modFabReg p f d).memWf := h.modPart

protected theorem Dev.memWf.cmemWrite {v : BitVec 64} (h : d.memWf) : (cmemWrite t o v d).memWf := by
  refine .ite h (.ite h (h.whenParked fun _ k => ?_))
  exact ⟨wrN_wf _ _ _ _ k.1, k.2⟩

protected theorem Dev.memWf.spadWrite {v : BitVec 64} (h : d.memWf) : (spadWrite t o v d).memWf := by
  refine .ite h (h.whenParked fun _ k => ?_)
  exact ⟨k.1, wrN_wf _ _ _ _ k.2⟩

protected theorem Dev.memWf.hostReg {n : Nat} {f : List Reg → Dev → Dev} (h : d.memWf) (keep : ∀ a b, b.memWf → (f a b).memWf) :
    (hostReg sp o n f d).memWf :=
  .ite (keep _ _ h) h

protected theorem Dev.memWf.writeDbgEn {v : Bool} (h : d.memWf) : (writeDbgEn t v d).memWf := h.modTile fun _ k => k.rest

end Sys2Proof.Machine
end

section
/-!
The memories under accesses to registers. What a read clears and what a write does are fields of each register, so the tables of
registers are gone through entry by entry; the entries that write bytes are the mailboxes' request areas, command memories and
scratchpads.
-/

namespace Sys2Proof.Machine

open Sys2Proof

/-- Neither what a read clears of a register nor what a write does to it takes a memory out of its form. -/
def Reg.KeepsMem (r : Reg) : Prop := (∀ d, d.memWf → (r.clr d).memWf) ∧ ∀ mask v d, d.memWf → (r.wr mask v d).memWf

section
variable {off size v : Nat}

@[simp] theorem keepsMem_ro : (ro off size v).KeepsMem := ⟨fun _ h => h, fun _ _ _ h => h⟩

theorem keepsMem_rc {clr : Dev → Dev} (keep : ∀ d, d.memWf → (clr d).memWf) : (rc off size v clr).KeepsMem :=
  ⟨keep, fun _ _ _ h => h⟩

theorem keepsMem_rw {wr : Nat → Dev → Dev} (keep : ∀ v d, d.memWf → (wr v d).memWf) : (rw off size v wr).KeepsMem :=
  ⟨fun _ h => h, fun _ _ => keep _⟩

theorem keepsMem_w1 {wr : Nat → Dev → Dev} (keep : ∀ v d, d.memWf → (wr v d).memWf) : (w1 off size v wr).KeepsMem :=
  ⟨fun _ h => h, fun _ _ => keep _⟩

theorem keepsMem_noClear {wr : Nat → Nat → Dev → Dev} (keep : ∀ mask v d, d.memWf → (wr mask v d).memWf) :
    (Reg.mk off size v id wr).KeepsMem := ⟨fun _ h => h, keep⟩

end

/-- Registers of a list that all keep the memories. -/
def RegsKeepMem (l : List Reg) : Prop := ∀ r ∈ l, r.KeepsMem

section
variable {l k : List Reg} {r : Reg}

@[simp] theorem regsKeepMem_nil : RegsKeepMem [] := List.forall_mem_nil _
@[simp] theorem regsKeepMem_cons : RegsKeepMem (r :: l) ↔ r.KeepsMem ∧ RegsKeepMem l := List.forall_mem_cons
@[simp] theorem regsKeepMem_append : RegsKeepMem (l ++ k) ↔ RegsKeepMem l ∧ RegsKeepMem k := List.forall_mem_append

theorem regsKeepMem_one (h : r.KeepsMem) : RegsKeepMem [r] := regsKeepMem_cons.2 ⟨h, regsKeepMem_nil⟩

theorem regsKeepMem_map {α : Type} {l : List α} {f : α → Reg} (keep : ∀ a, (f a).KeepsMem) : RegsKeepMem (l.map f) :=
  List.forall_mem_map.2 fun a _ => keep a

theorem regsKeepMem_flatMap {α : Type} {l : List α} {f : α → List Reg} (keep : ∀ a, RegsKeepMem (f a)) :
    RegsKeepMem (l.flatMap f) := fun r there => by
  obtain ⟨a, -, member⟩ := List.mem_flatMap.1 there
  exact keep a r member

theorem regsKeepMem_ite {c : Prop} [Decidable c] (h : RegsKeepMem l) (g : RegsKeepMem k) : RegsKeepMem (if c then l else k) := by
  split
  · exact h
  · exact g

theorem RegsKeepMem.clear {o n : Nat} {d : Dev} (keep : RegsKeepMem l) (h : d.memWf) : (regsClear l o n d).memWf :=
  h.forEachOf fun r there _ k => (keep r (List.mem_of_mem_filter there)).1 _ k

theorem RegsKeepMem.write {o n v : Nat} {d : Dev} (keep : RegsKeepMem l) (h : d.memWf) : (regsWrite l o n v d).memWf :=
  h.forEachOf fun r there _ k => (keep r (List.mem_of_mem_filter there)).2 _ _ _ k
end


section
variable (d : Dev)

theorem identRegs_keepMem : RegsKeepMem (identRegs d) := by simp [identRegs]

theorem glbRegs_keepMem : RegsKeepMem (glbRegs d) := by
  simp only [glbRegs, regsKeepMem_cons, keepsMem_ro, true_and, regsKeepMem_nil, and_true]
  exact ⟨keepsMem_rc fun _ h => h.modGlb, keepsMem_rc fun _ h => h.modGlb, keepsMem_rc fun _ h => h.modGlb⟩

theorem rcvRegs_keepMem : RegsKeepMem (rcvRegs d) := by
  simp only [rcvRegs, regsKeepMem_cons, keepsMem_ro, true_and, regsKeepMem_nil, and_true]
  exact ⟨keepsMem_rw fun _ _ h => h.modRcv, keepsMem_rw fun _ _ h => h.modRcv, keepsMem_noClear fun _ _ _ h => h.writeRcvCtrl⟩

theorem pwrRegs_keepMem : RegsKeepMem (pwrRegs d) := by
  simp only [pwrRegs, regsKeepMem_cons, keepsMem_ro, true_and, regsKeepMem_nil, and_true]
  exact keepsMem_rc fun _ h => h.rest

theorem msixRegs_keepMem (o : Nat) : RegsKeepMem (msixRegs d o) := by
  unfold msixRegs
  refine regsKeepMem_ite regsKeepMem_nil ?_
  simp only [regsKeepMem_cons, regsKeepMem_nil, and_true]
  exact ⟨keepsMem_rw fun _ _ h => h.modVec, keepsMem_rw fun _ _ h => h.modVec, keepsMem_rw fun _ _ h => h.setMask⟩

theorem pbaRegs_keepMem : RegsKeepMem (pbaRegs d) := regsKeepMem_map fun _ => keepsMem_ro

theorem mbxRegs_keepMem (m o : Nat) : RegsKeepMem (mbxRegs d m o) := by
  simp only [mbxRegs, regsKeepMem_append, regsKeepMem_cons, keepsMem_ro, true_and, regsKeepMem_nil, and_true]
  refine ⟨⟨keepsMem_w1 fun v e h => ?_, keepsMem_rc fun _ h => h.modMbx fun _ k => k.rest⟩,
    regsKeepMem_ite ?_ (regsKeepMem_ite ?_ regsKeepMem_nil)⟩
  · split
    · exact h.post
    · exact h
  · exact regsKeepMem_one (keepsMem_noClear fun _ _ _ h => h.requestWrite)
  · exact regsKeepMem_one keepsMem_ro

theorem dmaRegs_keepMem (c : Nat) : RegsKeepMem (dmaRegs d c) := by
  simp only [dmaRegs, regsKeepMem_cons, keepsMem_ro, regsKeepMem_nil, and_true]
  exact ⟨keepsMem_rw fun _ _ h => h.dmaIdle, keepsMem_rw fun _ _ h => h.dmaIdle, keepsMem_rw fun _ _ h => h.dmaTail,
    keepsMem_rw fun _ _ h => h.dmaIdle, keepsMem_rw fun _ _ h => h.dmaCtrl, keepsMem_w1 fun _ _ h => h.dmaStatusClear⟩

theorem fltRegs_keepMem (o : Nat) : RegsKeepMem (fltRegs d o) := by
  simp only [fltRegs, regsKeepMem_append, regsKeepMem_cons, keepsMem_ro, true_and, regsKeepMem_nil, and_true]
  exact ⟨⟨keepsMem_rw fun _ _ h => h.histTail, keepsMem_rc fun _ h => h.rest⟩,
    regsKeepMem_ite (regsKeepMem_one keepsMem_ro) regsKeepMem_nil⟩

theorem srvRegs_keepMem (x : Part) : RegsKeepMem (srvRegs x) := by
  simp only [srvRegs, regsKeepMem_cons, keepsMem_ro, true_and, regsKeepMem_nil, and_true]
  exact ⟨keepsMem_rw fun _ _ h => h.whileClosed, keepsMem_rw fun _ _ h => h.whileClosed, keepsMem_rw fun _ _ h => h.modSrv,
    keepsMem_rw fun _ _ h => h.setAdmit, keepsMem_rc fun _ h => h.modSrv⟩

theorem ephRegs_keepMem (x : Part) : RegsKeepMem (ephRegs x) := by
  simp only [ephRegs, regsKeepMem_cons, keepsMem_ro, true_and, regsKeepMem_nil, and_true]
  exact ⟨keepsMem_rw fun _ _ h => h.writeEphCfg, keepsMem_rw fun _ _ h => h.modEph, keepsMem_rc fun _ h => h.modEph,
    keepsMem_rw fun _ _ h => h.writeDigCfg, keepsMem_rw fun _ _ h => h.writeDigTail⟩

theorem partRegs_keepMem {f : Part → List Reg} (h : ∀ x, RegsKeepMem (f x)) (x : Option Part) :
    RegsKeepMem ((x.map f).getD []) := by
  cases x with
  | none => exact regsKeepMem_nil
  | some x => exact h x

theorem keepMem_ite {c : Prop} [Decidable c] {a b : Nat × List Reg} (h : RegsKeepMem a.2) (k : RegsKeepMem b.2) :
    RegsKeepMem (if c then a else b).2 := by
  split
  · exact h
  · exact k

theorem bar0Regs_keepMem (o : Nat) : RegsKeepMem (bar0Regs d o).2 := by
  unfold bar0Regs
  exact keepMem_ite (identRegs_keepMem d) <| keepMem_ite (glbRegs_keepMem d) <| keepMem_ite (rcvRegs_keepMem d) <|
    keepMem_ite (pwrRegs_keepMem d) <| keepMem_ite regsKeepMem_nil <| keepMem_ite (msixRegs_keepMem d _) <|
    keepMem_ite (pbaRegs_keepMem d) <| keepMem_ite regsKeepMem_nil <| keepMem_ite (mbxRegs_keepMem d _ _) <|
    keepMem_ite regsKeepMem_nil <| keepMem_ite (dmaRegs_keepMem d _) <| keepMem_ite regsKeepMem_nil <|
    keepMem_ite (fltRegs_keepMem d _) <| keepMem_ite (partRegs_keepMem srvRegs_keepMem _) <|
    keepMem_ite (partRegs_keepMem ephRegs_keepMem _) regsKeepMem_nil

theorem tileRegs_keepMem (t : Nat) : RegsKeepMem (tileRegs d t) := by
  simp only [tileRegs, regsKeepMem_append, regsKeepMem_cons, keepsMem_ro, true_and, regsKeepMem_nil, and_true]
  have parked {off size v : Nat} {f : Nat → Tile → Tile} (keep : ∀ n x, x.memWf → (f n x).memWf) :
      (rw off size v fun v => whenParked t none (f v)).KeepsMem := keepsMem_rw fun _ _ h => h.whenParked (keep _)
  refine ⟨⟨keepsMem_w1 fun v e h => ?_, keepsMem_rw fun _ _ h => h.writeBrkCtrl,
    keepsMem_rw fun _ _ h => h.modTile fun _ k => k.rest, parked fun _ _ k => k.rest, parked fun _ _ k => k.rest,
    parked fun _ _ k => k.rest, parked fun _ _ k => k.rest, parked fun _ _ k => k.rest, parked fun _ _ k => k.rest,
    keepsMem_w1 fun _ _ h => h.modTile fun _ k => k.rest, keepsMem_rc fun _ h => h.modTile fun _ k => k.rest,
    keepsMem_w1 fun _ _ h => h.modTile fun _ k => k.rest⟩,
    regsKeepMem_map fun _ => keepsMem_ro⟩
  split
  · exact h.modTile fun _ k => k.clearTile
  · exact h

theorem clockRegs_keepMem (m : Nat) : RegsKeepMem (clockRegs d m) := by
  simp only [clockRegs, regsKeepMem_append, regsKeepMem_cons, keepsMem_ro, true_and, regsKeepMem_nil, and_true]
  refine ⟨⟨keepsMem_rw fun _ _ h => h.writeDroop, keepsMem_rc fun _ h => h.modMoon⟩, regsKeepMem_ite ?_ regsKeepMem_nil⟩
  simp only [regsKeepMem_append, regsKeepMem_cons, keepsMem_ro, true_and, regsKeepMem_nil, and_true]
  exact ⟨⟨keepsMem_rc fun _ h => h.modMoon, keepsMem_rc fun _ h => h.modMoon⟩, regsKeepMem_map fun _ => keepsMem_ro⟩

theorem sliceRegs_keepMem (m : Nat) : RegsKeepMem (sliceRegs d m) := by
  refine regsKeepMem_cons.2 ⟨keepsMem_ro, regsKeepMem_flatMap fun s => ?_⟩
  simp only [regsKeepMem_cons, keepsMem_ro, true_and, regsKeepMem_nil, and_true]
  exact ⟨keepsMem_rc fun _ h => h.modSlice, keepsMem_rc fun _ h => h.modSlice, keepsMem_rc fun _ h => h.modSlice,
    keepsMem_rc fun _ h => h.modSlice, keepsMem_rc fun _ h => h.modSlice, keepsMem_rc fun _ h => h.modSlice⟩

theorem chanRegs_keepMem (c : Nat) : RegsKeepMem (chanRegs d c) := by
  simp only [chanRegs, regsKeepMem_cons, keepsMem_ro, true_and, regsKeepMem_nil, and_true]
  exact ⟨keepsMem_rc fun _ h => h.modChan, keepsMem_rc fun _ h => h.modChan, keepsMem_rc fun _ h => h.modChan,
    keepsMem_rc fun _ h => h.modChan, keepsMem_rc fun _ h => h.modChan⟩

theorem memMoonRegs_keepMem (q : Nat) : RegsKeepMem (memMoonRegs d q) := by
  simp only [memMoonRegs, regsKeepMem_append, regsKeepMem_cons, keepsMem_ro, true_and, regsKeepMem_nil, and_true]
  exact ⟨⟨keepsMem_rc fun _ h => h.modMm, keepsMem_rc fun _ h => h.modMm, keepsMem_rc fun _ h => h.modMm,
    keepsMem_rc fun _ h => h.modMm⟩, regsKeepMem_map fun _ => keepsMem_w1 fun _ _ h => h.forEach fun _ _ k => k.clearFence⟩

theorem portRegs_keepMem (q o : Nat) : RegsKeepMem (portRegs d q o) := by
  refine regsKeepMem_ite regsKeepMem_nil (regsKeepMem_map fun i => ?_)
  dsimp only
  split
  · exact keepsMem_rw fun _ _ h => h.portCtrl
  · split
    · exact keepsMem_rw fun _ _ h => h.writeJobId
    · split
      · exact keepsMem_rc fun _ h => h.modPort
      · exact keepsMem_ro

theorem clkRegs_keepMem : RegsKeepMem (clkRegs d) := by
  simp only [clkRegs, regsKeepMem_cons, regsKeepMem_nil, and_true]
  exact ⟨keepsMem_noClear fun _ _ _ h => h.writeClkCtrl, keepsMem_w1 fun _ _ h => h.rest⟩

theorem mtRegs_keepMem : RegsKeepMem (mtRegs d) := by simp [mtRegs]

theorem fabRegs_keepMem (x : Part) : RegsKeepMem (fabRegs d x) := by
  simp only [fabRegs, regsKeepMem_append, regsKeepMem_cons, keepsMem_ro, regsKeepMem_nil, and_true]
  exact ⟨⟨keepsMem_rw fun _ _ h => h.writeTiming, keepsMem_rw fun _ _ h => h.writeMode, keepsMem_rc fun _ h => h.modFabReg,
    keepsMem_rc fun _ h => h.modFabReg, keepsMem_rc fun _ h => h.modFabReg, keepsMem_rc fun _ h => h.modFabReg,
    keepsMem_rc fun _ h => h.modFabReg, keepsMem_rc fun _ h => h.modFabReg, keepsMem_rc fun _ h => h.modFabReg⟩,
    regsKeepMem_map fun _ => keepsMem_ro⟩

theorem moonRegs_keepMem (m o : Nat) : RegsKeepMem (moonRegs d m o) :=
  regsKeepMem_append.2 ⟨clockRegs_keepMem d m, regsKeepMem_ite (sliceRegs_keepMem d m) <|
    regsKeepMem_ite (regsKeepMem_append.2 ⟨regsKeepMem_flatMap fun _ => chanRegs_keepMem d _, memMoonRegs_keepMem d _⟩) <|
    regsKeepMem_ite (portRegs_keepMem d _ _) <| regsKeepMem_append.2 ⟨regsKeepMem_append.2 ⟨clkRegs_keepMem d, mtRegs_keepMem d⟩,
      regsKeepMem_flatMap fun _ => fabRegs_keepMem d _⟩⟩

theorem wordRegs_keepMem (sp : Space) (o : Nat) : RegsKeepMem (wordRegs d sp o) := by
  cases sp with
  | commandMemory t => exact regsKeepMem_ite regsKeepMem_nil (regsKeepMem_one (keepsMem_rw fun _ _ h => h.cmemWrite))
  | scratchpad t => exact regsKeepMem_ite regsKeepMem_nil (regsKeepMem_one (keepsMem_rw fun _ _ h => h.spadWrite))
  | contextTable =>
    refine regsKeepMem_ite regsKeepMem_nil (regsKeepMem_one (keepsMem_rw fun v e h => ?_))
    have k : (setCpt (o / 8 * 8 / 8) (cptStored (cptE e (o / 8 * 8 / 8)) v) e).memWf := h.setCpt
    exact k.rest
  | weightTable => exact regsKeepMem_ite regsKeepMem_nil (regsKeepMem_one (keepsMem_rw fun _ _ h => h.rest))
  | _ => exact regsKeepMem_nil

theorem configRegs_keepMem : RegsKeepMem (configRegs d) := by
  simp only [configRegs, regsKeepMem_cons, keepsMem_ro, true_and, regsKeepMem_nil, and_true]
  exact ⟨keepsMem_rw fun _ _ h => h.rest, keepsMem_rw fun _ _ h => .ite h.rest h⟩

theorem configNear_keepMem (o : Nat) : RegsKeepMem (configNear d o) :=
  regsKeepMem_ite (regsKeepMem_one keepsMem_ro) fun r there => configRegs_keepMem d r (List.mem_of_mem_filter there)

theorem hdmRegs_keepMem : RegsKeepMem (hdmRegs d) := by
  simp only [hdmRegs, regsKeepMem_cons, regsKeepMem_nil, and_true]
  exact ⟨keepsMem_rw fun _ _ h => .ite h h.rest, keepsMem_rw fun _ _ h => .ite h h.rest, keepsMem_rw fun _ _ h => .ite h h.rest⟩

theorem hostRegs_keepMem (sp : Space) (o : Nat) : RegsKeepMem (hostRegs d sp o) := by
  unfold hostRegs
  split
  · exact configNear_keepMem d o
  · exact regsKeepMem_ite (hdmRegs_keepMem d) regsKeepMem_nil
  · exact regsKeepMem_nil

theorem mpRegs_keepMem (sp : Space) (o : Nat) : RegsKeepMem (mpRegs d sp o) := by
  unfold mpRegs
  split
  · exact regsKeepMem_nil
  · exact tileRegs_keepMem d _
  · exact moonRegs_keepMem d _ o
  · exact wordRegs_keepMem d _ o
end

section
variable {sp : Space} {o n v : Nat} {d : Dev}

protected theorem Dev.memWf.bar0Read (h : d.memWf) : (bar0Read o n d).memWf :=
  .ite h.readData.countBar0 ((bar0Regs_keepMem d o).clear h.readData)

protected theorem Dev.memWf.bar0Write (h : d.memWf) : (bar0Write o n v d).memWf :=
  .ite h.countBar0 (.ite h ((bar0Regs_keepMem d o).write h))

protected theorem Dev.memWf.mpRead (h : d.memWf) : (mpRead sp o n d).memWf :=
  .ite h ((mpRegs_keepMem _ sp o).clear h.freeTicks.readData.rest)

protected theorem Dev.memWf.hostRead (h : d.memWf) : (hostReg sp o n (fun l => readData (regsRead l o n)) d).memWf :=
  h.hostReg fun _ _ k => k.readData

protected theorem Dev.memWf.hostWrite (h : d.memWf) : (hostReg sp o n (fun l => regsWrite l o n v) d).memWf :=
  .ite ((hostRegs_keepMem d sp o).write h) h

protected theorem Dev.memWf.regRead (h : d.memWf) : (regRead sp o n d).memWf := by
  unfold regRead
  split
  · exact h.whenHost fun _ k => k.bar0Read
  · exact h.whenHost fun _ k => k.hostRead
  · exact h.whenHost fun _ k => k.hostRead
  · exact h.whenMp fun _ k => k.mpRead

protected theorem Dev.memWf.regWrite (h : d.memWf) : (regWrite sp o n v d).memWf := by
  unfold regWrite
  split
  · exact h.whenHost fun _ k => k.bar0Write
  · exact h.whenHost fun _ k => k.hostWrite
  · exact h.whenHost fun _ k => k.hostWrite
  · exact h.whenMp fun e k => .ite k ((mpRegs_keepMem e _ o).write k)
end

end Sys2Proof.Machine
end

section
/-!
The memories under the commands that read and write registers.
-/

namespace Sys2Proof.Machine

open Sys2Proof

variable {sp : Space} {off : BitVec 26} {v : BitVec 64} {tile : Fin 2304}

theorem execReadClear_keepsMem {wide : Bool} : KeepsMem (execReadClear sp off wide) := by
  intro s t h stepped
  unfold execReadClear at stepped
  extract_lets n at stepped
  split at stepped
  · cases stepped
  · exact keepsMem_on (fun _ k => k.regRead) s t h stepped

theorem execRegisterWrite_keepsMem {bytes : Nat} : KeepsMem (execRegisterWrite sp off bytes v) := by
  intro s t h stepped
  unfold execRegisterWrite at stepped
  split at stepped
  · cases stepped
  · exact keepsMem_on (fun _ k => k.regWrite) s t h stepped

theorem execCommandMemoryWrite_keepsMem {off : BitVec 16} : KeepsMem (execCommandMemoryWrite tile off v) :=
  keepsMem_on fun _ h => h.whenMp fun _ k => k.cmemWrite

theorem execScratchpadWrite_keepsMem {off : BitVec 18} : KeepsMem (execScratchpadWrite tile off v) :=
  keepsMem_on fun _ h => h.whenMp fun _ k => k.spadWrite

theorem execClear_keepsMem : KeepsMem (execClear tile) :=
  keepsMem_on fun _ h => h.whenMp fun _ k => k.modTile fun _ l => l.clearTile

theorem execDbgEn_keepsMem {v : Bool} : KeepsMem (execDbgEn tile v) := keepsMem_on fun _ h => h.whenMp fun _ k => k.writeDbgEn

end Sys2Proof.Machine
end

section
/-!
Every command keeps the memories, and so does every step.
-/

namespace Sys2Proof.Machine

open Sys2Proof

theorem exec_keepsMem : (c : Instr) → KeepsMem (exec c)
  | .nop _ => execNop_keepsMem
  | .illOpc _ => execIllOpc_keepsMem
  | .matq _ => execMatq_keepsMem
  | .matqDrain _ => execMatqDrain_keepsMem
  | .vecq _ => execVecq_keepsMem
  | .funq _ => execFunq_keepsMem
  | .send _ => execSend_keepsMem
  | .recv _ => execRecv_keepsMem
  | .load _ => execLoad_keepsMem
  | .store _ => execStore_keepsMem
  | .wait _ => execWait_keepsMem
  | .waitRelease _ => execWaitRelease_keepsMem
  | .holdEnd _ => execHoldEnd_keepsMem
  | .holdLimitExpiry _ => execHoldLimitExpiry_keepsMem
  | .cnt _ => execCnt_keepsMem
  | .cmp _ => execCmp_keepsMem
  | .skip _ => execSkip_keepsMem
  | .rept _ => execRept_keepsMem
  | .spld _ => execSpld_keepsMem
  | .mark _ => execMark_keepsMem
  | .brk _ => execBrk_keepsMem
  | .breakPark _ => execBreakPark_keepsMem
  | .orbitBoundary _ => execOrbitBoundary_keepsMem
  | .pacingEnd _ => execPacingEnd_keepsMem
  | .slotStageWrite _ => execSlotStageWrite_keepsMem
  | .meshArrival _ => execMeshArrival_keepsMem
  | .memoryDelivery _ _ => execMemoryDelivery_keepsMem
  | .fenceReceive _ => execFenceReceive_keepsMem
  | .storeWrite _ _ => execStoreWrite_keepsMem
  | .refresh _ _ => execRefresh_keepsMem
  | .routineRetraining _ => execRoutineRetraining_keepsMem
  | .crcRetraining _ => execCrcRetraining_keepsMem
  | .trainingPass _ => execTrainingPass_keepsMem
  | .trainingFail _ => execTrainingFail_keepsMem
  | .readCrcFail _ _ _ => execReadCrcFail_keepsMem
  | .eccRead _ _ => execEccRead_keepsMem
  | .deviceTemperatureRead _ _ => execDeviceTemperatureRead_keepsMem
  | .tieredRead _ _ _ => execTieredRead_keepsMem
  | .pageMap _ => execPageMap_keepsMem
  | .pageUnmap _ => execPageUnmap_keepsMem
  | .pageRead _ => execPageRead_keepsMem
  | .dmaEn _ _ => execDmaEn_keepsMem
  | .abort _ => execAbort_keepsMem
  | .resume _ => execResume_keepsMem
  | .tail _ _ => execTail_keepsMem
  | .descriptorRead _ => execDescriptorRead_keepsMem
  | .descriptorReadFail _ => execDescriptorReadFail_keepsMem
  | .lockWaitEnd _ => execLockWaitEnd_keepsMem
  | .burst _ => execBurst_keepsMem
  | .hostCompletionTimeout _ => execHostCompletionTimeout_keepsMem
  | .writeBack _ => execWriteBack_keepsMem
  | .abortWriteBack _ => execAbortWriteBack_keepsMem
  | .submit _ => execSubmit_keepsMem
  | .admitWrite _ _ => execAdmitWrite_keepsMem
  | .placement _ => execPlacement_keepsMem
  | .stale _ => execStale_keepsMem
  | .placementReceive _ => execPlacementReceive_keepsMem
  | .slotTableBuild _ => execSlotTableBuild_keepsMem
  | .tokenDelivery _ => execTokenDelivery_keepsMem
  | .gap _ => execGap_keepsMem
  | .weightLoad _ => execWeightLoad_keepsMem
  | .shardFetchDone _ _ _ => execShardFetchDone_keepsMem
  | .shardTimeout _ _ _ => execShardTimeout_keepsMem
  | .weightFlip _ => execWeightFlip_keepsMem
  | .weightRelease _ => execWeightRelease_keepsMem
  | .adapterLoad _ => execAdapterLoad_keepsMem
  | .adapterDelete _ => execAdapterDelete_keepsMem
  | .installOpen _ => execInstallOpen_keepsMem
  | .imageBegin _ => execImageBegin_keepsMem
  | .blockWrite _ => execBlockWrite_keepsMem
  | .imageCommit _ => execImageCommit_keepsMem
  | .imageDelete _ => execImageDelete_keepsMem
  | .installClose _ => execInstallClose_keepsMem
  | .journalReplay => execJournalReplay_keepsMem
  | .storeReady => execStoreReady_keepsMem
  | .post _ => execPost_keepsMem
  | .mpAccept _ => execMpAccept_keepsMem
  | .auto _ => execAuto_keepsMem
  | .shed => execShed_keepsMem
  | .shedClear => execShedClear_keepsMem
  | .partCreate _ => execPartCreate_keepsMem
  | .partDestroy _ => execPartDestroy_keepsMem
  | .timeRoot _ => execTimeRoot_keepsMem
  | .stepLimit _ => execStepLimit_keepsMem
  | .transitRead _ => execTransitRead_keepsMem
  | .dirRead _ => execDirRead_keepsMem
  | .planLoad _ => execPlanLoad_keepsMem
  | .planUnload _ => execPlanUnload_keepsMem
  | .partStop _ => execPartStop_keepsMem
  | .partRestart _ => execPartRestart_keepsMem
  | .partResume _ => execPartResume_keepsMem
  | .levelReport _ => execLevelReport_keepsMem
  | .holdLimit _ => execHoldLimit_keepsMem
  | .selectorLoad _ => execSelectorLoad_keepsMem
  | .reqCancel _ => execReqCancel_keepsMem
  | .reqEclipse _ => execReqEclipse_keepsMem
  | .reqResume _ => execReqResume_keepsMem
  | .reqRemap _ => execReqRemap_keepsMem
  | .budgetSet _ => execBudgetSet_keepsMem
  | .rankWrite _ => execRankWrite_keepsMem
  | .jobPrepare _ => execJobPrepare_keepsMem
  | .jobGo _ => execJobGo_keepsMem
  | .jobStop _ => execJobStop_keepsMem
  | .ckptTake _ => execCkptTake_keepsMem
  | .ckptRestore _ => execCkptRestore_keepsMem
  | .routeSwitch _ => execRouteSwitch_keepsMem
  | .portRead _ => execPortRead_keepsMem
  | .portCtrl _ => execPortCtrl_keepsMem
  | .bistRun _ => execBistRun_keepsMem
  | .bistRunEnd _ => execBistRunEnd_keepsMem
  | .craterRead _ => execCraterRead_keepsMem
  | .escalationSet _ => execEscalationSet_keepsMem
  | .faultHoldClear _ => execFaultHoldClear_keepsMem
  | .tokenApply _ => execTokenApply_keepsMem
  | .go _ => execGo_keepsMem
  | .stepChangeResume _ => execStepChangeResume_keepsMem
  | .refPref _ => execRefPref_keepsMem
  | .droop _ _ => execDroop_keepsMem
  | .tideExcursion _ => execTideExcursion_keepsMem
  | .tideCeilingRaise => execTideCeilingRaise_keepsMem
  | .couplingPause _ _ => execCouplingPause_keepsMem
  | .referenceBad _ => execReferenceBad_keepsMem
  | .referenceGood _ => execReferenceGood_keepsMem
  | .holdoverExpiry => execHoldoverExpiry_keepsMem
  | .pllLockLoss _ => execPllLockLoss_keepsMem
  | .pllRelock _ => execPllRelock_keepsMem
  | .pllFail _ => execPllFail_keepsMem
  | .seamPhaseError _ => execSeamPhaseError_keepsMem
  | .seamRealign _ => execSeamRealign_keepsMem
  | .seamFail _ => execSeamFail_keepsMem
  | .portEn _ _ => execPortEn_keepsMem
  | .retrain _ => execRetrain_keepsMem
  | .dark _ _ => execDark_keepsMem
  | .forceDown _ => execForceDown_keepsMem
  | .jobIdWrite _ _ => execJobIdWrite_keepsMem
  | .laneAcquisitionTimeout _ _ => execLaneAcquisitionTimeout_keepsMem
  | .trainingCell _ _ => execTrainingCell_keepsMem
  | .trainTimeout _ => execTrainTimeout_keepsMem
  | .packetReceived _ _ => execPacketReceived_keepsMem
  | .deliveryPush _ => execDeliveryPush_keepsMem
  | .streamAppend _ => execStreamAppend_keepsMem
  | .slotStart _ => execSlotStart_keepsMem
  | .cometSlot _ => execCometSlot_keepsMem
  | .lockLoss _ _ => execLockLoss_keepsMem
  | .lockRegain _ _ => execLockRegain_keepsMem
  | .laneFailed _ _ => execLaneFailed_keepsMem
  | .portOutageExpiry _ => execPortOutageExpiry_keepsMem
  | .haloReq _ _ => execHaloReq_keepsMem
  | .haloAck _ _ => execHaloAck_keepsMem
  | .deskewDone _ => execDeskewDone_keepsMem
  | .substTimeout _ => execSubstTimeout_keepsMem
  | .farDownSeen _ => execFarDownSeen_keepsMem
  | .laserOff _ => execLaserOff_keepsMem
  | .dueSlotEnd _ _ => execDueSlotEnd_keepsMem
  | .receipt _ => execReceipt_keepsMem
  | .fabSecond _ => execFabSecond_keepsMem
  | .orbitMark _ => execOrbitMark_keepsMem
  | .checkpointWriteDone _ => execCheckpointWriteDone_keepsMem
  | .markTimeout _ => execMarkTimeout_keepsMem
  | .time _ => execTime_keepsMem
  | .timeParentLoss => execTimeParentLoss_keepsMem
  | .mgmt _ => execMgmt_keepsMem
  | .discTimeout _ => execDiscTimeout_keepsMem
  | .jobStart _ => execJobStart_keepsMem
  | .faultEvent _ _ _ _ _ => execFaultEvent_keepsMem
  | .pulseEnd => execPulseEnd_keepsMem
  | .watchdog => execWatchdog_keepsMem
  | .seFail => execSeFail_keepsMem
  | .aliveToggle => execAliveToggle_keepsMem
  | .recoveryGo _ => execRecoveryGo_keepsMem
  | .ideIntegrity _ => execIdeIntegrity_keepsMem
  | .getVersion => execGetVersion_keepsMem
  | .getCapabilities => execGetCapabilities_keepsMem
  | .negotiateAlgorithms _ _ _ _ => execNegotiateAlgorithms_keepsMem
  | .getDigests => execGetDigests_keepsMem
  | .getCertificate _ _ _ => execGetCertificate_keepsMem
  | .challenge _ _ => execChallenge_keepsMem
  | .getMeasurements _ _ _ => execGetMeasurements_keepsMem
  | .keyExchange _ _ _ => execKeyExchange_keepsMem
  | .finish _ _ => execFinish_keepsMem
  | .keyUpdate _ => execKeyUpdate_keepsMem
  | .heartbeat _ => execHeartbeat_keepsMem
  | .endSession _ => execEndSession_keepsMem
  | .setEndpointId _ => execSetEndpointId_keepsMem
  | .getEndpointId => execGetEndpointId_keepsMem
  | .getMctpVersionSupport _ => execGetMctpVersionSupport_keepsMem
  | .getMessageTypeSupport => execGetMessageTypeSupport_keepsMem
  | .identRead => execIdentRead_keepsMem
  | .sensorRead => execSensorRead_keepsMem
  | .powerLimit _ => execPowerLimit_keepsMem
  | .faultSummary => execFaultSummary_keepsMem
  | .quiesce => execQuiesce_keepsMem
  | .inputRise => execInputRise_keepsMem
  | .internalResetRelease _ => execInternalResetRelease_keepsMem
  | .inputRange _ => execInputRange_keepsMem
  | .inputFall => execInputFall_keepsMem
  | .holdUpEnd => execHoldUpEnd_keepsMem
  | .overvoltage => execOvervoltage_keepsMem
  | .railFail _ => execRailFail_keepsMem
  | .powerMeasurement _ _ _ _ => execPowerMeasurement_keepsMem
  | .powerCeilingRaise => execPowerCeilingRaise_keepsMem
  | .thermalRead _ _ => execThermalRead_keepsMem
  | .sensorFail _ => execSensorFail_keepsMem
  | .vcoreUv => execVcoreUv_keepsMem
  | .vcoreOv => execVcoreOv_keepsMem
  | .vcoreOcp => execVcoreOcp_keepsMem
  | .phaseFail => execPhaseFail_keepsMem
  | .rstN _ => execRstN_keepsMem
  | .perstN => execPerstN_keepsMem
  | .windowRead _ _ => execWindowRead_keepsMem
  | .windowWrite _ _ => execWindowWrite_keepsMem
  | .windowTimeout _ _ => execWindowTimeout_keepsMem
  | .snoop => execSnoop_keepsMem
  | .biasFlip => execBiasFlip_keepsMem
  | .commandMemoryWrite _ _ _ => execCommandMemoryWrite_keepsMem
  | .scratchpadWrite _ _ _ => execScratchpadWrite_keepsMem
  | .clear _ => execClear_keepsMem
  | .dbgEn _ _ => execDbgEn_keepsMem
  | .readClear _ _ _ => execReadClear_keepsMem
  | .registerWrite _ _ _ _ => execRegisterWrite_keepsMem
  | .hostLinkTrained _ _ _ => execHostLinkTrained_keepsMem
  | .manifestReadDone _ _ => execManifestReadDone_keepsMem
  | .manifestReadTimeout _ _ => execManifestReadTimeout_keepsMem
  | .retrainingDeferralExpiry _ => execRetrainingDeferralExpiry_keepsMem
  | .runningEntryCleanUpDone _ => execRunningEntryCleanUpDone_keepsMem
  | .ideKeyManagement _ _ => execIdeKeyManagement_keepsMem
  | .doeDiscovery _ => execDoeDiscovery_keepsMem
  | .ieee11491Instruction _ => execIeee11491Instruction_keepsMem
  | .bar0ErrRead _ _ => execBar0ErrRead_keepsMem
  | .heartbeatIncrement _ => execHeartbeatIncrement_keepsMem

/-- What the step relation keeps, whether a command waits or none does. -/
theorem step_keepsMem : KeepsMem step := fun s t h stepped => by
  unfold step at stepped
  split at stepped
  · exact keepsMem_on (fun _ k => k.idle) s t h stepped
  · next c rest _ => exact exec_keepsMem c { s with pending := rest } t h stepped

/-- Settles O57: each function of the model that a command's effect is written with keeps the canonical form of every byte memory,
since bytes are written only through `wrBs`, `wrN` and `zeroBs` and lost only by a filter; `exec_keepsMem` takes the commands one by
one and `Dev.memWf.idle` the tick that passes with none. -/
theorem everyStepKeepsTheMemories : Obligations.EveryStepKeepsTheMemories := step_keepsMem

end Sys2Proof.Machine
end

section
/-!
SUPPORT. What a fault event below a SEAL leaves alone (R410 to R415): power, the clock control, global control and the flags that say
whether the MP runs. With it, events that come at a moment, and the clock control without the moons.
-/

namespace Sys2Proof.Machine

open Sys2Proof

/-! ### An event that comes at a moment -/

section
variable {c : Instr} {s : State} {w : Nat} {f : Dev → Dev}

/-- An event gives what it leaves of the module at its moment, which differs from the module now in its clocks and machine time alone. -/
theorem atDue_gives {P : Dev → Dev → Prop} (due : Gives c s (whenDue w f s.dev))
    (outcome : ∀ d, untimed d = untimed s.dev → P d (f d)) : AtDue w s.dev fun d => ∃ e, Gives c s e ∧ P d e :=
  ⟨fun now => ⟨_, whenDue_now (f := f) now ▸ due, outcome _ rfl⟩,
    fun later pass => ⟨_, whenDue_later (f := f) later pass ▸ due, outcome _ (untimed_passTo ..)⟩⟩

/-- Before its moment it gives the module as it is. -/
theorem notYet_gives (due : Gives c s (whenDue w f s.dev)) (early : NotYet w s.dev) : Gives c s s.dev :=
  whenDue_early (f := f) early.1 early.2 ▸ due

end

theorem pwr_of_untimed {d e : Dev} (h : untimed e = untimed d) : e.pwr = d.pwr := (congrArg Dev.pwr h :)

theorem mpUp_of_untimed {d e : Dev} (h : untimed e = untimed d) : mpUp e = mpUp d := (congrArg mpUp h :)

/-! ### A module but for a fault event below SEAL -/

/-- A module but for what reports and stops change, the crater map, and the fault logic but for SEALED and MP_FAILED. -/
def unraised (d : Dev) : Dev :=
  { (unstopped d).1 with flt := { sealed := d.flt.sealed, mpFailed := d.flt.mpFailed }, crater := {} }

theorem unraised_of_unstopped {d e : Dev} (h : unstopped e = unstopped d) : unraised e = unraised d :=
  congrArg (fun x : Dev × (Nat → Tile) =>
    { x.1 with flt := { sealed := x.1.flt.sealed, mpFailed := x.1.flt.mpFailed }, crater := {} }) h

theorem unraised_of_records {d e : Dev} (h : RecordsOnly d e) : unraised e = unraised d := (congrArg unraised h.rest :)

theorem unraised_driveFault (d : Dev) : unraised (driveFault d) = unraised d := rfl

theorem unraised_history (cls src cause part detail : Nat) (d : Dev) :
    unraised (history cls src cause part detail d) = unraised d :=
  (unraised_of_unstopped (ite_keeps unstopped (unstopped_raiseVec 0 _))).trans rfl

theorem unraised_recordEvent (cls src cause part detail : Nat) (d : Dev) :
    unraised (recordEvent cls src cause part detail d) = unraised d := by
  have records (data : Nat) (c : Dev) :
      RecordsOnly c (if part = 0xFF then ephAll false 0x22 data c else ephRec part 0x22 0xFFFF 0 data c) := by
    split
    · exact recordsOnly_ephAll ..
    · exact recordsOnly_ephRec ..
  unfold recordEvent; dsimp only
  refine (ite_keeps unraised (unraised_driveFault _)).trans (.trans ?_ (unraised_history cls src cause part detail d))
  exact unraised_of_records ((recordsOnly_when (recordsOnly_raiseVec 0 _)).trans (recordsOnly_when (records _ _)))

theorem unraised_enterEvent {cls : Nat} (low : cls ≤ 2) (src cause part detail : Nat) (d : Dev) :
    unraised (enterEvent cls src cause part detail d) = unraised d := by
  unfold enterEvent; dsimp only
  rw [if_neg (show ¬ cls = 3 by omega)]
  exact (ite_keeps unraised (unraised_of_unstopped (unstopped_haltParts ..))).trans (unraised_recordEvent ..)

section
variable {α : Type} (g : Dev → α)

/-- What entering an event and counting it keep, a DEGRADE keeps, to whatever it escalates (R414). -/
theorem raiseDegrade_same (entered : ∀ c s cause part detail d, c ≤ 2 → g (enterEvent c s cause part detail d) = g d)
    (counted : ∀ s x d, g (setEsc s x d) = g d) (src cause part detail : Nat) (u : Option (Nat × Nat × Nat)) (d : Dev) :
    g (raiseDegrade src cause part detail u d) = g d := by
  unfold raiseDegrade; dsimp only
  refine (ite_keeps g (entered 2 _ _ _ _ _ (Nat.le_refl 2))).trans ?_
  rw [counted, entered 1 _ _ _ _ _ (Nat.le_succ 1)]

/-- So does a fault event below SEAL, where marking a unit keeps it too, and lowering the tide ceiling where the event may be a moon's
NOTE. -/
theorem raise_same (entered : ∀ c s cause part detail d, c ≤ 2 → g (enterEvent c s cause part detail d) = g d)
    (counted : ∀ s x d, g (setEsc s x d) = g d) (marked : ∀ sub unit block d, g (addPending sub unit block d) = g d)
    {cls src : Nat} (low : cls ≤ 2) (tide : cls = 0 → src / 256 = 2 → ∀ d, g (lowerTide d) = g d)
    (cause part detail : Nat) (d : Dev) :
    g (raise cls src cause part detail d) = g d := by
  have degrade := raiseDegrade_same g entered counted
  unfold raise
  split
  · dsimp only
    generalize hc : setEsc src _ (enterEvent 0 src cause part detail d) = c
    have noted : g c = g d := hc ▸ (counted ..).trans (entered 0 _ _ _ _ _ (Nat.zero_le 2))
    refine (ite_keeps g ?_).trans noted
    have lowered (e : Dev) : g (if (decide (src / 256 = 2) && decide (src % 256 < 45)) = true then lowerTide e else e) = g e := by
      split
      · next moon => exact tide rfl (of_decide_eq_true (Bool.and_eq_true_iff.mp moon).1) e
      · rfl
    rw [lowered]
    split
    · rw [marked, degrade]
    · rw [degrade]
  · exact degrade ..
  · exact entered _ _ _ _ _ _ low

end

/-- A fault event below SEAL leaves all that alone, unless it is a moon's NOTE. -/
theorem unraised_raise {cls src : Nat} (low : cls ≤ 2) (other : cls = 0 → src / 256 ≠ 2) (cause part detail : Nat) (d : Dev) :
    unraised (raise cls src cause part detail d) = unraised d :=
  raise_same unraised (fun _ _ _ _ _ _ c => unraised_enterEvent c ..) (fun _ _ _ => rfl) (fun _ _ _ _ => rfl) low
    (fun note moon => absurd moon (other note)) ..

theorem mpUp_of_unraised {d e : Dev} (h : unraised e = unraised d) : mpUp e = mpUp d := (congrArg mpUp h :)

theorem pwr_of_unraised {d e : Dev} (h : unraised e = unraised d) : e.pwr = d.pwr := (congrArg Dev.pwr h :)

/-! ### The clock control -/

/-- The clock control without the moons' own records. -/
def clockCtl (d : Dev) : Clk := { d.clk with moons := [] }

theorem clockCtl_of_unraised {d e : Dev} (h : unraised e = unraised d) : clockCtl e = clockCtl d := (congrArg Dev.clk h :)

/-- What a clock control says beside the moons, the module's clocks say. -/
theorem clk_of_clockCtl {α : Type} (g : Clk → α) {e : Dev} {c : Clk} (h : clockCtl e = c)
    (unmooned : ∀ c : Clk, g { c with moons := [] } = g c := by exact fun _ => rfl) : g e.clk = g c :=
  (unmooned e.clk).symm.trans (congrArg g h)

/-- A module but for its moons. -/
def unmooned (d : Dev) : Dev := { d with clk := clockCtl d }

theorem unmooned_modMoons (l : List Nat) (f : Moon → Moon) (d : Dev) : unmooned (modMoons l f d) = unmooned d :=
  forEach_same unmooned (fun m => modMoon m f) (fun _ _ => rfl) l d

theorem clockCtl_of_unmooned {d e : Dev} (h : unmooned e = unmooned d) : clockCtl e = clockCtl d := (congrArg Dev.clk h :)

theorem flt_of_unmooned {d e : Dev} (h : unmooned e = unmooned d) : e.flt = d.flt := (congrArg Dev.flt h :)

section
variable {f : Moon → Moon} {l : List Nat} {d : Dev} {m : Nat}

/-- What an update makes of a moon holds of each moon of the list, and of each that it held of before. -/
theorem modMoons_makes {P : Moon → Prop} (make : ∀ x, P (f x)) (h : m ∈ l ∨ P (getMoon d m)) : P (getMoon (modMoons l f d) m) := by
  induction l generalizing d with
  | nil => exact h.resolve_left List.not_mem_nil
  | cons k r ih =>
    refine ih (d := modMoon k f d) ?_
    by_cases hk : m = k
    · subst hk; rw [getMoon_modMoon_same]; exact .inr (make _)
    · rw [getMoon_modMoon_other d f hk]
      exact h.imp_left fun hm => (List.mem_cons.mp hm).resolve_left hk

end

/-- No other moon is updated. -/
theorem getMoon_forEach_other {l : List Nat} {f : Nat → Moon → Moon} {d : Dev} {m : Nat} (other : m ∉ l) :
    getMoon (forEach l (fun k => modMoon k (f k)) d) m = getMoon d m := by
  induction l generalizing d with
  | nil => rfl
  | cons k r ih =>
    obtain ⟨hk, hr⟩ := not_or.mp (mt List.mem_cons.mpr other)
    exact (ih (d := modMoon k (f k) d) hr).trans (getMoon_modMoon_other d (f k) hk)

/-- CLK_EVENTS bits are set, and records written (R182). -/
theorem clkEvent_records (bits : Nat) (d : Dev) :
    RecordsOnly { d with clk := { d.clk with events := d.clk.events ||| BitVec.ofNat 32 bits } } (clkEvent bits d) := by
  unfold clkEvent; dsimp only
  exact recordsOnly_when (recordsOnly_ephAll ..)

theorem clkEvent_clk (bits : Nat) (d : Dev) :
    (clkEvent bits d).clk = { d.clk with events := d.clk.events ||| BitVec.ofNat 32 bits } := (clkEvent_records bits d).clk

theorem clkEvent_flt (bits : Nat) (d : Dev) : (clkEvent bits d).flt = d.flt := (clkEvent_records bits d).flt

end Sys2Proof.Machine
end

section
/-!
SUPPORT. Step changes: what bringing the tile step to its ceilings leaves alone (R169, R445), the plans' step limit under ephemeris
records (R168), and the answers to the commands that wait for a step.
-/

namespace Sys2Proof.Machine

open Sys2Proof

/-! ### A step change in progress -/

/-- A module but for the step change in progress and the core voltage. -/
def unswitched (d : Dev) : Dev := { d with
  pwr := { d.pwr with vcore := 0 }
  clk := { d.clk with tgt := 0, busy := false, throttle := false, late := false, goAt := 0 } }

theorem unswitched_startStep (tgt : Nat) (throttle : Bool) (d : Dev) : unswitched (startStep tgt throttle d) = unswitched d := rfl

theorem unswitched_settleStep (throttle : Bool) (d : Dev) : unswitched (settleStep throttle d) = unswitched d := by
  unfold settleStep; split
  · rfl
  · exact ite_keeps unswitched (unswitched_startStep ..)

/-- Power stands as before but for the core voltage. -/
theorem pwr_of_unswitched {d e : Dev} (h : unswitched e = unswitched d) (v : Nat) :
    { e.pwr with vcore := v } = { d.pwr with vcore := v } :=
  (congrArg (fun x : Dev => { x.pwr with vcore := v }) h :)

theorem stepMv_mono : ∀ b < 8, ∀ a < b, stepMv a ≤ stepMv b := by decide

/-! ### The plans' limit on the step -/

theorem mem_of_tget {α : Type} {t : Tab α} {k : Nat} {v : α} (h : tget t k = some v) : (k, v) ∈ t := by
  induction t with
  | nil => cases h
  | cons e r ih =>
    unfold tget at h
    split at h
    · next hk => exact hk ▸ Option.some.inj h ▸ List.mem_cons_self
    · exact List.mem_cons_of_mem _ (ih h)

/-- Updating a record that is listed leaves the table the values of a field that the update keeps. -/
theorem mem_tput_of_same {α β : Type} (f : α → β) {t : Tab α} {k : Nat} {v w : α} (here : tget t k = some w)
    (same : f v = f w) (b : β) :
    (∃ e ∈ tput t k v, f e.2 = b) ↔ ∃ e ∈ t, f e.2 = b := by
  induction t with
  | nil => cases here
  | cons e r ih =>
    obtain ⟨j, u⟩ := e
    have listed := mem_of_tget here
    unfold tput
    split_ifs with before at_
    · have again : f v = b → ∃ e ∈ (j, u) :: r, f e.2 = b := fun hb => ⟨_, listed, same ▸ hb⟩
      rw [List.exists_mem_cons_iff]
      exact ⟨fun h => h.elim again id, .inr⟩
    · have head : u = w := by simpa [tget, at_] using here
      rw [List.exists_mem_cons_iff, List.exists_mem_cons_iff, same, head]
    · have rest := ih (by simpa [tget, at_] using here)
      rw [List.exists_mem_cons_iff, List.exists_mem_cons_iff, rest]

/-- What the plans of the partitions are. -/
def planInfos (d : Dev) : Set (Option PlanInfo) := { i | ∃ e ∈ d.parts, e.2.info = i }

/-- A step is within the limit of R168 where it is within that of every plan. -/
theorem le_maxStep_iff (d : Dev) (a : Nat) : a ≤ maxStep d ↔ a ≤ 7 ∧ ∀ i, some i ∈ planInfos d → a ≤ i.maxStep.toNat := by
  have fold (l : Tab Part) (n : Nat) : a ≤ l.foldl (fun a e => match e.2.info with
      | some i => min a i.maxStep.toNat
      | none => a) n ↔ a ≤ n ∧ ∀ i, (∃ e ∈ l, e.2.info = some i) → a ≤ i.maxStep.toNat := by
    induction l generalizing n with
    | nil => simp
    | cons e r ih =>
      rw [List.foldl_cons, ih]
      simp only [List.exists_mem_cons_iff]
      cases h : e.2.info with
      | none => simp
      | some i =>
        simp only [Nat.le_min, Option.some.injEq]
        constructor
        · rintro ⟨⟨hn, hi⟩, hr⟩
          exact ⟨hn, fun j hj => hj.elim (fun e => e ▸ hi) (hr j)⟩
        · rintro ⟨hn, hr⟩
          exact ⟨⟨hn, hr i (.inl rfl)⟩, fun j hj => hr j (.inr hj)⟩
  exact fold d.parts 7

theorem maxStep_of_planInfos {d e : Dev} (h : planInfos e = planInfos d) : maxStep e = maxStep d :=
  eq_of_forall_le_iff fun a => by rw [le_maxStep_iff, le_maxStep_iff, h]

/-! ### Records leave the plans as they are -/

/-- One module differs from another by the records written alone, and the plans are the same. -/
structure KeepsPlans (d e : Dev) : Prop extends RecordsOnly d e where
  plans : d.partsWf → planInfos e = planInfos d

section
variable {d e c : Dev} {p : Nat} {x : Part}

theorem KeepsPlans.refl (d : Dev) : KeepsPlans d d := ⟨.refl d, fun _ => rfl⟩

theorem KeepsPlans.trans (h : KeepsPlans d e) (g : KeepsPlans e c) : KeepsPlans d c :=
  ⟨h.toRecordsOnly.trans g.toRecordsOnly, fun wf => (g.plans (h.partsWf wf)).trans (h.plans wf)⟩

theorem keepsPlans_of_parts (h : RecordsOnly d e) (same : e.parts = d.parts) : KeepsPlans d e :=
  ⟨h, fun _ => by simp [planInfos, same]⟩

theorem keepsPlans_raiseVec (v : Nat) (d : Dev) : KeepsPlans d (raiseVec v d) :=
  keepsPlans_of_parts (recordsOnly_raiseVec v d) (congrArg Dev.parts (raiseVec_frame v d) :)

theorem keepsPlans_setEph (eph : Eph) (own : d.partsWf → getPart d p = some x) :
    KeepsPlans d (setPart p { x with eph := eph } d) :=
  ⟨recordsOnly_setEph eph own, fun wf => Set.ext (mem_tput_of_same Part.info (v := { x with eph := eph }) (own wf) rfl)⟩

theorem keepsPlans_modEph (p : Nat) (g : Eph → Eph) (d : Dev) : KeepsPlans d (modPart p (fun y => { y with eph := g y.eph }) d) := by
  unfold modPart
  split
  case h_1 x hx => exact keepsPlans_setEph (g x.eph) fun _ => hx
  case h_2 => exact .refl d

theorem keepsPlans_withPart {f : Part → Dev → Dev} (h : ∀ x, getPart d p = some x → KeepsPlans d (f x d)) :
    KeepsPlans d (withPart p f d) := by
  unfold withPart
  split
  case h_1 x hx => exact h x hx
  case h_2 => exact .refl d

theorem keepsPlans_ephWrite (own : d.partsWf → getPart d x.pid = some x) (mt orbit ts kind slot req data : Nat) :
    KeepsPlans d (ephWrite x mt orbit ts kind slot req data d) := by
  refine (keepsPlans_of_parts (recordsOnly_ringWrite (ephFirst x) (32 * (x.eph.head.toNat % ephSize x))
    (recBytes mt orbit ts kind slot req data (x.eph.head.toNat % 65536)) d) ?_).trans (keepsPlans_setEph _ fun wf => ?_)
  · unfold ringWrite; split <;> rfl
  · rw [getPart_ringWrite, own ((partsWf_ringWrite ..).mp wf)]

theorem keepsPlans_ephLose (own : d.partsWf → getPart d x.pid = some x) : KeepsPlans d (ephLose x d) := by
  unfold ephLose; dsimp only
  split
  · exact (keepsPlans_setEph _ own).trans (keepsPlans_raiseVec ..)
  · exact keepsPlans_setEph _ own

theorem keepsPlans_ephGap (p : Nat) (d : Dev) : KeepsPlans d (ephGap p d) := by
  refine keepsPlans_withPart fun x hx => ?_
  split
  · exact (keepsPlans_ephWrite (own_of_getPart hx) ..).trans (keepsPlans_modEph p (fun y => { y with gap := 0 }) _)
  · exact .refl d

theorem keepsPlans_ephRec (p kind slot req data : Nat) (d : Dev) : KeepsPlans d (ephRec p kind slot req data d) := by
  refine keepsPlans_withPart fun _ _ => (keepsPlans_ephGap p d).trans (keepsPlans_withPart fun x hx => ?_)
  split
  · exact .refl _
  · split
    · exact keepsPlans_ephLose (own_of_getPart hx)
    · exact keepsPlans_ephWrite (own_of_getPart hx) ..

theorem keepsPlans_ephAll (runningOnly : Bool) (kind data : Nat) (d : Dev) : KeepsPlans d (ephAll runningOnly kind data d) := by
  refine forEach_keeps (KeepsPlans d) _ (fun e c h => h.trans ?_) _ d (.refl d)
  split
  · exact .refl c
  · exact keepsPlans_ephRec ..

/-- Records leave the step to which R445 brings the module. -/
theorem KeepsPlans.wantStep (h : KeepsPlans d e) (wf : d.partsWf) : wantStep e = wantStep d := by
  have ceil : min e.clk.target.toNat (ceilings e) = min d.clk.target.toNat (ceilings d) :=
    (congrArg (fun x : Dev => min x.clk.target.toNat (ceilings x)) h.rest :)
  rw [Machine.wantStep, ceil, maxStep_of_planInfos (h.plans wf)]; rfl

end

/-! ### The commands that wait for the step -/

section
variable {k m st code reason : Nat} {pl : List Byte} {d : Dev}

/-- A mailbox that has been answered holds the answer's status (Table 15.7). -/
theorem answered_answer (low : st < 256) : Answered m st (answer m st reason pl d) := by
  refine ⟨(answer_done ..).1, ?_⟩
  simp only [answer, getMbx_raiseVec, getMbx_modMbx_same]
  let x := getMbx d m
  let head := toLe 2 (rqOpcode x) ++ toLe 2 (rqSeq x) ++ toLe 2 pl.length
  let tail := toLe 1 reason ++ toLe 8 (rqTag x) ++ pl
  have status : rdBs (wrBs x.reply 0 (head ++ (toLe 1 st ++ tail))) 6 (1 + tail.length) = toLe 1 st ++ tail := by
    simpa [head] using rdBs_wrBs_append x.reply 0 head (toLe 1 st ++ tail)
  rw [rdBs_add] at status
  have first := (List.append_inj status (by simp)).1
  have whole : toLe 2 (rqOpcode x) ++ toLe 2 (rqSeq x) ++ toLe 2 pl.length ++ toLe 1 st ++ toLe 1 reason ++ toLe 8 (rqTag x) ++ pl =
      head ++ (toLe 1 st ++ tail) := by simp [head, tail]
  rw [rdN, whole, first, leNat_toLe]
  omega

/-- An answer to another mailbox leaves it as it is. -/
theorem Answered.answer (h : Answered k stOk d) (m reason : Nat) (pl : List Byte) : Answered k stOk (answer m stOk reason pl d) := by
  by_cases hk : k = m
  · subst hk; exact answered_answer (by decide)
  · unfold Answered
    rwa [answer_other stOk reason pl d hk]

/-- What the event of a begun command does to one mailbox. -/
def answerWaiting (code st reason : Nat) (pl : List Byte) (e : Nat × Mailbox) (d : Dev) : Dev :=
  if e.2.st = .accepted && e.2.begun && rqOpcode e.2 = code then answer e.1 st reason pl d else d

theorem Answered.answerWaiting (h : Answered k stOk d) (code reason : Nat) (pl : List Byte) (e : Nat × Mailbox) :
    Answered k stOk (answerWaiting code stOk reason pl e d) := by
  unfold Machine.answerWaiting; split
  · exact h.answer ..
  · exact h

theorem Answered.answerBegun (h : Answered k stOk d) (code reason : Nat) (pl : List Byte) :
    Answered k stOk (answerBegun code stOk reason pl d) :=
  forEach_keeps (Answered k stOk) _ (fun e _ hc => hc.answerWaiting code reason pl e) d.mbx d h

/-- A mailbox that holds a begun command with the code is answered. -/
theorem answerBegun_answers {x : Mailbox} (here : tget d.mbx k = some x) (accepted : x.st = .accepted) (begun : x.begun = true)
    (opcode : rqOpcode x = code) : Answered k stOk (answerBegun code stOk reason pl d) := by
  have visited (l : Tab Mailbox) (c : Dev) (h : (k, x) ∈ l ∨ Answered k stOk c) :
      Answered k stOk (forEach l (answerWaiting code stOk reason pl) c) := by
    induction l generalizing c with
    | nil => exact h.resolve_left List.not_mem_nil
    | cons e r ih =>
      refine ih (answerWaiting code stOk reason pl e c) ?_
      obtain (rfl | later) | done := h.imp_left List.mem_cons.mp
      · refine .inr ?_
        rw [answerWaiting, if_pos (by simp [accepted, begun, opcode])]
        exact answered_answer (by decide)
      · exact .inl later
      · exact .inr (done.answerWaiting ..)
  exact visited d.mbx d (.inl (mem_of_tget here))

/-- A module but for its mailboxes and the vectors that their answers raise. -/
def unanswered (d : Dev) : Dev := { d with mbx := [], msix := [], out := {} }

theorem unanswered_answerBegun : unanswered (answerBegun code st reason pl d) = unanswered d := by
  refine forEach_same unanswered (answerWaiting code st reason pl) (fun e c => ?_) d.mbx d
  exact ite_keeps unanswered (congrArg unanswered (answer_frame e.1 st reason pl c) :)

end

end Sys2Proof.Machine
end

section
/-!
SUPPORT. The moons' ticks: the clocks that run free (R166), the coupling rules (R174), and what a fault event leaves of a moon and of
the tides (R171, R173).
-/

namespace Sys2Proof.Machine

open Sys2Proof

/-! ### Clocks that run free -/

section
variable (d : Dev)

theorem unmooned_freeTicks : unmooned (freeTicks d) = unmooned d :=
  forEach_same unmooned (fun m => modMoon m (catchUp (moonPeriod d m) d.clk.wall)) (fun _ _ => rfl) freeMoons d

/-- The tile moons do not run free (R166). -/
theorem getMoon_freeTicks_tile {k : Nat} (tile : k < 36) : getMoon (freeTicks d) k = getMoon d k :=
  getMoon_forEach_other (by simp only [freeMoons, List.mem_map, List.mem_range]; omega)

theorem tideExc_catchUp (p w : Nat) (x : Moon) : (catchUp p w x).tideExc = x.tideExc := by
  unfold catchUp; dsimp only; split <;> rfl

theorem tideExc_freeTicks (m : Nat) : (getMoon (freeTicks d) m).tideExc = (getMoon d m).tideExc := by
  refine forEach_same (fun e => (getMoon e m).tideExc) _ (fun k c => ?_) freeMoons d
  by_cases hm : m = k
  · subst hm; rw [getMoon_modMoon_same, tideExc_catchUp]
  · rw [getMoon_modMoon_other c _ hm]

end

theorem dev_of_unmooned {d e : Dev} (h : unmooned e = unmooned d) : { e with clk := d.clk } = d :=
  (congrArg (fun x : Dev => { x with clk := d.clk }) h :)

/-! ### The coupling rules -/

section
variable {α : Type} {f : α → Nat} {l : List α} {n : Nat}

theorem foldl_max_le_iff {a : Nat} : l.foldl (fun a k => max a (f k)) n ≤ a ↔ n ≤ a ∧ ∀ k ∈ l, f k ≤ a := by
  induction l generalizing n with
  | nil => simp
  | cons k r ih => rw [List.foldl_cons, ih, Nat.max_le, List.forall_mem_cons, and_assoc]

theorem le_foldl_max_init : n ≤ l.foldl (fun a k => max a (f k)) n := (foldl_max_le_iff.mp (Nat.le_refl _)).1

theorem le_foldl_max {k : α} (hk : k ∈ l) : f k ≤ l.foldl (fun a k => max a (f k)) n := (foldl_max_le_iff.mp (Nat.le_refl _)).2 k hk

end

theorem period_pos (step : BitVec 3) : 0 < period step := by
  unfold period; split <;> decide

theorem le_edgeFrom (p rest at_ : Nat) : rest ≤ edgeFrom p rest at_ := Nat.le_add_right ..

theorem from_le_edgeFrom {p : Nat} (pos : 0 < p) (rest at_ : Nat) : at_ ≤ edgeFrom p rest at_ := by
  have edges : at_ - rest ≤ (at_ - rest + p - 1) / p * p := by
    have := Nat.lt_div_mul_add (a := at_ - rest + p - 1) pos
    omega
  rw [edgeFrom]; omega

theorem mem_stretchSet : ∀ t < 36, t ∈ stretchSet t := by decide

/-- The members of a seam group have one stretch set (R172, R174). -/
theorem stretchSet_of_mem : ∀ t < 36, ∀ k ∈ stretchSet t, stretchSet k = stretchSet t := by decide

section
variable (d : Dev) {t : Nat}

theorem nextBegin_of_mem (tile : t < 36) {k : Nat} (hk : k ∈ stretchSet t) : nextBegin d k = nextBegin d t := by
  rw [nextBegin, stretchSet_of_mem t tile k hk]; rfl

theorem edgeFrom_le_nextBegin (tile : t < 36) :
    edgeFrom (period d.clk.step) (tickEnd (getMoon d t)) (coupledFrom d t) ≤ nextBegin d t :=
  le_foldl_max (f := fun k => edgeFrom (period d.clk.step) (tickEnd (getMoon d k)) (coupledFrom d k)) (mem_stretchSet t tile)

theorem tickEnd_le_nextBegin (tile : t < 36) : tickEnd (getMoon d t) ≤ nextBegin d t :=
  (le_edgeFrom ..).trans (edgeFrom_le_nextBegin d tile)

theorem coupledFrom_le_nextBegin (tile : t < 36) : coupledFrom d t ≤ nextBegin d t :=
  (from_le_edgeFrom (period_pos _) ..).trans (edgeFrom_le_nextBegin d tile)

/-- The crossing rule (R174). -/
theorem crossing_le_coupledFrom {k : Nat} (hk : k ∈ crossingMoons t) :
    begun (getMoon d k) 1 + period d.clk.step ≤ coupledFrom d t :=
  (le_foldl_max (f := fun k => begun (getMoon d k) 1 + period d.clk.step) hk).trans le_foldl_max_init

/-- The spread rule (R174). -/
theorem spread_le_coupledFrom {k : Nat} (tile : k < 36) : begun (getMoon d k) 3 + 2 * period d.clk.step ≤ coupledFrom d t :=
  le_foldl_max (f := fun k => begun (getMoon d k) 3 + 2 * period d.clk.step) (List.mem_range.mpr tile)

end

/-! ### The tides under a fault event -/

/-- A moon but for what the end of a hold changes of it. -/
def unheld (x : Moon) : Moon := { x with restTill := 0, slices := [] }

/-- When the tides were last high, and the moons but for what the end of a hold changes. -/
def tides (d : Dev) : Nat × (Nat → Moon) := (d.clk.tideQuiet, fun m => unheld (getMoon d m))

section
variable {d e : Dev}

theorem tides_of_clk (h : e.clk = d.clk) : tides e = tides d :=
  Prod.ext (congrArg Clk.tideQuiet h) (funext fun m => congrArg unheld (getMoon_congr h m))

theorem tides_modMoon {f : Moon → Moon} (h : ∀ x, unheld (f x) = unheld x) (m : Nat) (d : Dev) : tides (modMoon m f d) = tides d := by
  refine Prod.ext rfl (funext fun k => ?_)
  by_cases hk : k = m
  · subst hk; exact (congrArg unheld (getMoon_modMoon_same ..)).trans (h _)
  · exact congrArg unheld (getMoon_modMoon_other d f hk)

variable (d)

theorem tides_endHold (no : Nat) (w : WaitSt) (start : Nat) : tides (endHold no w start d) = tides d := by
  refine (tides_of_clk (endHold_clk ..)).trans ?_
  refine (tides_modMoon (fun x => ?_) ..).trans (tides_modMoon (fun x => ?_) ..)
  · rfl
  · rfl

theorem tides_endHolds (x : Part) : tides (endHolds x d) = tides d := by
  refine forEach_same tides _ (fun no c => ?_) _ d
  split
  · split
    · exact tides_endHold ..
    · rfl
  · rfl

theorem clk_modPart (p : Nat) (f : Part → Part) : (modPart p f d).clk = d.clk := by
  unfold modPart; split <;> rfl

theorem clk_releasePins (p : Nat) : (releasePins p d).clk = d.clk := by
  unfold releasePins withPart
  split
  · dsimp only; split <;> rfl
  · rfl

theorem clk_parkTiles (p : Nat) : (parkTiles p d).clk = d.clk := by
  unfold parkTiles withPart
  split
  · rw [clk_releasePins, clk_modPart]
    exact forEach_same Dev.clk (fun t => modTile t parkTile) (fun _ _ => rfl) _ d
  · rfl

theorem clk_eclipseAll (p : Nat) : (eclipseAll p d).clk = d.clk := by
  unfold eclipseAll withPart
  split
  · dsimp only
    rw [clk_modPart]
    exact (recordsOnly_when (recordsOnly_forEach (fun _ _ => recordsOnly_ephRec ..) _ d)).clk
  · rfl

theorem tides_leaveRunning (p : Nat) : tides (leaveRunning p d) = tides d := by
  have closed (x : Part) (c : Dev) : tides (if mpUp c then closeDigest p x.orbit (eclipseAll p c) else c) = tides c :=
    ite_keeps tides (tides_of_clk ((recordsOnly_closeDigest ..).clk.trans (clk_eclipseAll ..)))
  have left (f : Part → Part) (x : Part) : tides (modPart p f (endHolds x d)) = tides d :=
    (tides_of_clk (clk_modPart ..)).trans (tides_endHolds ..)
  unfold leaveRunning withPart
  split
  · dsimp only
    split
    · rfl
    · refine (closed ..).trans ?_
      split
      · exact left ..
      · exact (tides_of_clk (clk_parkTiles ..)).trans (left ..)
  · rfl

theorem tides_haltParts (part : Nat) : tides (haltParts part d) = tides d := by
  unfold haltParts
  split
  · exact forEach_same tides _ (fun _ _ => tides_leaveRunning ..) _ d
  · exact tides_leaveRunning ..

theorem tides_enterEvent {cls : Nat} (low : cls ≤ 2) (src cause part detail : Nat) :
    tides (enterEvent cls src cause part detail d) = tides d := by
  obtain ⟨f, -, recorded⟩ := recordEvent_records cls src cause part detail d
  unfold enterEvent; dsimp only
  rw [if_neg (show ¬ cls = 3 by omega)]
  exact (ite_keeps tides (tides_haltParts ..)).trans (tides_of_clk recorded.clk)

theorem tides_lowerTide : tides (lowerTide d) = tides d :=
  (congrArg tides (unswitched_settleStep true { d with
    pwr := { d.pwr with tideCeil := if d.pwr.tideCeil = 0 then 0 else d.pwr.tideCeil - 1 } }) :)

/-- A fault event below SEAL leaves the tides alone, and its moons but for the holds that it ends. -/
theorem tides_raise {cls : Nat} (low : cls ≤ 2) (src cause part detail : Nat) : tides (raise cls src cause part detail d) = tides d :=
  raise_same tides (fun _ _ _ _ _ d c => tides_enterEvent d c ..) (fun _ _ _ => rfl) (fun _ _ _ _ => rfl) low
    (fun _ _ => tides_lowerTide) ..

end

end Sys2Proof.Machine
end

section
/-!
SUPPORT. Throttling (R445): what it leaves alone, alone and after a fault event, and that the step then stands where R445 puts it or is
on its way there. The measurement of the input power (R438, R443).
-/

namespace Sys2Proof.Machine

open Sys2Proof

/-! ### A throttle after a fault event -/

/-- A module but for a fault event below SEAL and a step change in progress. -/
def steady (d : Dev) : Dev := unswitched (unraised d)

theorem unswitched_throttle (d : Dev) : unswitched (throttle d) = unswitched d := ite_keeps unswitched (unswitched_settleStep true d)

theorem steady_throttle (d : Dev) : steady (throttle d) = steady d := (congrArg unraised (unswitched_throttle d) :)

theorem throttle_flt (d : Dev) : (throttle d).flt = d.flt := (congrArg Dev.flt (unswitched_throttle d) :)

/-- The step stands where R445 puts it, or a step change is in progress. -/
def Settled (d : Dev) : Prop := d.clk.busy = true ∨ d.clk.step.toNat = wantStep d

theorem settled_settleStep (throttle : Bool) (d : Dev) : Settled (settleStep throttle d) := by
  unfold settleStep
  split
  · next busy => exact .inl busy
  · split
    · exact .inl rfl
    · next same => exact .inr (not_not.mp same).symm

section
variable {d e : Dev}

theorem settled_throttle (up : mpUp d = true) : Settled (throttle d) := by
  rw [throttle, if_pos up]; exact settled_settleStep true d

theorem mpUp_of_steady (h : steady e = steady d) : mpUp e = mpUp d := (congrArg mpUp h :)

theorem wall_of_steady (h : steady e = steady d) : e.clk.wall = d.clk.wall := (congrArg (fun x : Dev => x.clk.wall) h :)

/-- Power stands as before but for the core voltage. -/
theorem pwr_of_steady (h : steady e = steady d) (v : Nat) : { e.pwr with vcore := v } = { d.pwr with vcore := v } :=
  pwr_of_unswitched h v

/-- So does whatever of it the core voltage does not enter. -/
theorem of_steady {α : Type} (g : Pwr → α) (h : steady e = steady d)
    (free : ∀ p : Pwr, g { p with vcore := 0 } = g p := by exact fun _ => rfl) : g e.pwr = g d.pwr :=
  (free e.pwr).symm.trans ((congrArg g (pwr_of_steady h 0)).trans (free d.pwr))

end

/-- A fault event that throttles. -/
def raiseThrottle (cls src cause detail : Nat) (d : Dev) : Dev := throttle (raise cls src cause 0xFF detail d)

section
variable {cls src : Nat} (cause detail : Nat) (d : Dev)

theorem steady_raiseThrottle (low : cls ≤ 2) (other : cls = 0 → src / 256 ≠ 2) :
    steady (raiseThrottle cls src cause detail d) = steady d :=
  (steady_throttle _).trans (congrArg unswitched (unraised_raise low other ..))

theorem raiseThrottle_entered : Entered cls src cause d (raiseThrottle cls src cause detail d) := by
  have entered := raise_entered cls src cause 0xFF detail d
  unfold Entered at entered ⊢
  rwa [raiseThrottle, throttle_flt]

theorem settled_raiseThrottle (low : cls ≤ 2) (other : cls = 0 → src / 256 ≠ 2) (up : mpUp d = true) :
    Settled (raiseThrottle cls src cause detail d) :=
  settled_throttle ((mpUp_of_unraised (unraised_raise low other ..)).trans up)

end

/-! ### The ceilings -/

theorem lower3_toNat (c : BitVec 3) : (lower3 c).toNat = c.toNat - 1 := by
  unfold lower3
  split
  · next zero => subst zero; rfl
  · next some => bv_omega

/-- A failed phase holds the step at 5 (R446). -/
theorem wantStep_of_phase {d : Dev} (active : d.pwr.phaseActive = true) : wantStep d ≤ 5 := by
  have ceiling : ceilings d ≤ 5 := by rw [ceilings, if_pos active]; omega
  rw [wantStep]; omega

theorem mem_insertNat (l : List Nat) (k : Nat) : k ∈ insertNat l k := by
  induction l with
  | nil => exact List.mem_singleton_self k
  | cons j r ih =>
    unfold insertNat
    split_ifs with less same
    · exact List.mem_cons_self
    · exact same ▸ List.mem_cons_self
    · exact List.mem_cons_of_mem j ih

/-- A failed sensor holds the thermal ceiling at 4 (R444). -/
theorem thermCeil_of_sensorBad {d : Dev} {k : Nat} (failed : k ∈ d.pwr.sensorBad) : thermCeil d ≤ 4 := by
  unfold thermCeil
  split
  · next none => rw [List.isEmpty_iff.mp none] at failed; cases failed
  · exact Nat.min_le_left ..

/-! ### The measurement of the input power -/

/-- The measurement taken (R443). -/
def inputRead (mv ca watts core : BitVec 16) (d : Dev) : Dev :=
  { d with pwr := { d.pwr with measAt := d.clk.wall, pwrIn := core ++ watts ++ ca ++ mv } }

/-- The input range's ceiling is lowered by it (R438). -/
def rangeMet (watts : BitVec 16) (d : Dev) : Dev :=
  if d.pwr.rangeActive && decide (2000 < watts.toNat) && !d.clk.busy then
    throttle { d with pwr := { d.pwr with rangeCeil := lower3 d.pwr.rangeCeil } }
  else d

/-- A measurement within the limit. -/
def powerWithin (watts : BitVec 16) (d : Dev) : Dev := { d with pwr := { d.pwr with
  overRun := 0, belowAt := if watts.toNat * 10 < d.pwr.limit.toNat * 9 then some (d.pwr.belowAt.getD d.clk.wall) else none } }

theorem measured_eq (mv ca watts core : BitVec 16) (d : Dev) : measured mv ca watts core d =
    let m := rangeMet watts (inputRead mv ca watts core d)
    if m.pwr.limit.toNat < watts.toNat then powerOver m else powerWithin watts m := rfl

section
variable {watts : BitVec 16} {d : Dev}

theorem rangeMet_lowers (active : d.pwr.rangeActive = true) (much : 2000 < watts.toNat) (idle : d.clk.busy = false) :
    rangeMet watts d = throttle { d with pwr := { d.pwr with rangeCeil := lower3 d.pwr.rangeCeil } } :=
  if_pos (by simp [active, much, idle])

theorem rangeMet_rests (h : d.pwr.rangeActive = false ∨ ¬ 2000 < watts.toNat ∨ d.clk.busy = true) : rangeMet watts d = d := by
  refine if_neg ?_
  simp only [Bool.and_eq_true, decide_eq_true_eq, Bool.not_eq_true']
  rintro ⟨⟨active, much⟩, idle⟩
  simp [active, much, idle] at h

/-- Beside the range's ceiling it leaves the module as it is but for the step change that it starts. -/
theorem rangeMet_same (watts : BitVec 16) (d : Dev) : ∃ c,
    unswitched (rangeMet watts d) = unswitched { d with pwr := { d.pwr with rangeCeil := c } } := by
  unfold rangeMet
  split
  · exact ⟨_, unswitched_throttle _⟩
  · exact ⟨d.pwr.rangeCeil, rfl⟩

/-- What a measurement over the limit notes (R443). -/
def overNoted (d : Dev) : Pwr :=
  { d.pwr with exceeded := d.pwr.exceeded ||| BitVec.ofNat 8 (2 ^ d.clk.step.toNat), belowAt := none }

theorem powerOver_busy (busy : d.clk.busy = true) : powerOver d = { d with pwr := overNoted d } := if_pos busy

theorem powerOver_counts (idle : d.clk.busy = false) (few : d.pwr.overRun + 1 < 10) :
    powerOver d = { d with pwr := { overNoted d with overRun := d.pwr.overRun + 1 } } :=
  (if_neg (Bool.not_eq_true _ ▸ idle)).trans (if_pos few)

/-- The limit cannot be met (R389). -/
def limitMissed (d : Dev) : Dev := { d with pwr := { overNoted d with overRun := 0, limitFault := true } }

theorem powerOver_floor (idle : d.clk.busy = false) (ten : 10 ≤ d.pwr.overRun + 1) (floor : d.clk.step = 0) : powerOver d =
    if d.pwr.limitFault then limitMissed d else raise 1 0x700 0x0704 0xFF d.pwr.limit.toNat (limitMissed d) :=
  (if_neg (Bool.not_eq_true _ ▸ idle)).trans ((if_neg (Nat.not_lt.mpr ten)).trans (if_pos floor))

/-- The power ceiling is lowered. -/
def powerLowered (d : Dev) : Dev := { d with pwr := { overNoted d with overRun := 0, powerCeil := lower3 d.pwr.powerCeil } }

theorem powerOver_lowers (idle : d.clk.busy = false) (ten : 10 ≤ d.pwr.overRun + 1) (above : d.clk.step ≠ 0) :
    powerOver d = raiseThrottle 0 0x900 0x0902 0 (powerLowered d) :=
  (if_neg (Bool.not_eq_true _ ▸ idle)).trans ((if_neg (Nat.not_lt.mpr ten)).trans (if_neg above))

/-- A measurement over the limit changes the power ceiling, its counts and the core voltage alone, and notes the step and no span below. -/
theorem powerOver_steady (d : Dev) : ∃ o c l,
    steady (powerOver d) = steady { d with pwr := { overNoted d with overRun := o, powerCeil := c, limitFault := l } } := by
  cases busy : d.clk.busy with
  | true => rw [powerOver_busy busy]; exact ⟨d.pwr.overRun, d.pwr.powerCeil, d.pwr.limitFault, rfl⟩
  | false =>
    by_cases few : d.pwr.overRun + 1 < 10
    · rw [powerOver_counts busy few]; exact ⟨_, d.pwr.powerCeil, d.pwr.limitFault, rfl⟩
    · by_cases floor : d.clk.step = 0
      · rw [powerOver_floor busy (Nat.not_lt.mp few) floor]
        refine ⟨0, d.pwr.powerCeil, true, ?_⟩
        split
        · rfl
        · exact congrArg unswitched (unraised_raise (by decide) (by decide) ..)
      · rw [powerOver_lowers busy (Nat.not_lt.mp few) floor]
        exact ⟨0, lower3 d.pwr.powerCeil, d.pwr.limitFault, steady_raiseThrottle _ _ _ (by decide) (by decide)⟩

end

end Sys2Proof.Machine
end

section
/-!
SUPPORT. Temperatures in service (R444, Table 18.4): what the check of a reading leaves alone, and what each of its cases does.
-/

namespace Sys2Proof.Machine

open Sys2Proof

/-! ### The readings -/

/-- The reading in a byte of TEMPS. -/
def reading (d : Dev) (k : Nat) : Nat := fld d.pwr.temps.toNat (8 * k) 8

/-- The sensors that could be read, and the hottest device. -/
def couldRead (ok : BitVec 5) (k : Nat) : Bool := k = 5 || ok.getLsbD k

/-- The byte that a reading of the sensors leaves for each. -/
def sensedByte (t : BitVec 40) (ok : BitVec 5) (d : Dev) (k : Nat) : Nat :=
  if k = 5 then (hottest d).2 else if ok.getLsbD k = true then fld t.toNat (8 * k) 8 else fld d.pwr.temps.toNat (8 * k) 8

/-- Six bytes as TEMPS holds them. -/
def packBytes (b : Nat → Nat) : Nat := (List.range 5).foldl (fun a k => a + b k * 2 ^ (8 * k)) (b 5 * 2 ^ 40)

/-- The module with the bytes of TEMPS taken. -/
def takeTemps (v : BitVec 64) (ok : BitVec 5) (d : Dev) : Dev := { d with pwr := { d.pwr with
  temps := v, thermAt := d.clk.wall, sensorBad := d.pwr.sensorBad.filter (fun s => !ok.getLsbD s) } }

/-- The module with the readings taken. -/
def sensed (t : BitVec 40) (ok : BitVec 5) (d : Dev) : Dev := takeTemps (BitVec.ofNat 64 (packBytes (sensedByte t ok d))) ok d

section
variable (t : BitVec 40) (ok : BitVec 5) (d : Dev)

/-- What the module with any bytes taken says, it says with the readings. -/
theorem of_takeTemps {α : Type} (g : Dev → α) {x : α} (all : ∀ v, g (takeTemps v ok d) = x) : g (sensed t ok d) = x := all _

theorem sensed_flt : (sensed t ok d).flt = d.flt := of_takeTemps t ok d Dev.flt fun _ => rfl
theorem sensed_clk : (sensed t ok d).clk = d.clk := of_takeTemps t ok d Dev.clk fun _ => rfl
theorem sensed_mpUp : mpUp (sensed t ok d) = mpUp d := of_takeTemps t ok d mpUp fun _ => rfl
theorem sensed_thermCeil : (sensed t ok d).pwr.thermCeil = d.pwr.thermCeil := of_takeTemps t ok d (·.pwr.thermCeil) fun _ => rfl
theorem sensed_hotAt : (sensed t ok d).pwr.hotAt = d.pwr.hotAt := of_takeTemps t ok d (·.pwr.hotAt) fun _ => rfl
theorem sensed_coolAt : (sensed t ok d).pwr.coolAt = d.pwr.coolAt := of_takeTemps t ok d (·.pwr.coolAt) fun _ => rfl
theorem sensed_thermAt : (sensed t ok d).pwr.thermAt = d.clk.wall := of_takeTemps t ok d (·.pwr.thermAt) fun _ => rfl
theorem sensed_sensorBad : (sensed t ok d).pwr.sensorBad = d.pwr.sensorBad.filter (fun s => !ok.getLsbD s) :=
  of_takeTemps t ok d (·.pwr.sensorBad) fun _ => rfl

end

/-- What follows the checks: the step is throttled, and the ceiling may rise again. -/
def afterChecks (d : Dev) : Dev := if (throttle d).flt.sealed then throttle d else thermCool (throttle d)

theorem thermRead_eq (t : BitVec 40) (ok : BitVec 5) (d : Dev) :
    thermRead t ok d = afterChecks (forEach ((List.range 6).filter (couldRead ok)) thermCheck (sensed t ok d)) := by
  have bytes : (List.range 5).foldl (fun a k => a + (if (decide (k = 5) || ok.getLsbD k) = true then fld t.toNat (8 * k) 8
      else fld d.pwr.temps.toNat (8 * k) 8) * 2 ^ (8 * k)) ((hottest d).2 * 2 ^ 40) = packBytes (sensedByte t ok d) := by
    simp [packBytes, sensedByte, List.range, List.range.loop]
  have read : (fun k => decide (k = 5) || ok.getLsbD k) = couldRead ok := rfl
  unfold thermRead; dsimp only
  rw [bytes, read, ← takeTemps, ← sensed, ← afterChecks]

theorem sum_range_five (b p : Nat → Nat) (x : Nat) : (List.range 5).foldl (fun a k => a + b k * p k) x =
    x + b 0 * p 0 + b 1 * p 1 + b 2 * p 2 + b 3 * p 3 + b 4 * p 4 := rfl

theorem reading_packBytes {b : Nat → Nat} (low : ∀ i < 6, b i < 256) {k : Nat} (hk : k < 6) :
    fld (BitVec.ofNat 64 (packBytes b)).toNat (8 * k) 8 = b k := by
  have sum : packBytes b = b 5 * 2 ^ 40 + b 0 * 2 ^ (8 * 0) + b 1 * 2 ^ (8 * 1) + b 2 * 2 ^ (8 * 2) + b 3 * 2 ^ (8 * 3) +
      b 4 * 2 ^ (8 * 4) := by
    unfold packBytes
    exact sum_range_five b (fun k => 2 ^ (8 * k)) _
  have l0 := low 0 (by decide)
  have l1 := low 1 (by decide)
  have l2 := low 2 (by decide)
  have l3 := low 3 (by decide)
  have l4 := low 4 (by decide)
  have l5 := low 5 (by decide)
  rw [sum, BitVec.toNat_ofNat, Nat.mod_eq_of_lt (by omega), fld]
  interval_cases k <;> omega

theorem hottest_lt (d : Dev) : (hottest d).2 < 256 := by
  have fold (l : Tab Chan) (a : Nat × Nat) (ha : a.2 < 256) :
      (l.foldl (fun (a : Nat × Nat) e => if a.2 < e.2.temp.toNat then (e.1, e.2.temp.toNat) else a) a).2 < 256 := by
    induction l generalizing a with
    | nil => exact ha
    | cons e r ih =>
      refine ih _ ?_
      dsimp only; split
      · exact e.2.temp.isLt
      · exact ha
  exact fold d.chans (0, 0) (by decide)

theorem reading_sensed {t : BitVec 40} {ok : BitVec 5} {d : Dev} {k : Nat} (hk : k < 6) :
    reading (sensed t ok d) k = sensedByte t ok d k := by
  refine reading_packBytes (fun i _ => ?_) hk
  unfold sensedByte
  split_ifs
  · exact hottest_lt d
  · exact Nat.mod_lt _ (by decide)
  · exact Nat.mod_lt _ (by decide)

theorem thresholds (k : Nat) : coolT k ≤ hotT k ∧ hotT k ≤ tripT k := by
  unfold coolT hotT tripT; split <;> decide

/-- The event of a reading is no moon's. -/
theorem thermSrc_other (d : Dev) (k : Nat) (hk : k < 6) : thermSrc d k / 256 ≠ 2 := by
  unfold thermSrc; split <;> omega

/-! ### The cases of a check -/

section
variable {k : Nat} {d : Dev}

theorem thermCheck_trips (past : tripT k < reading d k) : thermCheck k d = raise 3 (thermSrc d k) 0x090A 0xFF (reading d k) d :=
  if_pos past

theorem thermCheck_cold (cold : ¬ hotT k < reading d k) :
    thermCheck k d = { d with pwr := { d.pwr with hotAt := tdel d.pwr.hotAt k } } :=
  (if_neg fun past => cold ((thresholds k).2.trans_lt past)).trans (if_neg cold)

/-- A reading above the lowering threshold is noted from now. -/
def hotNoted (k : Nat) (d : Dev) : Dev := { d with pwr := { d.pwr with hotAt := tput d.pwr.hotAt k d.clk.wall } }

/-- The thermal ceiling is lowered for it. -/
def hotLowered (k : Nat) (d : Dev) : Dev :=
  { d with pwr := { d.pwr with hotAt := tput d.pwr.hotAt k d.clk.wall, thermCeil := lower3 d.pwr.thermCeil } }

theorem thermCheck_hot (hot : hotT k < reading d k) (under : ¬ tripT k < reading d k) : thermCheck k d =
    match tget d.pwr.hotAt k with
    | none => hotNoted k d
    | some w => if d.clk.wall < w + msG 10 then d else raiseThrottle 0 (thermSrc d k) 0x0909 (reading d k) (hotLowered k d) :=
  (if_neg under).trans (if_pos hot)

end

/-! ### What a check leaves alone -/

/-- Power but for the core voltage, the rails and what the checks of the readings change, and wall time. -/
def calm (d : Dev) : Pwr × Nat :=
  ({ d.pwr with vcore := 0, rails := 0, hotAt := [], thermCeil := 0 }, d.clk.wall)

theorem calm_of_steady {d e : Dev} (h : steady e = steady d) : calm e = calm d :=
  Prod.ext (of_steady (fun p => { p with vcore := 0, rails := 0, hotAt := [], thermCeil := 0 }) h) (wall_of_steady h)

theorem raise_seal (src cause part detail : Nat) (d : Dev) :
    raise 3 src cause part detail d = sealModule (recordEvent 3 src cause part detail d) := rfl

theorem raise_seal_seals (src cause part detail : Nat) (d : Dev) : (raise 3 src cause part detail d).flt.sealed = true := rfl

/-- A SEAL leaves power as it is but for the rails that it turns off (R424). -/
theorem raise_seal_pwr (src cause part detail : Nat) (d : Dev) :
    (raise 3 src cause part detail d).pwr = { d.pwr with rails := d.pwr.rails &&& 7#8 } := by
  have recorded := pwr_of_unraised (unraised_recordEvent 3 src cause part detail d)
  rw [raise_seal, sealModule, recorded]

theorem raise_seal_wall (src cause part detail : Nat) (d : Dev) : (raise 3 src cause part detail d).clk.wall = d.clk.wall := by
  have recorded := clockCtl_of_unraised (unraised_recordEvent 3 src cause part detail d)
  exact (clk_of_clockCtl Clk.wall recorded :)

/-- The checks of a list of readings: they may lower the thermal ceiling, seal the module, and note since when those are hot. -/
structure Checked (l : List Nat) (d e : Dev) : Prop where
  calm : calm e = calm d
  lower : e.pwr.thermCeil.toNat ≤ d.pwr.thermCeil.toNat
  seals : d.flt.sealed = true → e.flt.sealed = true
  others : ∀ j, j ∉ l → tget e.pwr.hotAt j = tget d.pwr.hotAt j

section
variable {l m : List Nat} {k : Nat} {d e c : Dev}

theorem Checked.refl (l : List Nat) (d : Dev) : Checked l d d := ⟨rfl, Nat.le_refl _, id, fun _ _ => rfl⟩

theorem Checked.trans (h : Checked [k] d e) (g : Checked l e c) : Checked (k :: l) d c where
  calm := g.calm.trans h.calm
  lower := g.lower.trans h.lower
  seals := g.seals ∘ h.seals
  others j hj :=
    let ⟨hk, hl⟩ := not_or.mp (mt List.mem_cons.mpr hj)
    (g.others j hl).trans (h.others j (mt List.mem_singleton.mp hk))

theorem reading_of_calm (h : calm e = calm d) (k : Nat) : reading e k = reading d k :=
  (congrArg (fun x : Pwr × Nat => fld x.1.temps.toNat (8 * k) 8) h :)

theorem wall_of_calm (h : calm e = calm d) : e.clk.wall = d.clk.wall := (congrArg Prod.snd h :)

theorem checked_of_steady (h : steady e = steady c) (calm' : calm c = calm d) (lower : c.pwr.thermCeil.toNat ≤ d.pwr.thermCeil.toNat)
    (flt : c.flt = d.flt) (others : ∀ j, j ∉ [k] → tget c.pwr.hotAt j = tget d.pwr.hotAt j) : Checked [k] d e where
  calm := (calm_of_steady h).trans calm'
  lower := (of_steady (fun p => p.thermCeil.toNat) h).trans_le lower
  seals sealed := (congrArg (fun x : Dev => x.flt.sealed) h :).trans ((congrArg Flt.sealed flt).trans sealed)
  others j hj := (of_steady (fun p => tget p.hotAt j) h).trans (others j hj)

theorem checked_thermCheck (hk : k < 6) (d : Dev) : Checked [k] d (thermCheck k d) := by
  have noted (v : Nat) (j : Nat) (hj : j ∉ [k]) : tget (tput d.pwr.hotAt k v) j = tget d.pwr.hotAt j :=
    tget_tput_other _ _ (mt List.mem_singleton.mpr hj)
  by_cases past : tripT k < reading d k
  · rw [thermCheck_trips past]
    have pwr := raise_seal_pwr (thermSrc d k) 0x090A 0xFF (reading d k) d
    have wall := raise_seal_wall (thermSrc d k) 0x090A 0xFF (reading d k) d
    have sealed := raise_seal_seals (thermSrc d k) 0x090A 0xFF (reading d k) d
    generalize raise 3 (thermSrc d k) 0x090A 0xFF (reading d k) d = e at pwr wall sealed ⊢
    exact ⟨by rw [calm, pwr, wall]; rfl, by rw [pwr], fun _ => sealed, fun j _ => by rw [pwr]⟩
  · by_cases hot : hotT k < reading d k
    · rw [thermCheck_hot hot past]
      split
      · exact checked_of_steady (c := hotNoted k d) rfl rfl (Nat.le_refl _) rfl (noted _)
      · split
        · exact .refl ..
        · refine checked_of_steady (c := hotLowered k d) (steady_raiseThrottle _ _ _ (by decide) fun _ => thermSrc_other d k hk)
            rfl ?_ rfl (noted _)
          exact (lower3_toNat _).trans_le (Nat.sub_le ..)
    · rw [thermCheck_cold hot]
      exact ⟨rfl, Nat.le_refl _, id, fun j hj => tget_tdel_other _ (mt List.mem_singleton.mpr hj)⟩

theorem checked_forEach (low : ∀ i ∈ l, i < 6) (d : Dev) : Checked l d (forEach l thermCheck d) := by
  induction l generalizing d with
  | nil => exact .refl ..
  | cons k r ih =>
    obtain ⟨hk, hr⟩ := List.forall_mem_cons.mp low
    exact (checked_thermCheck hk d).trans (ih hr _)

/-- A check in a list meets the reading, its note and the wall time as they were, and leaves what the later ones keep. -/
theorem forEach_thermCheck_mem (low : ∀ i ∈ l, i < 6) (hk : k ∈ l) (d : Dev) : ∃ c f, calm c = calm d ∧
    c.pwr.thermCeil.toNat ≤ d.pwr.thermCeil.toNat ∧ tget c.pwr.hotAt k = tget d.pwr.hotAt k ∧
    Checked f (thermCheck k c) (forEach l thermCheck d) := by
  obtain ⟨a, b, rfl, before⟩ := List.eq_append_cons_of_mem hk
  have first := checked_forEach (fun i hi => low i (List.mem_append_left _ hi)) d
  refine ⟨forEach a thermCheck d, b, first.calm, first.lower, first.others k before, ?_⟩
  have after := checked_forEach (l := b) (fun i hi => low i (List.mem_append_right _ (List.mem_cons_of_mem k hi)))
    (thermCheck k (forEach a thermCheck d))
  have both : forEach (a ++ k :: b) thermCheck d = forEach b thermCheck (thermCheck k (forEach a thermCheck d)) := List.foldl_append
  rwa [both]

/-- A reading above the trip seals the module. -/
theorem forEach_thermCheck_trips (low : ∀ i ∈ l, i < 6) (hk : k ∈ l) (past : tripT k < reading d k) :
    (forEach l thermCheck d).flt.sealed = true := by
  obtain ⟨c, f, same, -, -, rest⟩ := forEach_thermCheck_mem low hk d
  refine rest.seals ?_
  rw [thermCheck_trips (reading_of_calm same k ▸ past)]; rfl

/-- A reading above the lowering threshold for 10 ms lowers the ceiling. -/
theorem forEach_thermCheck_lowers (low : ∀ i ∈ l, i < 6) (hk : k ∈ l) (hot : hotT k < reading d k)
    (under : reading d k ≤ tripT k) {w : Nat} (since : tget d.pwr.hotAt k = some w) (long : w + msG 10 ≤ d.clk.wall) :
    (forEach l thermCheck d).pwr.thermCeil.toNat ≤ d.pwr.thermCeil.toNat - 1 := by
  obtain ⟨c, f, same, lower, at_, rest⟩ := forEach_thermCheck_mem low hk d
  have lowers : thermCheck k c = raiseThrottle 0 (thermSrc c k) 0x0909 (reading c k) (hotLowered k c) := by
    rw [thermCheck_hot (by rwa [reading_of_calm same]) (by rw [reading_of_calm same]; omega), at_, since]
    exact if_neg (by rw [wall_of_calm same]; omega)
  have ceil : (thermCheck k c).pwr.thermCeil = lower3 c.pwr.thermCeil := by
    rw [lowers]
    exact of_steady Pwr.thermCeil (steady_raiseThrottle _ _ (hotLowered k c) (by decide) fun _ => thermSrc_other c k (low k hk))
  have after := rest.lower
  rw [ceil, lower3_toNat] at after
  omega

/-- A module but for since when its readings are hot. -/
def unhot (d : Dev) : Dev := { d with pwr := { d.pwr with hotAt := [] } }

/-- Where none is hot, the checks change no more. -/
theorem forEach_thermCheck_cold (cold : ∀ i ∈ l, ¬ hotT i < reading d i) : unhot (forEach l thermCheck d) = unhot d := by
  induction l generalizing d with
  | nil => rfl
  | cons k r ih =>
    obtain ⟨hk, hr⟩ := List.forall_mem_cons.mp cold
    have one := thermCheck_cold hk
    refine (ih (d := thermCheck k d) ?_).trans (by rw [one]; rfl)
    rw [one]; exact hr

end

/-! ### The thermal ceiling rises again -/

/-- Every reading stands below its raising threshold. -/
def allCool (d : Dev) : Prop := ∀ i < 6, reading d i < coolT i

section
variable {d : Dev}

theorem thermCool_warm (warm : ¬ allCool d) : thermCool d = { d with pwr := { d.pwr with coolAt := none } } := by
  refine if_neg ?_
  simpa [allCool, reading] using warm

/-- 100 ms below it raise the ceiling. -/
def coolRaised (d : Dev) : Dev := { d with pwr := { d.pwr with
  coolAt := some d.clk.wall, thermCeil := if d.pwr.thermCeil = 7 then 7 else d.pwr.thermCeil + 1 } }

theorem thermCool_cool (cool : allCool d) : thermCool d = match d.pwr.coolAt with
    | none => { d with pwr := { d.pwr with coolAt := some d.clk.wall } }
    | some w => if d.clk.wall < w + msG 100 then d else throttle (coolRaised d) := by
  refine if_pos ?_
  simpa [allCool, reading] using cool

theorem coolRaised_toNat (d : Dev) : (coolRaised d).pwr.thermCeil.toNat = min 7 (d.pwr.thermCeil.toNat + 1) := by
  unfold coolRaised; dsimp only
  split
  · next top => rw [top]; rfl
  · next low => bv_omega

/-- It changes when the readings were last cool and raises the ceiling, and enters nothing. -/
theorem thermCool_steady (d : Dev) : ∃ a x, steady (thermCool d) = steady { d with pwr := { d.pwr with coolAt := a, thermCeil := x } } ∧
    d.pwr.thermCeil.toNat ≤ x.toNat ∧ (thermCool d).flt = d.flt := by
  by_cases cool : allCool d
  · rw [thermCool_cool cool]
    split
    · exact ⟨_, d.pwr.thermCeil, rfl, Nat.le_refl _, rfl⟩
    · split
      · exact ⟨d.pwr.coolAt, d.pwr.thermCeil, rfl, Nat.le_refl _, rfl⟩
      · refine ⟨_, _, steady_throttle (coolRaised d), ?_, throttle_flt _⟩
        have raised := coolRaised_toNat d
        have top := d.pwr.thermCeil.isLt
        exact raised ▸ (by omega)
  · rw [thermCool_warm cool]
    exact ⟨none, d.pwr.thermCeil, rfl, Nat.le_refl _, rfl⟩

end

/-! ### After the checks -/

section
variable {b d : Dev}

/-- What neither the checks nor the rise of the ceiling change of power stands as it was read. -/
theorem afterChecks_keeps {α : Type} (same : calm d = calm b) (g : Pwr → α)
    (free : ∀ (p : Pwr) a, g { p with vcore := 0, rails := 0, hotAt := [], thermCeil := 0, coolAt := a } = g p) :
    g (afterChecks d).pwr = g b.pwr := by
  have kept : g (throttle d).pwr = g b.pwr := by
    rw [← free (throttle d).pwr none, ← free b.pwr none]
    exact (congrArg (fun x : Pwr × Nat => g { x.1 with coolAt := none }) ((calm_of_steady (steady_throttle d)).trans same) :)
  unfold afterChecks
  split
  · exact kept
  · generalize throttle d = c at kept
    obtain ⟨a, x, cooled, -⟩ := thermCool_steady c
    have calmed := (congrArg (fun x : Pwr × Nat => g { x.1 with coolAt := none }) (calm_of_steady cooled) :)
    exact (free _ none).symm.trans (calmed.trans ((free c.pwr none).trans kept))

theorem afterChecks_sealed (sealed : d.flt.sealed = true) : (afterChecks d).flt.sealed = true := by
  have still : (throttle d).flt.sealed = true := throttle_flt d ▸ sealed
  rw [afterChecks, if_pos still]
  exact still

/-- Where no reading was hot, no event is entered and no ceiling lowered. -/
theorem afterChecks_cold (same : unhot d = unhot b) :
    (afterChecks d).flt = b.flt ∧ b.pwr.thermCeil.toNat ≤ (afterChecks d).pwr.thermCeil.toNat := by
  have flt : (throttle d).flt = b.flt := (throttle_flt d).trans (congrArg Dev.flt same :)
  have ceil : (throttle d).pwr.thermCeil = b.pwr.thermCeil :=
    (of_steady Pwr.thermCeil (steady_throttle d)).trans (congrArg (fun e : Dev => e.pwr.thermCeil) same :)
  unfold afterChecks
  split
  · exact ⟨flt, ceil ▸ Nat.le_refl _⟩
  · generalize throttle d = c at flt ceil
    obtain ⟨a, x, cooled, rises, entered⟩ := thermCool_steady c
    have raised : (thermCool c).pwr.thermCeil = x := of_steady Pwr.thermCeil cooled
    exact ⟨entered.trans flt, raised ▸ ceil ▸ rises⟩

/-- Where one is not cool, the ceiling stands as the checks left it. -/
theorem afterChecks_warm (warm : ¬ allCool d) : (afterChecks d).pwr.thermCeil = d.pwr.thermCeil := by
  have ceil : (throttle d).pwr.thermCeil = d.pwr.thermCeil := of_steady Pwr.thermCeil (steady_throttle d)
  have warm' : ¬ allCool (throttle d) := fun cool => warm fun i hi =>
    (reading_of_calm (calm_of_steady (steady_throttle d)) i).symm.trans_lt (cool i hi)
  unfold afterChecks
  split
  · exact ceil
  · rw [thermCool_warm warm']; exact ceil

theorem unsealed_of_mpUp (up : mpUp d = true) : d.flt.sealed = false := by
  have up := awake_of_mpUp up
  simp only [awake, Bool.and_eq_true, Bool.not_eq_true'] at up
  exact up.2

/-- Where none was hot and all have been cool for 100 ms, the ceiling rises. -/
theorem afterChecks_raises {w : Nat} (up : mpUp b = true) (same : unhot d = unhot b) (cool : allCool b) (since : b.pwr.coolAt = some w)
    (long : w + msG 100 ≤ b.clk.wall) :
    (afterChecks d).pwr.thermCeil.toNat = min 7 (b.pwr.thermCeil.toNat + 1) ∧ Settled (afterChecks d) := by
  have checked : steady (throttle d) = steady d := steady_throttle d
  unfold afterChecks
  generalize throttle d = c at checked
  have up' : mpUp c = true := (mpUp_of_steady checked).trans ((congrArg mpUp same :).trans up)
  have ceil : c.pwr.thermCeil = b.pwr.thermCeil :=
    (of_steady Pwr.thermCeil checked).trans (congrArg (fun e : Dev => e.pwr.thermCeil) same :)
  have since' : c.pwr.coolAt = some w :=
    (of_steady Pwr.coolAt checked).trans ((congrArg (fun e : Dev => e.pwr.coolAt) same :).trans since)
  have wall : c.clk.wall = b.clk.wall := (wall_of_steady checked).trans (congrArg (fun e : Dev => e.clk.wall) same :)
  have cool' : allCool c := fun i hi =>
    ((reading_of_calm (calm_of_steady checked) i).trans (congrArg (fun e : Dev => reading e i) same :)).trans_lt (cool i hi)
  have raises : thermCool c = throttle (coolRaised c) := by
    rw [thermCool_cool cool', since']
    exact if_neg (by rw [wall]; omega)
  have risen : (throttle (coolRaised c)).pwr.thermCeil = (coolRaised c).pwr.thermCeil := of_steady Pwr.thermCeil (steady_throttle _)
  rw [if_neg (by rw [unsealed_of_mpUp up']; decide), raises, risen, coolRaised_toNat, ceil]
  exact ⟨rfl, settled_throttle up'⟩

end

end Sys2Proof.Machine
end

section
/-!
SUPPORT. A HALT of every partition (R413): each that runs stops, and the others stand as they stood.
-/

namespace Sys2Proof.Machine

open Sys2Proof

/-- A partition has a plan in this state, and each partition stands under its number. -/
def HasPlan (q : Nat) (pl : PlanSt) (d : Dev) : Prop := d.partsWf ∧ ∃ y, getPart d q = some y ∧ y.plan = pl

section
variable {q p : Nat} {pl : PlanSt} {d e : Dev}

theorem HasPlan.of_records (h : HasPlan q pl d) (r : RecordsOnly d e) : HasPlan q pl e := by
  obtain ⟨wf, y, hy, plan⟩ := h
  obtain ⟨z, hz, same⟩ := r.getPart_some wf hy
  exact ⟨r.partsWf wf, z, hz, (congrArg Part.plan same :).trans plan⟩

theorem HasPlan.of_parts (h : HasPlan q pl d) (same : e.parts = d.parts) : HasPlan q pl e := by
  have get (k : Nat) : getPart e k = getPart d k := congrArg (tget · k) same
  obtain ⟨wf, y, hy, plan⟩ := h
  exact ⟨fun k z hz => wf k z ((get k).symm.trans hz), y, (get q).trans hy, plan⟩

theorem HasPlan.endHolds (h : HasPlan q pl d) (x : Part) : HasPlan q pl (endHolds x d) := by
  obtain ⟨wf, y, hy, plan⟩ := h
  obtain ⟨wf', z, hz, same⟩ := Stands.endHolds (p := q) (x := y) ⟨wf, y, hy, rfl⟩ x
  exact ⟨wf', z, hz, (congrArg Part.plan same :).trans plan⟩

theorem HasPlan.modPart {f : Part → Part} (h : HasPlan q pl d) (pid : ∀ x, (f x).pid = x.pid) (plan : ∀ x, (f x).plan = x.plan) :
    HasPlan q pl (modPart p f d) := by
  obtain ⟨wf, y, hy, hpl⟩ := h
  refine ⟨partsWf_modPart pid wf, ?_⟩
  by_cases hq : q = p
  · subst hq
    exact ⟨f y, by rw [getPart_modPart_same, hy, Option.map_some], (plan y).trans hpl⟩
  · exact ⟨y, (getPart_modPart_other d f hq).trans hy, hpl⟩

theorem HasPlan.modPart_other {f : Part → Part} (h : HasPlan q pl d) (pid : ∀ x, (f x).pid = x.pid) (other : q ≠ p) :
    HasPlan q pl (Machine.modPart p f d) := by
  obtain ⟨wf, y, hy, hpl⟩ := h
  exact ⟨partsWf_modPart pid wf, y, (getPart_modPart_other d f other).trans hy, hpl⟩

theorem HasPlan.eclipseAll (h : HasPlan q pl d) (p : Nat) : HasPlan q pl (eclipseAll p d) := by
  unfold Machine.eclipseAll withPart
  split
  · refine HasPlan.modPart (h.of_records ?_) (fun _ => rfl) fun _ => rfl
    exact recordsOnly_when (recordsOnly_forEach (fun _ _ => recordsOnly_ephRec ..) _ d)
  · exact h

theorem parts_releasePins (p : Nat) (d : Dev) : (releasePins p d).parts = d.parts := by
  unfold releasePins withPart
  split
  · dsimp only; split <;> rfl
  · rfl

theorem HasPlan.parkTiles (h : HasPlan q pl d) (p : Nat) : HasPlan q pl (parkTiles p d) := by
  unfold Machine.parkTiles withPart
  split
  · next x _ =>
    have parked : HasPlan q pl (forEach (listedTiles d x) (fun t => modTile t parkTile) d) :=
      h.of_parts (forEach_same Dev.parts (fun t => modTile t parkTile) (fun _ _ => rfl) _ d)
    refine HasPlan.of_parts (HasPlan.modPart parked (fun y => ?_) fun y => ?_) (parts_releasePins ..)
    · rfl
    · rfl
  · exact h

/-- The close of a partition that has left RUNNING. -/
def closed (p : Nat) (orbit : BitVec 32) (d : Dev) : Dev := if mpUp d then closeDigest p orbit (Machine.eclipseAll p d) else d

theorem HasPlan.closed (h : HasPlan q pl d) (p : Nat) (orbit : BitVec 32) : HasPlan q pl (closed p orbit d) := by
  unfold Machine.closed
  split
  · exact (h.eclipseAll p).of_records (recordsOnly_closeDigest ..)
  · exact h

theorem leaveRunning_running {x : Part} (here : getPart d p = some x) (runs : x.plan = .running) :
    let ticks := active x && decide (x.tick < (x.info.map (·.orbitLen)).getD 0)
    let e := modPart p (leaving ticks) (Machine.endHolds x d)
    leaveRunning p d = closed p x.orbit (if ticks then e else Machine.parkTiles p e) := by
  rw [leaveRunning, withPart_some _ here, if_neg (not_not.mpr runs)]
  rfl

theorem leaveRunning_stands {x : Part} (here : getPart d p = some x) (stands : x.plan ≠ .running) : leaveRunning p d = d := by
  rw [leaveRunning, withPart_some _ here, if_pos stands]

/-- A partition that leaves RUNNING leaves the plan of every other as it is. -/
theorem HasPlan.leaveRunning_other (h : HasPlan q pl d) (other : q ≠ p) : HasPlan q pl (leaveRunning p d) := by
  cases here : getPart d p with
  | none => rwa [leaveRunning, withPart_none _ here]
  | some x =>
    by_cases runs : x.plan = .running
    · rw [leaveRunning_running here runs]
      have left := (h.endHolds x).modPart_other (f := leaving (active x && decide (x.tick < (x.info.map (·.orbitLen)).getD 0)))
        (fun _ => rfl) other
      refine HasPlan.closed ?_ ..
      split
      · exact left
      · exact left.parkTiles p
    · rwa [leaveRunning_stands here runs]

/-- Its own plan stops. -/
theorem HasPlan.leaveRunning_stops (h : HasPlan q .running d) : HasPlan q .stopped (leaveRunning q d) := by
  obtain ⟨wf, x, here, runs⟩ := id h
  rw [leaveRunning_running here runs]
  obtain ⟨wf', z, hz, -⟩ := h.endHolds x
  have left (ticks : Bool) : HasPlan q .stopped (Machine.modPart q (leaving ticks) (Machine.endHolds x d)) :=
    ⟨partsWf_modPart (fun _ => rfl) wf', leaving ticks z, by rw [getPart_modPart_same, hz, Option.map_some], rfl⟩
  refine HasPlan.closed ?_ ..
  split
  · exact left _
  · exact (left _).parkTiles q

/-- A plan that does not run stays as it is. -/
theorem HasPlan.leaveRunning (h : HasPlan q pl d) (stands : pl ≠ .running) (p : Nat) : HasPlan q pl (leaveRunning p d) := by
  by_cases hq : q = p
  · subst hq
    obtain ⟨-, x, here, plan⟩ := id h
    rwa [leaveRunning_stands here (plan ▸ stands)]
  · exact h.leaveRunning_other hq

theorem HasPlan.forEach_leaveRunning {l : Tab Part} (h : HasPlan q pl d) (stands : pl ≠ .running) :
    HasPlan q pl (forEach l (fun e d => Machine.leaveRunning e.1 d) d) :=
  forEach_keeps (HasPlan q pl) _ (fun e _ hc => hc.leaveRunning stands e.1) l d h

theorem HasPlan.forEach_leaveRunning_stops {l : Tab Part} (h : HasPlan q .running d) {x : Part} (listed : (q, x) ∈ l) :
    HasPlan q .stopped (forEach l (fun e d => Machine.leaveRunning e.1 d) d) := by
  induction l generalizing d with
  | nil => cases listed
  | cons e r ih =>
    by_cases hq : q = e.1
    · refine HasPlan.forEach_leaveRunning (l := r) (d := Machine.leaveRunning e.1 d) ?_ (by decide)
      exact hq ▸ h.leaveRunning_stops
    · refine ih (d := Machine.leaveRunning e.1 d) (h.leaveRunning_other hq) ?_
      exact (List.mem_cons.mp listed).resolve_left fun same => hq (congrArg Prod.fst same)

/-- A HALT of every partition stops each that runs, and leaves the others' plans as they are. -/
theorem HasPlan.haltParts_all (h : HasPlan q pl d) : HasPlan q (if pl = .running then .stopped else pl) (haltParts 0xFF d) := by
  obtain ⟨-, x, here, -⟩ := id h
  split
  · next runs => exact HasPlan.forEach_leaveRunning_stops (runs ▸ h) (mem_of_tget here)
  · next stands => exact h.forEach_leaveRunning stands

/-- So does the fault event. -/
theorem HasPlan.raise_halt_all (h : HasPlan q pl d) (src cause detail : Nat) :
    HasPlan q (if pl = .running then .stopped else pl) (raise 2 src cause 0xFF detail d) := by
  obtain ⟨f, -, recorded⟩ := recordEvent_records 2 src cause 0xFF detail d
  have entered : HasPlan q pl { d with flt := f } := h.of_parts rfl
  exact raise_halt src cause 0xFF detail d ▸ (entered.of_records recorded).haltParts_all

end

end Sys2Proof.Machine
end

section
/-!
SUPPORT. The input range, the measurement of the input power and the rise of the power ceiling: what each leaves (R438, R443).
-/

namespace Sys2Proof.Machine

open Sys2Proof

/-! ### Input power -/

/-- The input has left its range (R438). -/
def rangeLeft (d : Dev) : Dev := { d with pwr := { d.pwr with
  rangeActive := true, rangeCeil := if 2000 < fld d.pwr.pwrIn.toNat 32 16 then lower3 d.clk.step else d.clk.step } }

/-- The input is back in its range. -/
def rangeEntered (d : Dev) : Dev := { d with pwr := { d.pwr with rangeActive := false, rangeCeil := 7 } }

theorem inputRange_out {s : State} (up : awake s.dev = true) :
    Gives (.inputRange true) s (raiseThrottle 1 0x900 0x0901 0 (rangeLeft s.dev)) := gives_whenAwake rfl up (if_pos rfl)

theorem inputRange_in {s : State} (up : awake s.dev = true) :
    Gives (.inputRange false) s (throttle (rangeEntered s.dev)) := gives_whenAwake rfl up (if_neg Bool.false_ne_true)

section
variable {mv ca watts core : BitVec 16} {d : Dev}

/-- What a measurement finds of the module: the measurement, a lower ceiling of the input range, and a step change for that. -/
structure Met (mv ca watts core : BitVec 16) (d m : Dev) : Prop where
  pwr : ∃ v c, m.pwr = { d.pwr with measAt := d.clk.wall, pwrIn := core ++ watts ++ ca ++ mv, rangeCeil := c, vcore := v }
  flt : m.flt = d.flt
  step : m.clk.step = d.clk.step
  wall : m.clk.wall = d.clk.wall
  up : mpUp m = mpUp d

theorem met_rangeMet (mv ca watts core : BitVec 16) (d : Dev) : Met mv ca watts core d (rangeMet watts (inputRead mv ca watts core d)) := by
  obtain ⟨c, same⟩ := rangeMet_same watts (inputRead mv ca watts core d)
  generalize rangeMet watts (inputRead mv ca watts core d) = m at same
  exact {
    pwr := ⟨m.pwr.vcore, c, pwr_of_unswitched same m.pwr.vcore⟩
    flt := (congrArg Dev.flt same :)
    step := (congrArg (fun e : Dev => e.clk.step) same :)
    wall := (congrArg (fun e : Dev => e.clk.wall) same :)
    up := (congrArg mpUp same :) }

theorem met_unranged (h : d.pwr.rangeActive = false ∨ d.clk.busy = true) :
    rangeMet watts (inputRead mv ca watts core d) = inputRead mv ca watts core d :=
  rangeMet_rests (h.imp id .inr)

theorem measured_over (much : d.pwr.limit.toNat < watts.toNat) :
    measured mv ca watts core d = powerOver (rangeMet watts (inputRead mv ca watts core d)) := by
  obtain ⟨v, c, pwr⟩ := (met_rangeMet mv ca watts core d).pwr
  refine (measured_eq ..).trans (if_pos ?_)
  rw [pwr]; exact much

theorem measured_within (little : ¬ d.pwr.limit.toNat < watts.toNat) :
    measured mv ca watts core d = powerWithin watts (rangeMet watts (inputRead mv ca watts core d)) := by
  obtain ⟨v, c, pwr⟩ := (met_rangeMet mv ca watts core d).pwr
  refine (measured_eq ..).trans (if_neg ?_)
  rw [pwr]; exact little

/-- A measurement leaves a module that stands as another does but for the counts of R443. -/
theorem measured_steady (mv ca watts core : BitVec 16) (d : Dev) : ∃ o c l x b,
    steady (measured mv ca watts core d) =
      steady (let m := rangeMet watts (inputRead mv ca watts core d)
        { m with pwr := { m.pwr with overRun := o, powerCeil := c, limitFault := l, exceeded := x, belowAt := b } }) := by
  by_cases much : d.pwr.limit.toNat < watts.toNat
  · rw [measured_over much]
    obtain ⟨o, c, l, h⟩ := powerOver_steady (rangeMet watts (inputRead mv ca watts core d))
    exact ⟨o, c, l, _, _, h⟩
  · rw [measured_within much]
    generalize rangeMet watts (inputRead mv ca watts core d) = m
    exact ⟨_, m.pwr.powerCeil, m.pwr.limitFault, m.pwr.exceeded, _, rfl⟩

/-- The measurement stands in its registers. -/
theorem measured_reads (mv ca watts core : BitVec 16) (d : Dev) :
    (measured mv ca watts core d).pwr.pwrIn = core ++ watts ++ ca ++ mv ∧ (measured mv ca watts core d).pwr.measAt = d.clk.wall := by
  obtain ⟨v, c, pwr⟩ := (met_rangeMet mv ca watts core d).pwr
  obtain ⟨o, c', l, x, b, same⟩ := measured_steady mv ca watts core d
  exact ⟨(of_steady Pwr.pwrIn same).trans (congrArg Pwr.pwrIn pwr :), (of_steady Pwr.measAt same).trans (congrArg Pwr.measAt pwr :)⟩

theorem measured_rangeCeil (active : d.pwr.rangeActive = true) (much : 2000 < watts.toNat) (idle : d.clk.busy = false) :
    (measured mv ca watts core d).pwr.rangeCeil = lower3 d.pwr.rangeCeil := by
  obtain ⟨o, c', l, x, b, same⟩ := measured_steady mv ca watts core d
  have lowered := rangeMet_lowers (d := inputRead mv ca watts core d) active much idle
  exact (of_steady Pwr.rangeCeil same).trans (lowered ▸ (of_steady Pwr.rangeCeil (steady_throttle _) :))

theorem measured_within_counts (little : ¬ d.pwr.limit.toNat < watts.toNat) :
    let e := measured mv ca watts core d
    e.pwr.overRun = 0 ∧ e.pwr.powerCeil = d.pwr.powerCeil ∧ e.flt = d.flt ∧
      e.pwr.belowAt = if watts.toNat * 10 < d.pwr.limit.toNat * 9 then some (d.pwr.belowAt.getD d.clk.wall) else none := by
  intro e
  obtain ⟨⟨v, c, pwr⟩, flt, -, wall, -⟩ := met_rangeMet mv ca watts core d
  have within : e = _ := measured_within little
  rw [within, powerWithin, pwr, wall]
  exact ⟨rfl, rfl, flt, rfl⟩

/-- A measurement over the limit is noted for the step in force. -/
theorem measured_over_notes (much : d.pwr.limit.toNat < watts.toNat) :
    (measured mv ca watts core d).pwr.exceeded.getLsbD d.clk.step.toNat = true ∧ (measured mv ca watts core d).pwr.belowAt = none := by
  rw [measured_over much, ← (met_rangeMet mv ca watts core d).step]
  generalize rangeMet watts (inputRead mv ca watts core d) = m
  obtain ⟨o, c, l, same⟩ := powerOver_steady m
  refine ⟨?_, of_steady Pwr.belowAt same⟩
  have noted : (powerOver m).pwr.exceeded = m.pwr.exceeded ||| BitVec.ofNat 8 (2 ^ m.clk.step.toNat) := of_steady Pwr.exceeded same
  rw [noted, BitVec.getLsbD_or, BitVec.getLsbD_ofNat, Nat.testBit_two_pow_self, decide_eq_true m.clk.step.isLt, Bool.and_self,
    Bool.or_true]

theorem measured_busy (much : d.pwr.limit.toNat < watts.toNat) (busy : d.clk.busy = true) :
    (measured mv ca watts core d).pwr.overRun = d.pwr.overRun ∧
      (measured mv ca watts core d).pwr.powerCeil = d.pwr.powerCeil := by
  rw [measured_over much, met_unranged (.inr busy), powerOver_busy (d := inputRead mv ca watts core d) busy]
  exact ⟨rfl, rfl⟩

section
variable (much : d.pwr.limit.toNat < watts.toNat) (idle : d.clk.busy = false) (plain : d.pwr.rangeActive = false)
include much idle plain

theorem measured_counts (few : d.pwr.overRun + 1 < 10) : let e := measured mv ca watts core d
    e.pwr.overRun = d.pwr.overRun + 1 ∧ e.pwr.powerCeil = d.pwr.powerCeil ∧ e.flt = d.flt := by
  intro e
  have counts : e = _ := (measured_over much).trans ((congrArg powerOver (met_unranged (.inl plain))).trans
    (powerOver_counts (d := inputRead mv ca watts core d) idle few))
  rw [counts]
  exact ⟨rfl, rfl, rfl⟩

theorem measured_lowers_eq (ten : 10 ≤ d.pwr.overRun + 1) (above : d.clk.step ≠ 0) :
    measured mv ca watts core d = raiseThrottle 0 0x900 0x0902 0 (powerLowered (inputRead mv ca watts core d)) := by
  rw [measured_over much, met_unranged (.inl plain)]
  exact powerOver_lowers (d := inputRead mv ca watts core d) idle ten above

theorem measured_lowers (ten : 10 ≤ d.pwr.overRun + 1) (above : d.clk.step ≠ 0) : let e := measured mv ca watts core d
    e.pwr.overRun = 0 ∧ e.pwr.powerCeil = lower3 d.pwr.powerCeil ∧ Entered 0 0x900 0x0902 d e ∧ (mpUp d = true → Settled e) := by
  rw [measured_lowers_eq much idle plain ten above]
  have same := steady_raiseThrottle (cls := 0) (src := 0x900) 0x0902 0 (powerLowered (inputRead mv ca watts core d))
    (by decide) (by decide)
  have entered := raiseThrottle_entered (cls := 0) (src := 0x900) 0x0902 0 (powerLowered (inputRead mv ca watts core d))
  have settled := settled_raiseThrottle (cls := 0) (src := 0x900) 0x0902 0 (powerLowered (inputRead mv ca watts core d))
    (by decide) (by decide)
  generalize raiseThrottle 0 0x900 0x0902 0 (powerLowered (inputRead mv ca watts core d)) = e at same entered settled ⊢
  exact ⟨of_steady Pwr.overRun same, of_steady Pwr.powerCeil same, entered.of_flt rfl, settled⟩

theorem measured_floor_eq (ten : 10 ≤ d.pwr.overRun + 1) (floor : d.clk.step = 0) : measured mv ca watts core d =
    if d.pwr.limitFault then limitMissed (inputRead mv ca watts core d)
    else raise 1 0x700 0x0704 0xFF d.pwr.limit.toNat (limitMissed (inputRead mv ca watts core d)) := by
  rw [measured_over much, met_unranged (.inl plain)]
  exact powerOver_floor (d := inputRead mv ca watts core d) idle ten floor

theorem measured_floor (ten : 10 ≤ d.pwr.overRun + 1) (floor : d.clk.step = 0) : let e := measured mv ca watts core d
    e.pwr.powerCeil = d.pwr.powerCeil ∧ e.pwr.limitFault = true ∧ (d.pwr.limitFault = false → Entered 1 0x700 0x0704 d e) := by
  rw [measured_floor_eq much idle plain ten floor]
  split
  · next old => exact ⟨rfl, rfl, fun new => absurd (new.symm.trans old) (by decide)⟩
  · have pwr := pwr_of_unraised (unraised_raise (cls := 1) (src := 0x700) (by decide) (by decide) 0x0704 0xFF d.pwr.limit.toNat
      (limitMissed (inputRead mv ca watts core d)))
    have entered := raise_entered 1 0x700 0x0704 0xFF d.pwr.limit.toNat (limitMissed (inputRead mv ca watts core d))
    generalize raise 1 0x700 0x0704 0xFF d.pwr.limit.toNat (limitMissed (inputRead mv ca watts core d)) = e at pwr entered ⊢
    exact ⟨(congrArg Pwr.powerCeil pwr :), (congrArg Pwr.limitFault pwr :), fun _ => entered.of_flt rfl⟩

end

end

/-! ### The power ceiling rises again -/

/-- 100 ms below 90% of the limit are over (R443). -/
def ceilingRaised (d : Dev) : Dev :=
  let d := { d with pwr := { d.pwr with belowAt := some d.clk.wall } }
  if d.pwr.powerCeil = 7 || d.pwr.exceeded.getLsbD (d.pwr.powerCeil.toNat + 1) then d
  else throttle { d with pwr := { d.pwr with powerCeil := d.pwr.powerCeil + 1 } }

theorem ceilingRaised_pwr (d : Dev) : (ceilingRaised d).pwr.belowAt = some d.clk.wall ∧ (ceilingRaised d).pwr.powerCeil =
    if d.pwr.powerCeil = 7 ∨ d.pwr.exceeded.getLsbD (d.pwr.powerCeil.toNat + 1) = true then d.pwr.powerCeil else d.pwr.powerCeil + 1 := by
  by_cases stands : d.pwr.powerCeil = 7 ∨ d.pwr.exceeded.getLsbD (d.pwr.powerCeil.toNat + 1) = true
  · have same : ceilingRaised d = _ := if_pos (by simpa using stands)
    rw [same, if_pos stands]
    exact ⟨rfl, rfl⟩
  · have rises : ceilingRaised d = _ := if_neg (by simpa using stands)
    rw [rises, if_neg stands]
    exact ⟨of_steady Pwr.belowAt (steady_throttle _), of_steady Pwr.powerCeil (steady_throttle _)⟩

section
variable {s : State} (up : mpUp s.dev = true)
include up

theorem gives_powerCeilingRaise {w : Nat} (below : s.dev.pwr.belowAt = some w) :
    Gives .powerCeilingRaise s (whenDue (w + msG 100) ceilingRaised s.dev) := by
  refine gives_whenMp rfl up ?_
  rw [below]; rfl

theorem gives_powerCeilingRaise_none (none : s.dev.pwr.belowAt = none) : Gives .powerCeilingRaise s s.dev := by
  refine gives_whenMp rfl up ?_
  rw [none]

end

end Sys2Proof.Machine
end

section
/-!
SUPPORT. A reading of the temperature sensors: what it leaves of power and of the fault logic (R444, Table 18.4).
-/

namespace Sys2Proof.Machine

open Sys2Proof

section
variable {t : BitVec 40} {ok : BitVec 5} {d : Dev} {k : Nat}

theorem mem_couldRead : k ∈ (List.range 6).filter (couldRead ok) ↔ k < 6 ∧ (k = 5 ∨ ok.getLsbD k = true) := by
  simp [couldRead]

section
variable (t ok d)

/-- The checks of what was read. -/
theorem forEach_checked : Checked ((List.range 6).filter (couldRead ok)) (sensed t ok d)
    (forEach ((List.range 6).filter (couldRead ok)) thermCheck (sensed t ok d)) :=
  checked_forEach (fun _ hi => (mem_couldRead.mp hi).1) _

/-- What neither the checks nor the rise of the ceiling change of power stands as it was read. -/
theorem thermRead_keeps {α : Type} (g : Pwr → α)
    (free : ∀ (p : Pwr) a, g { p with vcore := 0, rails := 0, hotAt := [], thermCeil := 0, coolAt := a } = g p) :
    g (thermRead t ok d).pwr = g (sensed t ok d).pwr := by
  rw [thermRead_eq]
  exact afterChecks_keeps (forEach_checked t ok d).calm g free

theorem reading_thermRead (hk : k < 6) : reading (thermRead t ok d) k = sensedByte t ok d k :=
  (thermRead_keeps t ok d (fun p => fld p.temps.toNat (8 * k) 8) fun _ _ => rfl).trans (reading_sensed hk)

end

/-- A reading above its trip seals the module. -/
theorem thermRead_seals (taken : k < 6 ∧ (k = 5 ∨ ok.getLsbD k = true)) (past : tripT k < sensedByte t ok d k) :
    (thermRead t ok d).flt.sealed = true := by
  rw [thermRead_eq]
  refine afterChecks_sealed (forEach_thermCheck_trips (fun _ hi => (mem_couldRead.mp hi).1) (mem_couldRead.mpr taken) ?_)
  rwa [reading_sensed taken.1]

/-- The checks of readings that are not hot change no more than since when they were. -/
theorem unhot_checks (cold : ∀ i, (i < 6 ∧ (i = 5 ∨ ok.getLsbD i = true)) → sensedByte t ok d i ≤ hotT i) :
    unhot (forEach ((List.range 6).filter (couldRead ok)) thermCheck (sensed t ok d)) = unhot (sensed t ok d) := by
  have readings : ∀ i ∈ (List.range 6).filter (couldRead ok), ¬ hotT i < reading (sensed t ok d) i := fun i hi => by
    have taken := mem_couldRead.mp hi
    rw [reading_sensed taken.1]
    exact Nat.not_lt.mpr (cold i taken)
  exact forEach_thermCheck_cold readings

/-- They enter no event, and lower no ceiling. -/
theorem thermRead_cold (cold : ∀ i, (i < 6 ∧ (i = 5 ∨ ok.getLsbD i = true)) → sensedByte t ok d i ≤ hotT i) :
    (thermRead t ok d).flt = d.flt ∧ d.pwr.thermCeil.toNat ≤ (thermRead t ok d).pwr.thermCeil.toNat := by
  have after := afterChecks_cold (unhot_checks cold)
  rwa [← thermRead_eq, sensed_flt, sensed_thermCeil] at after

/-- A reading that is hot for 10 ms lowers the ceiling. -/
theorem thermRead_lowers {w : Nat} (taken : k < 6 ∧ (k = 5 ∨ ok.getLsbD k = true)) (hot : hotT k < sensedByte t ok d k)
    (under : sensedByte t ok d k ≤ tripT k) (since : tget d.pwr.hotAt k = some w) (long : w + msG 10 ≤ d.clk.wall) :
    (thermRead t ok d).pwr.thermCeil.toNat ≤ d.pwr.thermCeil.toNat - 1 := by
  have lowered := forEach_thermCheck_lowers (d := sensed t ok d) (l := (List.range 6).filter (couldRead ok))
    (fun _ hi => (mem_couldRead.mp hi).1) (mem_couldRead.mpr taken) (by rwa [reading_sensed taken.1]) (by rwa [reading_sensed taken.1])
    (by rwa [sensed_hotAt]) (by rwa [sensed_clk])
  have warm : ¬ allCool (forEach ((List.range 6).filter (couldRead ok)) thermCheck (sensed t ok d)) := fun cool => by
    have below := cool k taken.1
    rw [reading_of_calm (forEach_checked t ok d).calm, reading_sensed taken.1] at below
    have := (thresholds k).1
    omega
  rw [sensed_thermCeil] at lowered
  rwa [thermRead_eq, afterChecks_warm warm]

/-- Readings that have all been cool for 100 ms raise the ceiling. -/
theorem thermRead_raises {w : Nat} (up : mpUp d = true) (cool : ∀ i, i < 6 → sensedByte t ok d i < coolT i)
    (since : d.pwr.coolAt = some w) (long : w + msG 100 ≤ d.clk.wall) :
    (thermRead t ok d).pwr.thermCeil.toNat = min 7 (d.pwr.thermCeil.toNat + 1) ∧ Settled (thermRead t ok d) := by
  have same := unhot_checks (t := t) (ok := ok) (d := d) fun i taken => ((cool i taken.1).trans_le (thresholds i).1).le
  have cool' : allCool (sensed t ok d) := fun i hi => (reading_sensed hi).trans_lt (cool i hi)
  have since' := (sensed_coolAt t ok d).trans since
  have raised := afterChecks_raises ((sensed_mpUp t ok d).trans up) same cool' since' (by rwa [sensed_clk])
  rwa [← thermRead_eq, sensed_thermCeil] at raised

end

end Sys2Proof.Machine
end

section
/-! The obligation of step changes (R168 to R171). -/

namespace Sys2Proof.Machine

open Sys2Proof

/-! ### GO -/

section
variable {tgt : BitVec 3} {d : Dev}

theorem goStep_refused (h : d.clk.busy = true ∨ maxStep d < tgt.toNat) :
    goStep tgt d = { d with clk := { d.clk with stepErr := true } } := by
  refine if_pos ?_
  rw [Bool.or_eq_true, decide_eq_true_eq]; exact h

theorem goStep_taken (idle : d.clk.busy = false) (within : tgt.toNat ≤ maxStep d) :
    goStep tgt d = startStep (min (min tgt.toNat (ceilings d)) (maxStep d)) false { d with clk := { d.clk with target := tgt } } := by
  refine if_neg ?_
  rw [idle, Bool.false_or, decide_eq_true_eq]; omega

end

/-! ### The end of a step change -/

section
variable (ns : Nat) (d : Dev)

/-- The module with the new step in force, and the tile moons resumed (R169). -/
def resumed : Dev := takeStep (resumeTiles (d.clk.goAt + nsG ns) d)

theorem resumed_wall : (resumed ns d).clk.wall = max d.clk.wall (d.clk.goAt + nsG ns) :=
  (advanceTo_wall ..).trans (Nat.max_comm ..)

theorem resumed_resumeAt : (resumed ns d).clk.wall ≤ (resumed ns d).clk.resumeAt := Nat.le_max_right ..

/-- The same with its records. -/
theorem stepChangeResume_taken (busy : d.clk.busy = true) (low : 500 ≤ ns) (high : ns ≤ 2000) :
    ∃ r, KeepsPlans (resumed ns d) r ∧ stepChangeResume ns d = nextStep r := by
  have due : ¬ (!d.clk.busy || decide (ns < 500) || decide (2000 < ns)) = true := by
    simp only [busy, Bool.not_true, Bool.false_or, Bool.or_eq_true, decide_eq_true_eq]; omega
  refine ⟨_, ?_, if_neg due⟩
  split
  · exact keepsPlans_ephAll ..
  · exact .refl _

theorem stepChangeResume_still (h : d.clk.busy = false ∨ ns < 500 ∨ 2000 < ns) : stepChangeResume ns d = d := by
  refine if_pos ?_
  simp only [Bool.or_eq_true, decide_eq_true_eq, Bool.not_eq_true', or_assoc]; exact h

end

/-! ### The step change after it -/

section
variable (r : Dev)

/-- A module whose late throttle has been looked at. -/
def unlate : Dev := { r with clk := { r.clk with late := false } }

/-- The three ways on: a change to a lower step, a throttle to a step that has risen, or the end. -/
theorem nextStep_cases :
    (wantStep r < r.clk.step.toNat ∧ ∃ t, nextStep r = startStep (wantStep r) t (unlate r)) ∨
    (r.clk.late = true ∧ r.clk.step.toNat < wantStep r ∧ nextStep r = startStep (wantStep r) true (unlate r)) ∨
    (¬ wantStep r < r.clk.step.toNat ∧ ¬ (r.clk.late = true ∧ r.clk.step.toNat < wantStep r) ∧
      nextStep r = stepSettled (unlate r)) := by
  have same : wantStep (unlate r) = wantStep r := rfl
  have next : nextStep r = if wantStep (unlate r) < (unlate r).clk.step.toNat then
      startStep (wantStep (unlate r)) (throttled (unlate r)) (unlate r)
      else if r.clk.late && decide ((unlate r).clk.step.toNat < wantStep (unlate r)) then startStep (wantStep (unlate r)) true (unlate r)
      else stepSettled (unlate r) := rfl
  rw [next, same]
  split
  · next lower => exact .inl ⟨lower, _, rfl⟩
  · next high =>
    split
    · next up =>
      obtain ⟨late, rises⟩ := Bool.and_eq_true_iff.mp up
      exact .inr (.inl ⟨late, of_decide_eq_true rises, rfl⟩)
    · next ends =>
      exact .inr (.inr ⟨high, fun ⟨late, rises⟩ => ends (Bool.and_eq_true_iff.mpr ⟨late, decide_eq_true rises⟩), rfl⟩)

theorem unanswered_stepSettled : unanswered (stepSettled r) = unanswered r := by
  rw [stepSettled, unanswered_answerBegun, unanswered_answerBegun]

/-- Every STEP_LIMIT that waits is answered with the step in force (R171). -/
theorem stepSettled_answers {k : Nat} {x : Mailbox} (here : tget r.mbx k = some x) (accepted : x.st = .accepted)
    (begun : x.begun = true) (opcode : rqOpcode x = 0x0104) : Answered k stOk (stepSettled r) :=
  (answerBegun_answers here accepted begun opcode).answerBegun ..

/-- A module but for a step change in progress, the core voltage, and the answers of the commands that wait for the step. -/
theorem nextStep_keeps : unanswered (unswitched (nextStep r)) = unanswered (unswitched r) := by
  obtain ⟨-, t, h⟩ | ⟨-, -, h⟩ | ⟨-, -, h⟩ := nextStep_cases r
  · rw [h]; rfl
  · rw [h]; rfl
  · rw [h]; exact (congrArg unswitched (unanswered_stepSettled (unlate r)) :)

theorem nextStep_busy (idle : r.clk.busy = false) : (nextStep r).clk.busy =
    (decide (wantStep r < r.clk.step.toNat) || (r.clk.late && decide (r.clk.step.toNat < wantStep r))) := by
  obtain ⟨lower, t, h⟩ | ⟨late, up, h⟩ | ⟨high, ends, h⟩ := nextStep_cases r
  · rw [h, decide_eq_true lower]; rfl
  · rw [h, late, decide_eq_true up, Bool.and_self, Bool.or_true]; rfl
  · have settled : (stepSettled (unlate r)).clk.busy = r.clk.busy :=
      (congrArg (fun e : Dev => e.clk.busy) (unanswered_stepSettled (unlate r)) :)
    rw [h, settled, idle, decide_eq_false high]
    simpa using ends

/-- With no throttle late, the core voltage stays that of the step, which is the highest on the way down. -/
theorem nextStep_vcore (v : r.pwr.vcore = stepMv r.clk.step.toNat) (early : r.clk.late = false) :
    (nextStep r).pwr.vcore = stepMv r.clk.step.toNat := by
  obtain ⟨lower, t, h⟩ | ⟨late, -, -⟩ | ⟨-, -, h⟩ := nextStep_cases r
  · rw [h]
    show max r.pwr.vcore _ = _
    rw [v]
    exact Nat.max_eq_left (stepMv_mono _ r.clk.step.isLt _ lower)
  · rw [early] at late; cases late
  · rw [h]
    exact (congrArg (fun e : Dev => e.pwr.vcore) (unanswered_stepSettled (unlate r)) :).trans v

end

/-! ### The tide ceiling -/

/-- The tide ceiling rises by one (R171). -/
def raiseTide (d : Dev) : Dev := settleStep true { d with
  pwr := { d.pwr with tideCeil := d.pwr.tideCeil + 1 }, clk := { d.clk with tideQuiet := d.clk.wall } }

section
variable {s : State} (mp : mpUp s.dev = true)
include mp

theorem gives_tideCeilingRaise (room : s.dev.pwr.tideCeil ≠ 7) :
    Gives .tideCeilingRaise s (whenDue (s.dev.clk.tideQuiet + msG 1000) raiseTide s.dev) :=
  gives_whenMp (f := fun d => if d.pwr.tideCeil = 7 then d else whenDue (d.clk.tideQuiet + msG 1000) raiseTide d) rfl mp (if_neg room)

theorem gives_tideCeilingRaise_full (full : s.dev.pwr.tideCeil = 7) : Gives .tideCeilingRaise s s.dev :=
  gives_whenMp (f := fun d => if d.pwr.tideCeil = 7 then d else whenDue (d.clk.tideQuiet + msG 1000) raiseTide d) rfl mp (if_pos full)

end

/-- Settles O42: records leave the plans' limits as they are, so what the end of a step change compares is what stands now, and a
change to a lower step starts from the highest core voltage. -/
theorem stepChanges : Obligations.StepChanges := by
  unfold Obligations.StepChanges
  intro s tgt ns wf d k w
  refine ⟨?refused, ?taken, ?ends, ?still, ?raises, ?early, fun mp full => gives_tideCeilingRaise_full mp full⟩
  case refused => exact fun up h => gives_whenAwake rfl up (goStep_refused h)
  case taken => exact fun up idle within => gives_whenAwake rfl up (goStep_taken idle within)
  case ends =>
    intro up busy low high
    obtain ⟨r, records, next⟩ := stepChangeResume_taken ns s.dev busy low high
    have rest := records.rest
    have clk : r.clk = (resumed ns s.dev).clk := records.clk
    have pwr : r.pwr = (resumed ns s.dev).pwr := (congrArg Dev.pwr rest :)
    have want : wantStep r = wantStep s.dev := records.wantStep wf
    have keeps := nextStep_keeps r
    have step : r.clk.step = s.dev.clk.tgt := (congrArg Clk.step clk :)
    have late : r.clk.late = s.dev.clk.late := (congrArg Clk.late clk :)
    have busy' : (nextStep r).clk.busy = _ := nextStep_busy r (congrArg Clk.busy clk :)
    have wall : (nextStep r).clk.wall = _ :=
      (congrArg (fun e : Dev => e.clk.wall) keeps :).trans ((congrArg Clk.wall clk :).trans (resumed_wall ns s.dev))
    refine ⟨nextStep r, gives_whenAwake rfl up next, (congrArg (fun e : Dev => e.clk.step) keeps :).trans step, wall, ?resume, ?volts,
      ?again, ?moons, ?answers, ?tiles, ?host⟩
    case resume =>
      have at_ : (nextStep r).clk.resumeAt = (resumed ns s.dev).clk.resumeAt :=
        (congrArg (fun e : Dev => e.clk.resumeAt) keeps :).trans (congrArg Clk.resumeAt clk :)
      exact at_ ▸ (resumed_wall ns s.dev).ge.trans (resumed_resumeAt ns s.dev)
    case volts =>
      intro early
      have v : r.pwr.vcore = stepMv r.clk.step.toNat := step ▸ (congrArg Pwr.vcore pwr :)
      rw [nextStep_vcore r v (late.trans early), step]
    case again => rw [busy', want, step, late]
    case moons =>
      have moons : (nextStep r).clk.moons = s.dev.clk.moons :=
        (congrArg (fun e : Dev => e.clk.moons) keeps :).trans (congrArg Clk.moons clk :)
      intro m
      rw [getMoon, moons]; rfl
    case answers =>
      intro ended k x here accepted begun opcode
      have mbx : r.mbx = s.dev.mbx := (congrArg Dev.mbx rest :)
      obtain ⟨-, t, h⟩ | ⟨-, -, h⟩ | ⟨-, -, h⟩ := nextStep_cases r
      · rw [h] at ended; cases ended
      · rw [h] at ended; cases ended
      · rw [h]; exact stepSettled_answers (unlate r) ((congrArg (tget · k) mbx :).trans here) accepted begun opcode
    case tiles => exact (congrArg Dev.tiles keeps :).trans (congrArg Dev.tiles rest :)
    case host => exact (congrArg Dev.host keeps :).trans (congrArg Dev.host rest :)
  case still => exact fun up h => gives_whenAwake rfl up (stepChangeResume_still ns s.dev h)
  case raises =>
    intro mp room
    refine atDue_gives (gives_tideCeilingRaise mp room) fun d _ => ?_
    have keeps : unswitched (raiseTide d) = _ := unswitched_settleStep true _
    exact ⟨pwr_of_unswitched keeps d.pwr.vcore, (congrArg (fun e : Dev => e.clk.wall) keeps :),
      (congrArg (fun e : Dev => e.clk.tideQuiet) keeps :), (congrArg (fun e : Dev => e.clk.step) keeps :)⟩
  case early => exact fun mp room early => notYet_gives (gives_tideCeilingRaise mp room) early

end Sys2Proof.Machine
end

section
/-! The obligation of droops, tide excursions and coupling pauses (R170, R172 to R175). -/

namespace Sys2Proof.Machine

open Sys2Proof

/-! ### Droops -/

section
variable {m mv ps : Nat} {d : Dev}

theorem droop_paused (tile : m < 36) (busy : d.clk.busy = true) : droop m mv ps d = d :=
  if_pos (by simp [tile, busy])

theorem droop_shallow (h : ¬ 2 * (getMoon d m).droopThr.toNat < mv) : droop m mv ps d = d :=
  if_pos (by simp only [Bool.or_eq_true, decide_eq_true_eq]; omega)

/-- A deep droop outside a switch pause. -/
theorem droop_deep (h : 2 * (getMoon d m).droopThr.toNat < mv) (free : 36 ≤ m ∨ d.clk.busy = false) :
    droop m mv ps d = if (getMoon d m).stretchEn then droopSet m ps (freeTicks d) else droopUnstretched m d := by
  refine if_neg ?_
  simp only [Bool.or_eq_true, Bool.and_eq_true, decide_eq_true_eq]
  rintro (⟨tile, busy⟩ | shallow)
  · exact free.elim (fun h => absurd tile (by omega)) fun idle => by simp [idle] at busy
  · omega

/-- Every moon of the seam group has its next period stretched, and those that begin while the droop lasts (R172). -/
theorem droopSet_stretches {k : Nat} (hk : k ∈ stretchSet m) : (getMoon (droopSet m ps d) k).stretchNext = true ∧
    d.clk.wall + ps * grain / 1000 ≤ (getMoon (droopSet m ps d) k).droopTill :=
  modMoons_makes (P := fun x => x.stretchNext = true ∧ d.clk.wall + ps * grain / 1000 ≤ x.droopTill)
    (fun _ => ⟨rfl, Nat.le_max_right ..⟩) (.inl hk)

theorem unmooned_droopSet : unmooned (droopSet m ps d) = unmooned d := unmooned_modMoons ..

end

theorem freePipe_free (l : List PipeItem) (d : Dev) : ∃ n, (freePipe l d).2 = { d with free := n } := by
  induction l generalizing d with
  | nil => exact ⟨d.free, rfl⟩
  | cons i r ih =>
    obtain ⟨n, h⟩ := ih (drawBytes i.bytes.length d).2
    exact ⟨n, h.trans rfl⟩

/-- Undefined results touch their tile and the free values alone (Table 6.9). -/
theorem freeTile_set (t : Nat) (d : Dev) : ∃ n x, freeTile t d = setTile { d with free := n } t x := by
  obtain ⟨a, ha⟩ := freePipe_free (getTile d t).matPipe d
  obtain ⟨b, hb⟩ := freePipe_free (getTile d t).vecPipe (freePipe (getTile d t).matPipe d).2
  obtain ⟨c, hc⟩ := freePipe_free (getTile d t).fnPipe (freePipe (getTile d t).vecPipe (freePipe (getTile d t).matPipe d).2).2
  unfold freeTile; dsimp only
  rw [hc, hb, ha]
  exact ⟨_, _, rfl⟩

theorem freeTiles_only (l : List Nat) (d : Dev) : { forEach l freeTile d with tiles := d.tiles, free := d.free } = d := by
  refine forEach_same (fun e : Dev => { e with tiles := d.tiles, free := d.free }) freeTile (fun t c => ?_) l d
  obtain ⟨n, x, h⟩ := freeTile_set t c
  rw [h]; rfl

theorem getTile_freeTiles {l : List Nat} {u : Nat} (other : u ∉ l) (d : Dev) : getTile (forEach l freeTile d) u = getTile d u := by
  induction l generalizing d with
  | nil => rfl
  | cons t r ih =>
    obtain ⟨ht, hr⟩ := not_or.mp (mt List.mem_cons.mpr other)
    obtain ⟨n, x, h⟩ := freeTile_set t d
    exact (ih hr (freeTile t d)).trans (by rw [h]; exact getTile_setTile_other _ _ ht)

/-! ### The periods of a tick -/

section
variable (p at_ : Nat) (y : Moon)

/-- A tick of one period, stretched or not. -/
theorem moonTick_one {st : Bool} (h : (y.stretchNext || decide (at_ < y.droopTill)) = st) :
    (moonTick p 1 at_ y).dur = (if st then 2 * p else p) ∧ (moonTick p 1 at_ y).stretching = st ∧
      (moonTick p 1 at_ y).stretchCount = y.stretchCount + BitVec.ofNat 64 (if st then 1 else 0) := by
  have next : (countPause (at_ - tickEnd y) y).stretchNext = y.stretchNext := (apply_ite Moon.stretchNext ..).trans (ite_self _)
  have till : (countPause (at_ - tickEnd y) y).droopTill = y.droopTill := (apply_ite Moon.droopTill ..).trans (ite_self _)
  have count : (countPause (at_ - tickEnd y) y).stretchCount = y.stretchCount := (apply_ite Moon.stretchCount ..).trans (ite_self _)
  simp only [moonTick, runPeriods, next, till, h, countPeriods, count, Nat.add_zero, and_self]

theorem moonTick_stretched (h : y.stretchNext = true ∨ at_ < y.droopTill) : (moonTick p 1 at_ y).dur = 2 * p ∧
    (moonTick p 1 at_ y).stretching = true ∧ (moonTick p 1 at_ y).stretchCount = y.stretchCount + 1 :=
  moonTick_one p at_ y (st := true) (by simpa using h)

theorem moonTick_plain (h : y.stretchNext = false) (past : y.droopTill ≤ at_) : (moonTick p 1 at_ y).dur = p ∧
    (moonTick p 1 at_ y).stretching = false ∧ (moonTick p 1 at_ y).stretchCount = y.stretchCount := by
  obtain ⟨dur, stretching, count⟩ := moonTick_one p at_ y (st := false) (by simp [h, past])
  exact ⟨dur, stretching, count.trans (BitVec.add_zero _)⟩

end

section
variable {y : Moon} (st : Bool)

/-- The last period of a run of 1,024 ends it (R173). -/
theorem countPeriods_last (h : y.runPeriods = 1023) : (countPeriods 1 st y).runPeriods = 0 ∧ (countPeriods 1 st y).runStretched = 0 ∧
    (countPeriods 1 st y).excDue = y.excDue + b2n (decide (y.tideThr.toNat < y.runStretched + b2n st)) := by
  cases st <;> simp [countPeriods, h, b2n]

theorem countPeriods_before (h : y.runPeriods < 1023) : (countPeriods 1 st y).runPeriods = y.runPeriods + 1 ∧
    (countPeriods 1 st y).excDue = y.excDue ∧ (countPeriods 1 st y).runStretched = y.runStretched + b2n st := by
  have within : (y.runPeriods + 1) / 1024 = 0 := by omega
  have left : min 1 (1024 - y.runPeriods) = 1 := by omega
  refine ⟨Nat.mod_eq_of_lt (by omega), ?_⟩
  cases st <;> simp [countPeriods, within, left, b2n]

end

/-! ### Tide excursions -/

/-- The excursion counted in its moon (Table 6.7), and pending for the partitions that run. -/
def countExcursion (running : List Nat) (x : Moon) : Moon := { x with
  excDue := x.excDue - 1, tideExc := satAdd x.tideExc 1
  excPending := running.foldl (fun t p => tput t p ((tget t p).getD 0 + 1)) x.excPending }

/-- The excursion counted, and its moment noted, before it is entered (R173). -/
def excursionCounted (m : Nat) (d : Dev) : Dev :=
  let d := modMoon m (countExcursion ((d.parts.filter (fun e => e.2.plan = .running)).map (·.1))) d
  { d with clk := { d.clk with tideQuiet := d.clk.wall } }

theorem tides_tideExcursion (m : Nat) (d : Dev) : tides (tideExcursion m d) = tides (excursionCounted m d) :=
  tides_raise (excursionCounted m d) (Nat.zero_le 2) ..

theorem tideExcursion_entered (m : Nat) (d : Dev) : Entered 0 (0x200 + m) 0x0201 d (tideExcursion m d) :=
  (raise_entered ..).of_flt rfl

section
variable {m : Nat} {d e : Dev} (h : tides e = tides (excursionCounted m d))
include h

theorem moon_of_tides : ∃ running, unheld (getMoon e m) = unheld (countExcursion running (getMoon d m)) :=
  ⟨_, (congrArg (fun t => t.2 m) h).trans (congrArg unheld (getMoon_modMoon_same ..))⟩

theorem tideExc_of_tides : (getMoon e m).tideExc = satAdd (getMoon d m).tideExc 1 :=
  let ⟨_, moon⟩ := moon_of_tides h
  (congrArg Moon.tideExc moon :)

theorem excDue_of_tides (due : (getMoon d m).excDue ≠ 0) : (getMoon e m).excDue + 1 = (getMoon d m).excDue := by
  obtain ⟨_, moon⟩ := moon_of_tides h
  have one : (getMoon e m).excDue = (getMoon d m).excDue - 1 := (congrArg Moon.excDue moon :)
  rw [one]
  exact Nat.sub_one_add_one due

theorem tideQuiet_of_tides : e.clk.tideQuiet = d.clk.wall := (congrArg Prod.fst h :)

end

section
variable {s : State} (up : awake s.dev = true) (moon : Fin 45)
include up

theorem gives_tideExcursion (due : (getMoon (freeTicks s.dev) moon.val).excDue ≠ 0) : Gives (.tideExcursion moon) s
    (tideExcursion moon.val (freeTicks s.dev)) :=
  gives_whenAwake rfl up (if_neg due)

theorem gives_tideExcursion_none (none : (getMoon (freeTicks s.dev) moon.val).excDue = 0) :
    Gives (.tideExcursion moon) s (freeTicks s.dev) :=
  gives_whenAwake rfl up (if_pos none)

end

/-! ### Coupling pauses -/

section
variable {s : State} (up : awake s.dev = true) (tile : Fin 36) (ns : Nat)
include up

theorem gives_couplingPause (runs : latticePaused s.dev = false) (clocks : clocksRun s.dev = true) :
    Gives (.couplingPause tile ns) s (modMoon tile.val
      (countPause (min (nsG ns) (nextBegin s.dev tile.val - tickEnd (getMoon s.dev tile.val)))) s.dev) :=
  gives_whenAwake rfl up (if_neg (by simp [runs, clocks]))

theorem gives_couplingPause_none (h : latticePaused s.dev = true ∨ clocksRun s.dev = false) :
    Gives (.couplingPause tile ns) s s.dev :=
  gives_whenAwake rfl up (if_pos (by simpa using h))

end

theorem countPause_pauseG (g : Nat) (x : Moon) : (countPause g x).pauseG = x.pauseG + (g - x.restG) := by
  unfold countPause; split
  · next h => rw [Nat.sub_eq_zero_of_le h]; rfl
  · rfl

theorem countPause_pauseCount {g : Nat} {x : Moon} (rests : x.restG = 0) (some : 0 < g) :
    (countPause g x).pauseCount = satAdd x.pauseCount 1 := by
  rw [countPause, if_neg (by omega), if_pos rests]

/-- Settles O43: a fault event leaves the tides and the moons' counts alone, and when a moon begins its next tick is a maximum over
the bounds that the coupling rules give. -/
theorem tidesAndPauses : Obligations.TidesAndPauses := by
  unfold Obligations.TidesAndPauses
  intro s moon tile mv ps ns up d m x g deep
  refine ⟨?paused, ?shallow, ?stretch, ?unstretched, ?free, fun p at_ y => ⟨moonTick_stretched p at_ y, moonTick_plain p at_ y⟩,
    fun st y => ⟨countPeriods_last st, countPeriods_before st⟩, ?excursion, fun none => gives_tideExcursion_none up moon none,
    ⟨tickEnd_le_nextBegin _ tile.isLt, fun k hk => nextBegin_of_mem _ tile.isLt hk,
      fun k hk => (crossing_le_coupledFrom _ hk).trans (coupledFrom_le_nextBegin _ tile.isLt),
      fun k hk => (spread_le_coupledFrom _ hk).trans (coupledFrom_le_nextBegin _ tile.isLt)⟩,
    fun h => gives_couplingPause_none up tile ns h, ?pause⟩
  case paused => exact fun tile busy => gives_whenAwake rfl up (droop_paused tile busy)
  case shallow => exact fun h => gives_whenAwake rfl up (droop_shallow h)
  case stretch =>
    intro deep free enabled
    have same : unmooned (droopSet m ps (freeTicks s.dev)) = unmooned s.dev := unmooned_droopSet.trans (unmooned_freeTicks _)
    refine ⟨_, gives_whenAwake rfl up ((droop_deep deep free).trans (if_pos enabled)), fun k hk => ?_, fun k hk other => ?_,
      (clk_of_clockCtl Clk.wall (clockCtl_of_unmooned same) :), dev_of_unmooned same⟩
    · exact freeTicks_wall s.dev ▸ droopSet_stretches hk
    · exact (getMoon_forEach_other other).trans (getMoon_freeTicks_tile _ hk)
  case unstretched =>
    intro control plain
    by_cases deep : 2 * x.droopThr.toNat < mv
    · have outside : droopUnstretched m s.dev = s.dev := by rw [droopUnstretched, if_neg (by omega), if_neg (by omega)]
      exact gives_whenAwake rfl up <|
        (droop_deep deep (.inl (by omega))).trans ((if_neg (Bool.not_eq_true _ ▸ plain)).trans outside)
    · exact gives_whenAwake rfl up (droop_shallow deep)
  case free =>
    intro small idle plain
    by_cases deep : 2 * x.droopThr.toNat < mv
    · have freed : droop m mv ps s.dev = forEach ((s.dev.tiles.map (·.1)).filter (fun t => moonOfTile t = m)) freeTile s.dev :=
        (droop_deep deep (.inr idle)).trans ((if_neg (Bool.not_eq_true _ ▸ plain)).trans (if_pos small))
      refine ⟨_, gives_whenAwake rfl up freed, fun t ht => getTile_freeTiles ?_ _, freeTiles_only ..⟩
      exact fun h => ht (of_decide_eq_true (List.mem_filter.mp h).2)
    · exact ⟨_, gives_whenAwake rfl up (droop_shallow deep), fun _ _ => rfl, rfl⟩
  case excursion =>
    intro due
    have kept := tides_tideExcursion m (freeTicks s.dev)
    refine ⟨_, gives_tideExcursion up moon due, ?_, excDue_of_tides kept due, ?_, (tideExcursion_entered ..).of_flt ?_⟩
    · rw [tideExc_of_tides kept, tideExc_freeTicks]
    · rw [tideQuiet_of_tides kept, freeTicks_wall]
    · exact flt_of_unmooned (unmooned_freeTicks s.dev)
  case pause =>
    intro runs clocks
    refine ⟨_, gives_couplingPause up tile ns runs clocks, ?_, fun rests some => ?_, fun k hk => getMoon_modMoon_other _ _ hk, rfl⟩
    · rw [getMoon_modMoon_same]; exact countPause_pauseG ..
    · rw [getMoon_modMoon_same]; exact countPause_pauseCount rests some

end Sys2Proof.Machine
end

section
/-! The obligation of the clock references (R182). -/

namespace Sys2Proof.Machine

open Sys2Proof

/-! ### What judging and following a reference leave of the clock control -/

/-- A reference is judged bad in a clock control. -/
def refBadIn (c : Clk) (b : Bool) : Bool := if b then c.refBBad else c.refABad

/-- A clock control in which a reference has been judged. -/
def judged (b v : Bool) (c : Clk) : Clk := { c with
  refBadAt := tput c.refBadAt (b2n b) c.wall, refABad := if b then c.refABad else v, refBBad := if b then v else c.refBBad }

section
variable (b v : Bool) (d : Dev)

theorem refBadIn_judged_same (c : Clk) : refBadIn (judged b v c) b = v := by cases b <;> rfl

theorem refBadIn_judged_other (c : Clk) : refBadIn (judged b v c) (!b) = refBadIn c (!b) := by cases b <;> rfl

theorem clockCtl_setRefBad : clockCtl (setRefBad b v d) = judged b v (clockCtl d) := by cases b <;> rfl

theorem setRefBad_flt : (setRefBad b v d).flt = d.flt := by cases b <;> rfl

/-- A module whose references stand as they have been judged. -/
theorem refBad_judged {e : Dev} {c : Clk} (ctl : clockCtl e = c) (first : c.refABad = (judged b v (clockCtl d)).refABad)
    (second : c.refBBad = (judged b v (clockCtl d)).refBBad) : refBad e b = v ∧ refBad e (!b) = refBad d (!b) := by
  have flags (k : Bool) : refBad e k = refBadIn (judged b v (clockCtl d)) k := by
    unfold refBadIn
    rw [← first, ← second, ← ctl]; rfl
  exact ⟨(flags b).trans (refBadIn_judged_same ..), (flags (!b)).trans (refBadIn_judged_other ..)⟩

theorem unmooned_lockPlls : unmooned (lockPlls v d) = unmooned d :=
  forEach_same unmooned (fun p => modMoons (pllMoons p) (fun m => { m with pllLock := v })) (fun _ _ => unmooned_modMoons ..) _ d

/-- The PLLs that follow a reference: it is selected, and no holdover stands. -/
theorem clockCtl_takeRef : clockCtl (takeRef b d) =
    { clockCtl d with refSel := b, holdover := false, freeRun := false, holdoverAt := none } :=
  clockCtl_of_unmooned (unmooned_lockPlls ..)

theorem takeRef_flt : (takeRef b d).flt = d.flt := (flt_of_unmooned (unmooned_lockPlls ..)).trans rfl

theorem clockCtl_clkEvent (bits : Nat) : clockCtl (clkEvent bits d) =
    { clockCtl d with events := (clockCtl d).events ||| BitVec.ofNat 32 bits } :=
  congrArg (fun c : Clk => { c with moons := [] }) (clkEvent_clk bits d)

/-! ### A reference is found bad -/

/-- The bit of CLK_EVENTS that says a reference is bad (Table 6.10). -/
def badBit (b : Bool) : BitVec 32 := BitVec.ofNat 32 (if b then 2 else 1)

/-- A reference is judged bad, with its bit of CLK_EVENTS. -/
def judgedBad : Dev := clkEvent (if b then 2 else 1) (setRefBad b true d)

theorem clockCtl_judgedBad : clockCtl (judgedBad b d) = { judged b true (clockCtl d) with events := d.clk.events ||| badBit b } := by
  rw [judgedBad, clockCtl_clkEvent, clockCtl_setRefBad]; rfl

theorem judgedBad_flt : (judgedBad b d).flt = d.flt := (clkEvent_flt ..).trans (setRefBad_flt ..)

/-- The reference in use is lost: a bit of CLK_EVENTS is set and a DEGRADE is entered (Table 6.6). -/
def refLost (bits : Nat) : Dev := raise 1 0x22C 0x0202 0xFF 0 (clkEvent bits d)

theorem clockCtl_refLost (bits : Nat) : clockCtl (refLost d bits) =
    { clockCtl d with events := (clockCtl d).events ||| BitVec.ofNat 32 bits } :=
  (clockCtl_of_unraised (unraised_raise (by decide) (fun note => absurd note (by decide)) ..)).trans (clockCtl_clkEvent ..)

theorem refLost_entered {d c : Dev} (h : d.flt = c.flt) (bits : Nat) : Entered 1 0x22C 0x0202 c (refLost d bits) :=
  (raise_entered ..).of_flt ((clkEvent_flt ..).trans h)

/-- With the other reference bad too, the PLLs hold over from now on. -/
def lostBoth : Dev :=
  let d := judgedBad b d
  refLost { d with clk := { d.clk with holdover := true, holdoverAt := some d.clk.wall } } 8

theorem clockCtl_lostBoth : clockCtl (lostBoth b d) = { judged b true (clockCtl d) with
    events := d.clk.events ||| badBit b ||| 8#32, holdover := true, holdoverAt := some d.clk.wall } := by
  rw [lostBoth, clockCtl_refLost]
  exact congrArg (fun c : Clk => { c with holdover := true, holdoverAt := some c.wall, events := c.events ||| 8#32 })
    (clockCtl_judgedBad b d)

theorem lostBoth_entered : Entered 1 0x22C 0x0202 d (lostBoth b d) := by
  refine refLost_entered ?_ 8
  dsimp only
  exact judgedBad_flt b d

/-- The other reference is good, and the PLLs follow it. -/
theorem clockCtl_switches : clockCtl (refLost (takeRef (!b) (judgedBad b d)) 4) = { judged b true (clockCtl d) with
    events := d.clk.events ||| badBit b ||| 4#32, refSel := !b, holdover := false, freeRun := false, holdoverAt := none } := by
  rw [clockCtl_refLost, clockCtl_takeRef, clockCtl_judgedBad]

/-- The other reference is good, and REF_AUTO is 0: the PLLs hold over. -/
def holdsOver : Dev :=
  let d := judgedBad b d
  refLost { d with clk := { d.clk with holdover := true } } 8

theorem holdsOver_entered : Entered 1 0x22C 0x0202 d (holdsOver b d) := by
  refine refLost_entered ?_ 8
  dsimp only
  exact judgedBad_flt b d

theorem clockCtl_holdsOver : clockCtl (holdsOver b d) = { judged b true (clockCtl d) with
    events := d.clk.events ||| badBit b ||| 8#32, holdover := true } := by
  rw [holdsOver, clockCtl_refLost]
  exact congrArg (fun c : Clk => { c with holdover := true, events := c.events ||| 8#32 }) (clockCtl_judgedBad b d)

end

/-- What REFERENCE_BAD does, by the other reference, the selection and REF_AUTO. -/
theorem gives_referenceBad {s : State} {b : Bool} {e : Dev} (up : awake s.dev = true) (good : refBad s.dev b = false)
    (he : (if refBad s.dev (!b) then lostBoth b s.dev
      else if s.dev.clk.refSel ≠ b then judgedBad b s.dev
      else if s.dev.clk.refAuto then refLost (takeRef (!b) (judgedBad b s.dev)) 4
      else holdsOver b s.dev) = e) : Gives (.referenceBad b) s e := by
  have ctl := clockCtl_judgedBad b s.dev
  obtain ⟨-, other⟩ := refBad_judged b true s.dev ctl rfl rfl
  have sel : (judgedBad b s.dev).clk.refSel = s.dev.clk.refSel := (clk_of_clockCtl Clk.refSel ctl :)
  have auto : (judgedBad b s.dev).clk.refAuto = s.dev.clk.refAuto := (clk_of_clockCtl Clk.refAuto ctl :)
  rw [← other, ← sel, ← auto] at he
  exact gives_whenAwake rfl up ((if_neg (Bool.eq_false_iff.mp good)).trans he)

/-! ### A reference is good again -/

section
variable (b : Bool) (d : Dev)

/-- A reference that has been good for 1 ms: PLLs that have none, or that it was selected for, follow it (R182). -/
def judgedGood : Dev :=
  let d := setRefBad b false d
  if d.clk.refSel = b then takeRef b d
  else if refBad d (!b) && (d.clk.holdoverAt.isSome || d.clk.freeRun) then clkEvent 4 (takeRef b d)
  else d

theorem clockCtl_followsAgain : clockCtl (takeRef b (setRefBad b false d)) =
    { judged b false (clockCtl d) with refSel := b, holdover := false, freeRun := false, holdoverAt := none } := by
  rw [clockCtl_takeRef, clockCtl_setRefBad]

/-- The two ways it goes: the PLLs follow the reference, or nothing but the judgement changes. -/
theorem judgedGood_cases :
    ((∃ v, clockCtl (judgedGood b d) = { judged b false (clockCtl d) with
        events := v, refSel := b, holdover := false, freeRun := false, holdoverAt := none }) ∨
      clockCtl (judgedGood b d) = judged b false (clockCtl d) ∧ d.clk.refSel ≠ b ∧
        (refBad d (!b) = true → d.clk.freeRun = false)) ∧
      (judgedGood b d).flt = d.flt := by
  have ctl := clockCtl_setRefBad b false d
  have sel : (setRefBad b false d).clk.refSel = d.clk.refSel := (clk_of_clockCtl Clk.refSel ctl :)
  have free : (setRefBad b false d).clk.freeRun = d.clk.freeRun := (clk_of_clockCtl Clk.freeRun ctl :)
  obtain ⟨-, other⟩ := refBad_judged b false d ctl rfl rfl
  have taken : (takeRef b (setRefBad b false d)).flt = d.flt := (takeRef_flt ..).trans (setRefBad_flt ..)
  unfold judgedGood; dsimp only
  rw [sel, free, other]
  split
  · exact ⟨.inl ⟨_, clockCtl_followsAgain b d⟩, taken⟩
  · next unselected =>
    split
    · exact ⟨.inl ⟨_, (clockCtl_clkEvent ..).trans (by rw [clockCtl_followsAgain])⟩, (clkEvent_flt ..).trans taken⟩
    · next stands =>
      refine ⟨.inr ⟨ctl, unselected, fun bad => ?_⟩, setRefBad_flt ..⟩
      rw [bad, Bool.true_and, Bool.not_eq_true, Bool.or_eq_false_iff] at stands
      exact stands.2

theorem gives_referenceGood {s : State} (up : awake s.dev = true) (bad : refBad s.dev b = true) :
    Gives (.referenceGood b) s
      (whenDue ((tget s.dev.clk.refBadAt (b2n b)).getD 0 + msG 1) (judgedGood b) s.dev) :=
  gives_whenAwake rfl up (if_neg (by rw [bad]; decide))

/-! ### The end of holdover -/

/-- PLLs whose holdover has lasted 10 ms run free, without lock (R182). -/
def runsFree : Dev := clkEvent 16 (lockPlls false { d with clk := { d.clk with freeRun := true, holdoverAt := none } })

theorem clockCtl_runsFree : clockCtl (runsFree d) =
    { clockCtl d with events := d.clk.events ||| 16#32, freeRun := true, holdoverAt := none } := by
  rw [runsFree, clockCtl_clkEvent, clockCtl_of_unmooned (unmooned_lockPlls ..)]; rfl

theorem gives_holdoverExpiry {s : State} {t : Nat} (up : awake s.dev = true) (since : s.dev.clk.holdoverAt = some t) :
    Gives .holdoverExpiry s (whenDue (t + msG 10) runsFree s.dev) :=
  gives_whenAwake rfl up (by simp only [since]; rfl)

/-- Each moon of a PLL that has not lost lock takes the PLL_LOCK that the PLLs are given. -/
theorem pllLock_lockPlls {v : Bool} {p m : Nat} (hp : p < 12) (locked : d.clk.pllDown.contains p = false) (hm : m ∈ pllMoons p) :
    (getMoon (lockPlls v d) m).pllLock = v := by
  have visited (l : List Nat) (c : Dev) (h : p ∈ l ∨ (getMoon c m).pllLock = v) :
      (getMoon (forEach l (fun q => modMoons (pllMoons q) (fun x => { x with pllLock := v })) c) m).pllLock = v := by
    induction l generalizing c with
    | nil => exact h.resolve_left List.not_mem_nil
    | cons q r ih =>
      refine ih (modMoons (pllMoons q) (fun x => { x with pllLock := v }) c) ?_
      obtain (rfl | later) | set := h.imp_left List.mem_cons.mp
      · exact .inr (modMoons_makes (P := fun x => x.pllLock = v) (fun _ => rfl) (.inl hm))
      · exact .inl later
      · exact .inr (modMoons_makes (P := fun x => x.pllLock = v) (fun _ => rfl) (.inr set))
  exact visited _ d (.inl (List.mem_filter.mpr ⟨List.mem_range.mpr hp, by rw [locked]; rfl⟩))

end

/-! ### Where nothing happens -/

section
variable {s : State} {b : Bool} (up : awake s.dev = true)
include up

theorem gives_referenceBad_again (bad : refBad s.dev b = true) : Gives (.referenceBad b) s s.dev :=
  gives_whenAwake rfl up (if_pos bad)

theorem gives_referenceGood_again (good : refBad s.dev b = false) : Gives (.referenceGood b) s s.dev :=
  gives_whenAwake rfl up (if_pos (by rw [good]; rfl))

theorem gives_holdoverExpiry_none (none_ : s.dev.clk.holdoverAt = none) : Gives .holdoverExpiry s s.dev :=
  gives_whenAwake rfl up (by simp only [none_])

/-! ### REF_PREF -/

/-- A module that prefers a reference. -/
def prefers (b : Bool) (d : Dev) : Dev := { d with clk := { d.clk with refPref := b } }

omit up in
theorem selectRef_stays {d : Dev} (h : refBad d b = true ∨ d.clk.refSel = b) : selectRef b d = prefers b d := by
  refine if_pos ?_
  rw [Bool.or_eq_true, decide_eq_true_eq]; exact h

omit up in
theorem selectRef_selects {d : Dev} (good : refBad d b = false) (sel : d.clk.refSel ≠ b) :
    selectRef b d = clkEvent 4 (takeRef b (prefers b d)) := by
  refine if_neg ?_
  rw [Bool.or_eq_true, decide_eq_true_eq, not_or]
  exact ⟨Bool.eq_false_iff.mp good, sel⟩

theorem gives_refPref {e : Dev} (he : selectRef b s.dev = e) : Gives (.refPref b) s e := gives_whenAwake rfl up he

end

/-- Settles O44: each outcome is read off the clock control that it leaves, which the moons, the records and the DEGRADE have no part
in. -/
theorem referencesAreFollowed : Obligations.ReferencesAreFollowed := by
  unfold Obligations.ReferencesAreFollowed
  intro s b up d bad good
  refine ⟨fun h => gives_refPref up (selectRef_stays h), ?selects, gives_referenceBad_again up, ?both, ?switches, ?holds, ?standby,
    gives_referenceGood_again up, ?again, ?bad, ?holdover, gives_holdoverExpiry_none up, ?expires⟩
  case bad => exact fun isBad early => notYet_gives (gives_referenceGood b up isBad) early
  case holdover => exact fun t since early => notYet_gives (gives_holdoverExpiry up since) early
  case selects =>
    intro isGood sel
    have ctl := clockCtl_clkEvent (takeRef b (prefers b s.dev)) 4
    rw [clockCtl_takeRef] at ctl
    exact ⟨_, gives_refPref up (selectRef_selects isGood sel), (clk_of_clockCtl Clk.refSel ctl :), (clk_of_clockCtl Clk.refPref ctl :),
      (clk_of_clockCtl Clk.holdover ctl :), (clk_of_clockCtl Clk.freeRun ctl :), (clk_of_clockCtl Clk.events ctl :)⟩
  case both =>
    intro isGood other
    have ctl := clockCtl_lostBoth b s.dev
    obtain ⟨same, -⟩ := refBad_judged b true s.dev ctl rfl rfl
    refine ⟨_, gives_referenceBad up isGood (if_pos other), same,
      (clk_of_clockCtl Clk.holdover ctl :), (clk_of_clockCtl Clk.holdoverAt ctl :), (clk_of_clockCtl Clk.events ctl :),
      lostBoth_entered b s.dev⟩
  case switches =>
    intro isGood other sel auto
    have ctl := clockCtl_switches b s.dev
    obtain ⟨same, -⟩ := refBad_judged b true s.dev ctl rfl rfl
    exact ⟨_, gives_referenceBad up isGood <| (if_neg (Bool.eq_false_iff.mp other)).trans <|
        (if_neg (not_not.mpr sel)).trans (if_pos auto), same,
      (clk_of_clockCtl Clk.refSel ctl :), (clk_of_clockCtl Clk.holdover ctl :), (clk_of_clockCtl Clk.events ctl :),
      refLost_entered ((takeRef_flt ..).trans (judgedBad_flt b s.dev)) 4⟩
  case holds =>
    intro isGood other sel auto
    have ctl := clockCtl_holdsOver b s.dev
    obtain ⟨same, -⟩ := refBad_judged b true s.dev ctl rfl rfl
    exact ⟨_, gives_referenceBad up isGood <| (if_neg (Bool.eq_false_iff.mp other)).trans <|
        (if_neg (not_not.mpr sel)).trans (if_neg (Bool.eq_false_iff.mp auto)), same,
      (clk_of_clockCtl Clk.refSel ctl :).trans sel, (clk_of_clockCtl Clk.holdover ctl :), (clk_of_clockCtl Clk.events ctl :),
      holdsOver_entered b s.dev⟩
  case standby =>
    intro isGood other sel
    have ctl := clockCtl_judgedBad b s.dev
    obtain ⟨same, -⟩ := refBad_judged b true s.dev ctl rfl rfl
    exact ⟨_, gives_referenceBad up isGood ((if_neg (Bool.eq_false_iff.mp other)).trans (if_pos sel)),
      same, (clk_of_clockCtl Clk.refSel ctl :), (clk_of_clockCtl Clk.events ctl :),
      judgedBad_flt b s.dev⟩
  case again =>
    intro isBad
    refine atDue_gives (gives_referenceGood b up isBad) fun d _ => ?_
    obtain ⟨⟨v, ctl⟩ | ⟨ctl, unselected, bound⟩, flt⟩ := judgedGood_cases b d
    · obtain ⟨same, kept⟩ := refBad_judged b false d ctl rfl rfl
      exact ⟨same, kept, (clk_of_clockCtl Clk.wall ctl :), flt,
        fun _ => ⟨(clk_of_clockCtl Clk.holdover ctl :), (clk_of_clockCtl Clk.freeRun ctl :), (clk_of_clockCtl Clk.refSel ctl :)⟩,
        fun _ _ _ => ⟨(clk_of_clockCtl Clk.freeRun ctl :), (clk_of_clockCtl Clk.refSel ctl :)⟩⟩
    · obtain ⟨same, kept⟩ := refBad_judged b false d ctl rfl rfl
      refine ⟨same, kept, (clk_of_clockCtl Clk.wall ctl :), flt,
        fun sel => absurd sel unselected, fun _ other free => ?_⟩
      rw [bound other] at free
      cases free
  case expires =>
    intro t since
    refine atDue_gives (gives_holdoverExpiry up since) fun d _ => ?_
    have ctl := clockCtl_runsFree d
    refine ⟨(clk_of_clockCtl Clk.freeRun ctl :), (clk_of_clockCtl Clk.holdoverAt ctl :), (clk_of_clockCtl Clk.events ctl :),
      fun p hp locked m hm => ?_⟩
    rw [runsFree, getMoon, clkEvent_clk]
    exact pllLock_lockPlls _ hp locked hm

end Sys2Proof.Machine
end

section
/-! The obligation of PLL lock and seam alignment (R179, R182). -/

namespace Sys2Proof.Machine

open Sys2Proof

/-- What the loss of a PLL's lock leaves before it is reported (R182, Table 6.6). -/
def unlocked (p : Nat) (d : Dev) : Dev :=
  let e := modMoons (pllMoons p) (fun m => { m with pllLock := false })
    { d with clk := { d.clk with pllDown := insertNat d.clk.pllDown p, pllAt := tput d.clk.pllAt p d.clk.wall } }
  if p < 4 then alignGroups (dieGroups p) false e else e

theorem gives_pllLockLoss {s : State} {pll : Fin 12} (up : awake s.dev = true) (locked : s.dev.clk.pllDown.contains pll.val = false) :
    Gives (.pllLockLoss pll) s (raise 0 (pllSrc pll) 0x0203 0xFF 0 (clkEvent 32 (unlocked pll s.dev))) :=
  gives_whenAwake rfl up (if_neg (Bool.eq_false_iff.mp locked))

/-- The module: PLL 8 clocks link moon 40, for whose source one NOTE makes a DEGRADE and one DEGRADE a HALT, while partition 0 runs
and tile 0 of it, which lies in moon 0, has held since wall time 0. -/
def escalating : Dev where
  tiles := [(0, { mode := .run, wait := some ⟨24, 1, 0, 0, none, some 0, 0⟩ })]
  clk := { wall := 1 }
  parts := [(0, { pid := 0, mask := 1, plan := .running })]
  flt := { esc := [(pllSrc 8, { noteLimit := 1, degLimit := 1 })] }
  pwr := { resetHeld := false }

/-- The NOTE of the lost lock escalates to a HALT (R414), which stops the partition (R413) and so ends the hold: the clock of moon 0
rests up to now (R36). -/
theorem restTill_escalating :
    (getMoon (raise 0 (pllSrc 8) 0x0203 0xFF 0 (clkEvent 32 (unlocked 8 escalating))) 0).restTill = 1 := by decide +kernel

/-- Refutes O45: the statement lets a lost lock change the moons that the PLL clocks and the alignment of a die's seam groups, and no
other moon. In `escalating` the lock of the PLL of a link moon is lost, and the HALT that its NOTE escalates to changes a tile moon. -/
theorem not_pllsAndSeams : ¬ Obligations.PllsAndSeams := by
  unfold Obligations.PllsAndSeams
  intro h
  have up : awake escalating = true := by decide
  have locked : escalating.clk.pllDown.contains (8 : Fin 12).val = false := by decide
  obtain ⟨loss, -⟩ := h { dev := escalating } 8 0 up
  obtain ⟨e, gives, -, -, -, others, -⟩ := loss locked
  have left : (getMoon e 0).restTill = 1 := (gives_pllLockLoss up locked).unique gives ▸ restTill_escalating
  obtain same | ⟨tile, -⟩ := others 0 (by decide)
  · rw [same] at left
    exact absurd left (by decide)
  · exact absurd tile (by decide)

end Sys2Proof.Machine
end

section
/-! The obligation of power and temperature in service (R171, R438, R443 to R446). -/

namespace Sys2Proof.Machine

open Sys2Proof

/-! ### Timed events -/

section
variable {mv ca watts core : BitVec 16} {t : BitVec 40} {ok : BitVec 5} {k : Nat} {c d : Dev} (h : untimed d = untimed c)
include h

/-- What a measurement does to a module that differs from another in its clocks and machine time alone (R443). -/
theorem measured_outcome : let e := measured mv ca watts core d
    let tooMuch := c.pwr.limit.toNat < watts.toNat
    e.pwr.pwrIn = core ++ watts ++ ca ++ mv ∧ e.pwr.measAt = d.clk.wall ∧
    (¬ tooMuch → e.pwr.overRun = 0 ∧ e.pwr.powerCeil = c.pwr.powerCeil ∧ e.flt = d.flt ∧
      (e.pwr.belowAt = if watts.toNat * 10 < c.pwr.limit.toNat * 9 then some (c.pwr.belowAt.getD d.clk.wall) else none)) ∧
    (tooMuch → e.pwr.exceeded.getLsbD d.clk.step.toNat = true ∧ e.pwr.belowAt = none) ∧
    (tooMuch → d.clk.busy = true → e.pwr.overRun = c.pwr.overRun ∧ e.pwr.powerCeil = c.pwr.powerCeil) ∧
    (tooMuch → d.clk.busy = false → c.pwr.rangeActive = false → c.pwr.overRun + 1 < 10 →
      e.pwr.overRun = c.pwr.overRun + 1 ∧ e.pwr.powerCeil = c.pwr.powerCeil ∧ e.flt = d.flt) ∧
    (tooMuch → d.clk.busy = false → c.pwr.rangeActive = false → 10 ≤ c.pwr.overRun + 1 → d.clk.step ≠ 0 →
      e.pwr.overRun = 0 ∧ e.pwr.powerCeil = lower3 c.pwr.powerCeil ∧ Entered 0 0x900 0x0902 d e ∧ (mpUp c = true → Settled e)) ∧
    (tooMuch → d.clk.busy = false → c.pwr.rangeActive = false → 10 ≤ c.pwr.overRun + 1 → d.clk.step = 0 →
      e.pwr.powerCeil = c.pwr.powerCeil ∧ e.pwr.limitFault = true ∧ (c.pwr.limitFault = false → Entered 1 0x700 0x0704 d e)) ∧
    (c.pwr.rangeActive = true → 2000 < watts.toNat → d.clk.busy = false → e.pwr.rangeCeil = lower3 c.pwr.rangeCeil) := by
  rw [← pwr_of_untimed h, ← mpUp_of_untimed h]
  obtain ⟨reads, at_⟩ := measured_reads mv ca watts core d
  exact ⟨reads, at_, measured_within_counts, measured_over_notes, measured_busy, measured_counts, measured_lowers, measured_floor,
    measured_rangeCeil⟩

/-- What a reading of the sensors does to it, where the MP runs (R444). -/
theorem thermRead_outcome (up : mpUp c = true) : let e := thermRead t ok d
    let reads (k : Nat) := k < 6 ∧ (k = 5 ∨ ok.getLsbD k = true)
    e.pwr.thermAt = d.clk.wall ∧ (∀ i, i < 6 → fld e.pwr.temps.toNat (8 * i) 8 = sensedByte t ok c i) ∧
    e.pwr.sensorBad = c.pwr.sensorBad.filter (fun i => !ok.getLsbD i) ∧
    (reads k → tripT k < sensedByte t ok c k → e.flt.sealed = true) ∧
    ((∀ i, reads i → sensedByte t ok c i ≤ hotT i) → e.flt = d.flt ∧ c.pwr.thermCeil.toNat ≤ e.pwr.thermCeil.toNat) ∧
    (∀ w, reads k → hotT k < sensedByte t ok c k → sensedByte t ok c k ≤ tripT k → tget c.pwr.hotAt k = some w →
      w + msG 10 ≤ d.clk.wall → e.pwr.thermCeil.toNat ≤ c.pwr.thermCeil.toNat - 1) ∧
    (∀ w, (∀ i, i < 6 → sensedByte t ok c i < coolT i) → c.pwr.coolAt = some w → w + msG 100 ≤ d.clk.wall →
      e.pwr.thermCeil.toNat = min 7 (c.pwr.thermCeil.toNat + 1) ∧ (mpUp c = true → Settled e)) := by
  have byte (i : Nat) : sensedByte t ok d i = sensedByte t ok c i := (congrArg (fun x => sensedByte t ok x i) h :)
  have up' : mpUp d = true := (mpUp_of_untimed h).trans up
  simp only [← pwr_of_untimed h, ← byte]
  refine ⟨?_, fun i hi => reading_thermRead t ok d hi, ?_, thermRead_seals, thermRead_cold, fun w => thermRead_lowers,
    fun w cool since long => ?_⟩
  · exact (thermRead_keeps t ok d Pwr.thermAt fun _ _ => rfl).trans (sensed_thermAt t ok d)
  · exact (thermRead_keeps t ok d Pwr.sensorBad fun _ _ => rfl).trans (sensed_sensorBad t ok d)
  · obtain ⟨rises, settled⟩ := thermRead_raises up' cool since long
    exact ⟨rises, fun _ => settled⟩

end

section
variable {s : State} (up : awake s.dev = true)
include up

theorem gives_powerMeasurement (mv ca watts core : BitVec 16) : Gives (.powerMeasurement mv ca watts core) s
    (whenDue (s.dev.pwr.measAt + usG 100) (measured mv ca watts core) s.dev) := gives_whenAwake rfl up rfl

theorem gives_vcoreUv : Gives .vcoreUv s (raise 2 0x901 0x0904 0xFF 0 s.dev) := gives_whenAwake rfl up rfl

theorem gives_vcoreOv : Gives .vcoreOv s (raise 3 0x901 0x0905 0xFF 0 s.dev) := gives_whenAwake rfl up rfl

theorem gives_vcoreOcp : Gives .vcoreOcp s (raise 3 0x901 0x0906 0xFF 0 s.dev) := gives_whenAwake rfl up rfl

/-- A phase has failed (R446). -/
def phaseFailed (d : Dev) : Dev := { d with pwr := { d.pwr with phaseActive := true, phases := d.pwr.phases - 1 } }

theorem gives_phaseFail : Gives .phaseFail s (raiseThrottle 1 0x901 0x0907 0 (phaseFailed s.dev)) :=
  gives_whenAwake (f := fun d => raiseThrottle 1 0x901 0x0907 0 (phaseFailed d)) rfl up rfl

end

section
variable {s : State} (up : mpUp s.dev = true)
include up

theorem gives_thermalRead (t : BitVec 40) (ok : BitVec 5) :
    Gives (.thermalRead t ok) s (whenDue (s.dev.pwr.thermAt + msG 1) (thermRead t ok) s.dev) := gives_whenMp rfl up rfl

/-- A sensor has failed (R444). -/
def sensorFailed (k : Nat) (d : Dev) : Dev := { d with pwr := { d.pwr with sensorBad := insertNat d.pwr.sensorBad k } }

theorem gives_sensorFail (k : Fin 5) : Gives (.sensorFail k) s (raiseThrottle 1 (0x910 + k.val) 0x0908 0 (sensorFailed k.val s.dev)) :=
  gives_whenMp (f := fun d => raiseThrottle 1 (0x910 + k.val) 0x0908 0 (sensorFailed k.val d)) rfl up rfl

end

/-! ### Events -/

/-- A SEAL turns off the rails after the third (R441). -/
theorem raise_seal_rails (src cause part detail : Nat) (d : Dev) :
    (raise 3 src cause part detail d).pwr.rails = d.pwr.rails &&& 7#8 :=
  congrArg Pwr.rails (raise_seal_pwr ..)

/-- Settles O54: what a fault event below SEAL and a throttle leave of power carries each ceiling to the end of its event; the checks of
the readings of a list keep what the others meet, so each acts on its reading as it was taken. -/
theorem ceilingsInService : Obligations.CeilingsInService := by
  unfold Obligations.CeilingsInService
  intro s mv ca watts core t ok sn k d p settled meas tooMuch temp reads therm
  refine ⟨?out, ?in_, ?soon, ?measured, ?unraised, ?raise, ?none, ?unread, ?read, ?sensor, ?uv, ?ov, ?ocp,
    ?phase⟩
  case out =>
    intro up
    have same := steady_raiseThrottle (cls := 1) (src := 0x900) 0x0901 0 (rangeLeft s.dev) (by decide) (by decide)
    exact ⟨_, inputRange_out up, (raiseThrottle_entered _ _ (rangeLeft s.dev)).of_flt rfl,
      fun mp => settled_raiseThrottle _ _ (rangeLeft s.dev) (by decide) (by decide) mp, pwr_of_steady same _⟩
  case in_ =>
    intro up
    have same := unswitched_throttle (rangeEntered s.dev)
    exact ⟨_, inputRange_in up, fun mp => settled_throttle (d := rangeEntered s.dev) mp, pwr_of_unswitched same _,
      (congrArg (fun e : Dev => { e with pwr := s.dev.pwr, clk := s.dev.clk }) same :)⟩
  case soon => exact fun up early => notYet_gives (gives_powerMeasurement up mv ca watts core) early
  case measured => exact fun up => atDue_gives (gives_powerMeasurement up mv ca watts core) fun _ h => measured_outcome h
  case unraised => exact fun w up below early => notYet_gives (gives_powerCeilingRaise up below) early
  case raise =>
    intro w up below
    refine atDue_gives (gives_powerCeilingRaise up below) fun d h => ?_
    obtain ⟨at_, ceil⟩ := ceilingRaised_pwr d
    rw [pwr_of_untimed h] at ceil
    exact ⟨at_, ceil⟩
  case none => exact fun up none => gives_powerCeilingRaise_none up none
  case unread => exact fun up early => notYet_gives (gives_thermalRead up t ok) early
  case read => exact fun up => atDue_gives (gives_thermalRead up t ok) fun _ h => thermRead_outcome h up
  case sensor =>
    intro up
    have same := steady_raiseThrottle (cls := 1) (src := 0x910 + sn.val) 0x0908 0 (sensorFailed sn.val s.dev) (by decide)
      fun note => absurd note (by decide)
    have bad : (raiseThrottle 1 (0x910 + sn.val) 0x0908 0 (sensorFailed sn.val s.dev)).pwr.sensorBad =
      insertNat s.dev.pwr.sensorBad sn.val := of_steady Pwr.sensorBad same
    have failed : sn.val ∈ (raiseThrottle 1 (0x910 + sn.val) 0x0908 0 (sensorFailed sn.val s.dev)).pwr.sensorBad := by
      rw [bad]; exact mem_insertNat ..
    exact ⟨_, gives_sensorFail up sn, (raiseThrottle_entered _ _ (sensorFailed sn.val s.dev)).of_flt rfl, failed,
      thermCeil_of_sensorBad failed, fun mp => settled_raiseThrottle _ _ (sensorFailed sn.val s.dev) (by decide)
        (fun note => absurd note (by decide)) mp⟩
  case uv =>
    intro up wf
    obtain ⟨-, hold, -⟩ := raise_halt_flt 0x901 0x0904 0xFF 0 s.dev
    have entered := raise_entered 2 0x901 0x0904 0xFF 0 s.dev
    have stops (q : Nat) (y : Part) (here : getPart s.dev q = some y) :=
      HasPlan.raise_halt_all (q := q) ⟨wf, y, here, rfl⟩ 0x901 0x0904 0
    exact ⟨_, gives_vcoreUv up, entered, hold, fun q y here => (stops q y here).2⟩
  case ov => exact fun up => ⟨_, gives_vcoreOv up, raise_entered .., raise_seal_seals .., raise_seal_rails ..⟩
  case ocp => exact fun up => ⟨_, gives_vcoreOcp up, raise_entered .., raise_seal_seals .., raise_seal_rails ..⟩
  case phase =>
    intro up
    have same := steady_raiseThrottle (cls := 1) (src := 0x901) 0x0907 0 (phaseFailed s.dev) (by decide) (by decide)
    have active : (raiseThrottle 1 0x901 0x0907 0 (phaseFailed s.dev)).pwr.phaseActive = true := of_steady Pwr.phaseActive same
    exact ⟨_, gives_phaseFail up, (raiseThrottle_entered _ _ (phaseFailed s.dev)).of_flt rfl, active, of_steady Pwr.phases same,
      wantStep_of_phase active, fun mp => settled_raiseThrottle _ _ (phaseFailed s.dev) (by decide) (by decide) mp⟩

end Sys2Proof.Machine
end

section
/-! The obligation of a channel's refresh, CRC retries, corrections, temperature and tiered reads (R195 to R197, R233, R234). -/

namespace Sys2Proof.Machine

open Sys2Proof

/-! ### The channels -/

theorem getChan_congr {d e : Dev} (h : e.chans = d.chans) (c : Nat) : getChan e c = getChan d c := by simp [getChan, h]

theorem chans_of_untimed {d e : Dev} (h : untimed e = untimed d) : e.chans = d.chans := (congrArg Dev.chans h :)

theorem chans_of_unraised {d e : Dev} (h : unraised e = unraised d) : e.chans = d.chans := (congrArg Dev.chans h :)

theorem modChan_modChan (c : Nat) (f g : Chan → Chan) (d : Dev) :
    modChan c g (modChan c f d) = modChan c (fun y => g (f y)) d := by
  rw [modChan, getChan_modChan_same, modChan, tput_tput]; rfl

/-! ### The requests of a tile -/

/-- A stop leaves a tile's requests as they are. -/
theorem reqs_of_stillTiles {d e : Dev} (h : stillTiles e = stillTiles d) (u : Nat) : (getTile e u).reqs = (getTile d u).reqs :=
  (congrArg Tile.reqs (congrFun h u) :)

/-- The oldest LOAD of a queue is read off the requests alone. -/
theorem oldestLoad_congr {t u : Tile} (h : u.reqs = t.reqs) (q : Nat) : oldestLoad u q = oldestLoad t q := by
  rw [oldestLoad, h]; rfl

/-! ### An access that fails its CRC (R197) -/

section
variable {c : Nat} {who : Reader} {g : BitVec 11} {uncorr : Bool} {d : Dev}

theorem readCrcFail_again (serves : chanServes d c = true) (few : (getChan d c).crcTries < 3) :
    readCrcFail c .other g false d = modChan c (fun y => { y with
      crcTries := y.crcTries + 1, retries := (d.clk.wall :: y.retries).take 17 }) d := by
  have again : readCrcFail c .other g false d = tryAgain c .other d := by simp [readCrcFail, serves, triesOf, few]
  rw [again, tryAgain, modChan_modChan]; rfl

theorem readCrcFail_fails (serves : chanServes d c = true) (waits : who = .other ∨ accessAt d c who ≠ none)
    (last : uncorr = true ∨ 3 ≤ triesOf d c who) : readCrcFail c who g uncorr d = readFail c who g d := by
  have met : (!chanServes d c || (who ≠ .other && (accessAt d c who).isNone)) = false := by
    obtain other | access := waits
    · simp [serves, other]
    · simp [serves, Option.isNone_eq_false_iff.mpr (Option.isSome_iff_ne_none.mpr access)]
  have ended : ¬ (!uncorr && decide (triesOf d c who < 3)) = true := by
    obtain uncorrectable | tries := last
    · simp [uncorrectable]
    · simp [Nat.not_lt.mpr tries]
  rw [readCrcFail, if_neg (Bool.eq_false_iff.mp met), if_neg ended]

/-- What a failed access leaves before its HALT: it is counted, and whoever waits for it gets nothing. -/
def accessLost (c : Nat) (who : Reader) (d : Dev) : Dev :=
  dropAccess who (modChan c (fun y => { y with crcTries := 0, readFail := y.readFail + 1 }) (draw 16 d).2)

/-- The HALT stops the partition that holds the channel; where none does, it is recorded. -/
theorem readFail_cases (c : Nat) (who : Reader) (g : BitVec 11) (d : Dev) :
    (∃ p detail, readFail c who g d = releasePins p (raise 2 (0x300 + c) 0x0303 p detail (accessLost c who d))) ∨
    ∃ detail, readFail c who g d = recordEvent 2 (0x300 + c) 0x0303 0xFF detail (accessLost c who d) := by
  unfold readFail; dsimp only
  split
  · exact .inl ⟨_, _, rfl⟩
  · exact .inr ⟨_, rfl⟩

/-- A failed access is a HALT, which leaves the channels and the tiles' requests alone. -/
theorem readFail_outcome (c : Nat) (who : Reader) (g : BitVec 11) (d : Dev) :
    let e := accessLost c who d
    let z := readFail c who g d
    z.chans = e.chans ∧ stillTiles z = stillTiles e ∧ z.flt.halts = e.flt.halts + 1 ∧ Entered 2 (0x300 + c) 0x0303 e z := by
  intro e z
  obtain ⟨p, detail, h⟩ | ⟨detail, h⟩ := readFail_cases c who g d
  · have pins : unstopped z = unstopped (raise 2 (0x300 + c) 0x0303 p detail e) :=
      (congrArg unstopped h).trans (unstopped_releasePins ..)
    have flt : z.flt = (raise 2 (0x300 + c) 0x0303 p detail e).flt := (congrArg (fun x => x.1.flt) pins :)
    exact ⟨(congrArg (fun x => x.1.chans) pins :).trans (chans_of_unraised (unraised_raise (Nat.le_refl 2) nofun ..)),
      (congrArg Prod.snd pins :).trans (stillTiles_raise ..), by rw [flt, raise_halt_halts],
      (raise_entered 2 _ 0x0303 p detail e).of_tget (by rw [flt])⟩
  · have same : z = recordEvent 2 (0x300 + c) 0x0303 0xFF detail e := h
    obtain ⟨f, halts, recorded⟩ := recordEvent_records 2 (0x300 + c) 0x0303 0xFF detail e
    have appended := recordEvent_appended 2 (0x300 + c) 0x0303 0xFF detail e
    rw [same]
    exact ⟨chans_of_unraised (unraised_recordEvent ..), appended.stillTiles_eq, (congrArg Flt.halts recorded.flt).trans halts,
      appended.entered⟩

theorem getChan_accessLost_other : getChan (accessLost c .other d) c =
    { getChan d c with crcTries := 0, readFail := (getChan d c).readFail + 1 } := getChan_modChan_same ..

theorem getChan_accessLost_tile (no : Fin 2304) (q : Fin 4) : getChan (accessLost c (.tile no q) d) c =
    { getChan d c with crcTries := 0, readFail := (getChan d c).readFail + 1 } :=
  (getChan_congr (modTile_chans ..) c).trans (getChan_modChan_same ..)

/-- The LOAD whose access has failed is gone from its tile. -/
theorem reqs_accessLost_tile {no : Fin 2304} {q : Fin 4} {r : MemReq} (oldest : oldestLoad (getTile d no.val) q.val = some r) :
    (getTile (accessLost c (.tile no q) d) no.val).reqs = (getTile d no.val).reqs.filter (fun z => z.id ≠ r.id) := by
  have same (e : Dev) (h : e.tiles = d.tiles) :
      (getTile (dropAccess (.tile no q) e) no.val).reqs = (getTile d no.val).reqs.filter (fun z => z.id ≠ r.id) := by
    simp only [dropAccess, getTile_modTile_same, getTile_congr h, oldest]
  exact same _ rfl

end

/-! ### Readings of the devices (R196, R197) -/

/-- Corrections are counted as they are read (R197). -/
def countEcc (c n : Nat) (d : Dev) : Dev :=
  modChan c (fun y => { y with eccAt := d.clk.wall, eccCorr := y.eccCorr + BitVec.ofNat 32 n }) d

/-- Corrections that are read raise a NOTE. -/
def eccNoted (c n : Nat) (d : Dev) : Dev :=
  let e := countEcc c n d
  if n = 0 then e else raise 0 (0x300 + c) 0x0302 (chanPart e c) 0 e

/-- The temperature is taken as it is read (R196). -/
def takeTemp (c : Nat) (temp : BitVec 8) (d : Dev) : Dev := modChan c (fun y => { y with tempAt := d.clk.wall, temp := temp }) d

theorem eccNoted_none (c : Nat) (d : Dev) : eccNoted c 0 d = modChan c (fun y => { y with eccAt := d.clk.wall }) d := by
  simp [eccNoted, countEcc]

/-- The NOTE leaves the channels alone, whatever it escalates to. -/
theorem eccNoted_some {n : Nat} (ch : Fin 48) (some_ : 0 < n) (d : Dev) :
    getChan (eccNoted ch n d) ch = { getChan d ch with
      eccAt := d.clk.wall, eccCorr := (getChan d ch).eccCorr + BitVec.ofNat 32 n } ∧
    Entered 0 (0x300 + ch.val) 0x0302 d (eccNoted ch n d) := by
  have noted : eccNoted ch n d = raise 0 (0x300 + ch.val) 0x0302 (chanPart (countEcc ch n d) ch) 0 (countEcc ch n d) :=
    if_neg (by omega)
  have chans := chans_of_unraised (noted ▸ unraised_raise (Nat.zero_le 2) (fun _ => by omega) ..)
  exact ⟨(getChan_congr chans ch).trans (getChan_modChan_same ..), (noted ▸ raise_entered ..).of_flt rfl⟩

/-- An event that comes at a moment gives what it makes of the module at that moment. -/
theorem atDue_gives_made {c : Instr} {s : State} {w : Nat} {f : Dev → Dev} (due : Gives c s (whenDue w f s.dev)) :
    AtDue w s.dev fun e => Gives c s (f e) :=
  ⟨fun now => by rwa [whenDue_now now] at due, fun later pass => by rwa [whenDue_later later pass] at due⟩

/-! ### Tiered reads (R233, R234) -/

/-- Corrections that the store counts leave every tile as it is but for its sequencer's state. -/
theorem stillTiles_countSoft (cs : List Nat) (d : Dev) : stillTiles (countSoft cs d) = stillTiles d := by
  unfold countSoft; dsimp only
  split
  · rfl
  · split
    · rfl
    · exact stillTiles_raise ..

/-- The store's bytes take the place of the first tiered piece of a request with this identity. -/
def serveReq (id : Nat) (b : List Byte) (y : MemReq) : MemReq :=
  if y.id = id then { y with pieces := serveFirst b y.pieces } else y

/-- They do so in each request of a tile that has it. -/
def serveTile (id : Nat) (b : List Byte) (t : Tile) : Tile := { t with reqs := t.reqs.map (serveReq id b) }

/-- Serving a request changes neither its kind nor its queue. -/
theorem isLoadOf_serveReq (q id : Nat) (b : List Byte) :
    (fun y : MemReq => !y.isStore && decide (y.q = q)) ∘ serveReq id b = fun y => !y.isStore && decide (y.q = q) := by
  funext y
  by_cases h : y.id = id <;> simp [serveReq, h]

/-- The oldest LOAD stays the oldest when it is served. -/
theorem oldestLoad_serveTile {t : Tile} {q : Nat} {r : MemReq} (oldest : oldestLoad t q = some r) (b : List Byte) :
    oldestLoad (serveTile r.id b t) q = some { r with pieces := serveFirst b r.pieces } := by
  have served : serveReq r.id b r = { r with pieces := serveFirst b r.pieces } := if_pos rfl
  rw [oldestLoad, serveTile, List.find?_map, isLoadOf_serveReq, ← oldestLoad, oldest, Option.map_some, served]

section
variable {no q : Nat} {corrected : Bool} {d : Dev} {x : Part} {r : MemReq} {a page n : Nat} {ctx : Bool} {rest : List Piece}
  (part : partOfTile d no = some x) (oldest : oldestLoad (getTile d no) q = some r) (tiered : r.pieces = ⟨n, .tier a page ctx⟩ :: rest)
include part oldest tiered

theorem tieredRead_serves {b : List Byte} (read : storeRd d a n = some b) : tieredRead no q corrected d =
    storeNote a n (modTile no (serveTile r.id b) (if corrected then countSoft [a / 4096] d else d)) := by
  simp only [tieredRead, part, oldest, tiered, List.findSome?_cons, read]; rfl

theorem tieredRead_uncorrectable_weights (fails : storeRd d a n = none) (weights : ctx = false) :
    tieredRead no q corrected d = raise 2 0x440 0x0403 x.pid (a / 2 ^ 26 + page * 2 ^ 32) d := by
  simp only [tieredRead, part, oldest, tiered, List.findSome?_cons, fails, weights]

theorem tieredRead_uncorrectable_context (fails : storeRd d a n = none) (context : ctx = true) (unslotted : r.slot = none) :
    tieredRead no q corrected d = raise 2 (0x340 + tileQ no) 0x0308 x.pid (memDetail page (a % 65536 / 32) 8 no 1) d := by
  simp only [tieredRead, part, oldest, tiered, List.findSome?_cons, fails, context, unslotted]

/-- The oldest LOAD has the store's bytes in place of its first piece. -/
theorem oldestLoad_tieredRead {b : List Byte} (read : storeRd d a n = some b) :
    ∃ r', oldestLoad (getTile (tieredRead no q corrected d) no) q = some r' ∧ r'.id = r.id ∧
      r'.pieces = ⟨n, .served b⟩ :: rest := by
  rw [tieredRead_serves part oldest tiered read]
  generalize hc : (if corrected then countSoft [a / 4096] d else d) = c
  have counted : stillTiles c = stillTiles d := hc ▸ ite_keeps stillTiles (stillTiles_countSoft ..)
  have before := (oldestLoad_congr (reqs_of_stillTiles counted no) q).trans oldest
  have after : stillTiles (storeNote a n (modTile no (serveTile r.id b) c)) = stillTiles (modTile no (serveTile r.id b) c) :=
    stillTiles_countSoft ..
  refine ⟨{ r with pieces := serveFirst b r.pieces }, ?_, rfl, (congrArg (serveFirst b) tiered :)⟩
  rw [oldestLoad_congr (reqs_of_stillTiles after no), getTile_modTile_same, oldestLoad_serveTile before]

/-- Without corrections to count the tile alone is written. -/
theorem onlyTile_tieredRead {b : List Byte} (read : storeRd d a n = some b) (uncorrected : corrected = false)
    (clean : d.store.soft = []) : onlyTile no d (tieredRead no q corrected d) := by
  have quiet : tieredRead no q corrected d = modTile no (serveTile r.id b) d := by
    rw [tieredRead_serves part oldest tiered read, uncorrected, if_neg Bool.false_ne_true, storeNote, modTile_store, clean]; rfl
  rw [quiet]; exact onlyTile_modTile ..

end

/-! ### The commands -/

section
variable {s : State} (up : awake s.dev = true) (ch : Fin 48)
include up

theorem gives_refresh (ns : Nat) (serves : (getChan s.dev ch.val).st = .up) : Gives (.refresh ch ns) s
    (modChan ch.val (fun c => { c with refreshNs := c.refreshNs + BitVec.ofNat 64 ns }) s.dev) :=
  gives_whenAwake rfl up (if_pos serves)

theorem gives_readCrcFail {who : Reader} {err : ReadErr} {e : Dev}
    (he : readCrcFail ch.val who err.granule err.uncorr s.dev = e) : Gives (.readCrcFail ch who err) s e :=
  gives_whenAwake rfl up he

theorem gives_eccRead (n : Nat) : Gives (.eccRead ch n) s
    (whenDue ((getChan s.dev ch.val).eccAt + msG 1) (eccNoted ch.val n) s.dev) := gives_whenAwake rfl up rfl

theorem gives_deviceTemperatureRead (temp : BitVec 8) : Gives (.deviceTemperatureRead ch temp) s
    (whenDue ((getChan s.dev ch.val).tempAt + msG 1) (takeTemp ch.val temp) s.dev) := gives_whenAwake rfl up rfl

omit ch in
theorem gives_tieredRead {no : Fin 2304} {q : Fin 4} {corrected : Bool} {e : Dev}
    (he : tieredRead no.val q.val corrected s.dev = e) : Gives (.tieredRead no q corrected) s e := gives_whenAwake rfl up he

end

/-- Settles O15: a HALT or a NOTE, to whatever it escalates, leaves the channels and the tiles' requests alone, so both are read off
what the event did before it. -/
theorem channelReadsAndCounts : Obligations.ChannelReadsAndCounts := by
  unfold Obligations.ChannelReadsAndCounts
  intro s ch up k
  refine ⟨gives_refresh up ch, ?again, ?fails, ?load, ?corrections, ?uncorrected, ?temperature, ?early, ?tiered⟩
  case again => exact fun g serves few => gives_readCrcFail up ch (readCrcFail_again serves few)
  case fails =>
    intro g uncorr serves last
    obtain ⟨chans, -, halts, entered⟩ := readFail_outcome ch.val .other g s.dev
    have chan := (getChan_congr chans ch.val).trans getChan_accessLost_other
    exact ⟨_, gives_readCrcFail up ch (readCrcFail_fails serves (.inl rfl) last), by rw [chan], by rw [chan], halts,
      entered.of_flt rfl⟩
  case load =>
    intro no q r g serves oldest access
    obtain ⟨chans, tiles, -, entered⟩ := readFail_outcome ch.val (.tile no q) g s.dev
    have chan := (getChan_congr chans ch.val).trans (getChan_accessLost_tile no q)
    refine ⟨_, gives_readCrcFail up ch (readCrcFail_fails serves (.inr access) (.inl rfl)), fun z hz => ?_, by rw [chan],
      entered.of_flt rfl⟩
    rw [reqs_of_stillTiles tiles, reqs_accessLost_tile oldest] at hz
    exact of_decide_eq_true (List.mem_filter.mp hz).2
  case corrections =>
    intro n some_
    refine atDue_gives (gives_eccRead up ch n) fun d h => ?_
    obtain ⟨chan, entered⟩ := eccNoted_some ch some_ d
    rw [getChan_congr (chans_of_untimed h)] at chan
    exact ⟨by rw [chan], by rw [chan], entered.of_flt (flt_of_untimed h)⟩
  case uncorrected =>
    have made := atDue_gives_made (gives_eccRead up ch 0)
    simp only [eccNoted_none] at made
    exact made
  case temperature => exact fun temp => atDue_gives_made (gives_deviceTemperatureRead up ch temp)
  case early => exact fun temp soon => notYet_gives (gives_deviceTemperatureRead up ch temp) soon
  case tiered =>
    intro no q corrected x r a page ctx n rest part oldest tiered
    refine ⟨fun b read => ?served, fun fails weights => ?weights, fun fails context unslotted => ?context⟩
    case served =>
      exact ⟨_, gives_tieredRead up rfl, oldestLoad_tieredRead part oldest tiered read,
        onlyTile_tieredRead part oldest tiered read⟩
    case weights =>
      exact ⟨_, gives_tieredRead up (tieredRead_uncorrectable_weights part oldest tiered fails weights), raise_entered ..⟩
    case context =>
      exact ⟨_, gives_tieredRead up (tieredRead_uncorrectable_context part oldest tiered fails context unslotted),
        raise_entered ..⟩

end Sys2Proof.Machine
end

section
/-!
SUPPORT. Copy slots and loads of a partition: what setting, freeing and flipping a slot and beginning a load leave in the partition's
record (R222, R224, R225), and what forced restarts leave of its live requests (R225, R227).
-/

namespace Sys2Proof.Machine

open Sys2Proof

/-! ### The weights of a partition -/

section
variable {p s m rank : Nat} {x : Part} {d : Dev} {c : CopySlot} {w : Weights}

theorem getPart_modW (here : getPart d p = some x) (f : Weights → Weights) :
    getPart (modW p f d) p = some { x with w := f x.w } := by
  rw [modW, getPart_modPart_same, here, Option.map_some]

/-- Weights with this in a copy slot. It does not unfold by itself: its fields and slots are read by the lemmas below. -/
@[irreducible] def putCopy (s : Nat) (c : CopySlot) (w : Weights) : Weights :=
  if s = 0 then { w with copy0 := c } else { w with copy1 := c }

theorem putCopy_cases (s : Nat) (c : CopySlot) (w : Weights) :
    putCopy s c w = { w with copy0 := c } ∨ putCopy s c w = { w with copy1 := c } := by
  unfold putCopy; split
  · exact .inl rfl
  · exact .inr rfl

theorem putCopy_loads : (putCopy s c w).loads = w.loads := by
  obtain h | h := putCopy_cases s c w <;> rw [h]

theorem putCopy_adapters : (putCopy s c w).adapters = w.adapters := by
  obtain h | h := putCopy_cases s c w <;> rw [h]

theorem putCopy_sel : (putCopy s c w).sel = w.sel := by
  obtain h | h := putCopy_cases s c w <;> rw [h]

theorem putCopy_flip : (putCopy s c w).flip = w.flip := by
  obtain h | h := putCopy_cases s c w <;> rw [h]

theorem setCopy_eq (p s : Nat) (c : CopySlot) : setCopy p s c = modW p (putCopy s c) := by
  unfold putCopy; rfl

theorem getPart_setCopy (here : getPart d p = some x) (s : Nat) (c : CopySlot) :
    getPart (setCopy p s c d) p = some { x with w := putCopy s c x.w } := by
  rw [setCopy_eq, getPart_modW here]

/-- A slot reads its part of the weights alone. -/
theorem getCopy_congr {y : Part} (first : y.w.copy0 = x.w.copy0) (second : y.w.copy1 = x.w.copy1) (k : Nat) :
    getCopy y k = getCopy x k := by simp only [getCopy, first, second]

theorem getCopy_putCopy_same (put : x.w = putCopy s c w) : getCopy x s = c := by
  rw [getCopy, put, putCopy]
  split <;> rfl

theorem getCopy_putCopy_twin {y : Part} (put : y.w = putCopy s c x.w) (two : s = 0 ∨ s = 1) :
    getCopy y (1 - s) = getCopy x (1 - s) := by
  rw [getCopy, put, putCopy]
  obtain rfl | rfl := two
  · rfl
  · rfl

/-- A freed slot is EMPTY, and nothing else of the partition's record changes (Table 8.9). -/
theorem getPart_freeCopy (here : getPart d p = some x) (s : Nat) :
    getPart (freeCopy p s d) p = some { x with w := putCopy s {} x.w } := by
  rw [freeCopy, withPart_some _ here]
  exact getPart_setCopy (d := freePages x (getCopy x s).first (getCopy x s).pages d) here s {}

/-! ### Flips (R225) -/

theorem flipSlot_two (x : Part) : flipSlot x = 0 ∨ flipSlot x = 1 := by
  unfold flipSlot
  split_ifs
  · exact .inr rfl
  · exact .inl rfl
  · exact .inl rfl
  · exact .inr rfl
  · omega

/-- An ACTIVE slot whose twin becomes ACTIVE is RETIRING. -/
def retired (c : CopySlot) : CopySlot := if c.st = .active then { c with st := .retiring } else c

/-- Weights whose ACTIVE slot has retired and whose select bit names another, as a flip leaves them. -/
def selectSlot (s : Nat) (w : Weights) : Weights :=
  { w with copy0 := retired w.copy0, copy1 := retired w.copy1, sel := s, flip := none }

/-- Weights after a flip to a slot, which holds this from then on. -/
def flipped (s : Nat) (c : CopySlot) (w : Weights) : Weights := putCopy s c (selectSlot s w)

theorem getCopy_selectSlot (k : Nat) : getCopy { x with w := selectSlot s x.w } k = retired (getCopy x k) := by
  unfold getCopy; split <;> rfl

theorem flipped_sel : (flipped s c w).sel = s := putCopy_sel

theorem flipped_flip : (flipped s c w).flip = none := putCopy_flip

theorem getCopy_flipped_twin {y : Part} (flip : y.w = flipped s c x.w) (two : s = 0 ∨ s = 1) :
    getCopy y (1 - s) = retired (getCopy x (1 - s)) := by
  rw [getCopy_putCopy_twin (x := { x with w := selectSlot s x.w }) flip two, getCopy_selectSlot]

theorem getPart_flipNow (here : getPart d p = some x) (own : x.pid = p) (s : Nat) :
    ∃ e, getPart (flipNow p s d) p =
      some { x with w := flipped s { getCopy x s with st := .active } x.w, eph := e } := by
  rw [flipNow, withPart_some _ here]
  exact getPart_ephRec (getPart_setCopy (getPart_modW here _) s _) own ..

/-! ### Loads that begin (R222, R223) -/

/-- A load as it begins, with the manifest of its primary source requested. -/
def newLoad (m : Nat) (t : LoadTarget) (rank : Nat) (pri alt : Source) (now : Nat) : Load where
  mbx := m
  target := t
  rank := rank
  pri := pri
  alt := alt
  useAlt := false
  manAt := some now
  priStatus := none
  man := none
  altChecked := false
  shards := []

theorem getPart_beginLoad (here : getPart d p = some x) (t : LoadTarget) (pri alt : Source) :
    getPart (beginLoad p m t rank pri alt d) p =
      some { x with w := { x.w with loads := x.w.loads ++ [newLoad m t rank pri alt d.clk.wall] } } :=
  getPart_modW here _

/-- A command begins a load of a partition: it stays ACCEPTED, the load joins those in progress, its copy slot is LOADING, and the
adapters and the serving engine stay as they are. -/
def LoadBegins (s : State) (m : Nat) (x : Part) (c : Instr) (t : LoadTarget) (rank : Nat) (pri alt : Source) : Prop :=
  ∃ (e : Dev) (y : Part) (l : Load), Gives c s e ∧ Begun m e ∧
    getPart e x.pid = some y ∧ y.w.loads = x.w.loads ++ [l] ∧ l.mbx = m ∧ l.target = t ∧ l.rank = rank ∧ l.pri = pri ∧ l.alt = alt ∧
    l.manAt = some s.dev.clk.wall ∧ l.man = none ∧ l.shards = [] ∧ (∀ k, t = .copy k → (getCopy y k).st = .loading) ∧
    y.w.adapters = x.w.adapters ∧ y.srv = x.srv

end

/-! ### Forced restarts (R225, R227) -/

/-- A request that is restarted waits again, with its delivered tokens behind its prompt. -/
def restart (upTo : BitVec 32) (r q : Req) : Req := { q with
  st := .waiting, slot := none, copy := none, gen := 0, prompt := r.prompt + r.delivered, maxNew := q.maxNew - q.delivered
  before := q.before + q.delivered, delivered := 0, prefilled := 0, voidTo := some upTo }

/-- What the restart of one request leaves of each. -/
def restartIf (upTo : BitVec 32) (r q : Req) : Req := if q.id = r.id then restart upTo r q else q

/-- What the restarts of a list of requests leave of one. -/
def restartBy (upTo : BitVec 32) (l : List Req) (q : Req) : Req := l.foldl (fun q r => restartIf upTo r q) q

section
variable {upTo : BitVec 32} {x y : Part} {d : Dev} {r q : Req} {l : List Req} {s : Nat}

theorem restartIf_id : (restartIf upTo r q).id = q.id := by unfold restartIf; split <;> rfl

theorem restartBy_nil : restartBy upTo [] = id := rfl

theorem restartBy_id : (restartBy upTo l q).id = q.id := by
  induction l generalizing q with
  | nil => rfl
  | cons r l ih => exact ih.trans restartIf_id

theorem restartIf_copy : (restartIf upTo r q).copy = q.copy ∨ (restartIf upTo r q).copy = none := by
  unfold restartIf; split
  · exact .inr rfl
  · exact .inl rfl

/-- No restart puts a request on a copy slot. -/
theorem restartBy_copy : (restartBy upTo l q).copy = q.copy ∨ (restartBy upTo l q).copy = none := by
  induction l generalizing q with
  | nil => exact .inl rfl
  | cons r l ih =>
    obtain kept | gone := ih (q := restartIf upTo r q)
    · exact restartIf_copy.imp kept.trans kept.trans
    · exact .inr gone

/-- A request that is restarted leaves its copy slot. -/
theorem restartBy_copy_of_mem (mem : r ∈ l) (same : q.id = r.id) : (restartBy upTo l q).copy = none := by
  induction l generalizing q with
  | nil => cases mem
  | cons a l ih =>
    obtain rfl | later := List.mem_cons.mp mem
    · have off : (restartIf upTo r q).copy = none := by rw [restartIf, if_pos same]; rfl
      obtain kept | gone := restartBy_copy (upTo := upTo) (l := l) (q := restartIf upTo r q)
      · exact kept.trans off
      · exact gone
    · exact ih later (restartIf_id.trans same)

/-- A request that is not in the list stays as it is. -/
theorem restartBy_other (other : ∀ r ∈ l, q.id ≠ r.id) : restartBy upTo l q = q := by
  induction l with
  | nil => rfl
  | cons r l ih =>
    have head : restartIf upTo r q = q := if_neg (other r (.head _))
    rw [restartBy, List.foldl_cons, head]
    exact ih fun a ha => other a (.tail _ ha)

/-- A request that stands once in the list is restarted once. -/
theorem restartBy_once (nodup : (l.map (·.id)).Nodup) (mem : q ∈ l) : restartBy upTo l q = restart upTo q q := by
  induction l with
  | nil => cases mem
  | cons r l ih =>
    obtain ⟨fresh, nodup⟩ := List.nodup_cons.mp nodup
    have unlike (a : Req) (ha : a ∈ l) : r.id ≠ a.id := fun same => fresh (List.mem_map.mpr ⟨a, ha, same.symm⟩)
    rw [restartBy, List.foldl_cons]
    obtain rfl | later := List.mem_cons.mp mem
    · rw [restartIf, if_pos rfl]
      exact restartBy_other unlike
    · rw [restartIf, if_neg (unlike q later).symm]
      exact ih nodup later

theorem getPart_restartReq (here : getPart d x.pid = some y) (own : y.pid = x.pid) (r : Req) :
    ∃ e, getPart (restartReq x r upTo d) x.pid =
      some { y with srv := { y.srv with reqs := y.srv.reqs.map (restartIf upTo r) }, eph := e } := by
  have changed : getPart (modReq x.pid r.id (restart upTo r) d) x.pid =
      some { y with srv := { y.srv with reqs := y.srv.reqs.map (restartIf upTo r) } } := by
    rw [modReq, modSrv, getPart_modPart_same, here]; rfl
  show ∃ e, getPart (reqRec x _ 0x09 _ r.id _ (modReq x.pid r.id (restart upTo r) d)) x.pid = _
  unfold reqRec
  split
  · exact getPart_ephRecAt changed own ..
  · exact ⟨y.eph, changed⟩

/-- Restarts change the live requests, each by its own restart, and the ephemeris. -/
theorem getPart_restartReqs (here : getPart d x.pid = some y) (own : y.pid = x.pid) (l : List Req) :
    ∃ e, getPart (forEach l (fun r => restartReq x r upTo) d) x.pid =
      some { y with srv := { y.srv with reqs := y.srv.reqs.map (restartBy upTo l) }, eph := e } := by
  induction l generalizing d y with
  | nil => exact ⟨y.eph, here.trans (by rw [restartBy_nil, List.map_id])⟩
  | cons r l ih =>
    obtain ⟨e, one⟩ := getPart_restartReq (upTo := upTo) here own r
    obtain ⟨f, rest⟩ := ih one own
    refine ⟨f, rest.trans ?_⟩
    simp only [List.map_map]
    rfl

/-- With distinct identifiers, a request is found by its own (R263). -/
theorem getReq_map_restartBy {reqs : List Req} (nodup : (reqs.map (·.id)).Nodup) (mem : q ∈ reqs)
    (listed : y.srv.reqs = reqs.map (restartBy upTo l)) : getReq y q.id = some (restartBy upTo l q) := by
  have found : reqs.find? (fun r => decide (r.id = q.id)) = some q := by
    have some_ : (reqs.find? (fun r => decide (r.id = q.id))).isSome := List.find?_isSome.mpr ⟨q, mem, decide_eq_true rfl⟩
    obtain ⟨a, ha⟩ := Option.isSome_iff_exists.mp some_
    rw [ha, List.inj_on_of_nodup_map nodup (List.mem_of_find?_eq_some ha) mem (by simpa using List.find?_some ha)]
  rw [getReq, listed, List.find?_map]
  simp only [Function.comp_def, restartBy_id, found, Option.map_some]

theorem mem_holders : q ∈ holders x s ↔ q ∈ x.srv.reqs ∧ q.copy = some s := by simp [holders]

/-- After the restart of a copy slot's holders no request is on it. -/
theorem restartBy_holders_copy (mem : q ∈ x.srv.reqs) : (restartBy upTo (holders x s) q).copy ≠ some s := by
  by_cases on : q.copy = some s
  · rw [restartBy_copy_of_mem (mem_holders.mpr ⟨mem, on⟩) rfl]; simp
  · obtain kept | gone := restartBy_copy (upTo := upTo) (l := holders x s) (q := q)
    · rwa [kept]
    · rw [gone]; simp

theorem restartBy_holders (nodup : (x.srv.reqs.map (·.id)).Nodup) (mem : q ∈ x.srv.reqs) (on : q.copy = some s) :
    restartBy upTo (holders x s) q = restart upTo q q :=
  restartBy_once (nodup.sublist (List.filter_sublist.map _)) (mem_holders.mpr ⟨mem, on⟩)

end

end Sys2Proof.Machine
end

section
/-! The obligation of the weight and adapter commands (R208, R222, R224, R229, R231). -/

namespace Sys2Proof.Machine

open Sys2Proof

theorem exec_weightLoad (m : Fin 64) (s : State) : exec (.weightLoad m) s = execWeightLoad m s := rfl
theorem exec_adapterLoad (m : Fin 64) (s : State) : exec (.adapterLoad m) s = execAdapterLoad m s := rfl
theorem exec_adapterDelete (m : Fin 64) (s : State) : exec (.adapterDelete m) s = execAdapterDelete m s := rfl
theorem exec_weightFlip (m : Fin 64) (s : State) : exec (.weightFlip m) s = execWeightFlip m s := rfl
theorem exec_weightRelease (k : Release) (s : State) : exec (.weightRelease k) s = execWeightRelease k s := rfl

section
variable {m : Fin 64} {s : State} {x y : Part} {d e : Dev}

theorem loadBegins_beginLoad {c : Instr} {t : LoadTarget} {rank : Nat} {pri alt : Source}
    (gives : Gives c s (beginLoad x.pid m t rank pri alt d)) (here : getPart d x.pid = some y)
    (wall : d.clk.wall = s.dev.clk.wall) (loads : y.w.loads = x.w.loads) (adapters : y.w.adapters = x.w.adapters)
    (srv : y.srv = x.srv) (slot : ∀ k, t = .copy k → (getCopy y k).st = .loading) : LoadBegins s m x c t rank pri alt := by
  refine ⟨_, _, newLoad m t rank pri alt d.clk.wall, gives, beginCmd_begun .., getPart_beginLoad here t pri alt, ?_,
    rfl, rfl, rfl, rfl, rfl, congrArg some wall, rfl, rfl, fun k hk => ?_, adapters, srv⟩
  · rw [loads]
  · exact (congrArg CopySlot.st (getCopy_congr rfl rfl k)).trans (slot k hk)

/-! ### WEIGHT_LOAD (R222, R224) -/

/-- What refuses the WEIGHT_LOAD of a mailbox before its manifest is read. -/
def weightRefusal (m : Nat) (x : Part) (d : Dev) : Option Nat :=
  let pl := payload d m
  loadRefusal d x (lf pl 2 2) (lf pl 4 1) (lf pl 5 1) (lf pl 8 8) (lf pl 16 8)

theorem gives_weightLoad_refused {st : Nat} (t : PartTurn 0x0310 m x s.dev) (refused : weightRefusal m x s.dev = some st) :
    Gives (.weightLoad m) s (answer m st 0 (toLe 4 noShard) s.dev) := by
  refine gives_partTurn (exec_weightLoad m s) t ?_
  dsimp only [weightRefusal] at refused ⊢
  rw [refused]

/-- A WEIGHT_LOAD that nothing refuses and that names a slot of an untiered plan goes by that slot's state. -/
theorem gives_weightLoad {slot : Nat} {c : CopySt} (t : PartTurn 0x0310 m x s.dev) (named : lf (payload s.dev m) 0 1 = slot)
    (taken : weightRefusal m x s.dev = none) (there : slot = 0 ∨ slot = 1 ∧ (x.info.map (·.wref)).map (·.double) = some true)
    (untiered : (x.info.map (·.wref)).map (·.tiered) = some false) (st : (getCopy x slot).st = c)
    (he : (let pl := payload s.dev m
      if c = .loading then answer m stBusy 0 (toLe 4 noShard) s.dev
      else if c ≠ .empty then answer m stNotReady 0 (toLe 4 noShard) s.dev
      else beginLoad x.pid m (.copy slot) (lf pl 2 2) (sourceOf (lf pl 4 1) (lf pl 8 8)) (sourceOf (lf pl 5 1) (lf pl 16 8))
        (setCopy x.pid slot { st := .loading } s.dev)) = e) : Gives (.weightLoad m) s e := by
  refine gives_partTurn (exec_weightLoad m s) t ?_
  dsimp only [weightRefusal] at taken ⊢
  rw [taken, named, st]
  refine (if_neg ?_).trans ((if_neg (by simp [untiered])).trans he)
  obtain rfl | ⟨rfl, double⟩ := there
  · simp
  · simp [double]

/-! ### ADAPTER_LOAD and ADAPTER_DELETE (R229, R231) -/

/-- A load in progress is of an adapter's handle. -/
def loadsHandle (h : BitVec 32) (l : Load) : Bool :=
  match l.target with
  | .adapter k _ => k = h
  | .copy _ => false

/-- The handle that a mailbox's request names. -/
def namedHandle (d : Dev) (m : Nat) : BitVec 32 := BitVec.ofNat 32 (lf (payload d m) 0 4)

/-- What refuses the ADAPTER_LOAD of a mailbox before its manifest is read. -/
def adapterRefusal (m : Nat) (x : Part) (d : Dev) : Option Nat :=
  let pl := payload d m
  loadRefusal d x (lf pl 4 2) (lf pl 6 1) (lf pl 7 1) (lf pl 8 8) (lf pl 16 8)

section
variable {i : PlanInfo} (t : PartTurn 0x0313 m x s.dev) (taken : adapterRefusal m x s.dev = none) (info : x.info = some i)
  (some_ : namedHandle s.dev m ≠ 0) (idle : x.w.loads.any (loadsHandle (namedHandle s.dev m)) = false)
include t taken info some_ idle

theorem gives_adapterLoad_noArea (full : freeArea x i.wref = none) :
    Gives (.adapterLoad m) s (answer m stNotReady 0 (toLe 4 noShard ++ [0xFF#8]) s.dev) := by
  refine gives_partTurn (exec_adapterLoad m s) t ?_
  dsimp only [adapterRefusal] at taken ⊢
  rw [taken, info]
  refine (if_neg some_).trans ((if_neg (Bool.eq_false_iff.mp idle)).trans ?_)
  rw [full]

theorem gives_adapterLoad {a : Nat} (free : freeArea x i.wref = some a) :
    let pl := payload s.dev m
    Gives (.adapterLoad m) s (beginLoad x.pid m (.adapter (namedHandle s.dev m) a) (lf pl 4 2)
      (sourceOf (lf pl 6 1) (lf pl 8 8)) (sourceOf (lf pl 7 1) (lf pl 16 8)) s.dev) := by
  refine gives_partTurn (exec_adapterLoad m s) t ?_
  dsimp only [adapterRefusal] at taken ⊢
  rw [taken, info]
  refine (if_neg some_).trans ((if_neg (Bool.eq_false_iff.mp idle)).trans ?_)
  rw [free]; rfl

end

section
variable (t : PartTurn 0x0314 m x s.dev)
include t

theorem gives_adapterDelete_busy (busy : x.w.loads.any (loadsHandle (namedHandle s.dev m)) = true) :
    Gives (.adapterDelete m) s (answer m stBusy 0 [] s.dev) :=
  gives_partTurn (exec_adapterDelete m s) t (if_pos busy)

theorem gives_adapterDelete_unknown (idle : x.w.loads.any (loadsHandle (namedHandle s.dev m)) = false)
    (unknown : x.w.adapters.any (fun a => a.handle = namedHandle s.dev m) = false) :
    Gives (.adapterDelete m) s (answer m stBadArg 0 [] s.dev) :=
  gives_partTurn (exec_adapterDelete m s) t ((if_neg (Bool.eq_false_iff.mp idle)).trans
    (if_pos (by rw [Bool.not_eq_true']; exact unknown)))

/-- Weights with a handle closed to admissions. -/
def closeHandle (h : BitVec 32) (w : Weights) : Weights :=
  { w with adapters := w.adapters.map (fun a => if a.handle = h then { a with deleting := true } else a) }

/-- In a running partition a deletion closes the handle, and the boundaries free its generations. -/
theorem gives_adapterDelete (idle : x.w.loads.any (loadsHandle (namedHandle s.dev m)) = false)
    (known : x.w.adapters.any (fun a => a.handle = namedHandle s.dev m) = true) (here : getPart s.dev x.pid = some x)
    (runs : x.plan = .running) :
    Gives (.adapterDelete m) s (answer m stOk 0 [] (modW x.pid (closeHandle (namedHandle s.dev m)) s.dev)) := by
  have closed := getPart_modW here (closeHandle (namedHandle s.dev m))
  refine gives_partTurn (exec_adapterDelete m s) t ((if_neg (Bool.eq_false_iff.mp idle)).trans
    ((if_neg (by rw [Bool.not_eq_true', Bool.not_eq_false]; exact known)).trans ?_))
  refine congrArg (answer m stOk 0 []) ?_
  exact (withPart_some _ closed).trans (if_pos runs)

end

/-! ### WEIGHT_FLIP (R224, R225) -/

/-- The flip that a mailbox's request asks for. -/
def namedFlip (m : Nat) (x : Part) (d : Dev) : Flip :=
  let pl := payload d m
  ⟨BitVec.ofNat 32 (lf pl 0 4), lf pl 4 1 = 1, lf pl 8 4, flipSlot x⟩

/-- A WEIGHT_FLIP to a VERIFIED slot of the plan's model takes effect at once where the plan does not run. -/
theorem gives_weightFlip {i : PlanInfo} {man : ManInfo} (t : PartTurn 0x0311 m x s.dev) (info : x.info = some i)
    (unflipped : x.w.flip = none) (verified : (getCopy x (flipSlot x)).st = .verified)
    (holds : (getCopy x (flipSlot x)).man = some man) (matches_ : matchesPlan i.wref man = true)
    (good : let pl := payload s.dev m
      x.plan = .running → lf pl 4 1 ≤ 1 ∧ 1 ≤ lf pl 8 4 ∧ lf pl 8 4 ≤ 2 ^ 24)
    (he : (if x.plan = .running then answer m stOk 0 [] (modW x.pid (fun w => { w with flip := some (namedFlip m x s.dev) }) s.dev)
      else answer m stOk 0 [] (flipNow x.pid (flipSlot x) s.dev)) = e) : Gives (.weightFlip m) s e := by
  refine gives_partTurn (exec_weightFlip m s) t ?_
  dsimp only at good ⊢
  rw [info]
  refine (if_neg ?_).trans ((if_neg ?_).trans ((if_neg ?_).trans ((if_neg ?_).trans he)))
  · simp only [Bool.and_eq_true, Bool.or_eq_true, decide_eq_true_eq]
    rintro ⟨runs, bad⟩
    have := good runs
    omega
  · simp [unflipped, verified]
  · exact not_not.mpr verified
  · simp [holds, matches_]

/-! ### WEIGHT_RELEASE (R224, R228, Table 8.9) -/

/-- Weights without a pending flip to a slot. -/
def dropFlip (k : Nat) (w : Weights) : Weights := { w with flip := if (w.flip.map (·.slot)) = some k then none else w.flip }

theorem getPart_release (here : getPart d x.pid = some y) (m k : Nat) :
    getPart (answer m stOk 0 [] (freeCopy x.pid k (modW x.pid (dropFlip k) d))) x.pid =
      some { y with w := putCopy k {} (dropFlip k y.w) } :=
  (getPart_answer ..).trans (getPart_freeCopy (getPart_modW here (dropFlip k)) k)

theorem getCopy_release_twin {k : Nat} (put : y.w = putCopy k {} (dropFlip k x.w)) (two : k = 0 ∨ k = 1) :
    getCopy y (1 - k) = getCopy x (1 - k) :=
  getCopy_putCopy_twin (x := { x with w := dropFlip k x.w }) put two

section
variable {force : Bool} {k : Nat} (t : PartTurn 0x0312 m x s.dev) (named : lf (payload s.dev m) 0 1 = k) (two : k = 0 ∨ k = 1)
include t named two

/-- A slot that is VERIFIED or RETIRING is released as the partition stands. -/
theorem gives_weightRelease_unheld (st : (getCopy x k).st = .verified ∨ (getCopy x k).st = .retiring) :
    Gives (.weightRelease ⟨m, force⟩) s (answer m stOk 0 [] (freeCopy x.pid k (modW x.pid (dropFlip k) s.dev))) := by
  refine gives_partTurn (exec_weightRelease ⟨m, force⟩ s) t ?_
  dsimp only
  rw [named]
  refine (if_neg (by omega)).trans ((if_pos ?_).trans ?_)
  · obtain st | st := st <;> simp [st]
  · rw [if_neg (by obtain st | st := st <;> simp [st])]; rfl

/-- An ACTIVE slot is released once its holders have been restarted. -/
theorem gives_weightRelease_active (st : (getCopy x k).st = .active) (stands : x.plan ≠ .running)
    (may : force = true ∨ holders x k = []) :
    Gives (.weightRelease ⟨m, force⟩) s (answer m stOk 0 [] (freeCopy x.pid k (modW x.pid (dropFlip k)
      (forEach (holders x k) (fun r => restartReq x r x.orbit) s.dev)))) := by
  refine gives_partTurn (exec_weightRelease ⟨m, force⟩ s) t ?_
  dsimp only
  rw [named]
  refine (if_neg (by omega)).trans ((if_pos ?_).trans ?_)
  · simpa [st, stands] using may
  · rw [if_pos st]; rfl

/-- A release that cannot be is BUSY while the slot is LOADING, and NOT_READY else. -/
theorem gives_weightRelease_refused {c : CopySt} {status : Nat} (st : (getCopy x k).st = c) (unverified : c ≠ .verified)
    (unretiring : c ≠ .retiring) (held : c = .active → x.plan = .running ∨ force = false ∧ holders x k ≠ [])
    (told : (if c = .loading then stBusy else stNotReady) = status) :
    Gives (.weightRelease ⟨m, force⟩) s (answer m status 0 [] s.dev) := by
  refine gives_partTurn (exec_weightRelease ⟨m, force⟩ s) t ?_
  dsimp only
  rw [named, st, told]
  refine (if_neg (by omega)).trans (if_neg ?_)
  simp only [Bool.or_eq_true, Bool.and_eq_true, decide_eq_true_eq, List.isEmpty_iff]
  rintro ((verified | retiring) | ⟨⟨active, stands⟩, may⟩)
  · exact unverified verified
  · exact unretiring retiring
  · obtain runs | ⟨unforced, some_⟩ := held active
    · exact stands runs
    · exact may.elim (fun forced => Bool.false_ne_true (unforced.symm.trans forced)) some_

end

end

/-- Settles O36: each command by the branch of its meaning, with the partition read back from the table. -/
theorem weightCommands : Obligations.WeightCommands := by
  unfold Obligations.WeightCommands
  intro s m force x here d pl slot h loading begun
  refine ⟨fun t => ⟨fun _ => gives_weightLoad_refused t, fun taken there untiered => ⟨fun st => ?busy, fun st => ?weight⟩⟩,
    fun t i a taken info some_ idle => ⟨gives_adapterLoad_noArea t taken info some_ idle, fun free => ?adapter⟩,
    fun t => ⟨gives_adapterDelete_busy t, gives_adapterDelete_unknown t, fun idle known runs => ?delete⟩,
    fun t i man info unflipped verified holds fits => ⟨fun runs policy low high => ?pending, fun stands => ?flip⟩,
    fun t two => ⟨fun st => ?unheld, fun st stands may => ?active, fun st held => ?held, fun st => ?loads, fun st => ?empty⟩⟩
  case busy => exact gives_weightLoad (slot := slot) t rfl taken there untiered st (if_pos rfl)
  case weight =>
    have starts := gives_weightLoad (slot := slot) t rfl taken there untiered st
      ((if_neg (by decide)).trans (if_neg (by decide)))
    refine loadBegins_beginLoad starts (getPart_setCopy here slot _) (congrArg Clk.wall (modPart_clk ..)) putCopy_loads
      putCopy_adapters rfl fun k hk => ?_
    rw [← LoadTarget.copy.inj hk, getCopy_putCopy_same rfl]
  case adapter =>
    exact loadBegins_beginLoad (gives_adapterLoad t taken info some_ idle free) here rfl rfl rfl rfl fun _ => (nomatch ·)
  case delete =>
    exact ⟨_, _, gives_adapterDelete t idle known here runs, answered_answer (by decide),
      (getPart_answer ..).trans (getPart_modW here _), rfl⟩
  case pending =>
    exact ⟨_, gives_weightFlip t info unflipped verified holds fits (fun _ => ⟨policy, low, high⟩) (if_pos runs),
      answered_answer (by decide), (getPart_answer ..).trans (getPart_modW here _)⟩
  case flip =>
    obtain ⟨e, done⟩ := getPart_flipNow here rfl (flipSlot x)
    refine ⟨_, _, gives_weightFlip t info unflipped verified holds fits (fun runs => absurd runs stands) (if_neg stands),
      answered_answer (by decide), (getPart_answer ..).trans done, ?_, flipped_sel, flipped_flip, fun st => ?_⟩
    · exact getCopy_putCopy_same rfl
    · exact (getCopy_flipped_twin rfl (flipSlot_two x)).trans (if_pos st)
  case unheld =>
    exact ⟨_, _, gives_weightRelease_unheld t rfl two st, answered_answer (by decide), getPart_release here m slot,
      getCopy_putCopy_same rfl, getCopy_release_twin rfl two⟩
  case active =>
    obtain ⟨e, restarted⟩ := getPart_restartReqs (upTo := x.orbit) here rfl (holders x slot)
    refine ⟨_, _, gives_weightRelease_active t rfl two st stands may, answered_answer (by decide),
      getPart_release restarted m slot, getCopy_putCopy_same rfl, getCopy_release_twin rfl two, fun q mem => ?_,
      fun nodup q mem on => ?_⟩
    · obtain ⟨r, listed, rfl⟩ := List.mem_map.mp mem
      exact restartBy_holders_copy listed
    · refine ⟨_, getReq_map_restartBy nodup mem rfl, ?_⟩
      rw [restartBy_holders nodup mem on]
      exact ⟨rfl, rfl, rfl, rfl, rfl⟩
  case held => exact gives_weightRelease_refused t rfl two st (by decide) (by decide) (fun _ => held) rfl
  case loads => exact gives_weightRelease_refused t rfl two st (by decide) (by decide) (nomatch ·) rfl
  case empty => exact gives_weightRelease_refused t rfl two st (by decide) (by decide) (nomatch ·) rfl

end Sys2Proof.Machine
end

section
/-! The obligation of the page commands (R239, Tables 9.3 and 9.4). -/

namespace Sys2Proof.Machine

open Sys2Proof

theorem exec_pageMap (m : Fin 64) (s : State) : exec (.pageMap m) s = execPageMap m s := rfl
theorem exec_pageUnmap (m : Fin 64) (s : State) : exec (.pageUnmap m) s = execPageUnmap m s := rfl
theorem exec_pageRead (m : Fin 64) (s : State) : exec (.pageRead m) s = execPageRead m s := rfl

/-! ### The commands -/

section
variable {m : Fin 64} {s : State} {x : Part}

theorem gives_pageMap (t : PartTurn 0x0401 m x s.dev) :
    let pl := payload s.dev m
    1 ≤ lf pl 4 2 → lf pl 4 2 ≤ 507 → lf pl 6 1 < 8 →
      let z := mapPages x.pid (lf pl 6 1) (lf pl 4 2) (lf pl 0 4) (lf pl 8 4) [] s.dev
      Gives (.pageMap m) s (answer m z.1 0 (toLe 2 z.2.1.length ++ [0#8, 0#8] ++ z.2.1.flatMap (toLe 4)) z.2.2) := by
  dsimp only
  intro some_ few flags
  refine gives_partTurn (exec_pageMap m s) t (if_neg ?_)
  simp only [Bool.or_eq_true, decide_eq_true_eq]
  omega

theorem gives_pageUnmap (t : PartTurn 0x0402 m x s.dev) :
    let pl := payload s.dev m
    1 ≤ lf pl 4 2 → lf pl 4 2 ≤ 1024 →
      let z := unmapPages x (lf pl 4 2) (lf pl 0 4) 0 s.dev
      Gives (.pageUnmap m) s (answer m z.1 0 (toLe 2 z.2.1) z.2.2) := by
  dsimp only
  intro some_ few
  refine gives_partTurn (exec_pageUnmap m s) t (if_neg ?_)
  simp only [Bool.or_eq_true, decide_eq_true_eq]
  omega

theorem gives_pageRead (t : PartTurn 0x0403 m x s.dev) :
    let first := lf (payload s.dev m) 0 4
    let n := lf (payload s.dev m) 4 2
    1 ≤ n → n ≤ 254 → first + n ≤ 1048576 → (∀ i, i < n → x.mask.getLsbD ((first + i) / 65536) = true) →
      Gives (.pageRead m) s (answer m stOk 0 ((List.range n).flatMap (fun i => toLe 8 (cptE s.dev (first + i)))) s.dev) := by
  intro first n some_ few last own
  refine gives_partTurn (exec_pageRead m s) t ((if_neg ?_).trans (if_neg ?_))
  · simp only [Bool.or_eq_true, decide_eq_true_eq]
    omega
  · simp only [List.any_eq_true, List.mem_range, Bool.or_eq_true, decide_eq_true_eq, Bool.not_eq_true']
    rintro ⟨i, hi, high | foreign⟩
    · omega
    · exact Bool.false_ne_true (foreign.symm.trans (own i hi))

end

/-! ### One page (Table 9.3) -/

/-- A page index outside the partition (R239). -/
theorem pageOutside_iff {x : Part} {i : Nat} : (decide (1048576 ≤ i) || !x.mask.getLsbD (i / 65536)) = true ↔
    1048576 ≤ i ∨ x.mask.getLsbD (i / 65536) = false := by simp

/-- A page that the command maps to a frame of GDDR7, writable: the frame is written to 0 and the rotation goes on behind it. -/
def mapFrame (p i f : Nat) (d : Dev) : Dev :=
  { setCpt i (1 + 8 + f * 256) { d with gddr := zeroBs d.gddr (f * 65536) 65536, rot := tput d.rot p (f / 65536 + 1) } with
    cptBad := d.cptBad.filter (· ≠ i) }

section
variable {d : Dev} {p i f flags u : Nat} {x : Part}

theorem cptE_mapFrame_same (fits : f < 2 ^ 32) : cptE (mapFrame p i f d) i = 1 + 8 + f * 256 :=
  (cptE_setCpt_same i (1 + 8 + f * 256) _).trans (Nat.mod_eq_of_lt (by omega))

theorem cptE_mapFrame_other {j : Nat} (h : j ≠ i) : cptE (mapFrame p i f d) j = cptE d j := cptE_setCpt_other _ _ h

theorem rdB_mapFrame (a : Nat) :
    rdB (mapFrame p i f d).gddr a = if f * 65536 ≤ a ∧ a < f * 65536 + 65536 then 0 else rdB d.gddr a := rdB_zeroBs ..

section
variable (here : getPart d p = some x)
include here

theorem mapPage_outside (out : 1048576 ≤ i ∨ x.mask.getLsbD (i / 65536) = false) : mapPage p i flags u d = (stDenied, 0, d) := by
  simp only [mapPage, here]
  exact if_pos (pageOutside_iff.mpr out)

variable (low : i < 1048576) (own : x.mask.getLsbD (i / 65536) = true)
include low own

theorem mapPage_frame (unmapped : eValid (cptE d i) = false) (free : freeFrame d x = some f) :
    mapPage p i 2 u d = (stOk, f, mapFrame p i f d) := by
  simp only [mapPage, here, Nat.not_le.mpr low, own, unmapped, free]; rfl

theorem mapPage_mapped (valid : eValid (cptE d i) = true) (idle : (ePinned (cptE d i) || eLock (cptE d i)) = false) :
    mapPage p i flags u d = (stBadArg, 0, d) := by
  simp only [mapPage, here, Nat.not_le.mpr low, own, valid, idle]; rfl

theorem mapPage_inUse (valid : eValid (cptE d i) = true) (used : (ePinned (cptE d i) || eLock (cptE d i)) = true) :
    ∃ st, (st = stBusy ∨ st = stBadArg) ∧ mapPage p i flags u d = (st, 0, { d with free := d.free + 1 }) := by
  refine ⟨if (draw 1 d).1 = 1#1 then stBusy else stBadArg, (ite_eq_or_eq ..), ?_⟩
  simp only [mapPage, here, Nat.not_le.mpr low, own, valid, used]; rfl

end

theorem unmapPage_outside (out : 1048576 ≤ i ∨ x.mask.getLsbD (i / 65536) = false) : unmapPage x i d = (stDenied, d) :=
  if_pos (pageOutside_iff.mpr out)

section
variable (low : i < 1048576) (own : x.mask.getLsbD (i / 65536) = true)
include low own

theorem unmapPage_unmapped (unmapped : eValid (cptE d i) = false) : unmapPage x i d = (stBadArg, d) := by
  simp only [unmapPage, Nat.not_le.mpr low, own, unmapped]; rfl

variable (valid : eValid (cptE d i) = true)
include valid

theorem unmapPage_inUse (used : (ePinned (cptE d i) || eLock (cptE d i)) = true) : unmapPage x i d = (stBusy, d) := by
  simp only [unmapPage, Nat.not_le.mpr low, own, valid, used]; rfl

theorem unmapPage_idle (idle : (ePinned (cptE d i) || eLock (cptE d i)) = false) :
    unmapPage x i d = (stOk, { setCpt i 0 d with cptBad := d.cptBad.filter (· ≠ i) }) := by
  simp only [unmapPage, Nat.not_le.mpr low, own, valid, idle]; rfl

end

end

/-- Settles O17: each command answers what its run over the pages gave, and each page goes by the row of Table 9.3 that its entry
meets. -/
theorem pageCommands : Obligations.PageCommands := by
  unfold Obligations.PageCommands
  intro s m x pl first n
  refine ⟨fun t some_ few flags => ⟨_, _, _, rfl, gives_pageMap t some_ few flags⟩,
    fun t some_ few => ⟨_, _, _, rfl, gives_pageUnmap t some_ few⟩, gives_pageRead, ?frame, ?rows⟩
  case frame =>
    intro d p i u f here low own unmapped free fits
    refine ⟨_, mapPage_frame here low own unmapped free, cptE_mapFrame_same fits, fun a above below => ?_, fun a away => ?_,
      fun j => cptE_mapFrame_other⟩
    · rw [rdB_mapFrame, if_pos ⟨above, below⟩]
    · rw [rdB_mapFrame, if_neg (by omega)]
  case rows =>
    intro d p i u flags here
    refine ⟨fun out => ⟨mapPage_outside here out, unmapPage_outside out⟩, fun low own => ⟨mapPage_mapped here low own,
      mapPage_inUse here low own, unmapPage_unmapped low own, unmapPage_inUse low own, fun valid idle => ?_⟩⟩
    rw [unmapPage_idle low own valid idle]
    exact ⟨rfl, cptE_setCpt_same i 0 d, rfl⟩

end Sys2Proof.Machine
end

section
/-!
SUPPORT. DMA channels: what an update of one channel and its interrupt leave of the module, and a host's doorbell at a unit (R248, R255).
-/

namespace Sys2Proof.Machine

open Sys2Proof

/-- A host's doorbell at a running unit, on a stream that carries traffic. -/
theorem gives_whenBell {s : State} {f : Dev → Dev} {c : Instr} {e : Dev} (h : exec c s = on (whenBell f) s)
    (up : awake s.dev = true) (secure : ioSecure s.dev = true) (he : f s.dev = e) : Gives c s e := by
  rw [Gives, h, on_eq, whenBell_runs up secure, he]

section
variable {c : Nat} {f g : Dma → Dma} {d e : Dev}

theorem getDma_congr (h : e.dma = d.dma) (k : Nat) : getDma e k = getDma d k := by simp [getDma, h]

/-- An update of a channel reads the channel alone. -/
theorem modDma_congr (same : f (getDma d c) = g (getDma d c)) : modDma c f d = modDma c g d := by simp only [modDma, same]

theorem getDma_dmaIrq_same : getDma (dmaIrq c f d) c = f (getDma d c) :=
  (getDma_congr (congrArg Dev.dma (raiseVec_frame (66 + c) (modDma c f d)) :) c).trans (getDma_modDma_same ..)

theorem getDma_dmaIrq_other {k : Nat} (h : k ≠ c) : getDma (dmaIrq c f d) k = getDma d k :=
  (getDma_congr (congrArg Dev.dma (raiseVec_frame (66 + c) (modDma c f d)) :) k).trans (getDma_modDma_other d f h)

/-- An interrupt changes its channel, and raises the channel's vector (R255). -/
theorem dmaIrq_frame : { dmaIrq c f d with dma := d.dma, msix := d.msix, out := d.out } = d :=
  (congrArg (fun e : Dev => { e with dma := d.dma }) (raiseVec_frame (66 + c) (modDma c f d)) :)

end

end Sys2Proof.Machine
end

section
/-! The obligation of the registers of a DMA channel (R254 to R256, Table 9.8). -/

namespace Sys2Proof.Machine

open Sys2Proof

theorem exec_dmaEn (c : Fin 32) (v : Bool) (s : State) : exec (.dmaEn c v) s = on (whenBell (dmaEn c v)) s := rfl
theorem exec_abort (c : Fin 32) (s : State) : exec (.abort c) s = on (whenBell (dmaAbort c)) s := rfl
theorem exec_resume (c : Fin 32) (s : State) : exec (.resume c) s = on (whenBell (dmaResume c)) s := rfl
theorem exec_tail (c : Fin 32) (v : BitVec 16) (s : State) : exec (.tail c v) s = on (whenBell (dmaTail c v)) s := rfl

/-- A channel that EN may start: its ring is well formed, a partition holds it, and the crater map does not mark it (R255, R430). -/
def Startable (c : Nat) (d : Dev) : Prop :=
  let x := getDma d c
  1 ≤ x.ringSize.toNat ∧ x.ringSize.toNat ≤ 16 ∧ x.ringBase.toNat % 4096 = 0 ∧ (dmaPart d c).isSome = true ∧
    d.crater.force.dma.contains c = false

section
variable {c : Nat} {d : Dev}

theorem startable_iff : (decide (1 ≤ (getDma d c).ringSize.toNat) && decide ((getDma d c).ringSize.toNat ≤ 16) &&
    decide ((getDma d c).ringBase.toNat % 4096 = 0) && (dmaPart d c).isSome && !d.crater.force.dma.contains c) = true ↔
    Startable c d := by
  simp only [Bool.and_eq_true, decide_eq_true_eq, Bool.not_eq_true', and_assoc, Startable]

/-! ### EN (R255) -/

theorem dmaEn_starts (idle : (getDma d c).st = .idle) (good : Startable c d) :
    dmaEn c true d = modDma c (fun x => { x with en := true, st := .run, stallOwn := false }) d := by
  unfold dmaEn; dsimp only
  rw [if_pos rfl, if_neg (not_not.mpr idle), if_pos (startable_iff.mpr good)]

theorem dmaEn_cfgErr (idle : (getDma d c).st = .idle) (bad : ¬ Startable c d) :
    dmaEn c true d = modDma c (fun x => { x with en := false, cfgErr := true }) d := by
  unfold dmaEn; dsimp only
  rw [if_pos rfl, if_neg (not_not.mpr idle), if_neg (mt startable_iff.mp bad)]

theorem dmaEn_again (busy : (getDma d c).st ≠ .idle) : dmaEn c true d = d := by
  unfold dmaEn; dsimp only
  rw [if_pos rfl, if_pos busy]

/-- The state in which EN 0 leaves a channel. -/
def stateOff (x : Dma) : DmaSt :=
  match x.st with
  | .run => if x.cur.isSome then .aborting else .idle
  | .stopped => .idle
  | st => st

theorem stateOff_busy {x : Dma} (runs : x.st = .run) (busy : x.cur.isSome = true) : stateOff x = .aborting := by
  simp [stateOff, runs, busy]

theorem stateOff_free {x : Dma} (runs : x.st = .run) (free : x.cur = none) : stateOff x = .idle := by
  simp [stateOff, runs, free]

theorem dmaEn_off : dmaEn c false d = modDma c (fun x => { x with en := false, st := stateOff x }) d := rfl

theorem getDma_dmaEn_off : getDma (dmaEn c false d) c = { getDma d c with en := false, st := stateOff (getDma d c) } := by
  rw [dmaEn_off, getDma_modDma_same]

/-! ### ABORT (R254), RESUME (R255) and TAIL (R256) -/

theorem dmaAbort_busy (runs : (getDma d c).st = .run) (busy : (getDma d c).cur.isSome = true) :
    dmaAbort c d = modDma c (fun x => { x with abort := true, st := .aborting }) d :=
  (if_neg (not_not.mpr runs)).trans (if_pos busy)

theorem dmaAbort_free (runs : (getDma d c).st = .run) (free : (getDma d c).cur = none) :
    dmaAbort c d = dmaIrq c (fun x => { x with st := .stopped, irqAbort := true }) d :=
  (if_neg (not_not.mpr runs)).trans (if_neg (by simp [free]))

theorem dmaResume_stopped (stopped : (getDma d c).st = .stopped) :
    dmaResume c d = modDma c (fun x => { x with st := .run, stallOwn := false }) d := modDma_congr (if_pos stopped)

theorem dmaTail_inside {v : BitVec 16} (inside : v.toNat < 2 ^ (getDma d c).ringSize.toNat) :
    dmaTail c v d = modDma c (fun x => { x with tail := v, stallOwn := false }) d := modDma_congr (if_neg (Nat.not_le.mpr inside))

theorem dmaTail_outside {v : BitVec 16} (outside : 2 ^ (getDma d c).ringSize.toNat ≤ v.toNat) :
    dmaTail c v d = modDma c (fun x => { x with cfgErr := true }) d := modDma_congr (if_pos outside)

/-! ### The other channels -/

section
variable {k : Nat} (other : k ≠ c)
include other

theorem getDma_dmaEn_other (v : Bool) : getDma (dmaEn c v d) k = getDma d k := by
  unfold dmaEn; dsimp only
  split_ifs
  · rfl
  · exact getDma_modDma_other d _ other
  · exact getDma_modDma_other d _ other
  · exact getDma_modDma_other d _ other

theorem getDma_dmaAbort_other : getDma (dmaAbort c d) k = getDma d k := by
  unfold dmaAbort; dsimp only
  split_ifs
  · rfl
  · exact getDma_modDma_other d _ other
  · exact getDma_dmaIrq_other other

theorem getDma_dmaResume_other : getDma (dmaResume c d) k = getDma d k := getDma_modDma_other d _ other

end

end

/-- Settles O18: each write by the state it meets, and none reaches another channel. -/
theorem dmaRegistersAct : Obligations.DmaRegistersAct := by
  unfold Obligations.DmaRegistersAct
  intro s c up secure x good
  have en (v : Bool) {e : Dev} (he : dmaEn c v s.dev = e) : Gives (.dmaEn c v) s e := gives_whenBell (exec_dmaEn c v s) up secure he
  have abort {e : Dev} (he : dmaAbort c s.dev = e) : Gives (.abort c) s e := gives_whenBell (exec_abort c s) up secure he
  have resume {e : Dev} (he : dmaResume c s.dev = e) : Gives (.resume c) s e := gives_whenBell (exec_resume c s) up secure he
  have tail (v : BitVec 16) {e : Dev} (he : dmaTail c v s.dev = e) : Gives (.tail c v) s e :=
    gives_whenBell (exec_tail c v s) up secure he
  refine ⟨fun idle ok => en true (dmaEn_starts idle ok), fun idle bad => en true (dmaEn_cfgErr idle bad),
    fun busy => en true (dmaEn_again busy), fun runs busy => ⟨_, en false rfl, ?aborting, ?disabled, rfl⟩,
    fun runs free => ⟨_, en false rfl, ?idle, ?off⟩, fun runs busy => abort (dmaAbort_busy runs busy),
    fun runs free => ⟨_, abort (dmaAbort_free runs free), getDma_dmaIrq_same, dmaIrq_frame⟩,
    fun stopped => resume (dmaResume_stopped stopped), fun v inside => tail v (dmaTail_inside inside),
    fun v outside => tail v (dmaTail_outside outside), fun k other v d => ?others⟩
  case aborting => rw [getDma_dmaEn_off]; exact stateOff_busy runs busy
  case disabled => rw [getDma_dmaEn_off]
  case idle => rw [getDma_dmaEn_off]; exact stateOff_free runs free
  case off => rw [getDma_dmaEn_off]
  case others =>
    rintro (gives | gives | gives)
    · rw [gives.unique (en v rfl), getDma_dmaEn_other other]
    · rw [gives.unique (abort rfl), getDma_dmaAbort_other other]
    · rw [gives.unique (resume rfl), getDma_dmaResume_other other]

end Sys2Proof.Machine
end

section
/-!
SUPPORT. Descriptors of a DMA channel: what taking a page's lock, ending a descriptor, a burst and a write-back leave of the channel
and of the module (R249 to R254).
-/

namespace Sys2Proof.Machine

open Sys2Proof

/-! ### Bytes written -/

theorem rdBs_wrBs_length {m : Mem} {a n : Nat} {bs : List Byte} (length : bs.length = n) : rdBs (wrBs m a bs) a n = bs :=
  length ▸ rdBs_wrBs_same m a bs

/-- A middle part of what is written reads back behind the first. -/
theorem rdBs_wrBs_middle (m : Mem) (a : Nat) (l k r : List Byte) :
    rdBs (wrBs m a (l ++ (k ++ r))) (a + l.length) k.length = k := by
  have tail := rdBs_wrBs_append m a l (k ++ r)
  rw [List.length_append, rdBs_add] at tail
  exact (List.append_inj tail (length_rdBs ..)).1

/-! ### A module but for its DMA channels -/

/-- A module but for its DMA channels, the entries of its context pages, and what its channels of GDDR7 count. -/
def unshipped (d : Dev) : Dev := { d with dma := [], cpt := [], chans := [], mm := [] }

section
variable {c : Nat} {x y : DmaXfer} {d e : Dev}

theorem host_of_unshipped (h : unshipped e = unshipped d) : e.host = d.host := (congrArg Dev.host h :)

theorem gddr_of_unshipped (h : unshipped e = unshipped d) : e.gddr = d.gddr := (congrArg Dev.gddr h :)

theorem hostOk_of_unshipped (h : unshipped e = unshipped d) (a n : Nat) : hostOk e a n = hostOk d a n :=
  (congrArg (hostOk · a n) h :)

theorem unshipped_setCpt (i v : Nat) (d : Dev) : unshipped (setCpt i v d) = unshipped d := rfl

theorem dma_setCpt (i v : Nat) (d : Dev) : (setCpt i v d).dma = d.dma := rfl

theorem unshipped_unlockPage (x : DmaXfer) (d : Dev) : unshipped (unlockPage x d) = unshipped d := by
  unfold unlockPage; split <;> rfl

theorem dma_unlockPage (x : DmaXfer) (d : Dev) : (unlockPage x d).dma = d.dma := by
  unfold unlockPage; split <;> rfl

/-! ### The end of a descriptor (R252, R253) -/

/-- A module with a descriptor's pages as its end leaves them: its lock is gone, and a page whose data ends inside it is
INCOMPLETE. -/
def endPages (x : DmaXfer) (d : Dev) : Dev :=
  let d := unlockPage x d
  if !x.toHost && 0 < x.moved && x.moved < x.len && xferOff x ≠ 0 then
    let e := cptE d (xferPage x)
    setCpt (xferPage x) (setBit (e - eResume e * 2 ^ 40 + xferOff x * 2 ^ 40) 6 true) d
  else d

/-- A descriptor that has ended with a status. -/
def endedXfer (status : Nat) (x : DmaXfer) : DmaXfer := { x with lock := none, tries := 0, ended := some (BitVec.ofNat 8 status) }

theorem endXfer_eq (cur : (getDma d c).cur = some x) (status : Nat) : endXfer c status d =
    modDma c (fun y => { endLockWait (endPages x d).clk.wall y with cur := some (endedXfer status x) }) (endPages x d) := by
  rw [endXfer, cur]; rfl

theorem unshipped_endPages (x : DmaXfer) (d : Dev) : unshipped (endPages x d) = unshipped d :=
  (ite_keeps unshipped (unshipped_setCpt ..)).trans (unshipped_unlockPage x d)

theorem getDma_endPages (x : DmaXfer) (d : Dev) (k : Nat) : getDma (endPages x d) k = getDma d k :=
  getDma_congr ((ite_keeps Dev.dma (dma_setCpt ..)).trans (dma_unlockPage x d)) k

theorem unshipped_endXfer (cur : (getDma d c).cur = some x) (status : Nat) : unshipped (endXfer c status d) = unshipped d := by
  rw [endXfer_eq cur]; exact unshipped_endPages x d

theorem getDma_endXfer (cur : (getDma d c).cur = some x) (status : Nat) : getDma (endXfer c status d) c =
    { endLockWait d.clk.wall (getDma d c) with cur := some (endedXfer status x) } := by
  have wall : (endPages x d).clk.wall = d.clk.wall := (congrArg (fun e : Dev => e.clk.wall) (unshipped_endPages x d) :)
  rw [endXfer_eq cur, getDma_modDma_same, getDma_endPages, wall]

/-! ### The lock of a page (R252) -/

/-- The channel takes the lock of its descriptor's page. -/
def lockPage (c : Nat) (x : DmaXfer) (d : Dev) : Dev :=
  modDma c (fun y => { endLockWait d.clk.wall y with cur := some { x with lock := some (xferPage x) } })
    (setCpt (xferPage x) (setBit (cptE d (xferPage x)) 5 true) d)

/-- The channel waits for the lock. -/
def awaitLock (c : Nat) (d : Dev) : Dev :=
  modDma c (fun y => { y with lockWait := some ((getDma d c).lockWait.getD d.clk.wall) }) d

theorem getDma_lockPage : getDma (lockPage c x d) c =
    { endLockWait d.clk.wall (getDma d c) with cur := some { x with lock := some (xferPage x) } } := getDma_modDma_same ..

theorem eLock_setBit (v : Nat) : eLock (setBit v 5 true % 2 ^ 64) = true := by
  simp only [eLock, bit, setBit, b2n, if_true, beq_iff_eq]
  split
  · omega
  · omega

theorem eLock_lockPage : eLock (cptE (lockPage c x d) (xferPage x)) = true := by
  have locked := cptE_setCpt_same (xferPage x) (setBit (cptE d (xferPage x)) 5 true) d
  exact (congrArg eLock locked).trans (eLock_setBit _)

/-- A channel that enters a page ends its descriptor, waits for a lock that is held, or takes it. -/
theorem enterPage_cases (cur : (getDma d c).cur = some x) :
    (∃ status, enterPage c d = endXfer c status d) ∨
    (eLock (cptE d (xferPage x)) = true ∧ enterPage c d = awaitLock c d) ∨ enterPage c d = lockPage c x d := by
  unfold enterPage
  rw [cur]
  cases dmaPart d c with
  | none => exact .inl ⟨_, rfl⟩
  | some pt =>
    dsimp only
    split_ifs with outside invalid pinned locked
    · exact .inl ⟨_, rfl⟩
    · exact .inl ⟨_, rfl⟩
    · exact .inl ⟨_, rfl⟩
    · exact .inr (.inl ⟨locked, rfl⟩)
    · exact .inl ⟨_, rfl⟩
    · exact .inl ⟨_, rfl⟩
    · exact .inr (.inr rfl)

/-- A page of the channel's partition that is VALID, held by nobody and good is entered (Table 9.7). -/
theorem enterPage_locks {pt : Part} (cur : (getDma d c).cur = some x) (part : dmaPart d c = some pt)
    (own : pt.mask.getLsbD (xferPage x / 65536) = true) (low : xferPage x < 1048576) (valid : eValid (cptE d (xferPage x)) = true)
    (unpinned : ePinned (cptE d (xferPage x)) = false) (unlocked : eLock (cptE d (xferPage x)) = false)
    (good : ePoison (cptE d (xferPage x)) = false) (parity : d.cptBad.contains (xferPage x) = false)
    (writable : eLoc (cptE d (xferPage x)) = false ∨ x.toHost = true) : enterPage c d = lockPage c x d := by
  have tier : (eLoc (cptE d (xferPage x)) && !x.toHost) = false := by
    obtain h | h := writable <;> simp [h]
  simp only [enterPage, cur, part, own, Nat.not_le.mpr low, valid, unpinned, unlocked, good, parity, tier]
  rfl

/-- A lock that is free ends the wait, which is counted once: what the channel then meets at the page counts no more. -/
theorem lockWaitEnd_outcome {t : Nat} (waits : (getDma d c).lockWait = some t) (cur : (getDma d c).cur = some x)
    (free : eLock (cptE d (xferPage x)) = false) :
    (getDma (lockWaitEnd c d) c).lockWait = none ∧ (getDma (lockWaitEnd c d) c).lockWaitNs =
      (getDma d c).lockWaitNs + BitVec.ofNat 64 ((d.clk.wall - t) / grain) := by
  let e := modDma c (endLockWait d.clk.wall) d
  have ends : lockWaitEnd c d = enterPage c e := by
    rw [lockWaitEnd, waits, cur]
    exact if_neg (Bool.eq_false_iff.mp free)
  have counted : getDma e c = { getDma d c with
      lockWait := none, lockWaitNs := (getDma d c).lockWaitNs + BitVec.ofNat 64 ((d.clk.wall - t) / grain) } := by
    rw [getDma_modDma_same, endLockWait, waits]; rfl
  have still (w : Nat) : (endLockWait w (getDma e c)).lockWait = none ∧ (endLockWait w (getDma e c)).lockWaitNs =
      (getDma d c).lockWaitNs + BitVec.ofNat 64 ((d.clk.wall - t) / grain) := by
    rw [counted]
    exact ⟨rfl, BitVec.add_zero _⟩
  have there : (getDma e c).cur = some x := by rw [counted]; exact cur
  rw [ends]
  obtain ⟨status, ended⟩ | ⟨held, -⟩ | locked := enterPage_cases there
  · rw [ended, getDma_endXfer there]
    exact still _
  · exact absurd held (Bool.eq_false_iff.mp free)
  · rw [locked, getDma_lockPage]
    exact still _

/-! ### What a burst leaves to the page behind it -/

/-- One module differs from another by the locks and the end of a channel's descriptor, which has moved as many bytes. -/
structure Rides (c : Nat) (d e : Dev) : Prop where
  rest : unshipped e = unshipped d
  bytes : (getDma e c).bytesMoved = (getDma d c).bytesMoved
  cur : ∀ x, (getDma d c).cur = some x → ∃ y, (getDma e c).cur = some y ∧ y.moved = x.moved

theorem Rides.refl (c : Nat) (d : Dev) : Rides c d d := ⟨rfl, rfl, fun x h => ⟨x, h, rfl⟩⟩

theorem Rides.trans {b : Dev} (h : Rides c d e) (g : Rides c e b) : Rides c d b := by
  refine ⟨g.rest.trans h.rest, g.bytes.trans h.bytes, fun x hx => ?_⟩
  obtain ⟨y, hy, moved⟩ := h.cur x hx
  obtain ⟨z, hz, moved'⟩ := g.cur y hy
  exact ⟨z, hz, moved'.trans moved⟩

/-- The channel holds this descriptor with as many bytes moved. -/
theorem rides_of_getDma {k : Dma} (chan : getDma e c = k) (rest : unshipped e = unshipped d) (cur : (getDma d c).cur = some x)
    (holds : k.cur = some y) (moved : y.moved = x.moved) (bytes : k.bytesMoved = (getDma d c).bytesMoved) : Rides c d e := by
  subst chan
  refine ⟨rest, bytes, fun z hz => ⟨y, holds, ?_⟩⟩
  rw [Option.some.inj (hz.symm.trans cur), moved]

theorem rides_endXfer (cur : (getDma d c).cur = some x) (status : Nat) : Rides c d (endXfer c status d) :=
  rides_of_getDma (getDma_endXfer cur status) (unshipped_endXfer cur status) cur rfl rfl rfl

theorem rides_enterPage (cur : (getDma d c).cur = some x) : Rides c d (enterPage c d) := by
  obtain ⟨status, ended⟩ | ⟨-, waits⟩ | locked := enterPage_cases cur
  · rw [ended]; exact rides_endXfer cur status
  · rw [waits]; exact rides_of_getDma (getDma_modDma_same ..) rfl cur cur rfl rfl
  · rw [locked]; exact rides_of_getDma getDma_lockPage rfl cur rfl rfl rfl

/-- A page that is left has its lock freed, and may be complete again (R252, R253). -/
theorem leavePage_cases (c : Nat) (x : DmaXfer) (d : Dev) : leavePage c x d = d ∨
    ∃ e, unshipped e = unshipped d ∧ e.dma = d.dma ∧
      leavePage c x d = modDma c (fun y => { y with cur := some { x with lock := none } }) e := by
  unfold leavePage
  split
  · exact .inl rfl
  · refine .inr ⟨_, ?_, ?_, rfl⟩
    · exact (ite_keeps unshipped (unshipped_setCpt ..)).trans (unshipped_unlockPage x d)
    · exact (ite_keeps Dev.dma (dma_setCpt ..)).trans (dma_unlockPage x d)

theorem rides_leavePage (cur : (getDma d c).cur = some x) : Rides c d (leavePage c x d) := by
  obtain same | ⟨e, rest, dma, left⟩ := leavePage_cases c x d
  · rw [same]; exact .refl c d
  · rw [left]
    refine rides_of_getDma (getDma_modDma_same ..) rest cur rfl rfl ?_
    rw [getDma_congr dma]

/-- Where a channel stands after a burst: at the end of its range, at its next page, or inside its page (R251). -/
def afterBurst (c : Nat) (y : DmaXfer) (d : Dev) : Dev :=
  if y.moved = y.len then endXfer c stOk (leavePage c y d)
  else if xferOff y = 0 then enterPage c (leavePage c y d)
  else d

theorem rides_afterBurst (cur : (getDma d c).cur = some y) : Rides c d (afterBurst c y d) := by
  have left := rides_leavePage cur
  obtain ⟨z, holds, -⟩ := left.cur y cur
  unfold afterBurst
  split_ifs
  · exact left.trans (rides_endXfer holds stOk)
  · exact left.trans (rides_enterPage holds)
  · exact .refl c d

/-! ### A burst (R251) -/

/-- The bytes of a burst between host memory and GDDR7, from or to an address there. -/
def shipBytes (x : DmaXfer) (a : Nat) (d : Dev) : Dev :=
  if x.toHost then hostWr (x.host + x.moved) (rdBs d.gddr a (burstLen x)) d
  else { d with gddr := wrBs d.gddr a (hostRd d (x.host + x.moved) (burstLen x)) }

theorem shipBytes_fromHost (in_ : x.toHost = false) (a : Nat) (d : Dev) : shipBytes x a d =
    { d with gddr := wrBs d.gddr a (hostRd d (x.host + x.moved) (burstLen x)) } := if_neg (by simp [in_])

theorem shipBytes_toHost (out : x.toHost = true) (a : Nat) (d : Dev) : shipBytes x a d =
    hostWr (x.host + x.moved) (rdBs d.gddr a (burstLen x)) d := if_pos out

theorem getDma_shipBytes (x : DmaXfer) (a : Nat) (d : Dev) (k : Nat) : getDma (shipBytes x a d) k = getDma d k := by
  unfold shipBytes; split <;> rfl

/-- A descriptor that a burst has moved. -/
def movedXfer (x : DmaXfer) : DmaXfer := { x with moved := x.moved + burstLen x, tries := 0 }

/-- A burst as it is counted. -/
def countMoved (c : Nat) (x : DmaXfer) (a : Nat) (d : Dev) : Dev :=
  countBurst c (burstLen x) (some (chanOf a, burstBytes x.toHost a (burstLen x)))
    (modDma c (fun z => { z with cur := some (movedXfer x) }) (passRetries [(chanOf a, x.tries)] d))

theorem unshipped_countMoved (c : Nat) (x : DmaXfer) (a : Nat) (d : Dev) : unshipped (countMoved c x a d) = unshipped d := rfl

theorem getDma_countMoved (a : Nat) : getDma (countMoved c x a d) c = { getDma d c with
    cur := some (movedXfer x), bytesMoved := (getDma d c).bytesMoved + BitVec.ofNat 64 (burstLen x) } := by
  have counted (e : Dev) : getDma (modDma c (fun y => { y with bytesMoved := y.bytesMoved + BitVec.ofNat 64 (burstLen x) })
      (modDma c (fun z => { z with cur := some (movedXfer x) }) e)) c = { getDma e c with
        cur := some (movedXfer x), bytesMoved := (getDma e c).bytesMoved + BitVec.ofNat 64 (burstLen x) } := by
    rw [getDma_modDma_same, getDma_modDma_same]
  exact counted (passRetries [(chanOf a, x.tries)] d)

section
variable {p : Nat} (cur : (getDma d c).cur = some x) (lock : x.lock = some p) (runs : (getDma d c).st = .run)
  (unended : x.ended = none) (secure : ioSecure d = true) (gddr : eLoc (cptE d p) = false)
  (serves : chanServes d (chanOf (eLocator (cptE d p) * 65536 + xferOff x)) = true)
include cur lock runs unended secure gddr serves

/-- A burst over a page of GDDR7 whose channel serves and whose host bytes can be reached moves. -/
theorem burst_moves (ok : (if x.toHost then hostOk d (x.host + x.moved) (burstLen x)
      else hostOk d ((x.host + x.moved) / 64 * 64) (outward 64 (x.host + x.moved) (burstLen x))) = true) :
    let a := eLocator (cptE d p) * 65536 + xferOff x
    burst c d = afterBurst c (movedXfer x) (countMoved c x a (shipBytes x a d)) := by
  obtain ⟨host, page, off, len, out, irq, tag, moved, held, ended, tries⟩ := x
  obtain rfl : held = some p := lock
  obtain rfl : ended = none := unended
  simp only [burst, cur, runs, secure, gddr, serves, ok]
  cases out <;> rfl

/-- What a burst leaves of the module but for what its channels count, and of its descriptor. -/
theorem burst_outcome (ok : (if x.toHost then hostOk d (x.host + x.moved) (burstLen x)
      else hostOk d ((x.host + x.moved) / 64 * 64) (outward 64 (x.host + x.moved) (burstLen x))) = true) :
    unshipped (burst c d) = unshipped (shipBytes x (eLocator (cptE d p) * 65536 + xferOff x) d) ∧
    (getDma (burst c d) c).bytesMoved = (getDma d c).bytesMoved + BitVec.ofNat 64 (burstLen x) ∧
    ∃ y, (getDma (burst c d) c).cur = some y ∧ y.moved = x.moved + burstLen x := by
  let a := eLocator (cptE d p) * 65536 + xferOff x
  have counted := getDma_countMoved (c := c) (x := x) (d := shipBytes x a d) a
  have holds : (getDma (countMoved c x a (shipBytes x a d)) c).cur = some (movedXfer x) := by rw [counted]
  have rides := rides_afterBurst holds
  rw [burst_moves cur lock runs unended secure gddr serves ok]
  refine ⟨rides.rest.trans (unshipped_countMoved ..), rides.bytes.trans ?_, rides.cur _ holds⟩
  rw [counted, getDma_shipBytes]

end

/-! ### Write-backs (R250, R254, R255) -/

/-- Where a channel writes the last 8 bytes of the descriptor at HEAD. -/
def backAddr (k : Dma) : Nat := k.ringBase.toNat + 32 * k.head.toNat + 24

/-- A channel whose descriptor has been written back. -/
def backRegs (status : Nat) (x : DmaXfer) (y : Dma) : Dma := { y with
  head := nextIdx y y.head, descDone := y.descDone + 1, cur := none
  lastErr := if status = stOk then y.lastErr
    else BitVec.ofNat 64 (y.head.toNat + status * 2 ^ 16 + xferPage x % 2 ^ 20 * 2 ^ 24) }

/-- A module whose channel has written its descriptor back, before the interrupt. -/
def backWritten (c status : Nat) (x : DmaXfer) (d : Dev) : Dev :=
  modDma c (backRegs status x)
    (if hostOk d (backAddr (getDma d c)) 8 then hostWr (backAddr (getDma d c)) (backBytes x status) d else d)

theorem length_backBytes (x : DmaXfer) (status : Nat) : (backBytes x status).length = 8 := by
  simp only [backBytes, List.length_append, length_toLe, List.length_singleton]

/-- STATUS stands in byte 28 of the descriptor (Table 9.6). -/
theorem rdBs_backBytes_status (m : Mem) (a : Nat) (x : DmaXfer) (status : Nat) :
    rdBs (wrBs m a (backBytes x status)) (a + 4) 1 = toLe 1 status := by
  have parts : backBytes x status = toLe 4 (x.len - x.moved) ++ (toLe 1 status ++ (toLe 2 x.tag.toNat ++ [0x40#8])) := by
    simp only [backBytes, List.append_assoc]
  have middle := rdBs_wrBs_middle m a (toLe 4 (x.len - x.moved)) (toLe 1 status) (toLe 2 x.tag.toNat ++ [0x40#8])
  rwa [← parts, length_toLe, length_toLe] at middle

theorem writeBack_eq (c status : Nat) (x : DmaXfer) (d : Dev) : writeBack c status x d =
    if status = stOk then
      if x.irq then dmaIrq c (fun y => { y with irqDone := true }) (backWritten c status x d) else backWritten c status x d
    else if status = stAborted then backWritten c status x d
    else dmaIrq c (fun y => { y with irqErr := true }) (backWritten c status x d) := rfl

theorem writeBack_cases (c status : Nat) (x : DmaXfer) (d : Dev) : writeBack c status x d = backWritten c status x d ∨
    writeBack c status x d = dmaIrq c (fun y => { y with irqDone := true }) (backWritten c status x d) ∨
    writeBack c status x d = dmaIrq c (fun y => { y with irqErr := true }) (backWritten c status x d) := by
  rw [writeBack_eq]
  split_ifs
  · exact .inr (.inl rfl)
  · exact .inl rfl
  · exact .inl rfl
  · exact .inr (.inr rfl)

theorem host_dmaIrq {f : Dma → Dma} : (dmaIrq c f d).host = d.host := (congrArg Dev.host dmaIrq_frame :)

theorem host_writeBack (ok : hostOk d (backAddr (getDma d c)) 8 = true) (status : Nat) (x : DmaXfer) :
    (writeBack c status x d).host = wrBs d.host (backAddr (getDma d c)) (backBytes x status) := by
  have written : (backWritten c status x d).host = wrBs d.host (backAddr (getDma d c)) (backBytes x status) := by
    rw [backWritten, if_pos ok]; rfl
  obtain h | h | h := writeBack_cases c status x d
  · rw [h, written]
  · rw [h, host_dmaIrq, written]
  · rw [h, host_dmaIrq, written]

theorem getDma_backWritten (status : Nat) (x : DmaXfer) :
    getDma (backWritten c status x d) c = backRegs status x (getDma d c) := by
  rw [backWritten, getDma_modDma_same]
  exact congrArg _ (getDma_congr (ite_keeps Dev.dma (hostWr_dma ..)) c)

/-- A write-back raises an interrupt bit of its channel, or none (R255). -/
theorem getDma_writeBack (c status : Nat) (x : DmaXfer) (d : Dev) : ∃ done err,
    getDma (writeBack c status x d) c = { backRegs status x (getDma d c) with irqDone := done, irqErr := err } := by
  obtain h | h | h := writeBack_cases c status x d
  · exact ⟨_, _, by rw [h, getDma_backWritten]⟩
  · exact ⟨true, _, by rw [h, getDma_dmaIrq_same, getDma_backWritten]⟩
  · exact ⟨_, true, by rw [h, getDma_dmaIrq_same, getDma_backWritten]⟩

section
variable {st : BitVec 8} (cur : (getDma d c).cur = some x) (ended : x.ended = some st) (runs : (getDma d c).st = .run)
include cur ended runs

theorem dmaWriteBack_ended : dmaWriteBack c d =
    if st.toNat ≠ stOk && (getDma d c).stopOnErr then modDma c (fun y => { y with st := .stopped }) (writeBack c st.toNat x d)
    else writeBack c st.toNat x d := by
  simp only [dmaWriteBack, cur, ended]
  exact if_neg (by simp [runs])

/-- The channel runs on after its write-back, or stops at an error where STOP_ON_ERR is 1. -/
theorem getDma_dmaWriteBack : ∃ done err, getDma (dmaWriteBack c d) c = { backRegs st.toNat x (getDma d c) with
    irqDone := done, irqErr := err
    st := if st.toNat ≠ stOk ∧ (getDma d c).stopOnErr = true then .stopped else .run } := by
  obtain ⟨done, err, back⟩ := getDma_writeBack c st.toNat x d
  refine ⟨done, err, ?_⟩
  rw [dmaWriteBack_ended cur ended runs]
  by_cases stops : st.toNat ≠ stOk ∧ (getDma d c).stopOnErr = true
  · rw [if_pos (by simpa using stops), if_pos stops, getDma_modDma_same, back]
  · rw [if_neg (by simpa using stops), if_neg stops, back, ← runs]; rfl

theorem host_dmaWriteBack (ok : hostOk d (backAddr (getDma d c)) 8 = true) :
    (dmaWriteBack c d).host = wrBs d.host (backAddr (getDma d c)) (backBytes x st.toNat) := by
  rw [dmaWriteBack_ended cur ended runs]
  exact (ite_keeps Dev.host (modDma_host ..)).trans (host_writeBack ok st.toNat x)

end

/-- An aborted descriptor ends ABORTED and is written back before the channel stops (R254). -/
theorem abortWriteBack_aborts (cur : (getDma d c).cur = some x) (unended : x.ended = none) (aborting : (getDma d c).st = .aborting) :
    abortWriteBack c d = dmaIrq c (fun y => { y with st := if y.en then .stopped else .idle, abort := false, irqAbort := true })
      (writeBack c stAborted (endedXfer stAborted x) (endXfer c stAborted d)) := by
  have ends : (getDma (endXfer c stAborted d) c).cur = some (endedXfer stAborted x) := by rw [getDma_endXfer cur]
  simp only [abortWriteBack, aborting, cur, unended, Option.isSome_none, Bool.false_eq_true, if_false, ends]
  rfl

/-- What the abort leaves of the channel and of host memory. -/
theorem abortWriteBack_outcome (cur : (getDma d c).cur = some x) (unended : x.ended = none)
    (aborting : (getDma d c).st = .aborting) (ok : hostOk d (backAddr (getDma d c)) 8 = true) :
    (abortWriteBack c d).host = wrBs d.host (backAddr (getDma d c)) (backBytes (endedXfer stAborted x) stAborted) ∧
    (getDma (abortWriteBack c d) c).cur = none ∧ (getDma (abortWriteBack c d) c).irqAbort = true ∧
    (getDma (abortWriteBack c d) c).st = if (getDma d c).en then .stopped else .idle := by
  have rest := unshipped_endXfer cur stAborted
  have chan := getDma_endXfer cur stAborted
  have addr : backAddr (getDma (endXfer c stAborted d) c) = backAddr (getDma d c) := by rw [chan]; rfl
  obtain ⟨done, err, back⟩ := getDma_writeBack c stAborted (endedXfer stAborted x) (endXfer c stAborted d)
  rw [abortWriteBack_aborts cur unended aborting, host_dmaIrq, getDma_dmaIrq_same, back, chan,
    host_writeBack (by rw [addr, hostOk_of_unshipped rest, ok]), addr, host_of_unshipped rest]
  exact ⟨rfl, rfl, rfl, rfl⟩

end

end Sys2Proof.Machine
end

section
/-! The obligation of the descriptors of a DMA channel (R249 to R254, R462). -/

namespace Sys2Proof.Machine

open Sys2Proof

/-! ### The descriptor at HEAD -/

section
variable {c : Nat} {d : Dev}

/-- Where the descriptor at HEAD stands in its ring. -/
def headAddr (k : Dma) : Nat := k.ringBase.toNat + 32 * k.head.toNat

/-- A module whose channel holds a descriptor that it has read. -/
def takeHead (c : Nat) (l : List Byte) (d : Dev) : Dev := modDma c (fun x => { x with stallOwn := false, cur := some (xferOf l) }) d

theorem cur_takeHead (l : List Byte) : (getDma (takeHead c l d) c).cur = some (xferOf l) := by rw [takeHead, getDma_modDma_same]

section
variable (reads : readsHead (getDma d c) = true) (secure : ioSecure d = true) (ok : hostOk d (headAddr (getDma d c)) 32 = true)
include reads secure ok

theorem descriptorRead_stalls (unowned : bit (lf (hostRd d (headAddr (getDma d c)) 32) 31 1) 7 = false) :
    descriptorRead c d = modDma c (fun x => { x with stallOwn := true }) d := by
  simp only [headAddr] at ok unowned
  simp only [descriptorRead, reads, secure, ok, unowned]; rfl

theorem descriptorRead_takes (owned : bit (lf (hostRd d (headAddr (getDma d c)) 32) 31 1) 7 = true)
    (good : xferBad (hostRd d (headAddr (getDma d c)) 32) = false) :
    descriptorRead c d = enterPage c (takeHead c (hostRd d (headAddr (getDma d c)) 32) d) := by
  simp only [headAddr] at ok owned good
  simp only [descriptorRead, reads, secure, ok, owned, good]; rfl

end

/-- The status of a descriptor read that failed: which of the two it is, is a free value (R462). -/
def failedRead (d : Dev) : Nat := if (draw 1 d).1 = 1#1 then stTimeout else stIntegrity

theorem failedRead_cases (d : Dev) : failedRead d = stTimeout ∨ failedRead d = stIntegrity := ite_eq_or_eq ..

theorem failedRead_lt (d : Dev) : failedRead d < 8 := by
  obtain h | h := failedRead_cases d <;> rw [h] <;> decide

/-- LAST_ERR of a read that failed: the index of its descriptor, and the status (Table 9.9). -/
def readErr (head : BitVec 16) (status : Nat) : BitVec 64 := BitVec.ofNat 64 (head.toNat + status * 2 ^ 16)

theorem readErr_index (head : BitVec 16) (status : Nat) : (readErr head status).toNat % 2 ^ 16 = head.toNat := by
  have := head.isLt
  rw [readErr, BitVec.toNat_ofNat]
  omega

theorem readErr_status (head : BitVec 16) {status : Nat} (low : status < 8) : (readErr head status).toNat / 2 ^ 16 = status := by
  have := head.isLt
  rw [readErr, BitVec.toNat_ofNat]
  omega

/-- A channel whose descriptor read fails stops at that descriptor. -/
theorem getDma_readFails (status : Nat) : getDma (readFails c status d) c = { getDma d c with
    st := .stopped, irqErr := true, lastErr := readErr (getDma d c).head status } := getDma_dmaIrq_same

end

/-! ### The commands -/

section
variable {c : Fin 32} {s : State} (up : awake s.dev = true)
include up

theorem gives_descriptorRead {e : Dev} (he : descriptorRead c s.dev = e) : Gives (.descriptorRead c) s e := gives_whenAwake rfl up he

theorem gives_lockWaitEnd : Gives (.lockWaitEnd c) s (lockWaitEnd c s.dev) := gives_whenAwake rfl up rfl

theorem gives_burst : Gives (.burst c) s (burst c s.dev) := gives_whenAwake rfl up rfl

theorem gives_writeBack : Gives (.writeBack c) s (dmaWriteBack c s.dev) := gives_whenAwake rfl up rfl

theorem gives_abortWriteBack : Gives (.abortWriteBack c) s (abortWriteBack c s.dev) := gives_whenAwake rfl up rfl

theorem gives_descriptorReadFail (reads : readsHead (getDma s.dev c) = true) :
    Gives (.descriptorReadFail c) s (readFails c (failedRead s.dev) (draw 1 s.dev).2) :=
  gives_whenAwake rfl up (if_neg (by simp [reads]))

theorem gives_hostCompletionTimeout {x : DmaXfer} {p : Nat} (cur : (getDma s.dev c).cur = some x) (unended : x.ended = none)
    (lock : x.lock = some p) : Gives (.hostCompletionTimeout c) s (endXfer c stTimeout s.dev) := by
  refine gives_whenAwake rfl up ?_
  rw [cur]
  exact if_neg (by simp [unended, lock])

end

/-- Settles O19: entering or leaving a page and ending a descriptor move no byte, so that each event is read off what it did
before. -/
theorem dmaMovesDescriptors : Obligations.DmaMovesDescriptors := by
  unfold Obligations.DmaMovesDescriptors
  intro s c up k a l
  refine ⟨fun reads secure ok unowned => gives_descriptorRead up (descriptorRead_stalls reads secure ok unowned), ?takes, ?fails,
    fun t y waits cur free => ⟨_, gives_lockWaitEnd up, lockWaitEnd_outcome waits cur free⟩, ?fromHost, ?toHost, ?timeout,
    ?back, ?abort⟩
  case takes =>
    intro pt reads secure ok owned good part own low e valid unpinned unlocked unpoisoned parity writable
    have takes := (descriptorRead_takes reads secure ok owned good).trans
      (enterPage_locks (cur_takeHead l) part own low valid unpinned unlocked unpoisoned parity writable)
    refine ⟨_, gives_descriptorRead up takes, ?_, eLock_lockPage, rfl⟩
    rw [getDma_lockPage]
  case fails =>
    intro reads
    have chan := getDma_readFails (c := c) (d := (draw 1 s.dev).2) (failedRead s.dev)
    refine ⟨_, gives_descriptorReadFail up reads, ?_⟩
    rw [chan]
    simp only [readsHead, Bool.and_eq_true, Option.isNone_iff_eq_none] at reads
    obtain ⟨⟨⟨-, free⟩, -⟩, -⟩ := reads
    refine ⟨rfl, rfl, free, rfl, readErr_index .., ?_⟩
    rw [readErr_status _ (failedRead_lt s.dev)]
    exact failedRead_cases s.dev
  case fromHost =>
    intro x p cur lock runs unended secure in_ gddr serves ok
    obtain ⟨rest, bytes, moved⟩ := burst_outcome cur lock runs unended secure gddr serves ((if_neg (by simp [in_])).trans ok)
    rw [shipBytes_fromHost in_] at rest
    have length : (hostRd s.dev (x.host + x.moved) (burstLen x)).length = burstLen x := length_rdBs ..
    refine ⟨_, gives_burst up, ?_, (host_of_unshipped rest :), fun b away => ?_, bytes, moved⟩
    · rw [gddr_of_unshipped rest]
      exact rdBs_wrBs_length length
    · rw [gddr_of_unshipped rest]
      exact rdB_wrBs_out _ _ _ _ (by rwa [length])
  case toHost =>
    intro x p cur lock runs unended secure out gddr serves ok
    obtain ⟨rest, -, moved⟩ := burst_outcome cur lock runs unended secure gddr serves ((if_pos out).trans ok)
    rw [shipBytes_toHost out] at rest
    refine ⟨_, gives_burst up, (gddr_of_unshipped rest :), ?_, fun b away => ?_, moved⟩
    · rw [host_of_unshipped rest]
      exact rdBs_wrBs_length (length_rdBs ..)
    · rw [host_of_unshipped rest]
      exact rdB_wrBs_out _ _ _ _ (by rwa [length_rdBs])
  case timeout =>
    intro x p cur unended lock
    refine ⟨_, gives_hostCompletionTimeout up cur unended lock, endedXfer stTimeout x, ?_, rfl, rfl⟩
    rw [getDma_endXfer cur]
  case back =>
    intro x st cur ended runs ok
    obtain ⟨done, err, chan⟩ := getDma_dmaWriteBack cur ended runs
    have host := host_dmaWriteBack cur ended runs ok
    have bytes := length_backBytes x st.toNat
    refine ⟨_, gives_writeBack up, ?_, fun b away => ?_, ?_⟩
    · rw [host]; exact rdBs_wrBs_length bytes
    · rw [host]; exact rdB_wrBs_out _ _ _ _ (by rw [bytes]; exact away)
    · rw [chan]
      refine ⟨rfl, BitVec.toNat_ofNat .., rfl, ?_⟩
      dsimp only
      split_ifs with stops
      · exact ⟨fun _ => stops, fun _ => rfl⟩
      · exact ⟨fun h => (nomatch h), fun h => absurd h stops⟩
  case abort =>
    intro x cur unended aborting ok
    obtain ⟨host, outcome⟩ := abortWriteBack_outcome cur unended aborting ok
    refine ⟨_, gives_abortWriteBack up, ?_, outcome⟩
    rw [host]
    exact rdBs_backBytes_status ..

end Sys2Proof.Machine
end

section
/-!
A refutation: a module whose table of partitions holds a record of partition 0 under number 1 (`Dev.partsWf` excludes it, R385; the
statement asks of the table only that partition 0 carries its own number). A record that is written to every partition's ephemeris
(R281) puts each partition back under the number it carries.
-/

namespace Sys2Proof.Machine

open Sys2Proof

/-- A decoding step of request 3 that ran in this slot of orbit 0. -/
def decodingStep (slot : Nat) : Step where
  orbit := 0
  slot := slot
  place := ⟨3, 0x43, 1, 65, 0⟩
  endMt := 0
  ts := 0
  ended := 0

/-- That request, with one page. -/
def decodingReq : Req where
  id := 3
  customer := 0
  priority := 0
  lateCont := false
  adapter := 0
  gen := 0
  prompt := 65
  maxNew := 10
  stop := 7
  deadline := 0
  pages := [0]
  st := .running
  held := false
  cancel := false
  fenced := false
  prefilled := 65
  delivered := 0
  before := 0
  slot := some 0
  copy := none
  order := 0
  cause := 0
  voidTo := none

/-- The marks of orbit 0, complete, which fence nothing. -/
def wholeMarks : MarkSet where
  orbit := 0
  round := 0
  allFence := false
  late := false
  stale := false
  mtStart := 0
  fence := 0
  cbitReq := 0
  got := []
  complete := true
  completeMt := 0

/-- Partition 0, whose step in slot 0 waits for its delivery. -/
def decodingPart : Part where
  pid := 0
  mask := 1
  fab := { marks := [wholeMarks] }
  srv := { reqs := [decodingReq], steps := [decodingStep 0] }

/-- The record under number 1: one of partition 0 with its ephemeris on, whose step in slot 1 of orbit 0 waits. -/
def misnumbered : Part := { pid := 0, mask := 0, eph := { cfg := 0x80000000 }, srv := { steps := [decodingStep 1] } }

/-- The module: the request's page is in the weight store, where every read of it is corrected, and a correction's NOTE escalates at
once. -/
def misnumberedTable : Dev where
  parts := [(0, decodingPart), (1, misnumbered)]
  cpt := [(0, 17)]
  store := { soft := [0] }
  flt := { esc := [(0x440, { noteLimit := 1 })] }
  glb := { mpReady := true }
  pwr := { resetHeld := false }

/-- The token is read with a correction, whose DEGRADE is written to both ephemerides (R206, R414): that of the record under number 1
puts the record under number 0, and its step of orbit 0 stays. -/
theorem steps_tokenDelivery_misnumbered :
    (getPart (ckptCapture 0 (tokenDelivery 0 misnumberedTable)) 0).map (·.srv.steps) = some [decodingStep 1] := by decide +kernel

theorem exec_tokenDelivery (p : Fin 16) (s : State) :
    exec (.tokenDelivery p) s = on (whenMp (fun d => ckptCapture p (tokenDelivery p d))) s := rfl

/-- Refutes O34: the steps of an orbit with complete marks need not be taken. In `misnumberedTable` partition 0's record is overwritten
while its token is read. -/
theorem not_tokensWaitForTheirMarks : ¬ Obligations.TokensWaitForTheirMarks := by
  unfold Obligations.TokensWaitForTheirMarks
  intro h
  have mp : mpUp misnumberedTable = true := by decide
  obtain ⟨-, -, delivered, -⟩ := h { dev := misnumberedTable } 0 decodingPart mp rfl rfl rfl
  obtain ⟨e, y, gives, there, taken, -⟩ := delivered (decodingStep 0) [] wholeMarks rfl rfl rfl
  have stepped : Gives (.tokenDelivery 0) { dev := misnumberedTable } (ckptCapture 0 (tokenDelivery 0 misnumberedTable)) :=
    gives_whenMp (exec_tokenDelivery 0 _) mp rfl
  have left : (getPart e (0 : Fin 16).val).map (·.srv.steps) = some [decodingStep 1] :=
    stepped.unique gives ▸ steps_tokenDelivery_misnumbered
  rw [there, Option.map_some, Option.some.injEq] at left
  exact taken (decodingStep 1) (by rw [left]; exact .head _) rfl

end Sys2Proof.Machine
end

section
/-!
SUPPORT. A partition's requests and budgets as the serving commands name them: a command on a live request, and entries written
into a table one by one (R263, R275, R278).
-/

namespace Sys2Proof.Machine

open Sys2Proof

/-! ### A command on a live request -/

theorem modPart_some {p : Nat} {x : Part} {d : Dev} (here : getPart d p = some x) (f : Part → Part) :
    modPart p f d = setPart p (f x) d := by
  simp only [getPart] at here
  simp only [modPart, here]

/-- A partition with its live requests of one REQ_ID changed. -/
def withReq (id : BitVec 32) (f : Req → Req) (x : Part) : Part :=
  { x with srv := { x.srv with reqs := x.srv.reqs.map (fun q => if q.id = id then f q else q) } }

theorem modReq_some {p : Nat} {x : Part} {d : Dev} (here : getPart d p = some x) (id : BitVec 32) (f : Req → Req) :
    modReq p id f d = setPart p (withReq id f x) d := modPart_some here _

theorem id_of_getReq {x : Part} {id : BitVec 32} {r : Req} (live : getReq x id = some r) : r.id = id :=
  of_decide_eq_true (List.find?_some live :)

/-- The REQ_ID that a request command names. -/
def namedReq (pl : List Byte) : BitVec 32 := BitVec.ofNat 32 (lf pl 0 4)

section
variable {code : Nat} {m : Fin 64} {c : Instr} {s : State} {x : Part} {r : Req} {f : Part → Req → List Byte → Dev → Dev}

theorem gives_reqCommand_unknown (h : exec c s = on (reqCommand code m f) s) (t : PartTurn code m x s.dev)
    (unknown : getReq x (namedReq (payload s.dev m)) = none) : Gives c s (answer m stBadArg 0 [] s.dev) := by
  refine gives_partTurn h t ?_
  rw [namedReq] at unknown
  rw [unknown]

theorem gives_reqCommand_live {e : Dev} (h : exec c s = on (reqCommand code m f) s) (t : PartTurn code m x s.dev)
    (live : getReq x (namedReq (payload s.dev m)) = some r) (he : f x r (payload s.dev m) s.dev = e) : Gives c s e := by
  refine gives_partTurn h t ?_
  rw [namedReq] at live
  rw [live]
  exact he

/-- A command that changes the request it names, and is answered at once: both of its outcomes. -/
theorem gives_reqChange {g : Req → Req}
    (h : exec c s = on (reqCommand code m fun x r _ d => answer m stOk 0 [] (modReq x.pid r.id g d)) s)
    (t : PartTurn code m x s.dev) (here : getPart s.dev x.pid = some x) :
    (getReq x (namedReq (payload s.dev m)) = none → Gives c s (answer m stBadArg 0 [] s.dev)) ∧
    ((getReq x (namedReq (payload s.dev m))).isSome = true →
      Gives c s (answer m stOk 0 [] (setPart x.pid (withReq (namedReq (payload s.dev m)) g x) s.dev))) := by
  refine ⟨gives_reqCommand_unknown h t, fun some_ => ?_⟩
  obtain ⟨r, live⟩ := Option.isSome_iff_exists.mp some_
  refine gives_reqCommand_live h t live ?_
  rw [modReq_some here, id_of_getReq live]

end

/-! ### Entries written into a table one by one -/

section
variable {ι α : Type} {f : ι → Nat} {v : ι → α} {l : List ι} {t : Tab α}

/-- A table with an entry written for each element of a list. -/
def putAll (f : ι → Nat) (v : ι → α) (l : List ι) (t : Tab α) : Tab α := l.foldl (fun t i => tput t (f i) (v i)) t

theorem tget_putAll_other {k : Nat} (other : ∀ i ∈ l, k ≠ f i) : tget (putAll f v l t) k = tget t k := by
  induction l generalizing t with
  | nil => rfl
  | cons i l ih =>
    exact (ih fun j hj => other j (.tail _ hj)).trans (tget_tput_other _ _ (other i (.head _)))

/-- Under keys that do not meet, each entry reads back. -/
theorem tget_putAll_mem {i : ι} (apart : l.Pairwise (fun a b => f a ≠ f b)) (mem : i ∈ l) :
    tget (putAll f v l t) (f i) = some (v i) := by
  induction l generalizing t with
  | nil => cases mem
  | cons j l ih =>
    obtain ⟨head, rest⟩ := List.pairwise_cons.mp apart
    obtain rfl | later := List.mem_cons.mp mem
    · exact (tget_putAll_other head).trans (tget_tput_same ..)
    · exact ih rest later

end

/-! ### Budgets (R278) -/

/-- Two customers of a partition have two entries: its blocks are distinct, and each holds 1,024. -/
theorem budKey_inj {x : Part} {a b : Nat} (ha : a < 1024 * nBlocks x) (hb : b < 1024 * nBlocks x) (same : budKey x a = budKey x b) :
    a = b := by
  have nodup : (blocksOf x.mask).Nodup := List.nodup_range.filter _
  have la : a / 1024 < (blocksOf x.mask).length := Nat.div_lt_of_lt_mul ha
  have lb : b / 1024 < (blocksOf x.mask).length := Nat.div_lt_of_lt_mul hb
  simp only [budKey, List.getElem?_eq_getElem la, List.getElem?_eq_getElem lb, Option.getD_some] at same
  have block : a / 1024 = b / 1024 := (nodup.getElem_inj_iff (hi := la) (hj := lb)).mp (by omega)
  omega

/-- The entry that BUDGET_SET carries in a place of its payload. -/
def budEntry (pl : List Byte) (i : Nat) : BitVec 128 := BitVec.ofNat 128 (lf pl (8 + 16 * i) 16)

/-- A module whose budgets have the entries of BUDGET_SET from a customer on. -/
def writeBudgets (x : Part) (pl : List Byte) (first n : Nat) (d : Dev) : Dev :=
  forEach (List.range n) (fun i d => { d with budgets := tput d.budgets (budKey x (first + i)) (budEntry pl i) }) d

theorem budgets_writeBudgets (x : Part) (pl : List Byte) (first n : Nat) (d : Dev) :
    (writeBudgets x pl first n d).budgets = putAll (fun i => budKey x (first + i)) (budEntry pl) (List.range n) d.budgets :=
  (List.foldl_hom Dev.budgets fun _ _ => rfl).symm

/-- Credits of these customers that waited for their boundary are dropped. -/
def unsettle (first n : Nat) (s : Serving) : Serving :=
  { s with settled := s.settled.filter (fun e => e.1 < first || first + n ≤ e.1) }

theorem answer_budgets (m st reason : Nat) (pl : List Byte) (d : Dev) : (answer m st reason pl d).budgets = d.budgets :=
  (congrArg Dev.budgets (answer_frame m st reason pl d) :)

end Sys2Proof.Machine
end

section
/-! The obligation of the serving engine's commands (R263, R271, R275, R276, R278). -/

namespace Sys2Proof.Machine

open Sys2Proof

theorem exec_reqCancel (m : Fin 64) (s : State) : exec (.reqCancel m) s = execReqCancel m s := rfl
theorem exec_reqEclipse (m : Fin 64) (s : State) : exec (.reqEclipse m) s = execReqEclipse m s := rfl
theorem exec_reqResume (m : Fin 64) (s : State) : exec (.reqResume m) s = execReqResume m s := rfl
theorem exec_reqRemap (m : Fin 64) (s : State) : exec (.reqRemap m) s = execReqRemap m s := rfl
theorem exec_budgetSet (m : Fin 64) (s : State) : exec (.budgetSet m) s = execBudgetSet m s := rfl
theorem exec_selectorLoad (m : Fin 64) (s : State) : exec (.selectorLoad m) s = execSelectorLoad m s := rfl

section
variable {m : Fin 64} {s : State} {x : Part}

/-! ### REQ_REMAP (R276) -/

theorem pageList_aligned {d : Dev} {a n : Nat} {l : List Nat} (read : pageList d a n = some l) : a % 4 = 0 := by
  unfold pageList at read
  split_ifs at read with bad
  simp only [Bool.or_eq_true, decide_eq_true_eq, not_or, not_not] at bad
  exact bad.1

theorem gives_reqRemap_busy {r : Req} (t : PartTurn 0x0505 m x s.dev) (live : getReq x (namedReq (payload s.dev m)) = some r)
    (rides : r.st ≠ .eclipsed) : Gives (.reqRemap m) s (answer m stBusy 0 [] s.dev) :=
  gives_reqCommand_live (exec_reqRemap m s) t live (if_pos rides)

theorem gives_reqRemap {r : Req} {l : List Nat} (t : PartTurn 0x0505 m x s.dev) (here : getPart s.dev x.pid = some x)
    (live : getReq x (namedReq (payload s.dev m)) = some r) (eclipsed : r.st = .eclipsed) (low : 1 ≤ lf (payload s.dev m) 4 4)
    (high : lf (payload s.dev m) 4 4 ≤ 32768)
    (read : pageList s.dev (lf (payload s.dev m) 8 8) (lf (payload s.dev m) 4 4) = some l) (good : pagesGood s.dev x l = true) :
    Gives (.reqRemap m) s (answer m stOk 0 []
      (setPart x.pid (withReq (namedReq (payload s.dev m)) (fun q => { q with pages := l }) x) s.dev)) := by
  have aligned := pageList_aligned read
  refine gives_reqCommand_live (exec_reqRemap m s) t live ((if_neg (not_not.mpr eclipsed)).trans ((if_neg ?_).trans ?_))
  · simp only [Bool.or_eq_true, decide_eq_true_eq]
    omega
  · rw [read, ← modReq_some here, id_of_getReq live]
    exact if_pos good

/-! ### BUDGET_SET (R278) -/

theorem gives_budgetSet (t : PartTurn 0x0506 m x s.dev) (low : 1 ≤ lf (payload s.dev m) 2 2) (high : lf (payload s.dev m) 2 2 ≤ 122)
    (fits : lf (payload s.dev m) 0 2 + lf (payload s.dev m) 2 2 ≤ 1024 * nBlocks x)
    (plain : ∀ i, i < lf (payload s.dev m) 2 2 → lf (payload s.dev m) (8 + 16 * i + 15) 1 % 128 = 0) :
    let first := lf (payload s.dev m) 0 2
    let n := lf (payload s.dev m) 2 2
    Gives (.budgetSet m) s (answer m stOk 0 [] (modSrv x.pid (unsettle first n) (writeBudgets x (payload s.dev m) first n s.dev))) := by
  refine gives_partTurn (exec_budgetSet m s) t (if_neg ?_)
  simp only [Bool.or_eq_true, decide_eq_true_eq, List.any_eq_true, List.mem_range, not_or, not_exists, not_and, not_not]
  exact ⟨⟨⟨by omega, by omega⟩, by omega⟩, plain⟩

/-! ### SELECTOR_LOAD (R271) -/

variable {i : PlanInfo} (t : PartTurn 0x0501 m x s.dev) (info : x.info = some i)
include t info

theorem gives_selectorLoad_denied (unloaded : x.plan ≠ .loaded) : Gives (.selectorLoad m) s (answer m stDenied 0 [] s.dev) := by
  refine gives_partTurn (exec_selectorLoad m s) t ?_
  rw [info]
  exact if_pos unloaded

theorem gives_selectorLoad (here : getPart s.dev x.pid = some x) (loaded : x.plan = .loaded)
    (short : lf (payload s.dev m) 8 4 ≤ 0x48 + 132 * 2304)
    (ok : hostOk s.dev (lf (payload s.dev m) 0 8) (lf (payload s.dev m) 8 4) = true)
    (good : selectorBad x i (hostRd s.dev (lf (payload s.dev m) 0 8) (lf (payload s.dev m) 8 4)) = false) :
    Gives (.selectorLoad m) s (answer m stOk 0 [] (setPart x.pid { x with srv := { x.srv with
      sel := some (selectorOf (hostRd s.dev (lf (payload s.dev m) 0 8) (lf (payload s.dev m) 8 4))) } } s.dev)) := by
  refine gives_partTurn (exec_selectorLoad m s) t ?_
  rw [info]
  refine (if_neg (not_not.mpr loaded)).trans ((if_neg (by omega)).trans ((if_neg ?_).trans ((if_neg ?_).trans ?_)))
  · rw [ok]; decide
  · rw [good]; decide
  · rw [modSrv, modPart_some here, ← info]

end

/-- Settles O35: each command is read off its own branch; what BUDGET_SET writes is read back entry by entry. -/
theorem servingCommands : Obligations.ServingCommands := by
  unfold Obligations.ServingCommands
  intro s m x here
  refine ⟨fun t => gives_reqChange (exec_reqCancel m s) t here, fun t => gives_reqChange (exec_reqEclipse m s) t here,
    fun t => gives_reqChange (exec_reqResume m s) t here,
    fun t => ⟨gives_reqCommand_unknown (exec_reqRemap m s) t,
      fun r l live => ⟨gives_reqRemap_busy t live, gives_reqRemap t here live⟩⟩,
    ?budgets, fun t i info => ⟨gives_selectorLoad_denied t info, gives_selectorLoad t info here⟩⟩
  case budgets =>
    intro t first n low high fits plain
    have budgets := (answer_budgets m stOk 0 [] (modSrv x.pid (unsettle first n) (writeBudgets x (payload s.dev m) first n s.dev))).trans
      ((modPart_budgets ..).trans (budgets_writeBudgets ..))
    refine ⟨_, gives_budgetSet t low high fits plain, answered_answer (by decide), fun i hi => ?_, fun k other => ?_⟩
    · have apart : (List.range n).Pairwise (fun a b => budKey x (first + a) ≠ budKey x (first + b)) := by
        refine List.nodup_range.imp_of_mem fun ha hb ne same => ne ?_
        rw [List.mem_range] at ha hb
        have := budKey_inj (by omega) (by omega) same
        omega
      rw [budgets]
      exact tget_putAll_mem apart (List.mem_range.mpr hi)
    · rw [budgets]
      exact tget_putAll_other fun i hi => other i (List.mem_range.mp hi)

end Sys2Proof.Machine
end

section
/-!
SUPPORT. Submission: what a request's record leaves of its partition, what a descriptor that passes Table 10.2 has met, and what SUBMIT
does with a descriptor (R260, R262, R263).
-/

namespace Sys2Proof.Machine

open Sys2Proof

/-! ### The records of requests (R280) -/

section
variable {x z : Part} {d : Dev}

/-- A request's record changes its partition's ephemeris alone. -/
theorem getPart_reqRec (here : getPart d z.pid = some x) (own : x.pid = z.pid) (w : Stamp) (kind slot : Nat) (id : BitVec 32)
    (data : Nat) : ∃ e, getPart (reqRec z w kind slot id data d) z.pid = some { x with eph := e } := by
  unfold reqRec
  split
  · exact getPart_ephRecAt here own ..
  · exact ⟨x.eph, here⟩

theorem recordsOnly_reqRec (w : Stamp) (kind slot : Nat) (id : BitVec 32) (data : Nat) (d : Dev) :
    RecordsOnly d (reqRec z w kind slot id data d) := recordsOnly_when (recordsOnly_ephRecAt ..)

theorem RecordsOnly.host {d e : Dev} (h : RecordsOnly d e) : e.host = d.host := (congrArg Dev.host h.rest :)

end

/-- Where no code word of the store is corrected, reading a page leaves the module as it is (R206). -/
theorem pageNote_of_noSoft {d : Dev} (soft : d.store.soft = []) (page off n : Nat) : pageNote page off n d = d := by
  unfold pageNote storeNote
  rw [soft]
  split <;> rfl

/-! ### The checks on a descriptor (Tables 10.1 and 10.2) -/

section
variable {d : Dev} {x : Part} {c : List Byte} {l : List Nat}

theorem length_pageList {a n : Nat} (read : pageList d a n = some l) : l.length = n := by
  unfold pageList at read
  split_ifs at read
  rw [← Option.some.inj read, List.length_map, List.length_range]

/-- The REQ_ID of a descriptor whose fields are good is not 0, and no live request has it. -/
theorem freeId_of_descBad (good : descBad x c = false) : lf c 0 4 ≠ 0 ∧ getReq x (BitVec.ofNat 32 (lf c 0 4)) = none := by
  simp only [descBad, Bool.or_eq_false_iff, decide_eq_false_iff_not, Option.isSome_eq_false_iff, Option.isNone_iff_eq_none] at good
  obtain ⟨⟨⟨⟨⟨⟨⟨⟨⟨-, nonzero⟩, free⟩, -⟩, -⟩, -⟩, -⟩, -⟩, -⟩, -⟩ := good
  exact ⟨fun zero => nonzero (by rw [zero]; rfl), free⟩

/-- A descriptor is accepted with this page list: it has met every row of Table 10.2 that the statement speaks of. -/
structure Accepts (d : Dev) (x : Part) (c : List Byte) (l : List Nat) : Prop where
  sel : x.srv.sel.isSome = true
  base : (activeMan x).isSome = true
  fields : descBad x c = false
  read : pageList d (lf c 32 8) (lf c 40 4) = some l
  pages : pagesGood d x l = true
  timely : lf c 24 8 = 0 ∨ d.mt.mt.toNat ≤ lf c 24 8

theorem accepts_of_checkDesc (ok : checkDesc d x c = (stOk, l)) : Accepts d x c l := by
  have refused {st : Nat} {p : Prop} (bad : st ≠ stOk) (h : (st, ([] : List Nat)) = (stOk, l)) : p := absurd (congrArg Prod.fst h) bad
  unfold checkDesc at ok
  split at ok
  · exact refused (by decide) ok
  split at ok
  · exact refused (by decide) ok
  next sel hsel =>
  split at ok
  · exact refused (by decide) ok
  next base =>
  split at ok
  · exact refused (by decide) ok
  next fields =>
  split at ok
  · exact refused (by decide) ok
  split at ok
  · exact refused (by decide) ok
  next pages read =>
  split at ok
  · exact refused (by decide) ok
  next good =>
  split at ok
  · exact refused (by decide) ok
  split at ok
  · exact refused (by decide) ok
  next late =>
  obtain rfl : pages = l := congrArg Prod.snd ok
  simp only [Bool.or_eq_true, Bool.not_eq_true', not_or, Bool.not_eq_false] at good
  simp only [Bool.and_eq_true, decide_eq_true_eq, not_and_or, not_not, not_lt] at late
  exact ⟨by rw [hsel]; rfl, by simpa [Option.isSome_iff_ne_none] using base, by simpa using fields, read, good.1, late⟩

end

/-! ### SUBMIT (R262) -/

/-- The serving engine with a descriptor accepted: the request it makes waits behind the others, and a restart that was pending for it
no longer is. -/
def takeDesc (r : Req) (s : Serving) : Serving :=
  { s with reqs := s.reqs ++ [r], order := s.order + 1, restarts := s.restarts.filter (fun q => q.id ≠ r.id) }

/-- SUB_HEAD at a descriptor's index. -/
def setHead (i : Nat) (s : Serving) : Serving := { s with subHead := BitVec.ofNat 16 i }

/-- The address of the descriptor at SUB_HEAD in a ring of so many. -/
def descAddr (x : Part) (n : Nat) : Nat := x.srv.subBase.toNat + 64 * (x.srv.subHead.toNat % n)

/-- That descriptor. -/
def descAt (d : Dev) (x : Part) (n : Nat) : List Byte := hostRd d (descAddr x n) 64

/-- The bytes that SUBMIT reads there, the status that Table 10.2 gives them, and their pages. -/
def verdict (d : Dev) (x : Part) (n : Nat) : List Byte × Nat × List Nat :=
  if hostOk d (descAddr x n) 64 then (descAt d x n, checkDesc d x (descAt d x n)) else ([], stBadArg, [])

/-- A descriptor is accepted or refused by its status. -/
def settleDesc (x : Part) (v : List Byte × Nat × List Nat) (d : Dev) : Dev :=
  if v.2.1 = stOk then acceptDesc x v.1 v.2.2 (pageNote (v.2.2.headD 0) 0 4 d)
  else reqRec x (stampNow d x) 0x0B 0xFFFF (BitVec.ofNat 32 (lf v.1 0 4)) v.2.1 d

/-- The index that SUB_HEAD moves on to. -/
def nextHead (x : Part) (n : Nat) : Nat := (x.srv.subHead.toNat % n + 1) % n

/-- The generation that a pending restart binds its descriptor to (R359). -/
def boundGen (x : Part) (c : List Byte) : BitVec 32 :=
  ((x.srv.restarts.find? (fun r => r.id = BitVec.ofNat 32 (lf c 0 4))).map (·.gen)).getD 0

section
variable {x : Part} {d : Dev} {l : List Nat}

/-- What SUBMIT leaves of its partition and of the module, with this serving engine before SUB_HEAD moves on. -/
structure Submits (x : Part) (v : Serving) (d e : Dev) : Prop where
  part : ∃ eph, getPart e x.pid = some { x with srv := v, eph := eph }
  host : e.host = d.host
  cpt : e.cpt = d.cpt

/-- A record of the request that is submitted. -/
theorem Submits.reqRec {v : Serving} {e : Dev} (h : Submits x v d e) (w : Stamp) (kind slot : Nat) (id : BitVec 32) (data : Nat) :
    Submits x v d (reqRec x w kind slot id data e) := by
  obtain ⟨⟨eph, here⟩, host, cpt⟩ := h
  have records := recordsOnly_reqRec (z := x) w kind slot id data e
  exact ⟨getPart_reqRec here rfl .., records.host.trans host, records.cpt.trans cpt⟩

theorem Submits.modSrv {v : Serving} {e : Dev} (h : Submits x v d e) (f : Serving → Serving) :
    Submits x (f v) d (modSrv x.pid f e) := by
  obtain ⟨⟨eph, here⟩, host, cpt⟩ := h
  refine ⟨⟨eph, ?_⟩, (modPart_host ..).trans host, (modPart_cpt ..).trans cpt⟩
  rw [Machine.modSrv, getPart_modPart_same, here, Option.map_some]

theorem submits_refl (here : getPart d x.pid = some x) : Submits x x.srv d d := ⟨⟨x.eph, here⟩, rfl, rfl⟩

theorem acceptDesc_submits (here : getPart d x.pid = some x) (c : List Byte) (l : List Nat) :
    Submits x (takeDesc (newReq x c l (boundGen x c)) x.srv) d (acceptDesc x c l d) := by
  have taken := (submits_refl here).modSrv (takeDesc (newReq x c l (boundGen x c)))
  unfold acceptDesc; dsimp only
  split
  · exact taken.reqRec ..
  · exact taken.reqRec ..

theorem submit_closed {p : Nat} (here : getPart d p = some x) (closed : x.srv.admitOn = false) : submit p d = d := by
  rw [submit, withPart_some _ here]
  split
  · rfl
  · exact if_pos (by rw [closed]; rfl)

variable {n : Nat} (here : getPart d x.pid = some x) (opened : x.srv.admitOn = true) (ring : subRing x = some n)
  (waits : x.srv.subHead.toNat % n ≠ x.srv.subTail.toNat % n)
include here opened ring waits

theorem submit_settles : submit x.pid d = modSrv x.pid (setHead (nextHead x n)) (settleDesc x (verdict d x n) d) := by
  have turn : ¬ (!x.srv.admitOn || decide (x.srv.subHead.toNat % n = x.srv.subTail.toNat % n)) = true := by simp [opened, waits]
  rw [submit, withPart_some _ here]
  simp only [ring]
  rw [if_neg turn]
  rfl

/-- A descriptor that cannot be read, or that a check of Table 10.2 refuses, leaves a record alone. -/
theorem submit_refuses (bad : hostOk d (descAddr x n) 64 = false ∨ (checkDesc d x (descAt d x n)).1 ≠ stOk) :
    Submits x (setHead (nextHead x n) x.srv) d (submit x.pid d) := by
  have refused : (verdict d x n).2.1 ≠ stOk := by
    unfold verdict
    split
    next ok => exact bad.resolve_left (by simp [ok])
    next => decide
  rw [submit_settles here opened ring waits, settleDesc, if_neg refused]
  exact ((submits_refl here).reqRec ..).modSrv _

/-- A descriptor that every check passes becomes a request, with the pages it lists. -/
theorem submit_accepts (soft : d.store.soft = []) (ok : hostOk d (descAddr x n) 64 = true)
    (good : checkDesc d x (descAt d x n) = (stOk, l)) :
    let c := descAt d x n
    Submits x (setHead (nextHead x n) (takeDesc (newReq x c l (boundGen x c)) x.srv)) d (submit x.pid d) := by
  rw [submit_settles here opened ring waits, settleDesc, verdict, if_pos ok, good, if_pos rfl, pageNote_of_noSoft soft]
  exact (acceptDesc_submits here ..).modSrv _

end

end Sys2Proof.Machine
end

section
/-! The obligation of submission (R260, R262, R264, Tables 10.1 and 10.2). -/

namespace Sys2Proof.Machine

open Sys2Proof

theorem exec_submit (p : Fin 16) (s : State) : exec (.submit p) s = on (whenMp (submit p.val)) s := rfl

theorem exec_admitWrite (p : Fin 16) (v : Bool) (s : State) :
    exec (.admitWrite p v) s = on (whenHost (setAdmit p.val v)) s := rfl

/-! ### ADMIT (R264) -/

section
variable {p : Fin 16} {v : Bool} {s : State}

theorem gives_admitWrite (up : hwUp s.dev = true) (secure : ioSecure s.dev = true) :
    Gives (.admitWrite p v) s (setAdmit p.val v s.dev) := by
  rw [Gives, exec_admitWrite, on_eq, whenHost_runs up secure]

theorem setAdmit_serves {x : Part} {d : Dev} (here : getPart d p.val = some x)
    (serves : v = false ∨ (1 ≤ d.otp.lc.toNat ∧ d.otp.lc.toNat ≤ 3)) :
    setAdmit p.val v d = setPart p.val { x with srv := { x.srv with admitOn := v } } d := by
  have open_ : ¬ (v && !(1 ≤ d.otp.lc.toNat && d.otp.lc.toNat ≤ 3)) = true := by
    obtain off | ⟨low, high⟩ := serves
    · simp [off]
    · simp [low, high]
  rw [setAdmit, if_neg open_, modSrv, modPart_some here]

theorem setAdmit_discards {d : Dev} (one : v = true) (idle : d.otp.lc = 0 ∨ 3 < d.otp.lc.toNat) : setAdmit p.val v d = d := by
  refine if_pos ?_
  obtain zero | high := idle
  · simp [one, zero]
  · simp [one, Nat.not_le.mpr high]

end

/-- Settles O31: a descriptor's checks decide between its request and its record, and SUB_HEAD moves on behind both. -/
theorem submissionsAreTakenInOrder : Obligations.SubmissionsAreTakenInOrder := by
  unfold Obligations.SubmissionsAreTakenInOrder
  intro s p v x here own
  refine ⟨fun up secure serves => setAdmit_serves here serves ▸ gives_admitWrite up secure,
    fun up secure one idle => (congrArg (Gives _ s) (setAdmit_discards one idle)).mp (gives_admitWrite up secure),
    fun mp closed => gives_whenMp (exec_submit p s) mp (submit_closed here closed), ?taken, ?accepted⟩
  case taken =>
    intro n mp soft opened ring waits
    rw [← own] at here
    have gives := gives_whenMp (exec_submit p s) mp rfl
    rw [← own] at gives ⊢
    by_cases accepts : hostOk s.dev (descAddr x n) 64 = true ∧
        (checkDesc s.dev x (descAt s.dev x n)).1 = stOk
    · obtain ⟨ok, good⟩ := accepts
      obtain ⟨⟨eph, there⟩, host, cpt⟩ := submit_accepts here opened ring waits soft ok (Prod.ext good rfl)
      refine ⟨_, _, gives, there, rfl, host, cpt, rfl, fun bad => ?_, fun _ _ =>
        ⟨_, rfl, rfl, rfl, rfl, rfl, rfl, rfl, rfl, rfl, rfl, rfl⟩⟩
      exact absurd good (bad.resolve_left (Bool.eq_false_iff.not_left.mpr ok))
    · have bad : hostOk s.dev (descAddr x n) 64 = false ∨
          (checkDesc s.dev x (descAt s.dev x n)).1 ≠ stOk :=
        (not_and_or.mp accepts).imp_left Bool.eq_false_iff.mpr
      obtain ⟨⟨eph, there⟩, host, cpt⟩ := submit_refuses here opened ring waits bad
      exact ⟨_, _, gives, there, rfl, host, cpt, rfl, fun _ => rfl, fun ok good => absurd ⟨ok, good⟩ accepts⟩
  case accepted =>
    intro c l ok
    obtain ⟨sel, base, fields, read, pages, timely⟩ := accepts_of_checkDesc ok
    obtain ⟨nonzero, free⟩ := freeId_of_descBad fields
    refine ⟨nonzero, free, length_pageList read, sel, base, fun i hi => ?_, timely⟩
    exact Bool.and_eq_true_iff.mp (List.all_eq_true.mp pages i hi)

end Sys2Proof.Machine
end

section
/-!
SUPPORT. Management floods: the header of a message, and what a flood, a part of a placement and a STALE leave of their partition (R337,
R338).
-/

namespace Sys2Proof.Machine

open Sys2Proof

section
variable {p : Nat} {x y : Part} {d : Dev}

/-! ### Headers (Table 12.8) -/

/-- What a module remembers of a MGMT message, to act on it once: its kind, its orbit and its part. -/
def floodKey (pl : List Byte) : Nat × BitVec 32 × Nat := (lf pl 0 1, BitVec.ofNat 32 (lf pl 4 4), lf pl 1 1)

theorem floodKey_stale (orbit : BitVec 32) : floodKey (mgmtHeader 2 0 1 orbit.toNat) = (2, orbit, 0) := by
  have four : lf (mgmtHeader 2 0 1 orbit.toNat) 4 4 = leNat (toLe 4 orbit.toNat) := rfl
  rw [floodKey, four, leNat_toLe, Nat.mod_eq_of_lt (b := 256 ^ 4) orbit.isLt, BitVec.ofNat_toNat, BitVec.setWidth_eq]
  rfl

/-! ### Floods (R337) -/

/-- A partition that remembers these messages, with this count of comet packets dropped. -/
def withFloods (floods : List (Nat × BitVec 32 × Nat)) (drop : BitVec 32) (y : Part) : Part :=
  { y with fab := { y.fab with floods := floods, cometDrop := drop } }

/-- A packet that finds its comet queue full is counted (R315). -/
theorem getPart_enqueueComet (here : getPart d p = some y) (port : Nat) (kind : CometKind) (pkt : Packet) (second : Bool) :
    ∃ drop, getPart (enqueueComet p port kind pkt second d) p = some (withFloods y.fab.floods drop y) := by
  unfold enqueueComet
  split
  · exact ⟨satAdd y.fab.cometDrop 1, by rw [getPart_modPart_same, here]; rfl⟩
  · exact ⟨y.fab.cometDrop, here⟩

/-- A flood is remembered, and leaves no other mark on its partition but packets dropped. -/
theorem getPart_flood (here : getPart d p = some y) (except : Option Nat) (pl : List Byte) :
    ∃ drop, getPart (flood p except pl d) p = some (withFloods (y.fab.floods ++ [floodKey pl]) drop y) := by
  let Flooded (e : Dev) : Prop := ∃ drop, getPart e p = some (withFloods (y.fab.floods ++ [floodKey pl]) drop y)
  rw [flood, withPart_some _ here]
  refine forEach_keeps Flooded _ (fun e c ⟨drop, there⟩ => ?_) _ _ ⟨y.fab.cometDrop, getPart_setPart_same ..⟩
  exact getPart_enqueueComet there ..

end

end Sys2Proof.Machine
end

section
/-!
SUPPORT. The live requests of a partition while a placement is formed or followed: what the end, the eclipse and the records of requests
leave of them, and of their partition (R263, R273, R275).
-/

namespace Sys2Proof.Machine

open Sys2Proof

/-- A partition but for what ending and eclipsing requests, settling budgets and flooding change. -/
def unattended (x : Part) : Part := { x with
  eph := {}, w := {}, fab := { x.fab with floods := [], cometDrop := 0 }
  srv := { x.srv with reqs := [], gone := [], steps := [], settled := [], charge := [], settledFor := none } }

/-- A partition stands in the table as it stood but for that, with these live requests. -/
def Attends (x : Part) (l : List Req) (d : Dev) : Prop :=
  ∃ y, getPart d x.pid = some y ∧ unattended y = unattended x ∧ y.srv.reqs = l

section
variable {x z y : Part} {l k : List Req} {d : Dev} {r q : Req}

theorem attends_refl (here : getPart d x.pid = some x) : Attends x x.srv.reqs d := ⟨x, here, rfl, rfl⟩

theorem pid_of_unattended (same : unattended y = unattended x) : y.pid = x.pid := (congrArg Part.pid same :)

theorem Attends.reqRec (h : Attends x l d) (own : z.pid = x.pid) (w : Stamp) (kind slot : Nat) (id : BitVec 32) (data : Nat) :
    Attends x l (reqRec z w kind slot id data d) := by
  obtain ⟨y, here, same, reqs⟩ := h
  rw [← own] at here
  obtain ⟨eph, recorded⟩ := getPart_reqRec here ((pid_of_unattended same).trans own.symm) w kind slot id data
  rw [own] at recorded
  exact ⟨_, recorded, same, reqs⟩

theorem Attends.ephRec (h : Attends x l d) (kind slot req data : Nat) : Attends x l (ephRec x.pid kind slot req data d) := by
  obtain ⟨y, here, same, reqs⟩ := h
  obtain ⟨eph, recorded⟩ := getPart_ephRec here (pid_of_unattended same) kind slot req data
  exact ⟨_, recorded, same, reqs⟩

/-- A change of the partition's record that spares what stands. -/
theorem Attends.modPart (h : Attends x l d) (f : Part → Part) (k : List Req) (spares : ∀ y, unattended (f y) = unattended y)
    (reqs : ∀ y, y.srv.reqs = l → (f y).srv.reqs = k) : Attends x k (modPart x.pid f d) := by
  obtain ⟨y, here, same, listed⟩ := h
  exact ⟨f y, by rw [getPart_modPart_same, here]; rfl, (spares y).trans same, reqs y listed⟩

theorem Attends.freeCopy (h : Attends x l d) (s : Nat) : Attends x l (freeCopy x.pid s d) := by
  obtain ⟨y, here, same, reqs⟩ := h
  exact ⟨_, getPart_freeCopy here s, same, reqs⟩

theorem Attends.flood (h : Attends x l d) (except : Option Nat) (pl : List Byte) : Attends x l (flood x.pid except pl d) := by
  obtain ⟨y, here, same, reqs⟩ := h
  obtain ⟨drop, flooded⟩ := getPart_flood here except pl
  exact ⟨_, flooded, same, reqs⟩

/-! ### Settlement (R279) -/

theorem Attends.settleOne (h : Attends x l d) (c : Nat) : Attends x l (settleOne x.pid c d) := by
  have there := h
  obtain ⟨y, here, -⟩ := h
  rw [Machine.settleOne, withPart_some _ here]
  dsimp only
  have settled (v : Int) := there.modPart (fun y => { y with srv := { y.srv with settled := tput y.srv.settled c v } }) l
    (fun _ => rfl) (fun _ => id)
  split
  · exact settled _
  · exact (settled _).ephRec ..

theorem Attends.settle (h : Attends x l d) : Attends x l (settle x.pid d) := by
  have there := h
  obtain ⟨y, here, -⟩ := h
  rw [Machine.settle, withPart_some _ here]
  split
  · exact there
  · refine Attends.modPart ?_ _ l (fun _ => rfl) (fun _ => id)
    exact forEach_keeps (Attends x l) _ (fun c e h => h.settleOne c) _ _ there

/-! ### Requests that end (R263) -/

theorem Attends.endReq (h : Attends x l d) (r : Req) (slot status reason : Nat) (w : Stamp) :
    Attends x (l.filter (fun q => q.id ≠ r.id)) (endReq x.pid r slot status reason w d) := by
  have there := h
  obtain ⟨y, here, same, reqs⟩ := h
  rw [Machine.endReq, withPart_some _ here]
  dsimp only
  refine Attends.reqRec ?_ (pid_of_unattended same) ..
  refine Attends.modPart (l := l) ?_ _ _ (fun _ => rfl) fun _ _ => by rw [← reqs]
  split
  · split
    · exact there.freeCopy _
    · exact there
  · exact there

/-- A placement comes to a request: it ends it, or leaves it (R263, R273). -/
def placeEnd (pid : Nat) (x : Part) (r : Req) (d : Dev) : Dev :=
  if r.cancel then endReq pid r (r.slot.getD 0xFFFF) stAborted 1 (stampNow d x) d
  else if (r.st = .waiting || (r.st = .eclipsed && !r.held)) && r.deadline ≠ 0 && decide (r.deadline.toNat < d.mt.mt.toNat) &&
      !r.lateCont then endReq pid r 0xFFFF stLate 2 (stampNow d x) d
  else d

theorem placeEnds_eq {p : Nat} (here : getPart d p = some y) (f : Req → Bool) :
    placeEnds p f d = forEach (y.srv.reqs.filter f) (placeEnd p y) d := by
  rw [placeEnds, withPart_some _ here]
  rfl

/-- What the ends of some requests leave of a list: nothing new, nothing under the REQ_ID of one that was cancelled, and all that shares
no REQ_ID with them. -/
structure Ended (k l m : List Req) : Prop where
  kept : ∀ q ∈ m, q ∈ l
  gone : ∀ r ∈ k, r.cancel = true → ∀ q ∈ m, q.id ≠ r.id
  spared : ∀ q ∈ l, (∀ r ∈ k, q.id ≠ r.id) → q ∈ m

theorem ended_nil (l : List Req) : Ended [] l l := ⟨fun _ => id, fun _ h => (by cases h), fun _ h _ => h⟩

theorem Ended.cons {a b : List Req} (one : Ended [r] l a) (rest : Ended k a b) : Ended (r :: k) l b := by
  refine ⟨fun q hq => one.kept q (rest.kept q hq), fun c hc cancelled q hq => ?_, fun q hq other => ?_⟩
  · obtain rfl | later := List.mem_cons.mp hc
    · exact one.gone c (.head _) cancelled q (rest.kept q hq)
    · exact rest.gone c later cancelled q hq
  · refine rest.spared q (one.spared q hq fun c hc => ?_) fun c hc => other c (.tail _ hc)
    exact List.mem_singleton.mp hc ▸ other r (.head _)

theorem ended_filter (r : Req) (l : List Req) : Ended [r] l (l.filter (fun q => q.id ≠ r.id)) := by
  refine ⟨fun q hq => List.mem_of_mem_filter hq, fun c hc _ q hq => ?_, fun q hq other => ?_⟩
  · rw [List.mem_singleton.mp hc]
    exact of_decide_eq_true (List.mem_filter.mp hq).2
  · exact List.mem_filter.mpr ⟨hq, decide_eq_true (other r (.head _))⟩

theorem Attends.placeEnd (h : Attends x l d) (y : Part) (r : Req) : ∃ m, Attends x m (placeEnd x.pid y r d) ∧ Ended [r] l m := by
  unfold Machine.placeEnd
  split
  next => exact ⟨_, h.endReq .., ended_filter r l⟩
  next uncancelled =>
    split
    · exact ⟨_, h.endReq .., ended_filter r l⟩
    · exact ⟨l, h, fun _ => id, fun c hc cancelled => absurd (List.mem_singleton.mp hc ▸ cancelled) uncancelled, fun _ h _ => h⟩

theorem Attends.forEach_placeEnd (h : Attends x l d) (y : Part) (k : List Req) :
    ∃ m, Attends x m (forEach k (Machine.placeEnd x.pid y) d) ∧ Ended k l m := by
  induction k generalizing d l with
  | nil => exact ⟨l, h, ended_nil l⟩
  | cons r k ih =>
    obtain ⟨a, first, one⟩ := h.placeEnd y r
    obtain ⟨b, last, rest⟩ := ih first
    exact ⟨b, last, one.cons rest⟩

theorem Attends.placeEnds (h : Attends x l d) (f : Req → Bool) : ∃ m, Attends x m (placeEnds x.pid f d) ∧ Ended (l.filter f) l m := by
  have there := h
  obtain ⟨y, here, -, reqs⟩ := h
  rw [placeEnds_eq here, ← reqs]
  rw [← reqs] at there
  exact there.forEach_placeEnd ..

/-! ### Requests that are eclipsed (R275) -/

/-- A request that is eclipsed rides in no slot. -/
def eclipsed (cause : Nat) (q : Req) : Req := { q with st := .eclipsed, slot := none, cause := cause }

/-- What the eclipse of one request leaves of each. -/
def eclipseIf (cause : Nat) (r q : Req) : Req := if q.id = r.id then eclipsed cause q else q

theorem eclipseIf_id (cause : Nat) (r q : Req) : (eclipseIf cause r q).id = q.id := by unfold eclipseIf; split <;> rfl

theorem eclipseIf_cancel (cause : Nat) (r q : Req) : (eclipseIf cause r q).cancel = q.cancel := by unfold eclipseIf; split <;> rfl

/-- It no longer runs, or it is another and stays as it was. -/
theorem eclipseIf_running {cause : Nat} (runs : (eclipseIf cause r q).st = .running) : q.id ≠ r.id ∧ eclipseIf cause r q = q := by
  unfold eclipseIf at runs ⊢
  split at runs
  · cases runs
  next other => exact ⟨other, if_neg other⟩

theorem Attends.eclipseReq (h : Attends x l d) (own : z.pid = x.pid) (r : Req) (cause : Nat) :
    Attends x (l.map (eclipseIf cause r)) (eclipseReq z r cause d) := by
  refine Attends.reqRec ?_ own ..
  rw [own]
  exact h.modPart _ _ (fun _ => rfl) fun y reqs => by rw [← reqs]; rfl

/-- What the eclipses of a list of requests leave of one. -/
def eclipseBy (k : List Req) (q : Req) : Req := k.foldl (fun q r => eclipseIf 0 r q) q

theorem Attends.forEach_eclipseReq (h : Attends x l d) (own : z.pid = x.pid) (k : List Req) :
    Attends x (l.map (eclipseBy k)) (forEach k (fun r => Machine.eclipseReq z r 0) d) := by
  induction k generalizing d l with
  | nil => exact (List.map_id l).symm ▸ h
  | cons r k ih =>
    have rest := ih (h.eclipseReq own r 0)
    rwa [List.map_map] at rest

theorem eclipseBy_other (other : ∀ r ∈ k, q.id ≠ r.id) : eclipseBy k q = q := by
  induction k with
  | nil => rfl
  | cons r k ih =>
    rw [eclipseBy, List.foldl_cons, eclipseIf, if_neg (other r (.head _))]
    exact ih fun a ha => other a (.tail _ ha)

theorem eclipseBy_id : (eclipseBy k q).id = q.id := by
  induction k generalizing q with
  | nil => rfl
  | cons r k ih => exact ih.trans (eclipseIf_id ..)

theorem eclipseBy_cancel : (eclipseBy k q).cancel = q.cancel := by
  induction k generalizing q with
  | nil => rfl
  | cons r k ih => exact ih.trans (eclipseIf_cancel ..)

/-- No request runs that did not, nor one that an eclipsed one shares its REQ_ID with. -/
theorem eclipseBy_st (stops : q.st = .running → ∃ r ∈ k, q.id = r.id) : (eclipseBy k q).st ≠ .running := by
  induction k generalizing q with
  | nil =>
    intro runs
    obtain ⟨r, mem, -⟩ := stops runs
    cases mem
  | cons r k ih =>
    refine ih fun runs => ?_
    obtain ⟨other, stays⟩ := eclipseIf_running runs
    obtain ⟨a, mem, same⟩ := stops (stays ▸ runs)
    exact ⟨a, (List.mem_cons.mp mem).resolve_left (fun first => other (first ▸ same)), (eclipseIf_id ..).trans same⟩

end

end Sys2Proof.Machine
end

section
/-!
SUPPORT. A placement: the chunks it gives stay within TOKEN_CAP, and each of its entries is of a request that nothing bars (R273, R274).
-/

namespace Sys2Proof.Machine

open Sys2Proof

/-! ### Writing a table entry by entry -/

theorem mem_tput {α : Type} {t : Tab α} {k : Nat} {v : α} {e : Nat × α} (mem : e ∈ tput t k v) : e = (k, v) ∨ e ∈ t := by
  induction t with
  | nil => exact .inl (List.mem_singleton.mp mem)
  | cons a r ih =>
    unfold tput at mem
    split_ifs at mem
    · exact List.mem_cons.mp mem
    · exact (List.mem_cons.mp mem).imp_right (.tail _)
    · obtain rfl | later := List.mem_cons.mp mem
      · exact .inr (.head _)
      · exact (ih later).imp_right (.tail _)

/-- The tokens that the entries of a placement take. -/
def tokens (t : Tab PlaceEntry) : Nat := (t.map (fun k => k.2.chunk)).sum

theorem tokens_cons (e : Nat × PlaceEntry) (t : Tab PlaceEntry) : tokens (e :: t) = e.2.chunk + tokens t := rfl

theorem tokens_append (a b : Tab PlaceEntry) : tokens (a ++ b) = tokens a + tokens b := by simp [tokens]

theorem tokens_tput (t : Tab PlaceEntry) (k : Nat) (v : PlaceEntry) : tokens (tput t k v) ≤ tokens t + v.chunk := by
  induction t with
  | nil => simp [tput, tokens]
  | cons a r ih =>
    unfold tput
    split_ifs
    all_goals simp only [tokens_cons]; omega

/-- A table written entry by entry. -/
def putEntries (l t : Tab PlaceEntry) : Tab PlaceEntry := l.foldl (fun t e => tput t e.1 e.2) t

theorem tokens_putEntries (l t : Tab PlaceEntry) : tokens (putEntries l t) ≤ tokens t + tokens l := by
  induction l generalizing t with
  | nil => exact Nat.le_add_right ..
  | cons e l ih =>
    have rest := ih (tput t e.1 e.2)
    have one := tokens_tput t e.1 e.2
    rw [putEntries, List.foldl_cons, tokens_cons]
    rw [putEntries] at rest
    omega

theorem mem_putEntries {l t : Tab PlaceEntry} {e : Nat × PlaceEntry} (mem : e ∈ putEntries l t) : e ∈ l ∨ e ∈ t := by
  induction l generalizing t with
  | nil => exact .inr mem
  | cons a l ih =>
    obtain later | first := ih mem
    · exact .inl (.tail _ later)
    · obtain rfl | there := mem_tput first
      · exact .inl (.head _)
      · exact .inr there

/-! ### Slots (R273) -/

/-- A request that runs keeps its slot. -/
def ownSlot (e : Req × PlaceEntry) : Option (Nat × PlaceEntry) :=
  if e.1.st = .running then e.1.slot.map (fun s => (s, e.2)) else none

/-- Another needs one. -/
def needsSlot (e : Req × PlaceEntry) : Bool := !(e.1.st = .running && e.1.slot.isSome)

theorem needsSlot_eq (e : Req × PlaceEntry) : needsSlot e = (ownSlot e).isNone := by
  unfold needsSlot ownSlot
  split
  next run => simp [run]
  next stands => simp [stands]

theorem entry_of_ownSlot {e : Req × PlaceEntry} {a : Nat × PlaceEntry} (own : ownSlot e = some a) : a.2 = e.2 := by
  unfold ownSlot at own
  split at own
  · obtain ⟨s, -, rfl⟩ := Option.map_eq_some_iff.mp own
    rfl
  · cases own

/-- Tokens of entries that have no slot yet. -/
def tokensOf (l : List (Req × PlaceEntry)) : Nat := (l.map (fun e => e.2.chunk)).sum

theorem tokensOf_cons (e : Req × PlaceEntry) (l : List (Req × PlaceEntry)) : tokensOf (e :: l) = e.2.chunk + tokensOf l := rfl

/-- Each request has its slot or needs one. -/
theorem tokens_own_add (l : List (Req × PlaceEntry)) : tokens (l.filterMap ownSlot) + tokensOf (l.filter needsSlot) = tokensOf l := by
  induction l with
  | nil => rfl
  | cons e l ih =>
    rw [tokensOf_cons, List.filterMap_cons, List.filter_cons, needsSlot_eq]
    cases own : ownSlot e with
    | none => simp only [Option.isNone_none, if_true, tokensOf_cons]; omega
    | some a => simp only [Option.isNone_some, Bool.false_eq_true, if_false, tokens_cons, entry_of_ownSlot own]; omega

theorem tokens_zip (free : List Nat) (l : List (Req × PlaceEntry)) : tokens (free.zip (l.map (·.2))) ≤ tokensOf l := by
  induction free generalizing l with
  | nil => exact Nat.zero_le _
  | cons s free ih =>
    cases l with
    | nil => exact Nat.zero_le _
    | cons e l => exact Nat.add_le_add_left (ih l) e.2.chunk

theorem giveSlots_eq (n : Nat) (taken : List Nat) (l : List (Req × PlaceEntry)) : ∃ free : List Nat,
    giveSlots n taken l = putEntries (l.filterMap ownSlot ++ free.zip ((l.filter needsSlot).map (·.2))) [] := ⟨_, rfl⟩

theorem tokens_giveSlots (n : Nat) (taken : List Nat) (l : List (Req × PlaceEntry)) : tokens (giveSlots n taken l) ≤ tokensOf l := by
  obtain ⟨free, given⟩ := giveSlots_eq n taken l
  have put := tokens_putEntries (l.filterMap ownSlot ++ free.zip ((l.filter needsSlot).map (·.2))) []
  have zip := tokens_zip free (l.filter needsSlot)
  have split := tokens_own_add l
  rw [tokens_append] at put
  rw [given]
  exact put.trans (by rw [show tokens [] = 0 from rfl]; omega)

/-- An entry of the placement is that of a request. -/
theorem mem_giveSlots {n : Nat} {taken : List Nat} {l : List (Req × PlaceEntry)} {e : Nat × PlaceEntry}
    (mem : e ∈ giveSlots n taken l) : ∃ r, (r, e.2) ∈ l := by
  obtain ⟨free, given⟩ := giveSlots_eq n taken l
  rw [given] at mem
  obtain own | rest := List.mem_append.mp ((mem_putEntries mem).resolve_right List.not_mem_nil)
  · obtain ⟨⟨r, v⟩, listed, slot⟩ := List.mem_filterMap.mp own
    exact ⟨r, entry_of_ownSlot slot ▸ listed⟩
  · obtain ⟨⟨r, v⟩, listed, same⟩ := List.mem_map.mp (List.of_mem_zip (a := e.1) (b := e.2) rest).2
    exact ⟨r, same ▸ List.mem_of_mem_filter listed⟩

/-! ### Steps (R274) -/

/-- A step takes no more tokens than are left, and is of its request. -/
theorem nextChunk_some {s : Selector} {r : Req} {p : Nat × Nat} {gen : BitVec 32} {cap : Nat} {e : PlaceEntry}
    (next : nextChunk s r p gen cap = some e) : e.chunk ≤ cap ∧ e.id = r.id := by
  have chunk (rem : Nat) : chunkOf rem s.maxChunk cap ≤ cap := by
    have low : min rem (min s.maxChunk cap) ≤ cap := (Nat.min_le_right ..).trans (Nat.min_le_right ..)
    unfold chunkOf; dsimp only
    split <;> omega
  unfold nextChunk at next
  dsimp only at next
  split at next
  · split at next
    · cases next
    next left =>
      obtain rfl := Option.some.inj next
      exact ⟨Nat.one_le_iff_ne_zero.mpr left, rfl⟩
  · split at next
    · cases next
    · obtain rfl := Option.some.inj next
      exact ⟨chunk _, rfl⟩

/-- A request that placing gave a step, with it. -/
def placedOf (e : Req × Except Nat PlaceEntry) : Option (Req × PlaceEntry) :=
  match e.2 with
  | .ok p => some (e.1, p)
  | .error _ => none

theorem tokensOf_errors (l : List (Req × (Nat × Nat))) (c : Nat) :
    tokensOf ((l.map (fun e => (e.1, (.error c : Except Nat PlaceEntry)))).filterMap placedOf) = 0 := by
  induction l with
  | nil => rfl
  | cons e l ih => exact ih

theorem tokensOf_placeAll (s : Selector) (x : Part) (slots cap : Nat) (l : List (Req × (Nat × Nat))) :
    tokensOf ((placeAll s x slots cap l).filterMap placedOf) ≤ cap := by
  induction l generalizing slots cap with
  | nil =>
    rw [placeAll]
    exact Nat.zero_le _
  | cons a l ih =>
    obtain ⟨r, p⟩ := a
    cases slots with
    | zero =>
      rw [placeAll, tokensOf_errors]
      · exact Nat.zero_le _
      · exact List.cons_ne_nil _ _
    | succ slots =>
      rw [placeAll]
      split
      next e next =>
        have left := ih slots (cap - e.chunk)
        have taken := (nextChunk_some next).1
        rw [List.filterMap_cons_some (rfl : placedOf (r, .ok e) = some (r, e)), tokensOf_cons]
        dsimp only
        omega
      next => exact ih (slots + 1) cap

theorem mem_placeAll {s : Selector} {x : Part} {slots cap : Nat} {l : List (Req × (Nat × Nat))} {r : Req} {e : PlaceEntry}
    (mem : (r, .ok e) ∈ placeAll s x slots cap l) : e.id = r.id ∧ ∃ p, (r, p) ∈ l := by
  induction l generalizing slots cap with
  | nil =>
    rw [placeAll] at mem
    cases mem
  | cons a l ih =>
    obtain ⟨q, p⟩ := a
    have later {n c : Nat} (h : (r, .ok e) ∈ placeAll s x n c l) : e.id = r.id ∧ ∃ p', (r, p') ∈ (q, p) :: l := by
      obtain ⟨same, p', listed⟩ := ih h
      exact ⟨same, p', .tail _ listed⟩
    cases slots with
    | zero =>
      rw [placeAll] at mem
      · obtain ⟨a, -, wrong⟩ := List.mem_map.mp mem
        cases (Prod.mk.inj wrong).2
      · exact List.cons_ne_nil _ _
    | succ slots =>
      rw [placeAll] at mem
      split at mem
      next v next =>
        obtain first | rest := List.mem_cons.mp mem
        · obtain ⟨rfl, ok⟩ := Prod.mk.inj first
          obtain rfl := Except.ok.inj ok
          exact ⟨(nextChunk_some next).2, p, .head _⟩
        · exact later rest
      next =>
        obtain first | rest := List.mem_cons.mp mem
        · cases (Prod.mk.inj first).2
        · exact later rest

/-! ### Eligible requests -/

theorem mem_insertKey {α : Type} {k : Nat} {a : α} {l : List (Nat × α)} {e : Nat × α} (mem : e ∈ insertKey k a l) :
    e = (k, a) ∨ e ∈ l := by
  induction l with
  | nil => exact .inl (List.mem_singleton.mp mem)
  | cons b l ih =>
    unfold insertKey at mem
    split_ifs at mem
    · exact List.mem_cons.mp mem
    · obtain rfl | later := List.mem_cons.mp mem
      · exact .inr (.head _)
      · exact (ih later).imp_right (.tail _)

/-- A request enters the order of placement (R273). -/
def enterOrder (d : Dev) (x : Part) (l : List (Nat × (Req × (Nat × Nat)))) (r : Req) : List (Nat × (Req × (Nat × Nat))) :=
  insertKey (placeKey r (progress d x r)) (r, progress d x r) l

/-- The requests that nothing bars, in the order of placement. -/
def eligible (d : Dev) (x : Part) : List (Req × (Nat × Nat)) :=
  ((x.srv.reqs.filter (fun r => (barred d x r).isNone)).foldl (enterOrder d x) []).map (·.2)

theorem mem_foldl_enterOrder {d : Dev} {x : Part} {k : List Req} {l : List (Nat × (Req × (Nat × Nat)))}
    {e : Nat × (Req × (Nat × Nat))} (mem : e ∈ k.foldl (enterOrder d x) l) : e ∈ l ∨ e.2.1 ∈ k := by
  induction k generalizing l with
  | nil => exact .inl mem
  | cons r k ih =>
    obtain entered | later := ih mem
    · exact (mem_insertKey entered).elim (fun first => .inr (first ▸ .head _)) .inl
    · exact .inr (.tail _ later)

theorem mem_eligible {d : Dev} {x : Part} {r : Req} {p : Nat × Nat} (mem : (r, p) ∈ eligible d x) :
    r ∈ x.srv.reqs ∧ barred d x r = none := by
  obtain ⟨⟨key, _⟩, entered, rfl⟩ := List.mem_map.mp mem
  obtain ⟨listed, free⟩ := List.mem_filter.mp ((mem_foldl_enterOrder entered).resolve_left List.not_mem_nil)
  exact ⟨listed, Option.isNone_iff_eq_none.mp free⟩

/-- A request that nothing bars is neither fenced nor held (Table 10.8). -/
theorem free_of_barred {d : Dev} {x : Part} {r : Req} (free : barred d x r = none) : r.held = false ∧ r.fenced = false := by
  unfold barred at free
  split at free
  · cases free
  next unfenced =>
    split at free
    · cases free
    next unheld =>
      simp only [Bool.or_eq_true, not_or, Bool.not_eq_true] at unfenced unheld
      exact ⟨unheld.1, unfenced⟩

/-! ### The placement -/

/-- Each eligible request with its step, or with the cause that leaves it out. -/
def outcomes (s : Selector) (d : Dev) (x : Part) : List (Req × Except Nat PlaceEntry) :=
  placeAll s x (32 * nBlocks x - (lastingFences d x).length) s.tokenCap (eligible d x)

/-- The placement that the leader forms. -/
def formed (s : Selector) (d : Dev) (x : Part) : Tab PlaceEntry :=
  giveSlots (32 * nBlocks x) (lastingFences d x) ((outcomes s d x).filterMap placedOf)

theorem tokens_formed (s : Selector) (d : Dev) (x : Part) : tokens (formed s d x) ≤ s.tokenCap :=
  (tokens_giveSlots ..).trans (tokensOf_placeAll ..)

/-- What is placed is a live request that is neither held nor fenced. -/
theorem mem_formed {s : Selector} {d : Dev} {x : Part} {e : Nat × PlaceEntry} (mem : e ∈ formed s d x) :
    ∃ r ∈ x.srv.reqs, r.id = e.2.id ∧ r.held = false ∧ r.fenced = false := by
  obtain ⟨r, placed⟩ := mem_giveSlots mem
  obtain ⟨⟨q, v⟩, out, ok⟩ := List.mem_filterMap.mp placed
  cases v with
  | error => cases ok
  | ok v =>
    obtain ⟨rfl, rfl⟩ := Prod.mk.inj (Option.some.inj ok)
    obtain ⟨same, p, listed⟩ := mem_placeAll out
    obtain ⟨live, free⟩ := mem_eligible listed
    exact ⟨q, live, same.symm, free_of_barred free⟩

/-- A running request that is left out is eclipsed (R275). -/
def leaveOut (x : Part) (out : List (Req × Except Nat PlaceEntry)) (r : Req) (e : Dev) : Dev :=
  if r.st ≠ .running then e
  else match barred e x r, out.find? (fun a => a.1.id = r.id) with
    | some c, _ => eclipseReq x r c e
    | none, some (_, .error c) => eclipseReq x r c e
    | none, _ => e

/-- The serving engine with a placement made for an orbit: fences of requests have had their effect. -/
def madeFor (orbit : BitVec 32) (t : Tab PlaceEntry) (v : Serving) : Serving :=
  { v with next := .made t, nextFor := orbit, reqs := v.reqs.map (fun r => { r with fenced := false }) }

theorem formPlacement_eq {p : Nat} {x : Part} {s : Selector} {d : Dev} (here : getPart d p = some x) (sel : x.srv.sel = some s) :
    formPlacement p d = sendPlacement p (formed s d x)
      (modSrv p (madeFor (x.orbit + 1) (formed s d x)) (forEach x.srv.reqs (leaveOut x (outcomes s d x)) d)) := by
  rw [formPlacement, withPart_some _ here]
  simp only [sel]
  rfl

end Sys2Proof.Machine
end

section
/-! The obligation of the placements (R263, R265, R273 to R275, R338). -/

namespace Sys2Proof.Machine

open Sys2Proof

theorem exec_placement (p : Fin 16) (s : State) : exec (.placement p) s = on (whenMp (placement p.val)) s := rfl
theorem exec_stale (p : Fin 16) (s : State) : exec (.stale p) s = on (whenMp (stale p.val)) s := rfl
theorem exec_placementReceive (p : Fin 16) (s : State) : exec (.placementReceive p) s = on (whenMp (placementReceive p.val)) s := rfl

/-- Ticks of half an orbit of a partition's plan (R265). -/
def halfOrbit (x : Part) : Nat := (x.info.map (·.orbitLen)).getD 0 / 2

section
variable {x y z : Part} {l m : List Req} {d : Dev}

/-! ### The leader forms its placement (R273) -/

theorem Attends.leaveOut (h : Attends x l d) (own : z.pid = x.pid) (out : List (Req × Except Nat PlaceEntry)) (r : Req) :
    ∃ m, Attends x m (leaveOut z out r d) ∧ m.map (·.id) = l.map (·.id) := by
  have leaves (c : Nat) : ∃ m, Attends x m (Machine.eclipseReq z r c d) ∧ m.map (·.id) = l.map (·.id) := by
    refine ⟨_, h.eclipseReq own r c, ?_⟩
    rw [List.map_map]
    exact List.map_congr_left fun q _ => eclipseIf_id c r q
  unfold Machine.leaveOut
  split
  · exact ⟨l, h, rfl⟩
  · split
    · exact leaves _
    · exact leaves _
    · exact ⟨l, h, rfl⟩

theorem Attends.forEach_leaveOut (h : Attends x l d) (own : z.pid = x.pid) (out : List (Req × Except Nat PlaceEntry)) (k : List Req) :
    ∃ m, Attends x m (forEach k (Machine.leaveOut z out) d) ∧ m.map (·.id) = l.map (·.id) := by
  refine forEach_keeps (fun e => ∃ m, Attends x m e ∧ m.map (·.id) = l.map (·.id)) _ (fun r e ⟨a, there, same⟩ => ?_) k d
    ⟨l, h, rfl⟩
  obtain ⟨b, left, ids⟩ := there.leaveOut own out r
  exact ⟨b, left, ids.trans same⟩

theorem Attends.sendPlacement (h : Attends x l d) (t : Tab PlaceEntry) : Attends x l (sendPlacement x.pid t d) := by
  have there := h
  obtain ⟨y, here, -⟩ := h
  rw [Machine.sendPlacement, withPart_some _ here]
  split
  · exact there
  · exact forEach_keeps (Attends x l) _ (fun _ _ h => h.flood ..) _ _ there

/-- What the leader forms, and the requests that are live then. -/
theorem formPlacement_outcome {s : Selector} (h : Attends x l d) (sel : x.srv.sel = some s) :
    ∃ y z, getPart (formPlacement x.pid d) x.pid = some y ∧ z.srv.reqs = l ∧ y.srv.next = .made (formed s d z) ∧
      y.srv.nextFor = x.orbit + 1 ∧ y.srv.reqs.map (·.id) = l.map (·.id) := by
  have there := h
  obtain ⟨z, here, same, reqs⟩ := h
  have forms := formPlacement_eq here ((congrArg (fun w : Part => w.srv.sel) same :).trans sel)
  obtain ⟨m, ⟨u, left, kept, listed⟩, ids⟩ := there.forEach_leaveOut (pid_of_unattended same) (outcomes s d z) z.srv.reqs
  let v : Part := { u with srv := madeFor (z.orbit + 1) (formed s d z) u.srv }
  have own : v.pid = x.pid := pid_of_unattended (y := u) kept
  have made : getPart (modSrv x.pid (madeFor (z.orbit + 1) (formed s d z)) (forEach z.srv.reqs (leaveOut z (outcomes s d z)) d)) v.pid =
      some v := by
    rw [own, modSrv, getPart_modPart_same, left, Option.map_some]
  obtain ⟨y, sent, spared, live⟩ := (attends_refl made).sendPlacement (formed s d z)
  rw [own, ← forms] at sent
  refine ⟨y, z, sent, reqs, (congrArg (fun w : Part => w.srv.next) spared :), ?_, ?_⟩
  · exact (congrArg (fun w : Part => w.srv.nextFor) spared :).trans (congrArg (fun w : Part => w.orbit + 1) same :)
  · rw [live, ← ids, ← listed]
    exact List.map_map

/-- In the first half of an orbit the leader forms the next placement, once. -/
theorem placement_forms {p : Nat} (here : getPart d p = some x) (leader : isLeader x = true) (runs : x.plan = .running)
    (inside : x.entering = false) (next : x.srv.next = .none_) (unformed : x.srv.nextFor ≠ x.orbit + 1) (early : x.tick < halfOrbit x)
    (delivered : x.srv.steps = []) :
    placement p d = formPlacement p (placeEnds p (fun _ => true) (settle p d)) := by
  rw [placement, withPart_some _ here]
  refine if_neg ?_
  rw [halfOrbit] at early
  simp only [leader, runs, inside, next, unformed, Nat.not_le.mpr early, delivered, ne_eq, not_true_eq_false, decide_false,
    Bool.not_true, Bool.or_self, Bool.false_eq_true, List.isEmpty_nil, not_false_eq_true]

theorem placement_outcome {s : Selector} (here : getPart d x.pid = some x) (sel : x.srv.sel = some s) :
    ∃ y t, getPart (formPlacement x.pid (placeEnds x.pid (fun _ => true) (settle x.pid d))) x.pid = some y ∧
      y.srv.next = .made t ∧ y.srv.nextFor = x.orbit + 1 ∧ tokens t ≤ s.tokenCap ∧
      (∀ k v, tget t k = some v → ∃ r ∈ x.srv.reqs, r.id = v.id ∧ r.held = false ∧ r.fenced = false ∧ r.cancel = false) ∧
      ∀ r ∈ x.srv.reqs, r.cancel = true → ∀ q ∈ y.srv.reqs, q.id ≠ r.id := by
  obtain ⟨l, attends, ended⟩ := (attends_refl here).settle.placeEnds (fun _ => true)
  rw [List.filter_true] at ended
  obtain ⟨y, z, there, live, made, for_, ids⟩ := formPlacement_outcome attends sel
  refine ⟨y, _, there, made, for_, tokens_formed .., fun k v placed => ?_, fun r hr cancelled q hq same => ?_⟩
  · obtain ⟨r, listed, id, unheld, unfenced⟩ := mem_formed (mem_of_tget placed)
    rw [live] at listed
    refine ⟨r, ended.kept r listed, id, unheld, unfenced, Bool.eq_false_iff.mpr fun cancelled => ?_⟩
    exact ended.gone r (ended.kept r listed) cancelled r listed rfl
  · have listed : q.id ∈ l.map (·.id) := ids ▸ List.mem_map_of_mem hq
    obtain ⟨a, ha, again⟩ := List.mem_map.mp listed
    exact ended.gone r hr cancelled a ha (again.trans same)

/-! ### A leader that is late (R265) -/

/-- The serving engine with STALE in its next placement's place. -/
def makeStale (v : Serving) : Serving := { v with next := .stale }

theorem stale_floods {p : Nat} (here : getPart d p = some x) (leader : isLeader x = true) (runs : x.plan = .running)
    (inside : x.entering = false) (next : x.srv.next = .none_) (unformed : x.srv.nextFor ≠ x.orbit + 1) (late : halfOrbit x ≤ x.tick)
    (unsent : x.fab.floods.contains (2, x.orbit + 1, 0) = false) :
    stale p d = flood p none (mgmtHeader 2 0 1 (x.orbit + 1).toNat) (modSrv p makeStale d) := by
  rw [stale, withPart_some _ here]
  rw [halfOrbit] at late
  simp only [leader, runs, inside, next, unformed, late, unsent, ne_eq, not_true_eq_false, decide_false, decide_true, Bool.not_true,
    Bool.or_self, Bool.false_eq_true, reduceCtorEq, if_false, if_true]
  rfl

theorem getPart_stale {p : Nat} (here : getPart d p = some x) :
    ∃ drop, getPart (flood p none (mgmtHeader 2 0 1 (x.orbit + 1).toNat) (modSrv p makeStale d)) p =
      some (withFloods (x.fab.floods ++ [(2, x.orbit + 1, 0)]) drop { x with srv := makeStale x.srv }) := by
  have made : getPart (modSrv p makeStale d) p = some { x with srv := makeStale x.srv } := by
    rw [modSrv, getPart_modPart_same, here, Option.map_some]
  rw [← floodKey_stale]
  exact getPart_flood made ..

/-! ### A module that follows (R263, R338) -/

/-- What following a placement leaves of a list of requests: those that are live were before, what is placed stays as it is, and of the
others none runs or is cancelled. -/
structure Followed (t : Tab PlaceEntry) (l m : List Req) : Prop where
  kept : ∀ q ∈ m, ∃ r ∈ l, r.id = q.id
  placed : ∀ r ∈ l, t.any (fun k => k.2.id = r.id) = true → r ∈ m
  left : ∀ q ∈ m, t.any (fun k => k.2.id = q.id) = false → q.st ≠ .running ∧ q.cancel = false

/-- A placement leaves a request out. -/
def leftOut (t : Tab PlaceEntry) (r : Req) : Bool := !t.any (fun e => e.2.id = r.id)

theorem leftOut_congr (t : Tab PlaceEntry) {r q : Req} (same : q.id = r.id) : leftOut t q = leftOut t r := by
  rw [leftOut, leftOut, same]

/-- Where those left out have ended, eclipsing those of them that run follows the placement. -/
theorem followed_of_ended {t : Tab PlaceEntry} (ended : Ended (l.filter (leftOut t)) l m) :
    Followed t l (m.map (eclipseBy (m.filter (fun r => leftOut t r && r.st = .running)))) := by
  refine ⟨fun q hq => ?_, fun r hr placed => ?_, fun q hq unplaced => ?_⟩
  · obtain ⟨a, ha, rfl⟩ := List.mem_map.mp hq
    exact ⟨a, ended.kept a ha, eclipseBy_id.symm⟩
  · have stays : leftOut t r = false := by rw [leftOut, placed]; rfl
    have apart {a : Req} (out : leftOut t a = true) : r.id ≠ a.id := fun same => by
      rw [← leftOut_congr t same, stays] at out
      cases out
    have live : r ∈ m := ended.spared r hr fun a ha => apart (List.mem_filter.mp ha).2
    refine List.mem_map.mpr ⟨r, live, eclipseBy_other fun a ha => apart ?_⟩
    exact (Bool.and_eq_true_iff.mp (List.mem_filter.mp ha).2).1
  · obtain ⟨a, ha, rfl⟩ := List.mem_map.mp hq
    have out : leftOut t a = true := by
      rw [← leftOut_congr t eclipseBy_id, leftOut, unplaced]
      rfl
    refine ⟨eclipseBy_st fun runs => ⟨a, List.mem_filter.mpr ⟨ha, by simp [out, runs]⟩, rfl⟩, ?_⟩
    rw [eclipseBy_cancel]
    exact Bool.eq_false_iff.mpr fun cancelled => ended.gone a (List.mem_filter.mpr ⟨ended.kept a ha, out⟩) cancelled a ha rfl

theorem Attends.followPlacement (h : Attends x l d) (t : Tab PlaceEntry) :
    ∃ m, Attends x m (followPlacement x.pid t d) ∧ Followed t l m := by
  obtain ⟨m, after, ended⟩ := h.placeEnds (leftOut t)
  have there := after
  obtain ⟨y, here, same, reqs⟩ := after
  refine ⟨_, ?_, followed_of_ended ended⟩
  rw [Machine.followPlacement, ← reqs]
  rw [← reqs] at there
  exact (withPart_some _ here).symm ▸ there.forEach_eclipseReq (pid_of_unattended same) _

/-- The serving engine with a placement held for an orbit, and none of its parts waiting (R338). -/
def holdWhole (orbit : BitVec 32) (t : Tab PlaceEntry) (v : Serving) : Serving :=
  { v with next := .made t, nextFor := orbit, parts := [] }

theorem holdPlacement_idle {p : Nat} (here : getPart d p = some x)
    (idle : ¬ ∃ t, placeWhole x = some t ∧ x.srv.next = .none_) : holdPlacement p d = d := by
  rw [holdPlacement, withPart_some _ here]
  split
  next t whole => exact if_neg fun next => idle ⟨t, whole, next⟩
  next => rfl

theorem holdPlacement_whole {t : Tab PlaceEntry} (here : getPart d x.pid = some x) (whole : placeWhole x = some t)
    (next : x.srv.next = .none_) : ∃ y, getPart (holdPlacement x.pid d) x.pid = some y ∧ y.fab.inbox = x.fab.inbox ∧
      y.srv.next = .made t ∧ y.srv.nextFor = x.orbit + 1 ∧ y.srv.parts = [] ∧ Followed t x.srv.reqs y.srv.reqs := by
  have turn : holdPlacement x.pid d = followPlacement x.pid t (modSrv x.pid (holdWhole (x.orbit + 1) t) d) := by
    rw [holdPlacement, withPart_some _ here, whole]
    exact if_pos next
  let z : Part := { x with srv := holdWhole (x.orbit + 1) t x.srv }
  have held : getPart (modSrv x.pid (holdWhole (x.orbit + 1) t) d) z.pid = some z := by
    rw [modSrv, getPart_modPart_same, here, Option.map_some]
  obtain ⟨m, ⟨y, there, same, reqs⟩, followed⟩ := (attends_refl held).followPlacement t
  exact ⟨y, turn ▸ there, (congrArg (fun w : Part => w.fab.inbox) same :), (congrArg (fun w : Part => w.srv.next) same :),
    (congrArg (fun w : Part => w.srv.nextFor) same :), (congrArg (fun w : Part => w.srv.parts) same :), reqs ▸ followed⟩

/-- A part of a placement in a partition's inbox. -/
def isPart (p : Packet) : Bool := pType p = 5 && lf p.payload 0 1 = 1

/-- A partition that keeps this part of a placement, with its message taken from the inbox (R337, R338). -/
def keepsPart (k : Received) (x : Part) : Part := { x with
  fab := { x.fab with inbox := x.fab.inbox.erase k }
  srv := { x.srv with parts := tput x.srv.parts (lf k.pkt.payload 1 1) (k.pkt.payload.drop 8) } }

/-- The first receipt of a part for the next orbit keeps it, and floods it onward. -/
theorem getPart_takePart {k : Received} (here : getPart d x.pid = some x)
    (oldest : x.fab.inbox.find? (fun e => isPart e.pkt) = some k) (orbit : BitVec.ofNat 32 (lf k.pkt.payload 4 4) = x.orbit + 1)
    (first : x.fab.floods.contains (1, x.orbit + 1, lf k.pkt.payload 1 1) = false) :
    ∃ floods drop, getPart (takeInbox x.pid isPart mgmtAct d) x.pid = some (withFloods floods drop (keepsPart k x)) := by
  have kind : lf k.pkt.payload 0 1 = 1 := of_decide_eq_true (Bool.and_eq_true_iff.mp (List.find?_some oldest :)).2
  let z : Part := { x with fab := { x.fab with inbox := x.fab.inbox.erase k } }
  obtain ⟨drop, flooded⟩ := getPart_flood (getPart_setPart_same d x.pid z) (some k.lport) k.pkt.payload
  refine ⟨z.fab.floods ++ [floodKey k.pkt.payload], drop, ?_⟩
  rw [takeInbox, withPart_some _ here, oldest]
  simp only [mgmtAct, kind, orbit, first, Bool.false_eq_true, if_false, keepPart, if_true]
  rw [modSrv, getPart_modPart_same, flooded, Option.map_some]
  rfl

end

/-- Settles O32: what the leader places comes from the requests that have not ended, and a module that follows ends or eclipses what is
left out. -/
theorem placementsAreFormedOrStale : Obligations.PlacementsAreFormedOrStale := by
  unfold Obligations.PlacementsAreFormedOrStale
  intro s p x mp here own
  refine ⟨?forms, ?stale, ?receives⟩
  case forms =>
    intro sel leader runs inside next unformed early delivered selector
    have gives := gives_whenMp (exec_placement p s) mp (placement_forms here leader runs inside next unformed early delivered)
    rw [← own] at here gives ⊢
    obtain ⟨y, t, outcome⟩ := placement_outcome here selector
    exact ⟨_, y, t, gives, outcome⟩
  case stale =>
    intro leader runs inside next unformed late unsent
    obtain ⟨drop, there⟩ := getPart_stale here
    refine ⟨_, _, gives_whenMp (exec_stale p s) mp (stale_floods here leader runs inside next unformed late unsent), there, rfl, ?_,
      rfl⟩
    exact List.contains_iff_mem.mpr (List.mem_append_right _ (.head _))
  case receives =>
    intro k oldest pl z orbit first
    have gives := gives_whenMp (exec_placementReceive p s) mp rfl
    rw [← own] at here gives ⊢
    obtain ⟨floods, drop, taken⟩ := getPart_takePart here oldest orbit first
    by_cases whole : ∃ t, placeWhole z = some t ∧ x.srv.next = .none_
    · obtain ⟨t, whole, next⟩ := whole
      obtain ⟨y, there, inbox, made, for_, parts, kept, placed, left⟩ :=
        holdPlacement_whole (x := withFloods floods drop (keepsPart k x)) taken whole next
      refine ⟨_, y, gives, there, inbox, fun part => ?_, fun u again _ => ?_⟩
      · cases whole.symm.trans part
      · obtain rfl := Option.some.inj (whole.symm.trans again)
        exact ⟨made, for_, parts, kept, placed, left⟩
    · have idle := holdPlacement_idle taken whole
      exact ⟨_, _, gives, (congrArg (getPart · x.pid) idle :).trans taken, rfl, fun _ => rfl,
        fun t again next => absurd ⟨t, again, next⟩ whole⟩

end Sys2Proof.Machine
end

section
/-!
SUPPORT. The cells of a packet (R291, R292): what the receive stage reads of one cell, received bytes cut into cells, and the bytes
that a packet's cells carry together.
-/

namespace Sys2Proof.Machine

open Sys2Proof

/-! ### Fields of bytes laid end to end -/

theorem lf_append_left {a b : List Byte} {o n : Nat} (within : o + n ≤ a.length) : lf (a ++ b) o n = lf a o n := by
  rw [lf, lf, List.drop_append_of_le_length (by omega), List.take_append_of_le_length (by rw [List.length_drop]; omega)]

theorem lf_append_right {a b : List Byte} {o n : Nat} (past : a.length ≤ o) : lf (a ++ b) o n = lf b (o - a.length) n := by
  rw [lf, lf, List.drop_append, List.drop_eq_nil_of_le past, List.nil_append]

theorem lf_toLe (n v : Nat) : lf (toLe n v) 0 n = v % 256 ^ n := by
  rw [lf, List.drop_zero, List.take_of_length_le (length_toLe n v).le, leNat_toLe]

/-- A number at the front of bytes is its field. -/
theorem lf_toLe_append (n v : Nat) (b : List Byte) : lf (toLe n v ++ b) 0 n = v % 256 ^ n := by
  rw [lf_append_left (by rw [length_toLe]; omega), lf_toLe]

/-- A field behind a number. -/
theorem lf_toLe_append_right {k o : Nat} (v n : Nat) (b : List Byte) (past : k ≤ o) : lf (toLe k v ++ b) o n = lf b (o - k) n := by
  rw [lf_append_right (by rwa [length_toLe]), length_toLe]

/-! ### Padding -/

theorem length_padTo (n : Nat) (l : List Byte) : (padTo n l).length = n := by
  rw [padTo, List.length_take, List.length_append, List.length_replicate]; omega

theorem padTo_eq (n : Nat) (l : List Byte) : padTo n l = l.take n ++ List.replicate (n - l.length) 0 := by
  rw [padTo, List.take_append, List.take_of_length_le (List.length_replicate ..).le]

/-- Bytes padded as a whole are its first bytes padded, and the rest padded. -/
theorem padTo_add (m n : Nat) (l : List Byte) : padTo (m + n) l = padTo m (l.take m) ++ padTo n (l.drop m) := by
  simp only [padTo_eq, List.take_take, List.length_take, List.length_drop, Nat.min_self]
  by_cases short : l.length ≤ m
  · have zeros : m + n - l.length = (m - l.length) + n := by omega
    rw [List.take_of_length_le (show l.length ≤ m + n by omega), List.take_of_length_le short, List.drop_eq_nil_of_le short,
      Nat.min_eq_right short, Nat.sub_eq_zero_of_le short, zeros, List.replicate_add, List.append_assoc, List.take_nil,
      List.nil_append, Nat.sub_zero]
  · have zeros : m + n - l.length = n - (l.length - m) := by omega
    rw [Nat.min_eq_left (by omega), Nat.sub_self, List.replicate_zero, List.append_nil, List.take_add, zeros, List.append_assoc]

/-! ### CRC16 (R291) -/

theorem crc16Steps_lt (n : Nat) {c : Nat} (h : c < 2 ^ 16) : crc16Steps n c < 2 ^ 16 := by
  induction n generalizing c with
  | zero => exact h
  | succ n ih =>
    refine ih ?_
    split
    · exact Nat.xor_lt_two_pow (Nat.mod_lt _ (by decide)) (by decide)
    · omega

theorem crc16_lt (l : List Byte) : crc16 l < 2 ^ 16 := by
  suffices h : ∀ c, c < 2 ^ 16 → l.foldl (fun c b => crc16Steps 8 (c ^^^ (b.toNat * 256))) c < 2 ^ 16 from h _ (by decide)
  induction l with
  | nil => exact fun _ h => h
  | cons b l ih =>
    intro c hc
    have byte := b.isLt
    exact ih _ (crc16Steps_lt 8 (Nat.xor_lt_two_pow hc (by omega)))

/-! ### One cell (R291, Table 11.3) -/

/-- CONTROL of a cell. -/
def cellControl (kind idx : Nat) (first last : Bool) : Nat := kind + b2n first * 4 + b2n last * 8 + idx * 16

section
variable (kind idx : Nat) (first last : Bool) (data : List Byte)

theorem length_cellBytes : (cellBytes kind idx first last data).length = 260 := by
  simp [cellBytes, length_padTo]

theorem lf_cellBytes_control : lf (cellBytes kind idx first last data) 0 2 = cellControl kind idx first last % 2 ^ 16 := by
  rw [cellBytes, List.append_assoc]
  exact lf_toLe_append ..

theorem sl_cellBytes_data : sl (cellBytes kind idx first last data) 2 256 = padTo 256 data := by
  rw [cellBytes, sl, List.append_assoc, List.drop_left' (length_toLe ..), List.take_left' (length_padTo ..)]

/-- A cell's CRC16 is that of its other bytes. -/
theorem cellOk_cellBytes : cellOk (cellBytes kind idx first last data) = true := by
  have length : (toLe 2 (cellControl kind idx first last) ++ padTo 256 data).length = 258 := by simp [length_padTo]
  rw [cellOk, decide_eq_true_eq, cellBytes]
  change crc16 ((toLe 2 (cellControl kind idx first last) ++ padTo 256 data ++ _).take 258) =
    lf (toLe 2 (cellControl kind idx first last) ++ padTo 256 data ++ _) 258 2
  rw [List.take_left' length, lf_append_right length.le, length, lf_toLe]
  exact (Nat.mod_eq_of_lt (crc16_lt _)).symm

end

/-- The fields of a flit's CONTROL; its reserved bits are 0. -/
theorem cellControl_fields {k : Nat} (five : k < 32) (first last : Bool) : let v := cellControl 1 k first last % 2 ^ 16
    v % 4 = 1 ∧ bit v 2 = first ∧ bit v 3 = last ∧ fld v 4 5 = k ∧ v / 512 = 0 := by
  cases first <;> cases last <;> simp [cellControl, bit, fld, b2n] <;> omega

/-! ### Received bytes cut into cells -/

theorem cellsOf_flatten {l : List (List Byte)} {n : Nat} (whole : ∀ c ∈ l, c.length = 260) (fuel : l.length ≤ n) :
    cellsOf n l.flatten = l := by
  induction l generalizing n with
  | nil => cases n <;> rfl
  | cons c l ih =>
    obtain ⟨n, rfl⟩ : ∃ m, n = m + 1 := ⟨n - 1, by rw [List.length_cons] at fuel; omega⟩
    obtain ⟨here, rest⟩ := List.forall_mem_cons.mp whole
    rw [List.flatten_cons, cellsOf, if_neg (by rw [List.length_append]; omega), List.take_left' here, List.drop_left' here,
      ih rest (Nat.le_of_succ_le_succ fuel)]

/-! ### The cells of a packet (R292) -/

/-- The cells of n flits of f, from flit k on, one by one. -/
def flits (f : Nat) : Nat → Nat → List Byte → List (List Byte)
  | 0, _, _ => []
  | n + 1, k, b => cellBytes 1 k (k = 0) (k + 1 = f) (b.take 256) :: flits f n (k + 1) (b.drop 256)

theorem flitCells_eq (f n k : Nat) (b : List Byte) : flitCells f n k b = (flits f n k b).flatten := by
  induction n generalizing k b with
  | zero => rfl
  | succ n ih => rw [flitCells, ih, flits, List.flatten_cons]

theorem length_flits (f n k : Nat) (b : List Byte) : (flits f n k b).length = n := by
  induction n generalizing k b with
  | zero => rfl
  | succ n ih => rw [flits, List.length_cons, ih]

section
variable {f n k : Nat} {b : List Byte}

theorem of_mem_flits {c : List Byte} (h : c ∈ flits f n k b) :
    ∃ i data, i < k + n ∧ c = cellBytes 1 i (i = 0) (i + 1 = f) data := by
  induction n generalizing k b with
  | zero => cases h
  | succ n ih =>
    obtain rfl | h := List.mem_cons.mp h
    · exact ⟨k, _, by omega, rfl⟩
    · obtain ⟨i, data, low, rfl⟩ := ih h
      exact ⟨i, data, by omega, rfl⟩

theorem length_of_mem_flits {c : List Byte} (h : c ∈ flits f n k b) : c.length = 260 := by
  obtain ⟨i, data, -, rfl⟩ := of_mem_flits h
  exact length_cellBytes ..

/-- Each is a flit whose CRC16 is right, with no reserved bit set. -/
theorem flit_of_mem_flits {c : List Byte} (few : k + n ≤ 32) (h : c ∈ flits f n k b) :
    cellKind c = 1 ∧ cellOk c = true ∧ lf c 0 2 / 512 = 0 := by
  obtain ⟨i, data, low, rfl⟩ := of_mem_flits h
  obtain ⟨kind, -, -, -, reserved⟩ := cellControl_fields (show i < 32 by omega) (i = 0) (i + 1 = f)
  rw [cellKind, lf_cellBytes_control]
  exact ⟨kind, cellOk_cellBytes .., reserved⟩

theorem inSequence_flits (few : k + n ≤ 32) : inSequence f k (flits f n k b) = true := by
  induction n generalizing k b with
  | zero => rfl
  | succ n ih =>
    obtain ⟨-, first, last, index, -⟩ := cellControl_fields (show k < 32 by omega) (k = 0) (k + 1 = f)
    rw [flits, inSequence, lf_cellBytes_control, first, last, index, ih (by omega)]
    simp

/-- Together they carry the packet's bytes, padded to whole flits. -/
theorem flatMap_flits (f n k : Nat) (b : List Byte) : (flits f n k b).flatMap (fun c => sl c 2 256) = padTo (256 * n) b := by
  induction n generalizing k b with
  | zero => rfl
  | succ n ih =>
    rw [flits, List.flatMap_cons, sl_cellBytes_data, ih, ← padTo_add, Nat.mul_succ, Nat.add_comm]

end

/-! ### A packet and its header -/

theorem length_packetCells (p : Packet) : (packetCells p).length = 260 * flitCount p.payload.length := by
  rw [packetCells, flitCells_eq, List.length_flatten,
    List.map_congr_left (fun c h => length_of_mem_flits h), List.map_const', List.sum_replicate_nat, length_flits, Nat.mul_comm]

theorem cellsOf_packetCells (p : Packet) : cellsOf (packetCells p).length (packetCells p) =
    flits (flitCount p.payload.length) (flitCount p.payload.length) 0 (p.hdr ++ p.payload) := by
  have fuel := length_packetCells p
  rw [packetCells, flitCells_eq] at fuel ⊢
  exact cellsOf_flatten (fun _ => length_of_mem_flits) (by rw [length_flits, fuel]; omega)

/-- A packet's header and payload, behind each other and padded to whole flits, come apart again (R292). -/
theorem gather_packetCells {p : Packet} (header : p.hdr.length = 32) (short : p.payload.length ≤ 4096)
    (length : lf p.hdr 6 2 = p.payload.length) :
    gather (cellsOf (packetCells p).length (packetCells p)) = .packet p false := by
  have count : 0 < flitCount p.payload.length ∧ flitCount p.payload.length ≤ 17 ∧
      (p.hdr ++ p.payload).length ≤ 256 * flitCount p.payload.length := by
    rw [List.length_append, header, flitCount]; omega
  obtain ⟨some_, few, room⟩ := count
  rw [cellsOf_packetCells, gather]
  generalize hf : flitCount p.payload.length = f at some_ few room
  generalize hl : flits f f 0 (p.hdr ++ p.payload) = l
  have flit {c : List Byte} (h : c ∈ l) : cellKind c = 1 ∧ cellOk c = true ∧ lf c 0 2 / 512 = 0 :=
    flit_of_mem_flits (by omega) (hl ▸ h)
  have all : l.filter (fun c => cellKind c = 1) = l := List.filter_eq_self.mpr fun c h => decide_eq_true (flit h).1
  have number : l.length = f := hl ▸ length_flits ..
  have right : l.any (fun c => !cellOk c) = false := List.any_eq_false.mpr fun c h => by simp [(flit h).2.1]
  have plain : l.any (fun c => lf c 0 2 / 512 ≠ 0) = false := List.any_eq_false.mpr fun c h => by simp [(flit h).2.2]
  have sequence : inSequence f 0 l = true := hl ▸ inSequence_flits (by omega)
  have bytes : l.flatMap (fun c => sl c 2 256) = p.hdr ++ (p.payload ++ List.replicate (256 * f - (p.hdr ++ p.payload).length) 0) := by
    rw [← hl, flatMap_flits, padTo_eq, List.take_of_length_le room, List.append_assoc]
  have nonempty : l.isEmpty = false := by
    rw [List.isEmpty_eq_false_iff, ← List.length_pos_iff, number]; exact some_
  have len : lf (p.hdr ++ (p.payload ++ List.replicate (256 * f - (p.hdr ++ p.payload).length) 0)) 6 2 % 8192 = p.payload.length := by
    rw [lf_append_left (by omega), length]; omega
  simp only [all, number, right, plain, sequence, bytes, nonempty, len, hf]
  rw [List.take_left' header, sl, List.drop_left' header, List.take_left' rfl]
  simp [few]

end Sys2Proof.Machine
end

section
/-! The obligation of packets and their cells (R291 to R294). -/

namespace Sys2Proof.Machine

open Sys2Proof

/-- The end-to-end check of a packet that is formed holds (R294). -/
theorem e2eOk_formPacket {h l : List Byte} (length : h.length = 28) : e2eOk (formPacket h l) = true := by
  have fits : (crc32c (h ++ l)).toNat % 256 ^ 4 = (crc32c (h ++ l)).toNat := Nat.mod_eq_of_lt (crc32c (h ++ l)).isLt
  rw [e2eOk, formPacket, List.take_left' length, lf_append_right length.le, length, lf_toLe, decide_eq_true_eq, fits,
    BitVec.ofNat_toNat, BitVec.setWidth_eq]

section
variable (dest src ty flags orbit transfer deliv tile tag mask : Nat) (l : List Byte)

theorem length_hdr_mkPacket : (mkPacket dest src ty flags orbit transfer deliv tile tag mask l).hdr.length = 32 := by
  simp [mkPacket, formPacket]

/-- The header's fields stand one behind the other (Table 11.4). -/
theorem lf_hdr_mkPacket : let h := (mkPacket dest src ty flags orbit transfer deliv tile tag mask l).hdr
    lf h 0 2 = dest % 2 ^ 16 ∧ lf h 2 2 = src % 2 ^ 16 ∧ lf h 4 1 = ty % 2 ^ 8 ∧ lf h 5 1 = flags % 2 ^ 8 ∧
    lf h 6 2 = l.length % 2 ^ 16 ∧ lf h 8 4 = orbit % 2 ^ 32 ∧ lf h 12 3 = transfer % 2 ^ 24 ∧ lf h 15 1 = deliv % 2 ^ 8 ∧
    lf h 16 2 = tile % 2 ^ 16 ∧ lf h 18 2 = tag % 2 ^ 16 ∧ lf h 20 8 = mask % 2 ^ 64 := by
  simp only [mkPacket, formPacket, List.append_assoc, lf_toLe_append_right, lf_toLe_append, Nat.reduceLeDiff, Nat.reduceSub, Nat.reducePow,
    and_self]

end

/-- Settles O60: each cell reads back as it was made, so that the flits give the packet's bytes back in order, and LENGTH says where
they end. -/
theorem packetsSurviveTheirCells : Obligations.PacketsSurviveTheirCells := by
  unfold Obligations.PacketsSurviveTheirCells
  refine ⟨fun p => gather_packetCells, ?_⟩
  intro dest src ty flags orbit transfer deliv tile tag mask l hdest hsrc typed five hflags horbit htransfer hdeliv htile htag hmask
    short p
  have header : p.hdr.length = 32 := length_hdr_mkPacket ..
  have e2e : e2eOk p = true := e2eOk_formPacket (by simp)
  obtain ⟨dest_, src_, ty_, flags_, length_, orbit_, transfer_, deliv_, tile_, tag_, mask_⟩ :=
    lf_hdr_mkPacket dest src ty flags orbit transfer deliv tile tag mask l
  rw [Nat.mod_eq_of_lt (by omega)] at dest_ src_ ty_ flags_ length_ orbit_ transfer_ deliv_ tile_ tag_ mask_
  have whole : pDest p = dest ∧ pSrc p = src ∧ pType p = ty ∧ pFlags p = flags ∧ pLength p = l.length := by
    refine ⟨?_, ?_, ty_, flags_, ?_⟩
    · rw [pDest, dest_, Nat.mod_eq_of_lt hdest]
    · rw [pSrc, src_, Nat.mod_eq_of_lt hsrc]
    · rw [pLength, length_, Nat.mod_eq_of_lt (by omega)]
  obtain ⟨to_, from_, type, bits, length⟩ := whole
  have deliver : pWcode p = deliv % 16 ∧ pLq p = deliv / 16 ∧ pTile p = tile := by
    refine ⟨?_, ?_, ?_⟩
    · rw [pWcode, deliv_]
    · rw [pLq, deliv_, fld]; omega
    · rw [pTile, tile_, Nat.mod_eq_of_lt htile]
  obtain ⟨width, queue, at_⟩ := deliver
  have format : badFormat p = false := by
    simp only [badFormat, to_, from_, type, bits, length, p, dest_, src_, length_, deliv_, tile_, Bool.or_eq_false_iff,
      decide_eq_false_iff_not]
    omega
  exact ⟨header, rfl, to_, from_, type, bits, length, orbit_, transfer_, width, queue, at_, tag_, mask_, format, e2e,
    gather_packetCells header short length_⟩

end Sys2Proof.Machine
end

section
/-!
Two refutations on one module, whose table of partitions holds each of two records under the other's number (`Dev.partsWf` excludes it,
R385; the statements say only of the port's partition that its job does not run or prepare). A record that is written to the ephemeris
of the partition a record names (R281) puts that partition's record under the number it carries, so that while a port leaves UP, or as a
DEGRADE is raised, the port passes to a partition whose job does run or prepare.
-/

namespace Sys2Proof.Machine

open Sys2Proof

/-- An open entry of logical port 0. -/
def openEntry : Inbound where
  lport := 0
  pos := 0
  orbit := 0
  src := 0
  transfer := 0
  due := 0
  missing := false
  round2 := false
  round2At := none

/-- The partition of port 0, under number 0: its plan runs, and no job. -/
def nominal : Part := { pid := 1, mask := 1, plan := .running }

/-- The record under number 1: its job declares rank 1 at port 0, where it has an open entry, and its ephemeris is on. -/
def usurper (st : JobSt) : Part where
  pid := 0
  mask := 1
  info := some planOfTwo
  job := { st := st }
  eph := { cfg := 0x80000000 }
  fab := { open_ := [openEntry] }

/-- The module, with its port 0. -/
def swappedTable (y : Port) (st : JobSt) : Dev where
  ports := [(0, y)]
  parts := [(0, nominal), (1, usurper st)]
  glb := { mpReady := true }
  pwr := { resetHeld := false }

theorem awake_swappedTable (y : Port) (st : JobSt) : awake (swappedTable y st) = true := rfl

theorem portPart_swappedTable (y : Port) (st : JobSt) : portPart (swappedTable y st) 0 = some nominal := rfl

/-- The port's partition prepares and runs no job. -/
theorem idle_swappedTable (y : Port) (st : JobSt) :
    ∀ x, portPart (swappedTable y st) 0 = some x → x.job.st ≠ .running ∧ x.job.st ≠ .preparing := by
  intro x here
  obtain rfl := Option.some.inj ((portPart_swappedTable y st).symm.trans here)
  decide

/-- A port that is UP. -/
def lit : Port := { st := .up }

/-- The port leaves UP, which abandons the open entry (R324): the record of that puts the running job under number 0, and a running job's
port is held DARK (R352). -/
theorem portRetrain_swappedTable : (getPort (portRetrain 0 (swappedTable lit .running)) 0).st = .dark := by decide +kernel

theorem exec_retrain (port : Fin 32) (s : State) : exec (.retrain port) s = on (whenAwake (portRetrain port.val)) s := rfl

/-- Refutes O46: a port that is told to retrain need not be TRAINING. In `swappedTable` it leaves UP for another partition, whose job
runs. -/
theorem not_portsTrain : ¬ Obligations.PortsTrain := by
  unfold Obligations.PortsTrain
  intro h
  obtain ⟨-, -, -, retrains, -⟩ := h { dev := swappedTable lit .running } 0 0 0 [] (awake_swappedTable ..) (idle_swappedTable _ _)
  obtain ⟨e, gives, training, -⟩ := (retrains (by decide) (by decide)).1 (by decide)
  have retrained : Gives (.retrain 0) { dev := swappedTable lit .running } (portRetrain 0 (swappedTable lit .running)) :=
    gives_whenAwake (exec_retrain 0 _) (awake_swappedTable ..) rfl
  have dark : (getPort e (0 : Fin 32).val).st = .dark := retrained.unique gives ▸ portRetrain_swappedTable
  exact absurd (dark.symm.trans training) (by decide)

/-- A port whose halo lane is about to take over a stripe, in its time. -/
def deskewing : Port := { st := .subst, deskew := true, substAt := some 0 }

/-- The DEGRADE of a port that comes UP on its halo lane puts the preparing job under number 0: that job expects rank 1 at the port, finds
rank 0, and fails, which holds the port DARK (Table 13.4). -/
theorem deskewDone_swappedTable : (getPort (deskewDone 0 (swappedTable deskewing .preparing)) 0).st = .dark := by decide +kernel

theorem exec_deskewDone (port : Fin 32) (s : State) : exec (.deskewDone port) s = on (whenAwake (deskewDone port.val)) s := rfl

/-- Refutes O47: the end of deskew need not take the port UP. In `swappedTable` it comes up for another partition, whose job prepares. -/
theorem not_lanesAndSubstitution : ¬ Obligations.LanesAndSubstitution := by
  unfold Obligations.LanesAndSubstitution
  intro h
  obtain ⟨-, -, -, -, -, -, -, -, -, -, -, -, -, -, -, deskewed, -⟩ :=
    h { dev := swappedTable deskewing .preparing } 0 0 [] 0 (awake_swappedTable ..) fun x here => (idle_swappedTable _ _ x here).2
  obtain ⟨e, gives, -, -, -, -, -, up⟩ := deskewed 0 rfl rfl rfl (by decide)
  have ended : Gives (.deskewDone 0) { dev := swappedTable deskewing .preparing } (deskewDone 0 (swappedTable deskewing .preparing)) :=
    gives_whenAwake (exec_deskewDone 0 _) (awake_swappedTable ..) rfl
  have dark : (getPort e (0 : Fin 32).val).st = .dark := ended.unique gives ▸ deskewDone_swappedTable
  exact absurd (dark.symm.trans up) (by decide)

end Sys2Proof.Machine
end

section
/-! The obligations of the block and its queue. -/

namespace Sys2Proof.Machine

open Sys2Proof

/-- A module that is off, held in reset or SEALED stands still while no command waits. -/
theorem idle_still {d : Dev} (h : awake d = false) : idle d = d := by
  simp [idle, h]

/-- Settles O1: both clauses are the definition of a step. -/
theorem stepRunsFrontCommand : Obligations.StepRunsFrontCommand := by
  unfold Obligations.StepRunsFrontCommand
  exact ⟨fun _ _ _ => rfl, fun _ => ⟨rfl, idle_still⟩⟩

/-- A command that reads or writes a register where it meets the open diagnostic window (R375, R400). -/
def meetsWindow (d : Dev) : Instr → Bool
  | .readClear sp off wide => diagHit d sp off.toNat (if wide then 8 else 4)
  | .registerWrite sp off n _ => diagHit d sp off.toNat n
  | _ => false

theorem meetsWindow_iff (d : Dev) (c : Instr) : meetsWindow d c = true ↔
    (∃ sp off wide, c = .readClear sp off wide ∧ diagHit d sp off.toNat (if wide then 8 else 4) = true) ∨
    ∃ sp off n v, c = .registerWrite sp off n v ∧ diagHit d sp off.toNat n = true := by
  constructor
  · intro h
    cases c with
    | readClear sp off wide => exact .inl ⟨sp, off, wide, rfl, h⟩
    | registerWrite sp off n v => exact .inr ⟨sp, off, n, v, rfl, h⟩
    | _ => cases h
  · rintro (⟨sp, off, wide, rfl, h⟩ | ⟨sp, off, n, v, rfl, h⟩)
    · exact h
    · exact h

theorem exec_refused {c : Instr} {s : State} (h : meetsWindow s.dev c = true) : exec c s = .refused .diagWindow := by
  obtain ⟨sp, off, wide, rfl, hit⟩ | ⟨sp, off, n, v, rfl, hit⟩ := (meetsWindow_iff s.dev c).1 h
  · exact if_pos hit
  · exact if_pos hit

/-- Every other command completes: the meaning of each row is an effect on the module alone. -/
theorem exec_completes {c : Instr} {s : State} (h : meetsWindow s.dev c = false) : ∃ d, Gives c s d := by
  cases c with
  | readClear sp off wide => exact ⟨_, gives_readClear h rfl⟩
  | registerWrite sp off n v => exact ⟨_, gives_registerWrite h rfl⟩
  | _ => exact ⟨_, rfl⟩

/-- Settles O2: a command meets the open window and is refused, or completes with the queue as it stands. -/
theorem commandsKeepTheQueue : Obligations.CommandsKeepTheQueue := by
  unfold Obligations.CommandsKeepTheQueue
  intro c s
  simp only [← meetsWindow_iff]
  cases hit : meetsWindow s.dev c with
  | true => simp [exec_refused hit, eq_comm]
  | false =>
    obtain ⟨d, gives⟩ := exec_completes hit
    rw [Gives] at gives
    refine ⟨fun t next => ?_, by simp [gives], by simp [gives]⟩
    obtain rfl := Host.Outcome.next.inj (gives.symm.trans next)
    rfl

end Sys2Proof.Machine
end

section
/-!
SUPPORT. The reply area of an answered mailbox, field by field (R382, Table 15.7), and passing time and answers as the mailboxes see
them.
-/

namespace Sys2Proof.Machine

open Sys2Proof

/-- What a run of bytes holds from an offset on. -/
theorem rdBs_sub (m : Mem) (a : Nat) {o n k : Nat} (h : o + n ≤ k) : rdBs m (a + o) n = ((rdBs m a k).drop o).take n := by
  obtain ⟨r, rfl⟩ := Nat.exists_eq_add_of_le h
  rw [rdBs_add, rdBs_add, List.append_assoc, List.drop_left' (length_rdBs ..), List.take_left' (length_rdBs ..)]

/-- A field of bytes that are written at the start of a memory. -/
theorem rdN_wrBs_field (m : Mem) (l : List Byte) {o n : Nat} (h : o + n ≤ l.length) : rdN (wrBs m 0 l) o n = lf l o n := by
  have part := rdBs_sub (wrBs m 0 l) 0 h
  rw [rdBs_wrBs_same, Nat.zero_add] at part
  rw [rdN, part, lf]

/-- The bytes of a reply (Table 15.7). -/
def replyBytes (x : Mailbox) (st reason : Nat) (pl : List Byte) : List Byte :=
  toLe 2 (rqOpcode x) ++ (toLe 2 (rqSeq x) ++ (toLe 2 pl.length ++ (toLe 1 st ++ (toLe 1 reason ++ (toLe 8 (rqTag x) ++ pl)))))

/-- The mailbox that holds a reply. -/
def replied (st reason : Nat) (pl : List Byte) (x : Mailbox) : Mailbox :=
  { x with st := .done, begun := false, reply := wrBs x.reply 0 (replyBytes x st reason pl) }

section
variable (m st reason : Nat) (pl : List Byte) (x : Mailbox) (d : Dev)

theorem length_replyBytes : (replyBytes x st reason pl).length = 16 + pl.length := by
  simp only [replyBytes, List.length_append, length_toLe]; omega

theorem answer_eq : answer m st reason pl d = raiseVec (2 + m) (modMbx m (replied st reason pl) d) := by
  simp only [answer, modMbx, replied, replyBytes, List.append_assoc]

theorem getMbx_answer : getMbx (answer m st reason pl d) m = replied st reason pl (getMbx d m) := by
  rw [answer_eq, getMbx_raiseVec, getMbx_modMbx_same]

theorem onlyMbx_answer : onlyMbx m d (answer m st reason pl d) :=
  ⟨answer_frame .., fun _ other => answer_other _ _ _ _ other⟩

/-- A number in the header of a reply. -/
theorem rdN_replied {o n : Nat} (h : o + n ≤ 16) : rdN (replied st reason pl x).reply o n = lf (replyBytes x st reason pl) o n :=
  rdN_wrBs_field _ _ (by rw [length_replyBytes]; omega)

/-- The numbers in the header of a reply. -/
theorem lf_replyBytes :
    lf (replyBytes x st reason pl) 0 2 = rqOpcode x % 256 ^ 2 ∧ lf (replyBytes x st reason pl) 2 2 = rqSeq x % 256 ^ 2 ∧
    lf (replyBytes x st reason pl) 4 2 = pl.length % 256 ^ 2 ∧ lf (replyBytes x st reason pl) 6 1 = st % 256 ^ 1 ∧
    lf (replyBytes x st reason pl) 7 1 = reason % 256 ^ 1 ∧ lf (replyBytes x st reason pl) 8 8 = rqTag x % 256 ^ 8 := by
  simp only [replyBytes, lf_toLe_append, lf_toLe_append_right, Nat.reduceLeDiff, Nat.reduceSub, and_self]

end

/-- Settles O20: each field of the header is read off the bytes that are laid end to end, and the payload stands behind them. -/
theorem answersStandInTheReplyArea : Obligations.AnswersStandInTheReplyArea := by
  unfold Obligations.AnswersStandInTheReplyArea
  intro d m st reason pl hst hreason hpl e x y
  have reply : y = replied st reason pl x := getMbx_answer m st reason pl d
  have header {o n v : Nat} (within : o + n ≤ 16) (field : lf (replyBytes x st reason pl) o n = v % 256 ^ n) (small : v < 256 ^ n) :
      rdN y.reply o n = v := by
    rw [reply, rdN_replied _ _ _ _ within, field, Nat.mod_eq_of_lt small]
  obtain ⟨opcode, seq, len, status, why, tag⟩ := lf_replyBytes st reason pl x
  refine ⟨onlyMbx_answer .., congrArg Mailbox.st reply, congrArg Mailbox.begun reply, (congrArg Mailbox.req reply :),
    header (by omega) opcode (rdN_lt x.req 0 2), header (by omega) seq (rdN_lt x.req 2 2), header (by omega) len (by omega),
    header (by omega) status (by omega), header (by omega) why (by omega), header (by omega) tag (rdN_lt x.req 8 8),
    rdBs_answer .., ?behind, ?whole⟩
  case behind =>
    intro a past
    rw [reply]
    exact rdB_wrBs_out _ _ _ _ (.inr (by rw [length_replyBytes]; omega))
  case whole =>
    rw [reply]
    exact answer_eq m st reason pl d

end Sys2Proof.Machine
end

section
/-! The obligations of mailboxes (R380 to R383, Table 15.9). -/

namespace Sys2Proof.Machine

open Sys2Proof

/-! ### Refusals at mailbox level -/

section
variable {d : Dev} {m len : Nat} {isPart : Bool} {res : List (Nat × Nat)}

theorem rqRefusal_unlisted (h : rqShape (getMbx d m) = none) : rqRefusal d m = some (stBadArg, 0xF3) := by
  simp [rqRefusal, h]

theorem rqRefusal_length (h : rqShape (getMbx d m) = some (isPart, len, res)) (wrong : rqLen (getMbx d m) ≠ len) :
    rqRefusal d m = some (stBadArg, 0xF4) := by
  simp [rqRefusal, h, wrong]

/-- A request of the listed length with no reserved byte is refused where it needs a partition and there is none. -/
theorem rqRefusal_shaped (h : rqShape (getMbx d m) = some (isPart, len, [])) (right : rqLen (getMbx d m) = len) (fits : len ≤ 1968)
    (clear : rqRes (getMbx d m) = 0) :
    rqRefusal d m = if isPart && (partOfBlock d (m / 4)).isNone then some (stDenied, 0xF5) else none := by
  simp [rqRefusal, h, right, clear, Nat.not_lt.mpr fits]

end

/-- Settles O21, check by check in the order of Table 15.9. -/
theorem mailboxLevelRefusals : Obligations.MailboxLevelRefusals := by
  unfold Obligations.MailboxLevelRefusals
  intro code m f d turn
  refine ⟨fun _ _ => command_refused turn, rqRefusal_unlisted, fun isPart len res shape => ⟨rqRefusal_length shape, ?_⟩,
    command_full turn⟩
  rintro right fits clear rfl
  exact rqRefusal_shaped shape right fits clear

theorem exec_post (m : Fin 64) (s : State) : exec (.post m) s = on (whenHost (post m)) s := rfl
theorem exec_mpAccept (m : Fin 64) (s : State) : exec (.mpAccept m) s = on (mpAccept m) s := rfl
theorem exec_auto (m : Fin 64) (s : State) : exec (.auto m) s = on (whenHw (auto m)) s := rfl
theorem exec_shed (s : State) : exec .shed s = on (whenMp shed) s := rfl
theorem exec_shedClear (s : State) : exec .shedClear s = on (whenMp shedClear) s := rfl

section
variable {s : State} {f : Dev → Dev} {c : Instr}

theorem gives_whenHost (h : exec c s = on (whenHost f) s) (hw : hwUp s.dev = true) (io : ioSecure s.dev = true) :
    Gives c s (f s.dev) := by
  rw [Gives, h, on_eq, whenHost_runs hw io]

theorem gives_whenHw (h : exec c s = on (whenHw f) s) (hw : hwUp s.dev = true) : Gives c s (f s.dev) := by
  rw [Gives, h, on_eq, whenHw_runs hw]

end

/-! ### The doorbell (Table 15.8) -/

/-- A mailbox whose request is posted as the n-th. -/
def rung (wall n : Nat) (x : Mailbox) : Mailbox :=
  { x with st := .posted, seq := BitVec.ofNat 16 (rqSeq x), postAt := wall, order := n, begun := false }

/-- A module whose mailbox m has been posted. -/
def posted (m : Nat) (d : Dev) : Dev :=
  { modMbx m (rung d.clk.wall d.glb.posts) d with glb := { d.glb with posts := d.glb.posts + 1 } }

section
variable {m : Nat} {d : Dev}

theorem post_discarded (h : (getMbx d m).st = .posted ∨ (getMbx d m).st = .accepted) :
    post m d = modMbx m (fun x => { x with errPost := satAdd16 x.errPost 1 }) d := by
  obtain h | h := h
  · simp [post, h]
  · simp [post, h]

theorem post_rings (h : (getMbx d m).st = .idle ∨ (getMbx d m).st = .done) :
    post m d = if d.glb.shed then answer m stBusy 0xF6 [] (posted m d) else posted m d := by
  obtain h | h := h
  · simp only [post, h]; rfl
  · simp only [post, h]; rfl

theorem getMbx_posted : getMbx (posted m d) m = rung d.clk.wall d.glb.posts (getMbx d m) := getMbx_modMbx_same ..

/-! ### SHED (R380) -/

/-- What SHED does to one mailbox. -/
def shedOne (e : Nat × Mailbox) (d : Dev) : Dev := if e.2.st = .posted then answer e.1 stBusy 0xF6 [] d else d

/-- A mailbox that has been answered stays so. -/
theorem shedOne_keepsDone {k : Nat} (e : Nat × Mailbox) (h : (getMbx d k).st = .done) : (getMbx (shedOne e d) k).st = .done := by
  unfold shedOne
  split
  · by_cases same : k = e.1
    · rw [same]; exact (answer_done ..).1
    · rwa [answer_other _ _ _ _ same]
  · exact h

theorem shedOne_answers {k : Nat} {x : Mailbox} (posted : x.st = .posted) : (getMbx (shedOne (k, x) d) k).st = .done := by
  rw [shedOne, if_pos posted]
  exact (answer_done ..).1

/-- Every posted mailbox of the list is answered. -/
theorem forEach_shedOne {k : Nat} {x : Mailbox} (posted : x.st = .posted) (l : Tab Mailbox) (d : Dev)
    (h : (k, x) ∈ l ∨ (getMbx d k).st = .done) : (getMbx (forEach l shedOne d) k).st = .done := by
  induction l generalizing d with
  | nil => exact h.resolve_left List.not_mem_nil
  | cons e r ih =>
    refine ih (shedOne e d) ?_
    obtain (rfl | later) | done := h.imp_left List.mem_cons.mp
    · exact .inr (shedOne_answers posted)
    · exact .inl later
    · exact .inr (shedOne_keepsDone e done)

theorem shed_again (h : d.glb.shed = true) : shed d = { d with glb := { d.glb with shedWait := some d.clk.wall } } := by
  simp [shed, h]

theorem shed_sets (h : d.glb.shed = false) : shed d = raiseVec 1 (forEach d.mbx shedOne
    { d with glb := { d.glb with shed := true, shedAt := some d.clk.wall, shedWait := some d.clk.wall } }) := by
  rw [shed, if_neg (by simp [h])]
  rfl

theorem raiseVec_glb (v : Nat) (d : Dev) : (raiseVec v d).glb = d.glb := (congrArg Dev.glb (raiseVec_frame v d) :)

theorem forEach_shedOne_glb (l : Tab Mailbox) (d : Dev) : (forEach l shedOne d).glb = d.glb :=
  forEach_same Dev.glb shedOne (fun e c => ite_keeps Dev.glb (congrArg Dev.glb (answer_frame e.1 stBusy 0xF6 [] c) :)) l d

/-- SHED ends: its time is counted. -/
def unshed (t : Nat) (e : Dev) : Dev :=
  { e with glb := { e.glb with
    shed := false, shedAt := none, shedWait := none, shedNs := e.glb.shedNs + BitVec.ofNat 64 ((e.clk.wall - t) / grain) } }

theorem shedClear_due {t w : Nat} (since : d.glb.shedAt = some t) (last : d.glb.shedWait = some w) :
    shedClear d = whenDue (w + usG 100) (unshed t) d := by
  simp only [shedClear, since, last]
  rfl

end

/-! ### The MP and the hardware -/

theorem mpAccept_takes {m : Nat} {d : Dev} (posted : (getMbx d m).st = .posted) (mp : mpUp d = true) (open_ : d.glb.shed = false)
    (shape : rqRefusal d m = none) (room : isFull d m = false) : mpAccept m d = modMbx m (fun x => { x with st := .accepted }) d := by
  simp [mpAccept, posted, mp, open_, shape, room]

theorem gives_auto {m : Fin 64} {s : State} (hw : hwUp s.dev = true) (posted : (getMbx s.dev m).st = .posted) :
    Gives (.auto m) s (whenDue ((getMbx s.dev m).postAt + usG 18) (answer m stBusy 0xF1 []) s.dev) := by
  have taken : auto m s.dev = whenDue ((getMbx s.dev m).postAt + usG 18) (answer m stBusy 0xF1 []) s.dev := if_pos posted
  exact taken ▸ gives_whenHw (exec_auto m s) hw

/-- Settles O22: each row by the state it meets. -/
theorem mailboxesPostAndTake : Obligations.MailboxesPostAndTake := by
  unfold Obligations.MailboxesPostAndTake
  intro s m x
  refine ⟨fun hw io st => ?discard, fun hw io st shed => ?busy, fun hw io st shed => ?rings, fun st mp shed shape room => ?takes,
    fun hw st => atDue_gives_made (gives_auto hw st), fun hw st => notYet_gives (gives_auto hw st), fun mp shed => ?again,
    fun mp shed => ?sheds, fun t w mp since last => ?clears⟩
  case discard => exact post_discarded st ▸ gives_whenHost (exec_post m s) hw io
  case busy =>
    have rings := gives_whenHost (exec_post m s) hw io
    rw [post_rings st, if_pos shed] at rings
    exact ⟨_, rings, answered_answer (by decide)⟩
  case rings =>
    have rings := gives_whenHost (exec_post m s) hw io
    rw [post_rings st, if_neg (by simp [shed])] at rings
    exact ⟨_, rings, getMbx_posted, rfl, rfl⟩
  case takes => rw [Gives, exec_mpAccept, on_eq, mpAccept_takes st mp shed shape room]
  case again => exact gives_whenMp (exec_shed s) mp (shed_again shed)
  case sheds =>
    refine ⟨_, gives_whenMp (exec_shed s) mp (shed_sets shed), ?_, ?_, fun k listed posted => ?_⟩
    · rw [raiseVec_glb, forEach_shedOne_glb]
    · rw [raiseVec_glb, forEach_shedOne_glb]
    · obtain ⟨y, here⟩ := Option.ne_none_iff_exists'.mp listed
      have st : y.st = .posted := by simpa [getMbx, here] using posted
      rw [getMbx_raiseVec]
      exact forEach_shedOne st _ _ (.inl (mem_of_tget here))
  case clears => exact atDue_gives_made (gives_whenMp (exec_shedClear s) mp (shedClear_due since last))

end Sys2Proof.Machine
end

section
/-!
SUPPORT. What a fault event counts (R410 to R416, R420): the fault logic after an entry, after a DEGRADE and after a NOTE, with the
escalation record of the event's source.
-/

namespace Sys2Proof.Machine

open Sys2Proof

/-! ### The counts of an entry -/

/-- The fault logic but for the entries of the history, the losses among them and the latest serious event. -/
def tally (f : Flt) : Flt := { f with hist := [], lost := 0, last := none }

/-- An event of a class is counted. -/
def tallied (cls : Nat) (f : Flt) : Flt := { f with
  head := f.head + 1
  notes := if cls = 0 then f.notes + 1 else f.notes
  degrades := if cls = 1 then f.degrades + 1 else f.degrades
  halts := if cls = 2 then f.halts + 1 else f.halts
  lastHalt := if cls = 2 then f.head else f.lastHalt
  firstSeal := if cls = 3 && f.firstSeal = 0xFFFFFFFFFFFFFFFF#64 then f.head else f.firstSeal }

/-- An event of a class drives FAULT_N from a moment on. -/
def driven (cls wall : Nat) (f : Flt) : Flt := if 2 ≤ cls then { f with hold := true, pulse := some (wall + usG 10) } else f

section
variable (cls src cause part detail : Nat) (d : Dev)

theorem flt_raiseVec (v : Nat) : (raiseVec v d).flt = d.flt := (recordsOnly_raiseVec v d).flt

theorem tally_history : tally (history cls src cause part detail d).flt = tallied cls (tally d.flt) :=
  (ite_keeps (fun e : Dev => tally e.flt) (congrArg tally (flt_raiseVec ..))).trans rfl

theorem tally_recordEvent :
    tally (recordEvent cls src cause part detail d).flt = driven cls d.clk.wall (tallied cls (tally d.flt)) := by
  have record (data : Nat) (c : Dev) :
      RecordsOnly c (if part = 0xFF then ephAll false 0x22 data c else ephRec part 0x22 0xFFFF 0 data c) := by
    split
    · exact recordsOnly_ephAll ..
    · exact recordsOnly_ephRec ..
  have wall : (history cls src cause part detail d).clk.wall = d.clk.wall := by
    obtain ⟨f, -, entered⟩ := history_records cls src cause part detail d
    rw [entered.clk]
  unfold recordEvent; dsimp only
  generalize hw : (if (decide (cls = 1) || decide (cls = 2)) && mpUp _ then _ else _) = w
  have written : RecordsOnly (history cls src cause part detail d) w :=
    hw ▸ (recordsOnly_when (recordsOnly_raiseVec 0 _)).trans (recordsOnly_when (record _ _))
  rw [← tally_history cls src cause part detail d, ← written.flt, ← wall, ← written.clk, driven]
  split <;> rfl

end

section
variable {cls : Nat} (low : cls ≤ 2) (src cause part detail : Nat) (d : Dev)
include low

/-- An event below SEAL is recorded, and stops its partitions where it is a HALT. -/
theorem tally_enterEvent : tally (enterEvent cls src cause part detail d).flt = driven cls d.clk.wall (tallied cls (tally d.flt)) := by
  rw [← tally_recordEvent cls src cause part detail, enterEvent, if_neg (show ¬ cls = 3 by omega)]
  exact ite_keeps (fun e : Dev => tally e.flt) (congrArg tally (haltParts_flt ..))

theorem mt_enterEvent : (enterEvent cls src cause part detail d).mt = d.mt :=
  (congrArg Dev.mt (unraised_enterEvent low src cause part detail d) :)

theorem wall_enterEvent : (enterEvent cls src cause part detail d).clk.wall = d.clk.wall :=
  (congrArg (·.clk.wall) (unraised_enterEvent low src cause part detail d) :)

theorem enterEvent_counts :
    (enterEvent cls src cause part detail d).flt.degrades = (if cls = 1 then d.flt.degrades + 1 else d.flt.degrades) ∧
    (enterEvent cls src cause part detail d).flt.notes = if cls = 0 then d.flt.notes + 1 else d.flt.notes := by
  have counted := tally_enterEvent low src cause part detail d
  have degrades := congrArg Flt.degrades counted
  have notes := congrArg Flt.notes counted
  constructor
  · exact degrades.trans (ite_keeps Flt.degrades rfl)
  · exact notes.trans (ite_keeps Flt.notes rfl)

theorem esc_enterEvent : (enterEvent cls src cause part detail d).flt.esc = d.flt.esc := by
  have counted := congrArg Flt.esc (tally_enterEvent low src cause part detail d)
  refine counted.trans ?_
  unfold driven; split <;> rfl

theorem getEsc_enterEvent (k : Nat) : getEsc (enterEvent cls src cause part detail d) k = getEsc d k :=
  congrArg (fun t : Tab Esc => (tget t k).getD {}) (esc_enterEvent low src cause part detail d)

end

/-! ### The records of the sources -/

theorem getEsc_setEsc_same (src : Nat) (x : Esc) (d : Dev) : getEsc (setEsc src x d) src = x := by simp [getEsc, setEsc]

theorem getEsc_setEsc_other {k src : Nat} (x : Esc) (d : Dev) (other : k ≠ src) : getEsc (setEsc src x d) k = getEsc d k := by
  simp [getEsc, setEsc, tget_tput_other _ _ other]

/-- A NOTE is the first of its window (R414). -/
def freshNote (t : Nat) (x : Esc) : Prop := x.noteStart + x.noteWindow * 1000000 ≤ t ∨ x.noteCount = 0

/-- A NOTE is added to a source's count, which it may complete. -/
def addNote (x : Esc) : Esc × Bool :=
  if x.noteLimit ≠ 0 && x.noteCount + 1 = x.noteLimit then ({ x with noteCount := 0 }, true)
  else ({ x with noteCount := x.noteCount + 1 }, false)

section
variable {t : Nat} {x : Esc}

theorem countNote_eq (t : Nat) (x : Esc) : countNote t x = addNote
    (if t ≥ x.noteStart + x.noteWindow * 1000000 || x.noteCount = 0 then { x with noteStart := t, noteCount := 0 } else x) := by
  rw [countNote, addNote]

theorem countNote_fresh (fresh : freshNote t x) : countNote t x = addNote { x with noteStart := t, noteCount := 0 } := by
  rw [countNote_eq, if_pos]
  obtain past | first := fresh
  · rw [decide_eq_true past, Bool.true_or]
  · rw [decide_eq_true first, Bool.or_true]

theorem countNote_later (later : ¬ freshNote t x) : countNote t x = addNote x := by
  obtain ⟨within, counted⟩ := not_or.mp later
  rw [countNote_eq, if_neg]
  rw [decide_eq_false within, decide_eq_false counted]
  exact Bool.false_ne_true

theorem addNote_full (on : x.noteLimit ≠ 0) (full : x.noteCount + 1 = x.noteLimit) :
    addNote x = ({ x with noteCount := 0 }, true) := by
  simp [addNote, on, full]

theorem addNote_short (short : x.noteLimit = 0 ∨ x.noteCount + 1 ≠ x.noteLimit) :
    addNote x = ({ x with noteCount := x.noteCount + 1 }, false) := by
  obtain off | short := short
  · simp [addNote, off]
  · simp [addNote, short]

end

/-- A DEGRADE is added to the count of its window. -/
theorem countDegrade_eq (t : Nat) (x : Esc) : ∃ y : Esc, y.degLimit = x.degLimit ∧ y.noteCount = x.noteCount ∧
    countDegrade t x = if y.degLimit ≠ 0 && y.degCount + 1 = y.degLimit then ({ y with degCount := 0 }, true)
      else ({ y with degCount := y.degCount + 1 }, false) := by
  refine ⟨if t ≥ x.degStart + x.degWindow * 1000000 || x.degCount = 0 then { x with degStart := t, degCount := 0 } else x,
    ite_keeps Esc.degLimit rfl, ite_keeps Esc.noteCount rfl, ?_⟩
  rw [countDegrade]

/-- It completes at no limit of 0, and says nothing of the NOTEs. -/
theorem countDegrade_unlimited (t : Nat) {x : Esc} (none_ : x.degLimit = 0) : (countDegrade t x).2 = false := by
  obtain ⟨y, limit, -, count⟩ := countDegrade_eq t x
  rw [count, limit, none_]
  rfl

theorem countDegrade_notes (t : Nat) (x : Esc) : (countDegrade t x).1.noteCount = x.noteCount := by
  obtain ⟨y, -, notes, count⟩ := countDegrade_eq t x
  rw [count, ← notes]
  split <;> rfl

/-! ### A DEGRADE -/

section
variable (src cause part detail : Nat) (u : Option (Nat × Nat × Nat)) (d : Dev)

/-- A DEGRADE is entered and counted in its source's record; where the source has a limit, a HALT may follow (R414). -/
theorem raiseDegrade_shape : ∃ x, x.noteCount = (getEsc d src).noteCount ∧
    (raiseDegrade src cause part detail u d = setEsc src x (enterEvent 1 src cause part detail d) ∨
      (getEsc d src).degLimit ≠ 0 ∧ raiseDegrade src cause part detail u d =
        enterEvent 2 src 1 part (escDetail u cause) (setEsc src x (enterEvent 1 src cause part detail d))) := by
  have record := getEsc_enterEvent (Nat.le_succ 1) src cause part detail d src
  unfold raiseDegrade; dsimp only
  rw [record]
  generalize hc : countDegrade _ (getEsc d src) = c
  refine ⟨c.1, hc ▸ countDegrade_notes .., ?_⟩
  split
  · next full =>
    refine .inr ⟨fun none_ => ?_, rfl⟩
    rw [← hc, countDegrade_unlimited _ none_] at full
    exact Bool.false_ne_true full
  · exact .inl rfl

/-- It is counted once, and is no NOTE, to whatever it escalates. -/
theorem raiseDegrade_counts : (raiseDegrade src cause part detail u d).flt.degrades = d.flt.degrades + 1 ∧
    (raiseDegrade src cause part detail u d).flt.notes = d.flt.notes := by
  obtain ⟨degrades, notes⟩ := enterEvent_counts (Nat.le_succ 1) src cause part detail d
  rw [if_pos rfl] at degrades
  rw [if_neg (by decide)] at notes
  obtain ⟨x, -, same | ⟨-, same⟩⟩ := raiseDegrade_shape src cause part detail u d
  · rw [same]
    exact ⟨degrades, notes⟩
  · obtain ⟨degrades', notes'⟩ := enterEvent_counts (Nat.le_refl 2) src 1 part (escDetail u cause)
      (setEsc src x (enterEvent 1 src cause part detail d))
    rw [same, degrades', notes', if_neg (by decide), if_neg (by decide)]
    exact ⟨degrades, notes⟩

/-- It leaves the count of the source's NOTEs as it is. -/
theorem raiseDegrade_noteCount : (getEsc (raiseDegrade src cause part detail u d) src).noteCount = (getEsc d src).noteCount := by
  obtain ⟨x, notes, same | ⟨-, same⟩⟩ := raiseDegrade_shape src cause part detail u d
  · rw [same, getEsc_setEsc_same, notes]
  · rw [same, getEsc_enterEvent (Nat.le_refl 2), getEsc_setEsc_same, notes]

end

/-! ### A NOTE -/

theorem flt_lowerTide (d : Dev) : (lowerTide d).flt = d.flt := by
  have settled (e : Dev) : (settleStep true e).flt = e.flt := by
    unfold settleStep
    split
    · rfl
    · exact ite_keeps Dev.flt rfl
  exact settled _

theorem flt_addPending (sub unit block : Nat) (d : Dev) : (addPending sub unit block d).flt = d.flt := rfl

section
variable (src cause part detail : Nat) (d : Dev)

/-- A NOTE is entered and counted in its source's record, and where that completes the count a DEGRADE of the source follows (R414). -/
theorem raise_note_shape :
    let c := countNote d.mt.mt.toNat (getEsc d src)
    let e := setEsc src c.1 (enterEvent 0 src cause part detail d)
    (c.2 = false → raise 0 src cause part detail d = e) ∧
    (c.2 = true → ∃ detail' u, (raise 0 src cause part detail d).flt = (raiseDegrade src 1 part detail' u e).flt) := by
  intro c
  have record : countNote (enterEvent 0 src cause part detail d).mt.mt.toNat (getEsc (enterEvent 0 src cause part detail d) src) = c := by
    rw [mt_enterEvent (Nat.zero_le 2), getEsc_enterEvent (Nat.zero_le 2)]
  unfold raise; dsimp only
  rw [record]
  generalize setEsc src c.1 (enterEvent 0 src cause part detail d) = e
  clear_value c
  constructor
  · intro short
    rw [short]
    rfl
  · intro full
    rw [full]
    refine ⟨escDetail (eventUnit e src detail) cause, eventUnit e src detail, (ite_keeps Dev.flt (flt_lowerTide _)).trans ?_⟩
    generalize eventUnit _ src detail = u
    cases u with
    | none => rfl
    | some unit =>
      obtain ⟨s, n, b⟩ := unit
      exact flt_addPending ..

variable {src cause part detail d} {x : Esc}

/-- A NOTE that leaves its source's count short raises nothing further. -/
theorem raise_note_short (counted : countNote d.mt.mt.toNat (getEsc d src) = (x, false)) :
    let e := raise 0 src cause part detail d
    e.flt.degrades = d.flt.degrades ∧ e.flt.head = d.flt.head + 1 ∧ getEsc e src = x := by
  obtain ⟨short, -⟩ := raise_note_shape src cause part detail d
  rw [counted] at short
  rw [short rfl]
  obtain ⟨degrades, -⟩ := enterEvent_counts (Nat.zero_le 2) src cause part detail d
  exact ⟨degrades, (enterEvent_appended 0 src cause part detail d).head_eq, getEsc_setEsc_same ..⟩

/-- A NOTE that completes its source's count raises a DEGRADE with cause ESCALATED next in the history. -/
theorem raise_note_full (counted : countNote d.mt.mt.toNat (getEsc d src) = (x, true)) :
    let e := raise 0 src cause part detail d
    e.flt.degrades = d.flt.degrades + 1 ∧ (getEsc e src).noteCount = x.noteCount ∧
      ∃ h, tget e.flt.hist ((d.flt.head + 1).toNat % 64) = some h ∧ h.cls = 1 ∧ h.source = BitVec.ofNat 12 src ∧ h.cause = 1 := by
  obtain ⟨-, full⟩ := raise_note_shape src cause part detail d
  rw [counted] at full
  obtain ⟨detail', u, flt⟩ := full rfl
  generalize hc : setEsc src x (enterEvent 0 src cause part detail d) = c at flt
  obtain ⟨noted, -⟩ := enterEvent_counts (Nat.zero_le 2) src cause part detail d
  have before : c.flt.degrades = d.flt.degrades := hc ▸ noted
  have head : c.flt.head = d.flt.head + 1 := hc ▸ (enterEvent_appended 0 src cause part detail d).head_eq
  obtain ⟨degrades, -⟩ := raiseDegrade_counts src 1 part detail' u c
  have notes : (getEsc (raise 0 src cause part detail d) src).noteCount = x.noteCount := by
    rw [getEsc, flt]
    exact (raiseDegrade_noteCount src 1 part detail' u c).trans (by rw [← hc, getEsc_setEsc_same])
  obtain ⟨h, entry, fields⟩ := raiseDegrade_entered src 1 part detail' u c
  refine ⟨by rw [flt, degrades, before], notes, h, ?_, fields⟩
  rw [flt, ← head, entry]

end

end Sys2Proof.Machine
end

section
/-! The obligations of the fault logic: ESCALATION_SET and the NOTEs that escalate (R414, R415). -/

namespace Sys2Proof.Machine

open Sys2Proof

/-! ### The settings of a range of sources -/

/-- The sources of a list take one setting. -/
def setEscs (first : Nat) (x : Esc) (l : List Nat) (d : Dev) : Dev := forEach l (fun i => setEsc (first + i) x) d

section
variable (first : Nat) (x : Esc) (l : List Nat) (d : Dev)

theorem setEscs_cons (i : Nat) : setEscs first x (i :: l) d = setEscs first x l (setEsc (first + i) x d) := rfl

variable {first x l d}

theorem getEsc_setEscs_out {k : Nat} (out : ∀ i ∈ l, k ≠ first + i) : getEsc (setEscs first x l d) k = getEsc d k := by
  induction l generalizing d with
  | nil => rfl
  | cons i r ih =>
    rw [setEscs_cons, ih fun j hj => out j (List.mem_cons_of_mem i hj), getEsc_setEsc_other x d (out i List.mem_cons_self)]

theorem getEsc_setEscs_in {i : Nat} (listed : i ∈ l) : getEsc (setEscs first x l d) (first + i) = x := by
  induction l generalizing d with
  | nil => cases listed
  | cons j r ih =>
    rw [setEscs_cons]
    by_cases later : i ∈ r
    · exact ih later
    · obtain rfl : i = j := (List.mem_cons.mp listed).resolve_right later
      rw [getEsc_setEscs_out, getEsc_setEsc_same]
      intro k hk same
      exact later (Nat.add_left_cancel same ▸ hk)

theorem setEscs_frame : { setEscs first x l d with flt := d.flt } = d :=
  forEach_same (fun e : Dev => { e with flt := d.flt }) (fun i => setEsc (first + i) x) (fun _ _ => rfl) l d

theorem setEscs_flt : { (setEscs first x l d).flt with esc := d.flt.esc } = d.flt :=
  forEach_same (fun e : Dev => { e.flt with esc := d.flt.esc }) (fun i => setEsc (first + i) x) (fun _ _ => rfl) l d

end

/-- The setting in a request of ESCALATION_SET. -/
def escNamed (pl : List Byte) : Esc :=
  { noteLimit := lf pl 4 2, noteWindow := lf pl 6 2, degLimit := lf pl 8 2, degWindow := lf pl 10 2 }

theorem gives_escalationSet {s : State} {m : Fin 64} {pl : List Byte} (t : Turn 0x0703 m.val s.dev) (hpl : payload s.dev m.val = pl)
    (some_ : 1 ≤ lf pl 2 2) (fits : lf pl 0 2 + lf pl 2 2 ≤ 0x1000)
    (known : ∀ i, i < lf pl 2 2 → 1 ≤ (lf pl 0 2 + i) / 256 ∧ (lf pl 0 2 + i) / 256 ≤ 9)
    (note : 1 ≤ lf pl 6 2 ∧ lf pl 6 2 ≤ 60000) (deg : 1 ≤ lf pl 10 2 ∧ lf pl 10 2 ≤ 60000) :
    Gives (.escalationSet m) s
      (answer m.val stOk 0 [] (setEscs (lf pl 0 2) (escNamed pl) (List.range (lf pl 2 2)) s.dev)) := by
  refine gives_turn rfl t ?_
  rw [hpl]
  have count : decide (lf pl 2 2 = 0) = false := decide_eq_false (by omega)
  have last : decide (0xFFF < lf pl 0 2 + lf pl 2 2 - 1) = false := decide_eq_false (by omega)
  have sources : (List.range (lf pl 2 2)).all (fun i => srcOk (lf pl 0 2 + i)) = true := by
    refine List.all_eq_true.mpr fun i hi => ?_
    obtain ⟨low, high⟩ := known i (List.mem_range.mp hi)
    simp [srcOk, low, high]
  have window {w : Nat} (h : 1 ≤ w ∧ w ≤ 60000) : (decide (w = 0) || decide (60000 < w)) = false := by
    rw [decide_eq_false (by omega), decide_eq_false (by omega)]; rfl
  refine if_neg (Bool.eq_false_iff.mp ?_)
  dsimp only
  rw [count, last, sources, window note, window deg]
  rfl

/-! ### The four cases of a NOTE -/

section
variable {d : Dev} {src cause part detail : Nat}

theorem raise_note_unlimited (off : (getEsc d src).noteLimit = 0) :
    (raise 0 src cause part detail d).flt.degrades = d.flt.degrades ∧
      (raise 0 src cause part detail d).flt.head = d.flt.head + 1 := by
  obtain ⟨y, counted⟩ : ∃ y, countNote d.mt.mt.toNat (getEsc d src) = (y, false) := by
    by_cases first : freshNote d.mt.mt.toNat (getEsc d src)
    · exact ⟨_, (countNote_fresh first).trans (addNote_short (.inl off))⟩
    · exact ⟨_, (countNote_later first).trans (addNote_short (.inl off))⟩
  obtain ⟨degrades, head, -⟩ := raise_note_short (cause := cause) (part := part) (detail := detail) counted
  exact ⟨degrades, head⟩

theorem raise_note_later (later : ¬ freshNote d.mt.mt.toNat (getEsc d src))
    (short : (getEsc d src).noteCount + 1 < (getEsc d src).noteLimit) :
    let e := raise 0 src cause part detail d
    e.flt.degrades = d.flt.degrades ∧ (getEsc e src).noteCount = (getEsc d src).noteCount + 1 ∧
      (getEsc e src).noteStart = (getEsc d src).noteStart := by
  obtain ⟨degrades, -, record⟩ := raise_note_short (cause := cause) (part := part) (detail := detail)
    ((countNote_later later).trans (addNote_short (.inr (Nat.ne_of_lt short))))
  dsimp only
  rw [record]
  exact ⟨degrades, rfl, rfl⟩

theorem raise_note_first (limit : 1 < (getEsc d src).noteLimit) (first : freshNote d.mt.mt.toNat (getEsc d src)) :
    let e := raise 0 src cause part detail d
    e.flt.degrades = d.flt.degrades ∧ (getEsc e src).noteCount = 1 ∧ (getEsc e src).noteStart = d.mt.mt.toNat := by
  obtain ⟨degrades, -, record⟩ := raise_note_short (cause := cause) (part := part) (detail := detail)
    ((countNote_fresh first).trans (addNote_short (.inr (Nat.ne_of_lt limit))))
  dsimp only
  rw [record]
  exact ⟨degrades, rfl, rfl⟩

theorem raise_note_last (on : (getEsc d src).noteLimit ≠ 0)
    (last : (freshNote d.mt.mt.toNat (getEsc d src) ∧ (getEsc d src).noteLimit = 1) ∨
      (¬ freshNote d.mt.mt.toNat (getEsc d src) ∧ (getEsc d src).noteCount + 1 = (getEsc d src).noteLimit)) :
    let e := raise 0 src cause part detail d
    e.flt.degrades = d.flt.degrades + 1 ∧ (getEsc e src).noteCount = 0 ∧
      ∃ h, tget e.flt.hist ((d.flt.head + 1).toNat % 64) = some h ∧ h.cls = 1 ∧ h.source = BitVec.ofNat 12 src ∧ h.cause = 1 := by
  obtain ⟨y, counted, zero⟩ : ∃ y, countNote d.mt.mt.toNat (getEsc d src) = (y, true) ∧ y.noteCount = 0 := by
    obtain ⟨first, one⟩ | ⟨later, full⟩ := last
    · exact ⟨_, (countNote_fresh first).trans (addNote_full on one.symm), rfl⟩
    · exact ⟨_, (countNote_later later).trans (addNote_full on full), rfl⟩
  obtain ⟨degrades, notes, escalated⟩ := raise_note_full (cause := cause) (part := part) (detail := detail) counted
  exact ⟨degrades, notes.trans zero, escalated⟩

end

/-- Settles O26: the setting is read off source by source; of the NOTE, the four cases are those of its source's count. -/
theorem notesEscalate : Obligations.NotesEscalate := by
  unfold Obligations.NotesEscalate
  refine ⟨?set, ?note⟩
  case set =>
    intro s m t pl first n some_ fits known note note' deg deg'
    refine ⟨_, gives_escalationSet t rfl some_ fits known ⟨note, note'⟩ ⟨deg, deg'⟩, ?_⟩
    generalize hd : setEscs (lf (payload s.dev m.val) 0 2) (escNamed (payload s.dev m.val)) (List.range (lf (payload s.dev m.val) 2 2)) s.dev = d
    have frame := answer_frame m.val stOk 0 [] d
    have flt : (answer m.val stOk 0 [] d).flt = d.flt := (congrArg Dev.flt frame :)
    have esc (k : Nat) : getEsc (answer m.val stOk 0 [] d) k = getEsc d k := by rw [getEsc, flt, getEsc]
    refine ⟨fun i hi => ?_, fun k hk => ?_, (answer_done ..).1, ?_, ?_⟩
    · rw [esc, ← hd, getEsc_setEscs_in (List.mem_range.mpr hi)]
      rfl
    · rw [esc, ← hd, getEsc_setEscs_out]
      intro i hi
      have below : i < n := List.mem_range.mp hi
      show k ≠ first + i
      omega
    · have set_ : { d with flt := s.dev.flt } = s.dev := hd ▸ setEscs_frame
      calc _ = { d with mbx := s.dev.mbx, flt := s.dev.flt, msix := s.dev.msix, out := s.dev.out } :=
            congrArg (fun e : Dev => { e with mbx := s.dev.mbx, flt := s.dev.flt, msix := s.dev.msix, out := s.dev.out }) frame
        _ = s.dev :=
            congrArg (fun e : Dev => { e with mbx := s.dev.mbx, flt := s.dev.flt, msix := s.dev.msix, out := s.dev.out }) set_
    · rw [flt, ← hd, setEscs_flt]
  case note =>
    intro d src cause part detail
    exact ⟨raise_note_unlimited, fun _ => raise_note_later, raise_note_first, raise_note_last⟩

end Sys2Proof.Machine
end

section
/-! The obligations of fault events and of the fault logic's timers (R410 to R424). -/

namespace Sys2Proof.Machine

open Sys2Proof

theorem exec_faultEvent (cls : BitVec 2) (src : BitVec 12) (cause : BitVec 16) (part : BitVec 8) (detail : BitVec 64) (s : State) :
    exec (.faultEvent cls src cause part detail) s =
      on (whenHw (raise cls.toNat src.toNat cause.toNat part.toNat detail.toNat)) s := rfl

/-! ### A partition that a HALT stops -/

/-- A partition has stopped, in this orbit. -/
def StoppedIn (q : Nat) (orbit : BitVec 32) (d : Dev) : Prop :=
  d.partsWf ∧ ∃ y, getPart d q = some y ∧ y.plan = .stopped ∧ y.lastOrbit = orbit

section
variable {q p : Nat} {orbit : BitVec 32} {d e : Dev}

theorem StoppedIn.of_records (h : StoppedIn q orbit d) (r : RecordsOnly d e) : StoppedIn q orbit e := by
  obtain ⟨wf, y, hy, plan, last⟩ := h
  obtain ⟨z, hz, same⟩ := r.getPart_some wf hy
  exact ⟨r.partsWf wf, z, hz, (congrArg Part.plan same :).trans plan, (congrArg Part.lastOrbit same :).trans last⟩

theorem StoppedIn.of_parts (h : StoppedIn q orbit d) (same : e.parts = d.parts) : StoppedIn q orbit e := by
  have get (k : Nat) : getPart e k = getPart d k := congrArg (tget · k) same
  obtain ⟨wf, y, hy, stopped⟩ := h
  exact ⟨fun k z hz => wf k z ((get k).symm.trans hz), y, (get q).trans hy, stopped⟩

theorem StoppedIn.modPart {f : Part → Part} (h : StoppedIn q orbit d) (pid : ∀ x, (f x).pid = x.pid)
    (plan : ∀ x, (f x).plan = x.plan) (last : ∀ x, (f x).lastOrbit = x.lastOrbit) : StoppedIn q orbit (modPart q f d) := by
  obtain ⟨wf, y, hy, hpl, hlast⟩ := h
  exact ⟨partsWf_modPart pid wf, f y, by rw [getPart_modPart_same, hy, Option.map_some], (plan y).trans hpl, (last y).trans hlast⟩

theorem StoppedIn.parkTiles (h : StoppedIn q orbit d) : StoppedIn q orbit (parkTiles q d) := by
  obtain ⟨-, x, hx, -⟩ := id h
  rw [Machine.parkTiles, withPart_some _ hx]
  have parked : StoppedIn q orbit (forEach (listedTiles d x) (fun t => modTile t parkTile) d) :=
    h.of_parts (forEach_same Dev.parts (fun t => modTile t parkTile) (fun _ _ => rfl) _ d)
  exact (parked.modPart (f := fun y => { y with stopping := false }) (fun _ => rfl) (fun _ => rfl) fun _ => rfl).of_parts
    (parts_releasePins ..)

theorem StoppedIn.closed (h : StoppedIn q orbit d) (o : BitVec 32) : StoppedIn q orbit (closed q o d) := by
  obtain ⟨-, x, hx, -⟩ := id h
  unfold Machine.closed
  split
  · rw [eclipseAll, withPart_some _ hx]
    refine StoppedIn.of_records (StoppedIn.modPart (h.of_records ?_) ?_ ?_ ?_) (recordsOnly_closeDigest ..)
    · exact recordsOnly_when (recordsOnly_forEach (fun _ _ => recordsOnly_ephRec ..) _ d)
    all_goals exact fun _ => rfl
  · exact h

/-- A partition that leaves RUNNING stops in the orbit it is in (R26). -/
theorem leaveRunning_stoppedIn {x : Part} (wf : d.partsWf) (here : getPart d q = some x) (runs : x.plan = .running) :
    StoppedIn q x.orbit (leaveRunning q d) := by
  obtain ⟨wf', z, hz, same⟩ := Stands.endHolds (p := q) (x := x) ⟨wf, x, here, rfl⟩ x
  have left (ticks : Bool) : StoppedIn q x.orbit (modPart q (leaving ticks) (endHolds x d)) :=
    ⟨partsWf_modPart (fun _ => rfl) wf', leaving ticks z, by rw [getPart_modPart_same, hz, Option.map_some], rfl,
      (congrArg Part.orbit same :)⟩
  rw [leaveRunning_running here runs]
  refine StoppedIn.closed ?_ _
  split
  · exact left _
  · exact (left _).parkTiles

/-- A HALT that names a running partition stops it (R413). -/
theorem raise_halt_stops {x : Part} (wf : d.partsWf) (named : p ≠ 0xFF) (here : getPart d p = some x) (runs : x.plan = .running)
    (src cause detail : Nat) : StoppedIn p x.orbit (raise 2 src cause p detail d) := by
  obtain ⟨f, -, recorded⟩ := recordEvent_records 2 src cause p detail d
  obtain ⟨y, hy, same⟩ := recorded.getPart_some wf here
  have orbit : y.orbit = x.orbit := (congrArg Part.orbit same :)
  rw [raise_halt, haltParts, if_neg named, ← orbit]
  exact leaveRunning_stoppedIn (recorded.partsWf wf) hy ((congrArg Part.plan same :).trans runs)

end

/-! ### What an event of each class leaves -/

section
variable {cls src cause part detail : Nat} {d : Dev}

/-- An event takes nothing out of the history but the entries that its own and what it escalates to replace. -/
theorem tget_raise_other {k : Nat} (h0 : k ≠ d.flt.head.toNat % 64) (h1 : k ≠ (d.flt.head.toNat + 1) % 64)
    (h2 : k ≠ (d.flt.head.toNat + 2) % 64) :
    tget (raise cls src cause part detail d).flt.hist k = tget d.flt.hist k := by
  have second : (d.flt.head + 1).toNat % 64 = (d.flt.head.toNat + 1) % 64 := by bv_omega
  have third : (d.flt.head + 1 + 1).toNat % 64 = (d.flt.head.toNat + 2) % 64 := by bv_omega
  obtain ⟨u, rfl, h⟩ | ⟨c, hc, h | ⟨_, _, h⟩⟩ := raise_cases cls src cause part detail d
  · rw [h]
    obtain ⟨c, hc, same | further⟩ := raiseDegrade_cases src cause part detail u d
    · exact (hc.of_logged same).tget_other h0
    · rw [further.tget_other (by rwa [hc.head_eq, second]), hc.tget_other h0]
  · exact (hc.of_logged h).tget_other h0
  · rw [hist_of_logged h]
    obtain ⟨e, he, same | further⟩ := raiseDegrade_cases src 1 part _ _ c
    · rw [(he.of_logged same).tget_other (by rwa [hc.head_eq, second]), hc.tget_other h0]
    · rw [further.tget_other (by rwa [he.head_eq, hc.head_eq, third]), he.tget_other (by rwa [hc.head_eq, second]), hc.tget_other h0]

/-- A NOTE is counted, whatever it escalates to. -/
theorem raise_note_counts : (raise 0 src cause part detail d).flt.notes = d.flt.notes + 1 := by
  obtain ⟨-, notes⟩ := enterEvent_counts (Nat.zero_le 2) src cause part detail d
  rw [if_pos rfl] at notes
  obtain ⟨short, full⟩ := raise_note_shape src cause part detail d
  generalize hc : countNote d.mt.mt.toNat (getEsc d src) = c at short full
  obtain ⟨x, completes⟩ := c
  cases completes with
  | false => rw [short rfl]; exact notes
  | true =>
    obtain ⟨detail', u, flt⟩ := full rfl
    obtain ⟨-, same⟩ := raiseDegrade_counts src 1 part detail' u (setEsc src x (enterEvent 0 src cause part detail d))
    rw [flt, same]
    exact notes

theorem raise_of_degrade (degrade : cls = 1) :
    raise cls src cause part detail d = raiseDegrade src cause part detail (eventUnit d src detail) d := by
  unfold raise
  split
  · cases degrade
  · rfl
  · next other => exact absurd degrade other

/-- A DEGRADE is counted; without a limit for its source it is no more. -/
theorem raise_degrade_counts : (raise 1 src cause part detail d).flt.degrades = d.flt.degrades + 1 ∧
    ((getEsc d src).degLimit = 0 → (raise 1 src cause part detail d).flt.halts = d.flt.halts ∧
      (raise 1 src cause part detail d).flt.hold = d.flt.hold ∧ (raise 1 src cause part detail d).flt.pulse = d.flt.pulse) := by
  rw [raise_of_degrade rfl]
  refine ⟨(raiseDegrade_counts ..).1, fun unlimited => ?_⟩
  obtain ⟨x, -, same | ⟨limited, -⟩⟩ := raiseDegrade_shape src cause part detail (eventUnit d src detail) d
  · have entered := tally_enterEvent (Nat.le_succ 1) src cause part detail d
    rw [same]
    exact ⟨(congrArg Flt.halts entered :), (congrArg Flt.hold entered :), (congrArg Flt.pulse entered :)⟩
  · exact absurd unlimited limited

theorem tally_raise_halt : tally (raise 2 src cause part detail d).flt = driven 2 d.clk.wall (tallied 2 (tally d.flt)) :=
  tally_enterEvent (Nat.le_refl 2) ..

/-- A SEAL is counted and freezes every sequencer (R424). -/
theorem raise_seal_flt : let e := raise 3 src cause part detail d
    e.flt.hold = true ∧ e.flt.pulse = some (d.clk.wall + usG 10) ∧ e.flt.head = d.flt.head + 1 ∧
      e.flt.firstSeal = if d.flt.firstSeal = 0xFFFFFFFFFFFFFFFF#64 then d.flt.head else d.flt.firstSeal := by
  have recorded := tally_recordEvent 3 src cause part detail d
  have first := congrArg Flt.firstSeal recorded
  refine ⟨(congrArg Flt.hold recorded :), (congrArg Flt.pulse recorded :), (congrArg Flt.head recorded :), ?_⟩
  refine (show _ = _ from first).trans ?_
  show (if (decide (3 = 3) && decide (d.flt.firstSeal = 0xFFFFFFFFFFFFFFFF#64)) = true then d.flt.head else d.flt.firstSeal) = _
  rw [decide_eq_true rfl, Bool.true_and]
  exact if_congr decide_eq_true_iff rfl rfl

theorem raise_seal_freezes {t : Nat} (listed : tget d.tiles t ≠ none) :
    (getTile (raise 3 src cause part detail d) t).mode = .frozen := by
  obtain ⟨f, -, recorded⟩ := recordEvent_records 3 src cause part detail d
  obtain ⟨x, hx⟩ := Option.ne_none_iff_exists'.mp listed
  have tiles : tget (recordEvent 3 src cause part detail d).tiles t = some x := recorded.tiles ▸ hx
  simp [raise_seal, sealModule, getTile, tget_map (fun t : Tile => { t with mode := .frozen }), tiles]

/-- What an event leaves as it is, whatever it sets in motion: host memory, the fuses, the flash, the weight store and its page table. -/
def lasting (d : Dev) : Mem × Otp × Flash × Store × Tab (BitVec 64) := (d.host, d.otp, d.flash, d.store, d.wpt)

theorem lasting_of_unraised {e : Dev} (h : unraised e = unraised d) : lasting e = lasting d := (congrArg lasting h :)

theorem lasting_lowerTide (d : Dev) : lasting (lowerTide d) = lasting d := by
  have settled (e : Dev) : lasting (settleStep true e) = lasting e := by
    unfold settleStep
    split
    · rfl
    · exact ite_keeps lasting rfl
  exact settled _

theorem lasting_raise (three : cls ≤ 3) : lasting (raise cls src cause part detail d) = lasting d := by
  by_cases low : cls ≤ 2
  · exact raise_same lasting (fun _ _ _ _ _ _ c => lasting_of_unraised (unraised_enterEvent c ..)) (fun _ _ _ => rfl)
      (fun _ _ _ _ => rfl) low (fun _ _ => lasting_lowerTide) ..
  · obtain rfl : cls = 3 := by omega
    have sealed (e : Dev) : lasting (sealModule e) = lasting e := rfl
    rw [raise_seal, sealed]
    exact lasting_of_unraised (unraised_recordEvent 3 src cause part detail d)

end

/-- Settles O25, class by class. -/
theorem faultEventsActByTheirClass : Obligations.FaultEventsActByTheirClass := by
  unfold Obligations.FaultEventsActByTheirClass
  intro s cls src cause part detail up d
  refine ⟨_, gives_whenHw (exec_faultEvent ..) up, raise_entered .., fun k _ => tget_raise_other, ?serious, ?note, ?degrade, ?halt,
    ?sealed, ?_⟩
  case serious =>
    intro high
    obtain two | three : cls.toNat = 2 ∨ cls.toNat = 3 := by omega
    · have halted : tally (raise 2 src.toNat cause.toNat part.toNat detail.toNat d).flt = _ := tally_raise_halt
      rw [two]
      exact ⟨(congrArg Flt.hold halted :), (congrArg Flt.pulse halted :), (congrArg Flt.head halted :)⟩
    · rw [three]
      obtain ⟨hold, pulse, head, -⟩ := raise_seal_flt (src := src.toNat) (cause := cause.toNat) (part := part.toNat)
        (detail := detail.toNat) (d := d)
      exact ⟨hold, pulse, head⟩
  case note =>
    intro note
    rw [show cls.toNat = 0 from note ▸ rfl]
    exact raise_note_counts
  case degrade =>
    intro degrade
    rw [show cls.toNat = 1 from degrade ▸ rfl]
    exact raise_degrade_counts
  case halt =>
    intro halt
    rw [show cls.toNat = 2 from halt ▸ rfl]
    have halted : tally (raise 2 src.toNat cause.toNat part.toNat detail.toNat d).flt = _ := tally_raise_halt
    refine ⟨(congrArg Flt.halts halted :), (congrArg Flt.lastHalt halted :), (congrArg Flt.sealed halted :), ?_⟩
    intro x wf named here runs
    obtain ⟨-, stopped⟩ := raise_halt_stops wf (fun h => named (BitVec.eq_of_toNat_eq h)) here runs src.toNat cause.toNat detail.toNat
    exact stopped
  case sealed =>
    intro seals
    rw [show cls.toNat = 3 from seals ▸ rfl]
    obtain ⟨-, -, -, first⟩ := raise_seal_flt (src := src.toNat) (cause := cause.toNat) (part := part.toNat)
      (detail := detail.toNat) (d := d)
    exact ⟨rfl, fun t => raise_seal_freezes, raise_seal_rails .., rfl, rfl, first⟩
  have same : lasting (raise cls.toNat src.toNat cause.toNat part.toNat detail.toNat d) = lasting d :=
    lasting_raise (Nat.le_of_lt_succ cls.isLt)
  exact ⟨congrArg (·.1) same, congrArg (·.2.1) same, congrArg (·.2.2.1) same, congrArg (·.2.2.2.1) same, congrArg (·.2.2.2.2) same⟩

/-! ### The fault logic's timers -/

theorem gives_pulseEnd {s : State} {t : Nat} (runs : s.dev.flt.pulse = some t) :
    Gives .pulseEnd s (whenDue t (fun d => { d with flt := { d.flt with pulse := none } }) s.dev) := by
  show on (fun d : Dev => match d.flt.pulse with
    | some t => whenDue t (fun d => { d with flt := { d.flt with pulse := none } }) d
    | none => d) s = _
  rw [on_eq]
  simp only [runs]

/-- FAULT_HOLD_CLEAR as the fault logic takes it (R421). -/
theorem exec_faultHoldClear (m : Fin 64) (s : State) : exec (.faultHoldClear m) s = on (fun d =>
    if hwUp d && d.flt.sealed && (getMbx d m).st = .posted && rqOpcode (getMbx d m) = 0x0704 then
      answer m stDenied 0 (toLe 8 d.flt.lastHalt.toNat) d
    else command 0x0704 m (fun pl e =>
      if d.flt.lastHalt = 0xFFFFFFFFFFFFFFFF#64 || decide (d.flt.lastHalt.toNat < lf pl 0 8) then
        answer m stOk 0 (toLe 8 d.flt.lastHalt.toNat) { e with flt := { e.flt with hold := false } }
      else answer m stNotReady 0 (toLe 8 d.flt.lastHalt.toNat) e) d) s := rfl

theorem awake_of_turn {code m : Nat} {d : Dev} (t : Turn code m d) : awake d = true := by
  obtain ⟨turn, -, -⟩ := t
  simp only [isTurn, Bool.and_eq_true] at turn
  exact awake_of_mpUp turn.1.1.1.1

theorem sealed_of_awake {d : Dev} (up : awake d = true) : d.flt.sealed = false := by
  simp only [awake, Bool.and_eq_true, Bool.not_eq_true'] at up
  exact up.2

theorem gives_faultHoldClear {s : State} {m : Fin 64} (t : Turn 0x0704 m.val s.dev) :
    Gives (.faultHoldClear m) s
      (if s.dev.flt.lastHalt = 0xFFFFFFFFFFFFFFFF#64 || decide (s.dev.flt.lastHalt.toNat < lf (payload s.dev m.val) 0 8) then
        answer m.val stOk 0 (toLe 8 s.dev.flt.lastHalt.toNat) { s.dev with flt := { s.dev.flt with hold := false } }
      else answer m.val stNotReady 0 (toLe 8 s.dev.flt.lastHalt.toNat) s.dev) := by
  have unsealed := sealed_of_awake (awake_of_turn t)
  obtain ⟨turn, shape, room⟩ := t
  rw [Gives, exec_faultHoldClear, on_eq, unsealed, Bool.and_false, Bool.false_and, Bool.false_and, if_neg Bool.false_ne_true,
    command_turn turn shape room]
  rfl

theorem gives_faultHoldClear_sealed {s : State} {m : Fin 64} (up : hwUp s.dev = true) (sealed : s.dev.flt.sealed = true)
    (posted : (getMbx s.dev m).st = .posted) (code : rqOpcode (getMbx s.dev m) = 0x0704) :
    Gives (.faultHoldClear m) s (answer m.val stDenied 0 (toLe 8 s.dev.flt.lastHalt.toNat) s.dev) := by
  rw [Gives, exec_faultHoldClear, on_eq, up, sealed, posted, code]
  rfl

/-- An event enters the history under the number that HIST_HEAD had, whatever else of the fault logic was set before. -/
theorem Entered.of_head {cls src cause : Nat} {d d' e : Dev} (h : Entered cls src cause d' e) (head : d'.flt.head = d.flt.head) :
    Entered cls src cause d e := by
  obtain ⟨x, hx, fields⟩ := h
  exact ⟨x, head ▸ hx, fields⟩

/-- The module as the watchdog expires. -/
def mpFailing (d : Dev) : Dev := { d with flt := { d.flt with mpFailed := true, aliveStop := true } }

/-- The module as the SE fails. -/
def seFailing (d : Dev) : Dev := { d with flt := { d.flt with seFailed := true, aliveStop := true } }

theorem gives_watchdog {s : State} (up : awake s.dev = true) (first : s.dev.flt.mpFailed = false) :
    Gives .watchdog s (raise 2 0x701 0x0701 0xFF 0 (mpFailing s.dev)) :=
  gives_whenAwake rfl up (if_neg (Bool.eq_false_iff.mp first))

theorem gives_seFail {s : State} (up : awake s.dev = true) : Gives .seFail s (raise 3 0x800 0x0801 0xFF 0 (seFailing s.dev)) :=
  gives_whenAwake rfl up rfl

/-- The watchdog's expiry is entered as a HALT of every partition, and stops the MP. -/
theorem raise_watchdog (d : Dev) : ∃ e, raise 2 0x701 0x0701 0xFF 0 (mpFailing d) = e ∧
    e.flt.mpFailed = true ∧ e.flt.aliveStop = true ∧ Entered 2 0x701 0x0701 d e ∧ e.flt.hold = true ∧ mpUp e = false := by
  have entered : Entered 2 0x701 0x0701 d (raise 2 0x701 0x0701 0xFF 0 (mpFailing d)) := (raise_entered ..).of_head rfl
  have halted := tally_raise_halt (src := 0x701) (cause := 0x0701) (part := 0xFF) (detail := 0) (d := mpFailing d)
  generalize raise 2 0x701 0x0701 0xFF 0 (mpFailing d) = e at entered halted
  have failed : e.flt.mpFailed = true := (congrArg Flt.mpFailed halted :)
  exact ⟨e, rfl, failed, (congrArg Flt.aliveStop halted :), entered, (congrArg Flt.hold halted :), by simp [mpUp, failed]⟩

/-- A failure of the SE is entered as a SEAL. -/
theorem raise_seFail (d : Dev) : ∃ e, raise 3 0x800 0x0801 0xFF 0 (seFailing d) = e ∧
    e.flt.seFailed = true ∧ e.flt.sealed = true ∧ Entered 3 0x800 0x0801 d e ∧ awake e = false := by
  have entered : Entered 3 0x800 0x0801 d (raise 3 0x800 0x0801 0xFF 0 (seFailing d)) := (raise_entered ..).of_head rfl
  have recorded := tally_recordEvent 3 0x800 0x0801 0xFF 0 (seFailing d)
  have failed : (raise 3 0x800 0x0801 0xFF 0 (seFailing d)).flt.seFailed = true := (congrArg Flt.seFailed recorded :)
  have sealed := raise_seal_seals 0x800 0x0801 0xFF 0 (seFailing d)
  generalize raise 3 0x800 0x0801 0xFF 0 (seFailing d) = e at entered failed sealed
  exact ⟨e, rfl, failed, sealed, entered, by simp [awake, sealed]⟩

/-- ALIVE at the end of its interval. -/
def aliveToggled (at_ : Nat) (d : Dev) : Dev :=
  let d := { d with free := d.free + 1 }
  if d.flt.aliveStop then { d with flt := { d.flt with alive := false, aliveRun := false } }
  else { d with flt := { d.flt with alive := !d.flt.alive, aliveAt := at_ } }

theorem gives_aliveToggle {s : State} (on_ : s.dev.pwr.inputOn = true) (run : s.dev.flt.aliveRun = true) :
    let at_ := s.dev.flt.aliveAt + nsG (aliveInterval (Config.freeBits 16 s.dev.free))
    Gives .aliveToggle s (whenDue at_ (aliveToggled at_) s.dev) := by
  intro at_
  show on (fun d => if !d.pwr.inputOn || !d.flt.aliveRun then d else
    whenDue (d.flt.aliveAt + nsG (aliveInterval (Config.freeBits 16 d.free)))
      (aliveToggled (d.flt.aliveAt + nsG (aliveInterval (Config.freeBits 16 d.free)))) d) s = _
  rw [on_eq, on_, run]
  rfl

/-- Passing time leaves the fault logic as it is, so the level and the condition are those that stand now. -/
theorem aliveToggled_eq (at_ : Nat) {d e : Dev} (flt : e.flt = d.flt) : aliveToggled at_ e = { e with
    free := e.free + 1
    flt := if d.flt.aliveStop = true then { e.flt with alive := false, aliveRun := false }
      else { e.flt with alive := !d.flt.alive, aliveAt := at_ } } := by
  unfold aliveToggled; dsimp only
  rw [← flt]
  split <;> rfl

/-- What an event leaves at its moment may be said of any module that differs from the one now in its clocks alone. -/
theorem AtDue.imp {w : Nat} {d : Dev} {P Q : Dev → Prop} (due : AtDue w d P) (imp : ∀ e, untimed e = untimed d → P e → Q e) :
    AtDue w d Q :=
  ⟨fun now => imp _ rfl (due.1 now), fun later pass => imp _ (untimed_passTo w d) (due.2 later pass)⟩

theorem aliveInterval_range (v : BitVec 16) : 495000 ≤ aliveInterval v ∧ aliveInterval v ≤ 505000 := by
  unfold aliveInterval
  omega

/-- Settles O27, timer by timer. -/
theorem faultLogicTimersAndHold : Obligations.FaultLogicTimersAndHold := by
  unfold Obligations.FaultLogicTimersAndHold
  intro s m d arg last ok
  have test : (decide (last = 0xFFFFFFFFFFFFFFFF#64) || decide (last.toNat < arg)) = true ↔ ok := by
    simp only [Bool.or_eq_true, decide_eq_true_eq]
    rfl
  refine ⟨fun t runs => atDue_gives_made (gives_pulseEnd runs), fun t runs => notYet_gives (gives_pulseEnd runs), fun t clears => ?_,
    fun t stays => ?_, gives_faultHoldClear_sealed, fun up first => ?_, fun up => ?_, fun on_ run => ?_⟩
  · have cleared := gives_faultHoldClear t
    rwa [if_pos (test.mpr clears)] at cleared
  · have refused := gives_faultHoldClear t
    rwa [if_neg (mt test.mp stays)] at refused
  · obtain ⟨e, he, failed⟩ := raise_watchdog d
    exact ⟨e, he ▸ gives_watchdog up first, failed⟩
  · obtain ⟨e, he, failed⟩ := raise_seFail d
    exact ⟨e, he ▸ gives_seFail up, failed⟩
  · obtain ⟨low, high⟩ := aliveInterval_range (Config.freeBits 16 d.free)
    refine ⟨_, low, high, (atDue_gives_made (gives_aliveToggle on_ run)).imp fun e timed toggled => ?_⟩
    have flt : e.flt = d.flt := (congrArg Dev.flt timed :)
    rwa [aliveToggled_eq _ flt] at toggled

end Sys2Proof.Machine
end

section
/-!
The partitions under their own numbers (`Dev.partsWf`, R385), first for updates of the records: `rest` says that an update which
writes no partition keeps them, `setPart` that one does which writes a partition under its number, and the others carry it through a
choice, a fold or a table. From here on one lemma for each function of the model says that the function keeps the partitions under
their numbers, in the order the model applies the functions.
-/

namespace Sys2Proof.Machine

open Sys2Proof

set_option Elab.async false

section
variable {d e : Dev} {x : Part} {p : Nat} {α β : Type} {c : Prop} [Decidable c]

section
variable {tiles : Tab Tile} {clk : Clk} {mt : Mt} {chans : Tab Chan} {mm : Tab MemMoon} {dma : Tab Dma} {ports : Tab Port}
  {mbx : Tab Mailbox} {glb : Glb} {ident : Ident} {rcv : Rcv} {pwr : Pwr} {otp : Otp} {rom : Rom} {flash : Flash} {crater : Crater}
  {flt : Flt} {sec : Sec} {jtag : JtagOp} {store : Store} {cfg : HostCfg} {msix : Tab MsixVec} {host gddr : Mem}
  {hostBad : List (Nat × Nat)} {cpt wpt : Tab (BitVec 64)} {cptBad wptBad : List Nat} {rot : Tab Nat} {ranks : Tab (BitVec 32)}
  {budgets : Tab (BitVec 128)} {bist : Option BistRun} {out : Out} {free : Nat}

/-- Whatever an update writes beside the partitions. -/
protected theorem Dev.partsWf.rest (h : d.partsWf) : Dev.partsWf { d with
    tiles, clk, mt, chans, mm, dma, ports, mbx, glb, ident, rcv, pwr, otp, rom, flash, crater, flt, sec, jtag, store, cfg, msix
    host, hostBad, gddr, cpt, wpt, cptBad, wptBad, rot, ranks, budgets, bist, out, free } := h
end

/-- A module without partitions. -/
protected theorem Dev.partsWf.of_nil (none_ : d.parts = []) : d.partsWf := fun p x there => by
  rw [getPart, none_] at there
  cases there

/-- A partition in the table has the number it stands under. -/
protected theorem Dev.partsWf.pid (h : d.partsWf) (there : getPart d p = some x) : x.pid = p := h p x there

/-- A partition is written under the number of the one it is made from. -/
protected theorem Dev.partsWf.setPart {y : Part} (h : d.partsWf) (own : y.pid = p) (same : x.pid = y.pid := by exact rfl) :
    (setPart p x d).partsWf := by
  intro q z there
  by_cases here : q = p
  · subst here
    rw [getPart_setPart_same] at there
    exact Option.some.inj there ▸ same.trans own
  · rw [getPart_setPart_other d x here] at there
    exact h q z there

protected theorem Dev.partsWf.ite (h : d.partsWf) (k : e.partsWf) : (if c then d else e).partsWf :=
  iteInduction (motive := Dev.partsWf) (fun _ => h) fun _ => k

protected theorem Dev.partsWf.iteSnd {p q : α × Dev} (h : p.2.partsWf) (k : q.2.partsWf) : (if c then p else q).2.partsWf :=
  iteInduction (motive := fun r : α × Dev => r.2.partsWf) (fun _ => h) fun _ => k

/-- The device that a function of the model hands on beside its answer. -/
protected theorem Dev.partsWf.of_eq {p : α × Dev} {a : α} (h : p.2.partsWf) (eq : p = (a, e)) : e.partsWf := by
  rw [eq] at h
  exact h

protected theorem Dev.partsWf.foldlSnd {l : List α} {f : β × Dev → α → β × Dev} {a : β × Dev} (h : a.2.partsWf)
    (keep : ∀ x b, b.2.partsWf → (f b x).2.partsWf) : (l.foldl f a).2.partsWf :=
  List.foldlRecOn (motive := fun b : β × Dev => b.2.partsWf) l f h fun b k x _ => keep x b k

protected theorem Dev.partsWf.forEach {l : List α} {f : α → Dev → Dev} (h : d.partsWf)
    (keep : ∀ a e, e.partsWf → (f a e).partsWf) : (forEach l f d).partsWf := forEach_keeps _ f keep l d h

/-- An update for each of a list, of which only those on the list need keep the numbers. -/
protected theorem Dev.partsWf.forEachOf {l : List α} {f : α → Dev → Dev} (h : d.partsWf)
    (keep : ∀ a ∈ l, ∀ e, e.partsWf → (f a e).partsWf) : (forEach l f d).partsWf :=
  List.foldlRecOn l (fun e a => f a e) h fun e k a there => keep a there e k

protected theorem Dev.partsWf.setTile {no : Nat} {t : Tile} (h : d.partsWf) : (setTile d no t).partsWf := h

protected theorem Dev.partsWf.modTile {no : Nat} {f : Tile → Tile} (h : d.partsWf) : (modTile no f d).partsWf := h

protected theorem Dev.partsWf.modMbx {m : Nat} {f : Mailbox → Mailbox} (h : d.partsWf) : (modMbx m f d).partsWf := h

/-- An update of every partition that leaves each its number. -/
protected theorem Dev.partsWf.mapParts (f : Part → Part) (h : d.partsWf) (keep : ∀ x, (f x).pid = x.pid) :
    Dev.partsWf { d with parts := d.parts.map (fun e => (e.1, f e.2)) } := by
  intro p y there
  simp only [getPart, tget_map] at there
  obtain ⟨x, hx, rfl⟩ := Option.map_eq_some_iff.mp there
  exact (keep x).trans (h p x hx)

protected theorem Dev.partsWf.modPart {f : Part → Part} (h : d.partsWf) (keep : ∀ x, (f x).pid = x.pid := by exact fun _ => rfl) :
    (modPart p f d).partsWf := partsWf_modPart keep h

protected theorem Dev.partsWf.withPart {f : Part → Dev → Dev} (h : d.partsWf)
    (keep : ∀ x e, e.partsWf → x.pid = p → (f x e).partsWf) : (withPart p f d).partsWf := by
  cases there : getPart d p with
  | none => rwa [withPart_none _ there]
  | some x =>
    rw [withPart_some _ there]
    exact keep x d h (h.pid there)

end

/-- A step that leaves every partition under its number, whatever next state it gives. -/
def KeepsParts (run : State → Host.Outcome State Fault Refusal) : Prop :=
  ∀ s t, s.dev.partsWf → run s = .next t → t.dev.partsWf

theorem keepsParts_on {f : Dev → Dev} (keep : ∀ d, d.partsWf → (f d).partsWf) : KeepsParts (on f) := fun _ _ h stepped => by
  rw [on_next stepped]
  exact keep _ h

end Sys2Proof.Machine
end

section
/-!
The numbers of the partitions under updates of the module's records and the conditions under which a command runs at all.
-/

namespace Sys2Proof.Machine

open Sys2Proof

set_option Elab.async false

variable {d : Dev} {m c q p w : Nat} {f : Dev → Dev} {throttle : Bool}

protected theorem Dev.partsWf.setMoon {x : Moon} (h : d.partsWf) : (setMoon d m x).partsWf := h.rest

protected theorem Dev.partsWf.modMoon {f : Moon → Moon} (h : d.partsWf) : (modMoon m f d).partsWf := h.setMoon

protected theorem Dev.partsWf.modSlice {s : Nat} {f : MoonSlice → MoonSlice} (h : d.partsWf) : (modSlice m s f d).partsWf :=
  h.modMoon

protected theorem Dev.partsWf.modChan {f : Chan → Chan} (h : d.partsWf) : (modChan c f d).partsWf := h.rest

protected theorem Dev.partsWf.modMm {f : MemMoon → MemMoon} (h : d.partsWf) : (modMm q f d).partsWf := h.rest

protected theorem Dev.partsWf.modDma {f : Dma → Dma} (h : d.partsWf) : (modDma c f d).partsWf := h.rest

protected theorem Dev.partsWf.modPort {f : Port → Port} (h : d.partsWf) : (modPort p f d).partsWf := h.rest

protected theorem Dev.partsWf.advance {g : Nat} (h : d.partsWf) : (advance g d).partsWf := h.rest

protected theorem Dev.partsWf.advanceTo (h : d.partsWf) : (advanceTo w d).partsWf := h.advance

protected theorem Dev.partsWf.draw (h : d.partsWf) : (draw w d).2.partsWf := h.rest

protected theorem Dev.partsWf.whenHw (h : d.partsWf) (keep : ∀ a, a.partsWf → (f a).partsWf) : (whenHw f d).partsWf :=
  .ite (keep _ h) h

protected theorem Dev.partsWf.whenHost (h : d.partsWf) (keep : ∀ a, a.partsWf → (f a).partsWf) : (whenHost f d).partsWf :=
  .ite (keep _ h) h

protected theorem Dev.partsWf.whenBell (h : d.partsWf) (keep : ∀ a, a.partsWf → (f a).partsWf) : (whenBell f d).partsWf :=
  .ite (keep _ h) h

protected theorem Dev.partsWf.whenAwake (h : d.partsWf) (keep : ∀ a, a.partsWf → (f a).partsWf) : (whenAwake f d).partsWf :=
  .ite (keep _ h) h

protected theorem Dev.partsWf.whenMp (h : d.partsWf) (keep : ∀ a, a.partsWf → (f a).partsWf) : (whenMp f d).partsWf :=
  .ite (keep _ h) h

protected theorem Dev.partsWf.startStep {tgt : Nat} (h : d.partsWf) : (startStep tgt throttle d).partsWf := h.rest

protected theorem Dev.partsWf.settleStep (h : d.partsWf) : (settleStep throttle d).partsWf := .ite h.rest (.ite h.startStep h)

protected theorem Dev.partsWf.lowerTide (h : d.partsWf) : (lowerTide d).partsWf := h.rest.settleStep

end Sys2Proof.Machine
end

section
/-!
The numbers of the partitions under the clocks of the moons and the passing of wall time.
-/

namespace Sys2Proof.Machine

open Sys2Proof

set_option Elab.async false

variable {d : Dev} {w : Nat}

protected theorem Dev.partsWf.modMoons {l : List Nat} {f : Moon → Moon} (h : d.partsWf) : (modMoons l f d).partsWf :=
  h.forEach fun _ _ k => k.modMoon

protected theorem Dev.partsWf.beginTick (h : d.partsWf) : (beginTick d).partsWf :=
  ((h.forEach fun _ _ k => k.modMoon).forEach fun _ _ k => k.modMoon).advanceTo

protected theorem Dev.partsWf.freeTicks (h : d.partsWf) : (freeTicks d).partsWf := h.forEach fun _ _ k => k.modMoon

protected theorem Dev.partsWf.stepTicks {fuel : Nat} (h : d.partsWf) : (stepTicks w fuel d).partsWf := by
  induction fuel generalizing d with
  | zero => exact h
  | succ n ih => exact .ite (ih h.beginTick) h

protected theorem Dev.partsWf.coast (h : d.partsWf) : (coast w d).partsWf := .ite h (.ite h.stepTicks h.stepTicks.modMoons)

protected theorem Dev.partsWf.passTo (h : d.partsWf) : (passTo w d).partsWf := h.coast.advanceTo.freeTicks

protected theorem Dev.partsWf.whenDue {f : Dev → Dev} (h : d.partsWf) (keep : ∀ a, a.partsWf → (f a).partsWf) : (whenDue w f d).partsWf :=
  .ite (keep _ h) (.ite (keep _ h.passTo) h)

protected theorem Dev.partsWf.letPass {g : Nat} (h : d.partsWf) : (letPass g d).partsWf := .ite h.passTo h

end Sys2Proof.Machine
end

section
/-!
The numbers of the partitions under what the module reports.
-/

namespace Sys2Proof.Machine

open Sys2Proof

set_option Elab.async false

variable {d : Dev} {x : Part} {v mt orbit ts kind slot req data p no cls src cause part detail : Nat} {w : WaitSt}

protected theorem Dev.partsWf.raiseVec (h : d.partsWf) : (raiseVec v d).partsWf := .ite h.rest h.rest

protected theorem Dev.partsWf.setCpt {i : Nat} (h : d.partsWf) : (setCpt i v d).partsWf := h.rest

protected theorem Dev.partsWf.ringWrite {first off : Nat} {bs : List Byte} (h : d.partsWf) : (ringWrite first off bs d).partsWf :=
  (recordsOnly_ringWrite ..).partsWf h

protected theorem Dev.partsWf.ephRec (h : d.partsWf) : (ephRec p kind slot req data d).partsWf := (recordsOnly_ephRec ..).partsWf h

protected theorem Dev.partsWf.ephRecAt (h : d.partsWf) : (ephRecAt p mt orbit ts kind slot req data d).partsWf :=
  (recordsOnly_ephRecAt ..).partsWf h

protected theorem Dev.partsWf.ephAll {runningOnly : Bool} (h : d.partsWf) : (ephAll runningOnly kind data d).partsWf :=
  (recordsOnly_ephAll ..).partsWf h

protected theorem Dev.partsWf.writeDigest (h : d.partsWf) : (writeDigest p d).partsWf := (recordsOnly_writeDigest ..).partsWf h

protected theorem Dev.partsWf.closeDigest {last : BitVec 32} (h : d.partsWf) : (closeDigest p last d).partsWf :=
  (recordsOnly_closeDigest ..).partsWf h

protected theorem Dev.partsWf.addPending {sub unit block : Nat} (h : d.partsWf) : (addPending sub unit block d).partsWf := h.rest

protected theorem Dev.partsWf.releasePins (h : d.partsWf) : (releasePins p d).partsWf := h.withPart fun _ _ k _ => .ite k k.rest

protected theorem Dev.partsWf.eclipseAll (h : d.partsWf) : (eclipseAll p d).partsWf :=
  h.withPart fun _ _ k _ => .modPart (.ite (k.forEach fun _ _ l => l.ephRec) k)

protected theorem Dev.partsWf.countHold {ns : Nat} (h : d.partsWf) : (countHold no w ns d).partsWf := h.modSlice

protected theorem Dev.partsWf.endHold {start : Nat} (h : d.partsWf) : (endHold no w start d).partsWf :=
  (endHold_records ..).partsWf (releaseHold_partsWf h)

protected theorem Dev.partsWf.endHolds (h : d.partsWf) : (endHolds x d).partsWf := by
  unfold endHolds
  refine h.forEach fun _ _ k => ?_
  split
  · split
    · exact k.endHold
    · exact k
  · exact k

protected theorem Dev.partsWf.parkTiles (h : d.partsWf) : (parkTiles p d).partsWf :=
  h.withPart fun _ _ k _ => ((k.forEach fun _ _ l => l.modTile).modPart).releasePins

protected theorem Dev.partsWf.leaveRunning (h : d.partsWf) : (leaveRunning p d).partsWf := by
  unfold leaveRunning
  refine h.withPart fun x e k _ => ?_
  extract_lets ticks stopped parked
  have l : parked.partsWf := .ite k.endHolds.modPart k.endHolds.modPart.parkTiles
  exact .ite k (.ite l.eclipseAll.closeDigest l)

protected theorem Dev.partsWf.history (h : d.partsWf) : (history cls src cause part detail d).partsWf := .ite h.rest.raiseVec h.rest

protected theorem Dev.partsWf.driveFault (h : d.partsWf) : (driveFault d).partsWf := h.rest

protected theorem Dev.partsWf.haltParts (h : d.partsWf) : (haltParts part d).partsWf :=
  .ite (h.forEach fun _ _ k => k.leaveRunning) h.leaveRunning

protected theorem Dev.partsWf.sealModule (h : d.partsWf) : (sealModule d).partsWf :=
  (h.mapParts (fun x => { x with job := { x.job with st := .none_ } }) fun _ => rfl).rest

protected theorem Dev.partsWf.recordEvent (h : d.partsWf) : (recordEvent cls src cause part detail d).partsWf := by
  unfold recordEvent
  extract_lets entered raised data noted
  have k : raised.partsWf := .ite h.history.raiseVec h.history
  have l : noted.partsWf := .ite (.ite k.ephAll k.ephRec) k
  exact .ite l.driveFault l

protected theorem Dev.partsWf.enterEvent (h : d.partsWf) : (enterEvent cls src cause part detail d).partsWf :=
  .ite (.sealModule (.ite h.recordEvent.haltParts h.recordEvent)) (.ite h.recordEvent.haltParts h.recordEvent)

protected theorem Dev.partsWf.setEsc {e : Esc} (h : d.partsWf) : (setEsc src e d).partsWf := h.rest

protected theorem Dev.partsWf.raiseDegrade {u : Option (Nat × Nat × Nat)} (h : d.partsWf) :
    (raiseDegrade src cause part detail u d).partsWf :=
  .ite h.enterEvent.setEsc.enterEvent h.enterEvent.setEsc

protected theorem Dev.partsWf.raise (h : d.partsWf) : (raise cls src cause part detail d).partsWf := by
  unfold raise
  split
  · extract_lets _ _ noted u degraded queued
    have k : degraded.partsWf := h.enterEvent.setEsc.raiseDegrade
    have l : queued.partsWf := by
      unfold queued
      clear_value u
      split
      · exact k.addPending
      · exact k
    exact .ite (.ite l.lowerTide l) h.enterEvent.setEsc
  · exact h.raiseDegrade
  · exact h.enterEvent

end Sys2Proof.Machine
end

section
/-!
The numbers of the partitions under posting and answering commands.
-/

namespace Sys2Proof.Machine

open Sys2Proof

set_option Elab.async false

variable {d : Dev} {m st reason code : Nat} {pl : List Byte}

protected theorem Dev.partsWf.hostWr {a : Nat} {bs : List Byte} (h : d.partsWf) : (hostWr a bs d).partsWf :=
  h.rest

protected theorem Dev.partsWf.answer (h : d.partsWf) : (answer m st reason pl d).partsWf := by
  unfold answer
  exact h.modMbx.raiseVec

protected theorem Dev.partsWf.beginCmd (h : d.partsWf) : (beginCmd m d).partsWf := h.modMbx

protected theorem Dev.partsWf.command {f : List Byte → Dev → Dev} (h : d.partsWf) (keep : ∀ a b, b.partsWf → (f a b).partsWf) :
    (command code m f d).partsWf := by
  unfold command
  split
  · split
    · exact h.answer
    · exact .ite h.answer (keep _ _ h)
  · exact h

protected theorem Dev.partsWf.partCommand {f : Part → List Byte → Dev → Dev} (h : d.partsWf)
    (keep : ∀ a b c, c.partsWf → (f a b c).partsWf) : (partCommand code m f d).partsWf := by
  unfold partCommand
  refine h.command fun _ _ k => ?_
  split
  · exact keep _ _ _ k
  · exact k

protected theorem Dev.partsWf.answerBegun (h : d.partsWf) : (answerBegun code st reason pl d).partsWf :=
  h.forEach fun _ _ k => .ite k.answer k

protected theorem Dev.partsWf.post (h : d.partsWf) : (post m d).partsWf := by
  unfold post
  dsimp only
  split
  · exact h.modMbx
  · exact h.modMbx
  · exact .ite (h.modMbx).rest.answer (h.modMbx).rest

theorem execPost_keepsParts {m : Fin 64} : KeepsParts (execPost m) := keepsParts_on fun _ h => h.whenHost fun _ k => k.post

protected theorem Dev.partsWf.mpAccept (h : d.partsWf) : (mpAccept m d).partsWf := by
  unfold mpAccept
  dsimp only
  split
  · split
    · exact h.answer
    · exact .ite h.answer (h.modMbx)
  · exact h

theorem execMpAccept_keepsParts {m : Fin 64} : KeepsParts (execMpAccept m) := keepsParts_on fun _ h => h.mpAccept

protected theorem Dev.partsWf.auto (h : d.partsWf) : (auto m d).partsWf := .ite (h.whenDue fun _ k => k.answer) h

theorem execAuto_keepsParts {m : Fin 64} : KeepsParts (execAuto m) := keepsParts_on fun _ h => h.whenHw fun _ k => k.auto

protected theorem Dev.partsWf.shed (h : d.partsWf) : (shed d).partsWf :=
  .ite h.rest (h.rest.forEach fun _ _ k => .ite k.answer k).raiseVec

theorem execShed_keepsParts : KeepsParts execShed := keepsParts_on fun _ h => h.whenMp fun _ k => k.shed

protected theorem Dev.partsWf.shedClear (h : d.partsWf) : (shedClear d).partsWf := by
  unfold shedClear
  split
  · exact h.whenDue fun _ k => k.rest
  · exact h

theorem execShedClear_keepsParts : KeepsParts execShedClear := keepsParts_on fun _ h => h.whenMp fun _ k => k.shedClear

end Sys2Proof.Machine
end

section
/-!
The numbers of the partitions under the fault logic's commands, self-test and the crater map.
-/

namespace Sys2Proof.Machine

open Sys2Proof

set_option Elab.async false

variable {d : Dev} {m : Fin 64}

theorem execFaultEvent_keepsParts {cls : BitVec 2} {src : BitVec 12} {cause : BitVec 16} {part : BitVec 8} {detail : BitVec 64} :
    KeepsParts (execFaultEvent cls src cause part detail) :=
  keepsParts_on fun _ h => h.whenHw fun _ k => k.raise

theorem execPulseEnd_keepsParts : KeepsParts execPulseEnd := keepsParts_on fun _ h => by
  split
  · exact h.whenDue fun _ k => k.rest
  · exact h

theorem execWatchdog_keepsParts : KeepsParts execWatchdog := keepsParts_on fun _ h => h.whenAwake fun _ k => .ite k k.rest.raise

theorem execSeFail_keepsParts : KeepsParts execSeFail := keepsParts_on fun _ h => h.whenAwake fun _ k => k.rest.raise

theorem execAliveToggle_keepsParts : KeepsParts execAliveToggle :=
  keepsParts_on fun _ h => .ite h (h.whenDue fun _ k => .ite k.rest.rest k.rest.rest)

theorem execFaultHoldClear_keepsParts : KeepsParts (execFaultHoldClear m) :=
  keepsParts_on fun _ h => .ite h.answer (h.command fun _ _ k => .ite k.rest.answer k.answer)

theorem execEscalationSet_keepsParts : KeepsParts (execEscalationSet m) :=
  keepsParts_on fun _ h => h.command fun _ _ k => .ite k.answer ((k.forEach fun _ _ l => l.setEsc).answer)

protected theorem Dev.partsWf.writeSlot (h : d.partsWf) : (writeSlot d).partsWf := h.rest

protected theorem Dev.partsWf.reportFind {f : Findings} {groups : BitVec 8} (h : d.partsWf) : (reportFind f groups d).partsWf :=
  .ite (h.forEach fun _ _ k => k.raiseDegrade).raise (h.forEach fun _ _ k => k.raiseDegrade)

theorem execCraterRead_keepsParts : KeepsParts (execCraterRead m) :=
  keepsParts_on fun _ h => h.command fun _ _ k => .ite k.hostWr.answer k.answer

theorem execBistRun_keepsParts : KeepsParts (execBistRun m) :=
  keepsParts_on fun _ h => h.command fun _ _ k => .ite k.answer (.ite k.answer (.ite k.answer (.ite k.answer (.ite k.answer
    k.rest.beginCmd))))

theorem execBistRunEnd_keepsParts {find : Findings} : KeepsParts (execBistRunEnd find) :=
  keepsParts_on fun _ h => h.whenMp fun d k => by
    split
    · exact k
    · next r _ =>
      extract_lets reported _ _ _ _ _ _ _ _ marked _ _ written
      have l : reported.partsWf := k.reportFind
      refine .ite l.rest ?_
      have m : marked.partsWf := l.rest
      have n : written.partsWf := Dev.partsWf.settleStep (Dev.partsWf.writeSlot m.rest)
      exact .ite n.answer n

end Sys2Proof.Machine
end

section
/-!
The numbers of the partitions under power, temperature, the sideband and the host link.
-/

namespace Sys2Proof.Machine

open Sys2Proof

set_option Elab.async false

variable {d : Dev} {mv ca watts core : BitVec 16} {t : BitVec 40} {ok : BitVec 5} {f : Dev → Dev}

protected theorem Dev.partsWf.throttle (h : d.partsWf) : (throttle d).partsWf := .ite h.settleStep h

protected theorem Dev.partsWf.powerOver (h : d.partsWf) : (powerOver d).partsWf :=
  .ite h.rest (.ite h.rest (.ite (.ite h.rest h.rest.raise) h.rest.raise.throttle))

protected theorem Dev.partsWf.measured (h : d.partsWf) : (measured mv ca watts core d).partsWf :=
  .ite (.powerOver (.ite h.rest.rest.throttle h.rest)) (.rest (.ite h.rest.rest.throttle h.rest))

theorem execPowerMeasurement_keepsParts : KeepsParts (execPowerMeasurement mv ca watts core) :=
  keepsParts_on fun _ h => h.whenAwake fun _ k => k.whenDue fun _ l => l.measured

theorem execPowerCeilingRaise_keepsParts : KeepsParts execPowerCeilingRaise := keepsParts_on fun _ h => by
  refine h.whenMp fun _ k => ?_
  split
  · exact k
  · exact k.whenDue fun _ l => .ite l.rest l.rest.rest.throttle

theorem execInputRange_keepsParts {out : Bool} : KeepsParts (execInputRange out) :=
  keepsParts_on fun _ h => h.whenAwake fun _ k => .ite k.rest.raise.throttle k.rest.throttle

protected theorem Dev.partsWf.thermCheck {k : Nat} (h : d.partsWf) : (thermCheck k d).partsWf := by
  unfold thermCheck
  dsimp only
  split
  · exact h.raise
  · split
    · split
      · exact h.rest
      · exact .ite h h.rest.raise.throttle
    · exact h.rest

protected theorem Dev.partsWf.thermCool (h : d.partsWf) : (thermCool d).partsWf := by
  unfold thermCool
  split
  · split
    · exact h.rest
    · exact .ite h h.rest.throttle
  · exact h.rest

protected theorem Dev.partsWf.thermRead (h : d.partsWf) : (thermRead t ok d).partsWf :=
  .ite (h.rest.forEach fun _ _ k => k.thermCheck).throttle (h.rest.forEach fun _ _ k => k.thermCheck).throttle.thermCool

theorem execThermalRead_keepsParts : KeepsParts (execThermalRead t ok) :=
  keepsParts_on fun _ h => h.whenMp fun _ k => k.whenDue fun _ l => l.thermRead

theorem execSensorFail_keepsParts {s : Fin 5} : KeepsParts (execSensorFail s) :=
  keepsParts_on fun _ h => h.whenMp fun _ k => k.rest.raise.throttle

theorem execVcoreUv_keepsParts : KeepsParts execVcoreUv := keepsParts_on fun _ h => h.whenAwake fun _ k => k.raise

theorem execVcoreOv_keepsParts : KeepsParts execVcoreOv := keepsParts_on fun _ h => h.whenAwake fun _ k => k.raise

theorem execVcoreOcp_keepsParts : KeepsParts execVcoreOcp := keepsParts_on fun _ h => h.whenAwake fun _ k => k.raise

theorem execPhaseFail_keepsParts : KeepsParts execPhaseFail := keepsParts_on fun _ h => h.whenAwake fun _ k => k.rest.raise.throttle

protected theorem Dev.partsWf.respond {l : List Byte} (h : d.partsWf) : (respond l d).partsWf := h.rest

protected theorem Dev.partsWf.fromVendor (h : d.partsWf) : (fromVendor d).partsWf := h.rest

protected theorem Dev.partsWf.sideband (h : d.partsWf) (keep : ∀ a, a.partsWf → (f a).partsWf) : (sideband f d).partsWf :=
  .ite h.respond (.fromVendor (.ite h.respond (keep _ h)))

theorem execIdentRead_keepsParts : KeepsParts execIdentRead := keepsParts_on fun _ h => h.sideband fun _ k => k.respond

theorem execSensorRead_keepsParts : KeepsParts execSensorRead := keepsParts_on fun _ h => h.sideband fun _ k => k.respond

theorem execPowerLimit_keepsParts : KeepsParts (execPowerLimit watts) :=
  keepsParts_on fun _ h => h.sideband fun _ k => .ite k.respond k.rest.respond

theorem execFaultSummary_keepsParts : KeepsParts execFaultSummary := keepsParts_on fun _ h => h.sideband fun _ k => k.respond

theorem execQuiesce_keepsParts : KeepsParts execQuiesce :=
  keepsParts_on fun _ h => h.sideband fun _ k => (k.forEach fun _ _ l => l.leaveRunning).respond

protected theorem Dev.partsWf.mctp (h : d.partsWf) (keep : ∀ a, a.partsWf → (f a).partsWf) : (mctp f d).partsWf :=
  .ite (keep _ h) h.respond

theorem execSetEndpointId_keepsParts {eid : BitVec 8} : KeepsParts (execSetEndpointId eid) :=
  keepsParts_on fun _ h => h.mctp fun _ k => .ite k.respond k.rest.respond

theorem execGetEndpointId_keepsParts : KeepsParts execGetEndpointId := keepsParts_on fun _ h => h.mctp fun _ k => k.respond

theorem execGetMctpVersionSupport_keepsParts {ty : BitVec 8} : KeepsParts (execGetMctpVersionSupport ty) :=
  keepsParts_on fun _ h => h.mctp fun _ k => .ite k.respond k.respond

theorem execGetMessageTypeSupport_keepsParts : KeepsParts execGetMessageTypeSupport :=
  keepsParts_on fun _ h => h.mctp fun _ k => k.respond

theorem execSnoop_keepsParts : KeepsParts execSnoop := keepsParts_on fun _ h => h.whenAwake fun _ k => k.rest

theorem execBiasFlip_keepsParts : KeepsParts execBiasFlip := keepsParts_on fun _ h => h.whenAwake fun _ k => k.rest

theorem execHostLinkTrained_keepsParts {cxl : Bool} {width rate : BitVec 3} : KeepsParts (execHostLinkTrained cxl width rate) :=
  keepsParts_on fun _ h => h.whenAwake fun _ k => .ite k (.ite k.rest k.rest.raise.raiseVec)

theorem execPerstN_keepsParts : KeepsParts execPerstN := keepsParts_on fun _ h => .ite h h.rest

theorem execHeartbeatIncrement_keepsParts {busy : BitVec 10} : KeepsParts (execHeartbeatIncrement busy) :=
  keepsParts_on fun _ h => h.whenMp fun _ k => k.whenDue fun _ l => l.rest

theorem execBar0ErrRead_keepsParts {off : BitVec 26} {bytes : Nat} : KeepsParts (execBar0ErrRead off bytes) :=
  keepsParts_on fun _ h => .ite h h.rest

end Sys2Proof.Machine
end

section
/-!
The numbers of the partitions under the weight store and the installation commands.
-/

namespace Sys2Proof.Machine

open Sys2Proof

set_option Elab.async false

variable {d : Dev} {slot index n : Nat} {i : ImgSlot} {r : JrnRec} {m : Fin 64}

protected theorem Dev.partsWf.setImg (h : d.partsWf) : (setImg slot i d).partsWf := h.rest

protected theorem Dev.partsWf.writeJrnA (h : d.partsWf) : (writeJrnA r d).partsWf := h.rest

protected theorem Dev.partsWf.writeJrnB (h : d.partsWf) : (writeJrnB r d).partsWf := h.rest

protected theorem Dev.partsWf.journal {kind sblk : Nat} (h : d.partsWf) : (journal kind slot sblk index d).partsWf :=
  h.writeJrnA.writeJrnB

protected theorem Dev.partsWf.eraseBlock {b : Nat} (h : d.partsWf) : (eraseBlock b d).partsWf := h.rest

protected theorem Dev.partsWf.deleteImage (h : d.partsWf) : (deleteImage slot d).partsWf := by
  unfold deleteImage
  split
  · exact h
  · exact (h.journal.forEach fun _ _ k => k.eraseBlock.journal).rest

protected theorem Dev.partsWf.countSoft {cs : List Nat} (h : d.partsWf) : (countSoft cs d).partsWf :=
  .ite h (.ite h.rest h.rest.raise)

protected theorem Dev.partsWf.storeNote {a : Nat} (h : d.partsWf) : (storeNote a n d).partsWf := h.countSoft

protected theorem Dev.partsWf.imgNote {off : Nat} (h : d.partsWf) : (imgNote i off n d).partsWf :=
  h.forEach fun _ _ k => k.storeNote

theorem execInstallOpen_keepsParts : KeepsParts (execInstallOpen m) := keepsParts_on fun _ h => by
  refine h.command fun _ _ k => ?_
  dsimp only
  split
  · exact k.answer
  · split
    · exact k.answer
    · split
      · exact k.answer
      · split
        · exact k.rest.answer
        · split
          · exact k.answer
          · split
            · exact .answer (.ite k.rest k)
            · exact .answer (.rest (.forEach (.raise (.ite k.rest k)) fun _ _ l => l.ephRec))

protected theorem Dev.partsWf.installReady {m : Nat} {f : Dev → Dev} (h : d.partsWf) (keep : ∀ a, a.partsWf → (f a).partsWf) :
    (installReady m f d).partsWf :=
  .ite h.answer (keep _ h)

theorem execImageBegin_keepsParts : KeepsParts (execImageBegin m) := keepsParts_on fun _ h => by
  refine h.command fun _ _ k => k.installReady fun _ l => ?_
  dsimp only
  split
  · exact l.answer
  · split
    · exact .ite l.answer (.ite l.answer l.answer)
    · exact l.journal.setImg.answer

protected theorem Dev.partsWf.programBlock {bytes : List Byte} {fuel : Nat} (h : d.partsWf) :
    (programBlock slot index bytes fuel d).2.partsWf := by
  induction fuel generalizing d with
  | zero => exact h
  | succ n ih =>
    unfold programBlock
    split
    · exact h
    · refine .iteSnd (ih h.journal.journal.rest) ?_
      exact (h.journal.eraseBlock.rest).journal

theorem execBlockWrite_keepsParts : KeepsParts (execBlockWrite m) :=
  keepsParts_on fun _ h => h.command fun _ _ k => k.installReady fun e l => by
    dsimp only
    split
    · exact l.answer
    · refine .ite l.answer (.ite l.answer (.ite l.answer (.ite l.answer ?_)))
      split
      · next d programmed => exact (Dev.partsWf.of_eq l.programBlock programmed).answer
      · next d programmed => exact (Dev.partsWf.of_eq l.programBlock programmed).setImg.answer

protected theorem Dev.partsWf.shardNotes {man : ManInfo} {es : List (Nat × Shard)} (h : d.partsWf) : (shardNotes i man es d).partsWf :=
  h.forEach fun _ _ k => k.imgNote

theorem execImageCommit_keepsParts : KeepsParts (execImageCommit m) := keepsParts_on fun _ h => by
  refine h.command fun _ _ k => k.installReady fun _ l => ?_
  dsimp only
  split
  · exact l.answer
  · split
    · exact l.answer
    · split
      · exact l.answer
      · split
        · exact l.imgNote.answer
        · split
          · exact l.imgNote.shardNotes.answer
          · exact l.imgNote.shardNotes.journal.setImg.answer

theorem execImageDelete_keepsParts : KeepsParts (execImageDelete m) :=
  keepsParts_on fun _ h => h.command fun _ _ k => k.installReady fun _ l => .ite l.answer (.ite l.answer l.deleteImage.answer)

theorem execInstallClose_keepsParts : KeepsParts (execInstallClose m) :=
  keepsParts_on fun _ h => h.command fun _ _ k => k.installReady fun _ l => l.rest.answer

theorem execJournalReplay_keepsParts : KeepsParts execJournalReplay :=
  keepsParts_on fun _ h => h.whenAwake fun _ k => .ite k ((k.rest.forEach fun _ _ l => l.eraseBlock.journal).forEach fun _ _ l =>
    l.imgNote).rest

theorem execStoreReady_keepsParts : KeepsParts execStoreReady := keepsParts_on fun _ h => h.whenAwake fun _ k => .ite k.rest k

theorem execDirRead_keepsParts : KeepsParts (execDirRead m) :=
  keepsParts_on fun _ h => h.command fun _ _ k => .ite k.answer (.ite k.answer k.hostWr.answer)

end Sys2Proof.Machine
end

section
/-!
The numbers of the partitions under tokens, the life cycle, attestation and the test port.
-/

namespace Sys2Proof.Machine

open Sys2Proof

set_option Elab.async false

variable {d : Dev} {target : BitVec 3} {slot index : BitVec 8} {nonce : BitVec 256} {id : BitVec 32} {s : Fin 3}

protected theorem Dev.partsWf.eraseImages (h : d.partsWf) : (eraseImages d).partsWf :=
  .forEach (.ite h h.rest) fun _ _ k => k.deleteImage

protected theorem Dev.partsWf.lcErase (h : d.partsWf) : (lcErase target d).partsWf := by
  unfold lcErase
  dsimp only
  split
  · exact h.rest
  · exact h.rest.eraseImages
  · exact .ite h.rest.eraseImages h
  · exact h

protected theorem Dev.partsWf.lcMove (h : d.partsWf) : (lcMove target d).partsWf := h.rest.lcErase.rest

protected theorem Dev.partsWf.applyToken {host : Nat} {t : List Byte} (h : d.partsWf) : (applyToken host t d).partsWf := by
  unfold applyToken
  split
  · exact h.rest
  · exact h.rest
  · exact h.rest
  · exact h.rest.lcMove
  · exact h.lcMove
  · exact h.lcMove
  · exact h.lcMove
  · exact h.rest.lcMove
  · exact h

theorem execTokenApply_keepsParts {m : Fin 64} : KeepsParts (execTokenApply m) := keepsParts_on fun _ h => by
  refine h.command fun _ _ k => ?_
  dsimp only
  split
  · exact k.draw.rest.answer
  · split
    · exact k.answer
    · split
      · exact .answer (.ite k.rest k)
      · exact .answer (.ephAll (.raise (.applyToken (.ite k.rest k))))
  · exact k.answer

protected theorem Dev.partsWf.spdm {need : Nat} {f : Dev → Dev} (h : d.partsWf) (keep : ∀ a, a.partsWf → (f a).partsWf) :
    (spdm need f d).partsWf :=
  .ite h.respond (.ite h.respond (keep _ h))

theorem execGetVersion_keepsParts : KeepsParts execGetVersion := keepsParts_on fun _ h => .ite h.respond h.rest.respond

theorem execGetCapabilities_keepsParts : KeepsParts execGetCapabilities := keepsParts_on fun _ h => h.spdm fun _ k => k.rest.respond

theorem execNegotiateAlgorithms_keepsParts {asym hash : BitVec 32} {dhe aead : BitVec 16} :
    KeepsParts (execNegotiateAlgorithms asym hash dhe aead) :=
  keepsParts_on fun _ h => h.spdm fun _ k => .ite k.rest.respond k.respond

theorem execGetDigests_keepsParts : KeepsParts execGetDigests := keepsParts_on fun _ h => h.spdm fun _ k => k.respond

theorem execGetCertificate_keepsParts {off len : BitVec 16} : KeepsParts (execGetCertificate slot off len) :=
  keepsParts_on fun _ h => h.spdm fun _ k => .ite k.respond k.respond

protected theorem Dev.partsWf.signed {l : List Byte} {nonce : Nat} (h : d.partsWf) : (signed l nonce d).partsWf := h.rest.respond

theorem execChallenge_keepsParts : KeepsParts (execChallenge slot nonce) :=
  keepsParts_on fun _ h => h.spdm fun _ k => .ite k.respond k.rest.signed

theorem execGetMeasurements_keepsParts {sign : Bool} : KeepsParts (execGetMeasurements index sign nonce) :=
  keepsParts_on fun _ h => by
  refine h.spdm fun _ k => ?_
  dsimp only
  split
  · exact k.respond
  · exact .ite k.signed k.respond

theorem execKeyExchange_keepsParts {id : BitVec 16} {share : BitVec 768} : KeepsParts (execKeyExchange slot id share) :=
  keepsParts_on fun _ h => h.spdm fun _ k => .ite k.respond (.ite k.respond k.rest.rest.rest.signed)

protected theorem Dev.partsWf.inSession {f : Session → Dev → Dev} (h : d.partsWf) (keep : ∀ a b, b.partsWf → (f a b).partsWf) :
    (inSession id f d).partsWf := by
  unfold inSession
  refine h.spdm fun _ k => ?_
  split
  · exact keep _ _ k
  · exact k.respond

protected theorem Dev.partsWf.modSession {f : Session → Session} (h : d.partsWf) : (modSession id f d).partsWf := h.rest

protected theorem Dev.partsWf.dropSession (h : d.partsWf) : (dropSession id d).partsWf := h.rest

theorem execFinish_keepsParts {ok : Bool} : KeepsParts (execFinish id ok) :=
  keepsParts_on fun _ h => h.inSession fun _ _ k => .ite k.respond (.ite k.modSession.respond k.dropSession.respond)

theorem execKeyUpdate_keepsParts : KeepsParts (execKeyUpdate id) :=
  keepsParts_on fun _ h => h.inSession fun _ _ k => .ite k.modSession.respond k.respond

theorem execHeartbeat_keepsParts : KeepsParts (execHeartbeat id) := keepsParts_on fun _ h => h.inSession fun _ _ k => k.respond

theorem execEndSession_keepsParts : KeepsParts (execEndSession id) :=
  keepsParts_on fun _ h => h.inSession fun _ _ k => .ite k.dropSession.respond k.respond

theorem execIdeKeyManagement_keepsParts : KeepsParts (execIdeKeyManagement id s) :=
  keepsParts_on fun _ h => h.inSession fun _ _ k => .ite k.respond k.rest.respond

theorem execIdeIntegrity_keepsParts : KeepsParts (execIdeIntegrity s) :=
  keepsParts_on fun _ h => h.whenAwake fun _ k => .ite k k.rest.raise

theorem execDoeDiscovery_keepsParts : KeepsParts (execDoeDiscovery index) :=
  keepsParts_on fun _ h => .ite h.respond (.ite h.respond h.respond)

theorem execIeee11491Instruction_keepsParts {ins : JtagOp} : KeepsParts (execIeee11491Instruction ins) :=
  keepsParts_on fun _ h => .ite h h.rest

end Sys2Proof.Machine
end

section
/-!
The numbers of the partitions under resets and the start-up sequence.
-/

namespace Sys2Proof.Machine

open Sys2Proof

set_option Elab.async false

variable {d : Dev} {find : Findings}

protected theorem Dev.partsWf.keepStored (_ : d.partsWf) : (keepStored d).partsWf := .of_nil rfl

protected theorem Dev.partsWf.cutShort (h : d.partsWf) : (cutShort d).partsWf := .ite h (.ite h h.rest.rest)

protected theorem Dev.partsWf.moduleReset (_ : d.partsWf) : (moduleReset d).partsWf := .of_nil rfl

protected theorem Dev.partsWf.unpowered (h : d.partsWf) : (unpowered d).partsWf := h.cutShort.keepStored.rest

theorem execInputRise_keepsParts : KeepsParts execInputRise := keepsParts_on fun _ h => by
  split
  · exact h
  · refine .keepStored ?_
    split
    · exact h.advanceTo
    · exact h

theorem execInputFall_keepsParts : KeepsParts execInputFall := keepsParts_on fun _ h => .ite h.rest h

theorem execHoldUpEnd_keepsParts : KeepsParts execHoldUpEnd :=
  keepsParts_on fun _ h => .ite (h.whenDue fun _ k => k.rest.unpowered) h

theorem execOvervoltage_keepsParts : KeepsParts execOvervoltage := keepsParts_on fun _ h => .ite h.unpowered h

theorem execRailFail_keepsParts {k : Fin 8} : KeepsParts (execRailFail k) :=
  keepsParts_on fun _ h => .ite h (.ite h.rest h.rest.raise)

theorem execRstN_keepsParts {ns : Nat} : KeepsParts (execRstN ns) :=
  keepsParts_on fun _ h => .ite h.letPass (.ite h.letPass.moduleReset (.ite h.letPass.rest.moduleReset h.letPass.rest))

protected theorem Dev.partsWf.recoveryWait {reason : Nat} (h : d.partsWf) : (recoveryWait reason d).partsWf := h.rest

protected theorem Dev.partsWf.startImage {st : BitVec 3} {host : Bool} {img : List Byte} (h : d.partsWf) :
    (startImage st host img d).partsWf := by
  unfold startImage
  exact h.rest

protected theorem Dev.partsWf.stepEnded {n : Nat} (h : d.partsWf) : (stepEnded n d).partsWf := h.rest

protected theorem Dev.partsWf.startClocks (h : d.partsWf) : (startClocks find d).partsWf :=
  .stepEnded (.forEach (.ite h.rest.raise h.rest) fun _ _ k => k.raise)

protected theorem Dev.partsWf.trainChannels {marked : List Nat} (h : d.partsWf) : (trainChannels find marked d).partsWf :=
  (h.rest.forEach fun _ _ k => .ite k.raise k).stepEnded

protected theorem Dev.partsWf.mergeCrater (h : d.partsWf) : (mergeCrater find d).partsWf :=
  .stepEnded (.ite (.writeSlot (.rest (.ite h.raise h))) (.rest (.ite h.raise h)))

protected theorem Dev.partsWf.mpReady (h : d.partsWf) : (mpReady d).partsWf := h.rest.stepEnded.raiseVec

protected theorem Dev.partsWf.zeroSpads (h : d.partsWf) : (zeroSpads d).partsWf :=
  h.rest

protected theorem Dev.partsWf.startUp (h : d.partsWf) : (startUp find d).partsWf := by
  unfold startUp
  extract_lets clocked reported _ tested _ zeroed merged checked
  have k : reported.partsWf := h.startClocks.reportFind
  have l : tested.partsWf := k.stepEnded
  have m : merged.partsWf := l.zeroSpads.stepEnded.trainChannels.mergeCrater
  have n : checked.partsWf := .ite m m.raise
  exact .ite k.rest (.ite l.rest.raise n.mpReady)

theorem execInternalResetRelease_keepsParts : KeepsParts (execInternalResetRelease find) :=
  keepsParts_on fun _ h => by
    refine .ite h ?_
    extract_lets _ _ _ released moved
    have k : released.partsWf := h.advance.rest
    have l : moved.partsWf := by
      unfold moved
      split
      · exact k.lcMove
      · exact k
    refine .ite l.recoveryWait ?_
    split
    · exact l.recoveryWait
    · exact .ite l.recoveryWait l.startImage.startUp

protected theorem Dev.partsWf.writeGo (h : d.partsWf) : (writeGo d).partsWf := .ite h h.rest

protected theorem Dev.partsWf.recoveryGo (h : d.partsWf) : (recoveryGo find d).partsWf := by
  unfold recoveryGo
  dsimp only
  split
  · exact h.writeGo
  · split
    · exact h.writeGo.rest
    · split
      · exact h.writeGo.rest
      · exact .ite (.ite h.writeGo.rest h.writeGo.rest.startImage.startUp) h.writeGo.rest.startImage.startUp

theorem execRecoveryGo_keepsParts : KeepsParts (execRecoveryGo find) := keepsParts_on fun _ h => h.whenAwake fun _ k => k.recoveryGo

end Sys2Proof.Machine
end

section
/-!
The numbers of the partitions under tile steps, tides, references, PLLs and seam groups.
-/

namespace Sys2Proof.Machine

open Sys2Proof

set_option Elab.async false

variable {d : Dev} {ns m ps : Nat} {tgt : BitVec 3} {moon : Fin 45} {b v : Bool} {pll : Fin 12} {g : Fin 9}

protected theorem Dev.partsWf.clkEvent {bits : Nat} (h : d.partsWf) : (clkEvent bits d).partsWf := .ite h.rest.ephAll h.rest

protected theorem Dev.partsWf.resumeTiles {w : Nat} (h : d.partsWf) : (resumeTiles w d).partsWf := h.advanceTo.rest

protected theorem Dev.partsWf.goStep (h : d.partsWf) : (goStep tgt d).partsWf := .ite h.rest h.rest.startStep

theorem execGo_keepsParts : KeepsParts (execGo tgt) := keepsParts_on fun _ h => h.whenAwake fun _ k => k.goStep

protected theorem Dev.partsWf.stepSettled (h : d.partsWf) : (stepSettled d).partsWf := h.answerBegun.answerBegun

protected theorem Dev.partsWf.takeStep (h : d.partsWf) : (takeStep d).partsWf := h.rest

protected theorem Dev.partsWf.nextStep (h : d.partsWf) : (nextStep d).partsWf :=
  .ite h.rest.startStep (.ite h.rest.startStep h.rest.stepSettled)

protected theorem Dev.partsWf.stepChangeResume (h : d.partsWf) : (stepChangeResume ns d).partsWf :=
  .ite h (.nextStep (.ite h.resumeTiles.takeStep.ephAll h.resumeTiles.takeStep))

theorem execStepChangeResume_keepsParts : KeepsParts (execStepChangeResume ns) :=
  keepsParts_on fun _ h => h.whenAwake fun _ k => k.stepChangeResume

theorem execStepLimit_keepsParts {m : Fin 64} : KeepsParts (execStepLimit m) :=
  keepsParts_on fun _ h => h.command fun _ _ k => .ite k.answer (.ite (.beginCmd (.ite k.rest k.rest.startStep)) k.rest.answer)

protected theorem Dev.partsWf.drawBytes {n : Nat} (h : d.partsWf) : (drawBytes n d).2.partsWf := h.rest

protected theorem Dev.partsWf.freePipe {l : List PipeItem} (h : d.partsWf) : (freePipe l d).2.partsWf := by
  induction l generalizing d with
  | nil => exact h
  | cons i r ih =>
    have k : (drawBytes i.bytes.length d).2.partsWf := h.drawBytes
    exact ih k

protected theorem Dev.partsWf.freeTile {t : Nat} (h : d.partsWf) : (freeTile t d).partsWf :=
  h.freePipe.freePipe.freePipe.rest.setTile

protected theorem Dev.partsWf.freeWbuf {l : List WbEntry} (h : d.partsWf) : (freeWbuf l d).2.partsWf := by
  induction l generalizing d with
  | nil => exact h
  | cons w r ih =>
    have k : (drawBytes w.bytes.length d).2.partsWf := h.drawBytes
    exact ih k

protected theorem Dev.partsWf.droopUnstretched (h : d.partsWf) : (droopUnstretched m d).partsWf :=
  .ite (h.forEach fun _ _ k => k.freeTile) (.ite h.freeWbuf.modMm h)

protected theorem Dev.partsWf.droopSet (h : d.partsWf) : (droopSet m ps d).partsWf := h.modMoons

protected theorem Dev.partsWf.droop {mv : Nat} (h : d.partsWf) : (droop m mv ps d).partsWf :=
  .ite h (.ite h.freeTicks.droopSet h.droopUnstretched)

theorem execDroop_keepsParts {sag : Sag} : KeepsParts (execDroop moon sag) :=
  keepsParts_on fun _ h => h.whenAwake fun _ k => k.droop

protected theorem Dev.partsWf.tideExcursion (h : d.partsWf) : (tideExcursion m d).partsWf := h.modMoon.rest.raise

theorem execTideExcursion_keepsParts : KeepsParts (execTideExcursion moon) :=
  keepsParts_on fun _ h => h.whenAwake fun _ k => .ite k.freeTicks k.freeTicks.tideExcursion

theorem execTideCeilingRaise_keepsParts : KeepsParts execTideCeilingRaise :=
  keepsParts_on fun _ h => h.whenMp fun _ k => .ite k (k.whenDue fun _ l => l.rest.settleStep)

theorem execCouplingPause_keepsParts {moon : Fin 36} : KeepsParts (execCouplingPause moon ns) :=
  keepsParts_on fun _ h => h.whenAwake fun _ k => .ite k k.modMoon

protected theorem Dev.partsWf.setRefBad (h : d.partsWf) : (setRefBad b v d).partsWf := .ite h.rest.rest h.rest.rest

protected theorem Dev.partsWf.lockPlls (h : d.partsWf) : (lockPlls v d).partsWf := h.forEach fun _ _ k => k.modMoons

protected theorem Dev.partsWf.takeRef (h : d.partsWf) : (takeRef b d).partsWf := h.rest.lockPlls

protected theorem Dev.partsWf.selectRef (h : d.partsWf) : (selectRef v d).partsWf := .ite h.rest h.rest.takeRef.clkEvent

theorem execRefPref_keepsParts : KeepsParts (execRefPref v) := keepsParts_on fun _ h => h.whenAwake fun _ k => k.selectRef

protected theorem Dev.partsWf.setRefAuto (h : d.partsWf) : (setRefAuto v d).partsWf := .ite h.rest.takeRef.clkEvent h.rest

theorem execReferenceBad_keepsParts : KeepsParts (execReferenceBad b) :=
  keepsParts_on fun _ h => h.whenAwake fun _ k => by
    extract_lets bad
    have l : bad.partsWf := k.setRefBad.clkEvent
    exact .ite k (.ite l.rest.clkEvent.raise (.ite l (.ite l.takeRef.clkEvent.raise l.rest.clkEvent.raise)))

theorem execReferenceGood_keepsParts : KeepsParts (execReferenceGood b) :=
  keepsParts_on fun _ h => h.whenAwake fun _ k => .ite k <| k.whenDue fun _ l => by
    extract_lets good
    have m : good.partsWf := l.setRefBad
    exact .ite m.takeRef (.ite m.takeRef.clkEvent m)

theorem execHoldoverExpiry_keepsParts : KeepsParts execHoldoverExpiry := keepsParts_on fun _ h => by
  refine h.whenAwake fun _ k => ?_
  split
  · exact k
  · exact k.whenDue fun _ l => l.rest.lockPlls.clkEvent

protected theorem Dev.partsWf.enterRetrain {c : Nat} (h : d.partsWf) : (enterRetrain c d).partsWf := .ite h h.modChan.raise

protected theorem Dev.partsWf.alignGroups {l : List Nat} (h : d.partsWf) : (alignGroups l v d).partsWf :=
  h.forEach fun _ _ k => k.modMoons

theorem execPllLockLoss_keepsParts : KeepsParts (execPllLockLoss pll) :=
  keepsParts_on fun _ h => h.whenAwake fun _ k => .ite k (.raise (.clkEvent (.ite k.rest.modMoons.alignGroups k.rest.modMoons)))

protected theorem Dev.partsWf.pllRelock {p : Nat} (h : d.partsWf) : (pllRelock p d).partsWf := by
  unfold pllRelock
  refine .ite h ?_
  extract_lets at_
  split
  next v e drawn =>
  have k : e.partsWf := .of_eq h.draw drawn
  extract_lets _ locked w passed
  have l : locked.partsWf := k.rest.modMoons
  have m : passed.partsWf := .ite l.passTo l
  exact .ite l.resumeTiles.alignGroups.clkEvent (.ite (m.forEach fun _ _ n => n.enterRetrain) m)

theorem execPllRelock_keepsParts : KeepsParts (execPllRelock pll) := keepsParts_on fun _ h => h.whenAwake fun _ k => k.pllRelock

theorem execPllFail_keepsParts : KeepsParts (execPllFail pll) :=
  keepsParts_on fun _ h => h.whenAwake fun _ k => .ite (k.whenDue fun _ l => l.rest.raise) k

theorem execSeamPhaseError_keepsParts : KeepsParts (execSeamPhaseError g) :=
  keepsParts_on fun _ h => h.whenAwake fun _ k => .ite k k.rest.alignGroups

theorem execSeamRealign_keepsParts : KeepsParts (execSeamRealign g) :=
  keepsParts_on fun _ h => h.whenAwake fun _ k => .ite k k.rest.rest.resumeTiles.alignGroups.clkEvent.raise

theorem execSeamFail_keepsParts : KeepsParts (execSeamFail g) :=
  keepsParts_on fun _ h => h.whenAwake fun _ k => .ite k k.passTo.rest.raise

end Sys2Proof.Machine
end

section
/-!
The numbers of the partitions under what the ports of a partition have in common.
-/

namespace Sys2Proof.Machine

open Sys2Proof

set_option Elab.async false

variable {d : Dev} {x : Part} {pid p attempt : Nat} {kind : CometKind} {pkt : Packet}

protected theorem Dev.partsWf.enqueueComet {second : Bool} (h : d.partsWf) : (enqueueComet pid p kind pkt second d).partsWf :=
  .ite h.modPart h.modPort

protected theorem Dev.partsWf.sendComet {altFirst : Bool} (h : d.partsWf) : (sendComet pid kind altFirst pkt d).partsWf := by
  unfold sendComet
  refine h.withPart fun _ _ k own => ?_
  split
  · exact k.enqueueComet
  · exact (k.setPart own)

protected theorem Dev.partsWf.sendReceipts {dest orbit : Nat} {gone : Bool} {recs : List (List Byte)} (h : d.partsWf) :
    (sendReceipts pid dest orbit attempt gone recs d).partsWf :=
  h.withPart fun _ _ k _ => k.forEach fun _ _ l => l.sendComet.sendComet

protected theorem Dev.partsWf.askAgain {es : List Inbound} (h : d.partsWf) : (askAgain pid attempt es d).partsWf :=
  h.forEach fun _ _ k => k.sendReceipts

protected theorem Dev.partsWf.round2 (h : d.partsWf) : (round2 pid d).partsWf :=
  h.withPart fun _ _ k own => (k.setPart own).askAgain

protected theorem Dev.partsWf.abandon {f : Inbound → Bool} (h : d.partsWf) : (abandon pid f d).partsWf := by
  unfold abandon
  refine h.withPart fun _ _ k own => ?_
  dsimp only
  split
  · exact k
  · exact .ite (k.setPart own) (.ite (k.setPart own).raise.ephRec (k.setPart own).raise)

protected theorem Dev.partsWf.queueMark {m : MarkSet} (h : d.partsWf) : (queueMark x m d).partsWf :=
  h.forEach fun _ _ k => k.enqueueComet

theorem pid_putMark (m : MarkSet) (x : Part) : (putMark m x).pid = x.pid := ite_keeps Part.pid rfl

theorem pid_completeMark (m : MarkSet) (mt : BitVec 64) (x : Part) : (completeMark m mt x).pid = x.pid := pid_putMark ..

protected theorem Dev.partsWf.advanceMarks {orbit : BitVec 32} {fuel : Nat} (h : d.partsWf) :
    (advanceMarks pid orbit fuel d).partsWf := by
  induction fuel generalizing d with
  | zero => exact h
  | succ n ih =>
    unfold advanceMarks
    split
    · exact h
    · next x there =>
      have own : x.pid = pid := h.pid there
      split
      · exact h
      · refine .ite h (.ite (h.setPart own (pid_completeMark ..)) ?_)
        split
        · exact h
        · exact ih (h.setPart own (pid_putMark ..)).queueMark

protected theorem Dev.partsWf.jobIrq (h : d.partsWf) : (jobIrq pid d).partsWf := h.raiseVec

protected theorem Dev.partsWf.modSrv {f : Serving → Serving} (h : d.partsWf) : (modSrv pid f d).partsWf := h.modPart

protected theorem Dev.partsWf.modJob {f : Job → Job} (h : d.partsWf) : (modJob pid f d).partsWf := h.modPart

protected theorem Dev.partsWf.fabricLoses (h : d.partsWf) : (fabricLoses x p d).partsWf :=
  h.modPort.modPart.abandon.forEach fun _ _ k => k.advanceMarks

protected theorem Dev.partsWf.portLeft (h : d.partsWf) : (portLeft p d).partsWf := by
  unfold portLeft
  split
  · exact h
  · dsimp only
    split
    · exact .ite h.fabricLoses h
    · split
      · exact .modJob (.modJob (.ite h.fabricLoses h))
      · exact .jobIrq (.modJob (.modJob (.ite h.fabricLoses h)))
      · exact .modJob (.ite h.fabricLoses h)

protected theorem Dev.partsWf.movePort {st : PortSt} {f : Port → Port} (h : d.partsWf) : (movePort p st f d).partsWf :=
  .ite h.modPort.portLeft h.modPort

protected theorem Dev.partsWf.portDown {cause lane : Nat} (h : d.partsWf) : (portDown p cause lane d).partsWf := by
  unfold portDown
  exact h.movePort.raise

protected theorem Dev.partsWf.setDark (h : d.partsWf) : (setDark p d).partsWf := .ite h.modPort.movePort h.modPort

protected theorem Dev.partsWf.assignStripes (h : d.partsWf) : (assignStripes p d).partsWf := by
  unfold assignStripes
  dsimp only
  split
  · exact h
  · split
    · exact h.modPort
    · exact .ite h.modPort h.modPort
    · exact h.portDown

protected theorem Dev.partsWf.enterTraining (h : d.partsWf) : (enterTraining p d).partsWf :=
  .ite h.movePort.setDark h.movePort.assignStripes

protected theorem Dev.partsWf.clearDark (h : d.partsWf) : (clearDark p d).partsWf := .ite h.modPort.enterTraining h.modPort

protected theorem Dev.partsWf.writeJobId {v : BitVec 32} (h : d.partsWf) : (writeJobId p v d).partsWf :=
  .ite h.modPort h.modPort.enterTraining

protected theorem Dev.partsWf.failDiscovery {reason : Nat} (h : d.partsWf) : (failDiscovery pid reason d).partsWf :=
  h.withPart fun _ _ k own => ((k.setPart own).forEach fun _ _ l => l.setDark).jobIrq

protected theorem Dev.partsWf.allGood (h : d.partsWf) : (allGood pid d).partsWf :=
  h.withPart fun _ _ k own => .ite (k.setPart own).jobIrq k

protected theorem Dev.partsWf.discover (h : d.partsWf) : (discover p d).partsWf := by
  unfold discover
  split
  · exact h
  · dsimp only
    split
    · exact h
    · exact .ite h (.ite h.modJob.allGood h.modJob.failDiscovery)

protected theorem Dev.partsWf.settleUp (h : d.partsWf) : (settleUp p d).partsWf := .ite h.setDark h.discover

protected theorem Dev.partsWf.endMove (h : d.partsWf) : (endMove p d).partsWf := .ite h (.ite h.modPort.movePort.settleUp h.modPort)

protected theorem Dev.partsWf.portUp (h : d.partsWf) : (portUp p d).partsWf := .settleUp (.ite h.movePort.raise h.movePort)

end Sys2Proof.Machine
end

section
/-!
The numbers of the partitions under the sequencer and its commands.
-/

namespace Sys2Proof.Machine

open Sys2Proof

set_option Elab.async false

variable {d : Dev} {t : Tile} {x : Part} {no : Nat} {c : TileCmd} {tile : Fin 2304}

protected theorem Dev.partsWf.tileHalt {e : HaltEv} (h : d.partsWf) : (tileHalt no x e d).partsWf := h.modTile.raise

protected theorem Dev.partsWf.settleWork {w : Work} (h : d.partsWf) : (settleWork x w d).partsWf := by
  unfold settleWork
  dsimp only
  split
  · exact h.setTile
  · exact h.setTile.tileHalt

protected theorem Dev.partsWf.fireBreak (h : d.partsWf) : (fireBreak no x d).partsWf :=
  .ite h.modTile (h.modTile.forEach fun _ _ k => k.modTile).modPart

protected theorem Dev.partsWf.onTile {f : TileCmd → Tile → Tile} (h : d.partsWf) : (onTile f c x no d).partsWf := h.modTile

protected theorem Dev.partsWf.issueCmd {opc : Nat} {always : Bool} {bad : TileCmd → Tile → Bool} {eff : Effect} (h : d.partsWf)
    (keep : ∀ a b c e, e.partsWf → (eff a b c e).partsWf) : (issueCmd opc always bad eff no d).partsWf := by
  unfold issueCmd
  split
  · exact h
  · extract_lets t c skip badop brk passed done
    have k : passed.partsWf := h.setTile
    have l : done.partsWf := .ite k (keep _ _ _ _ k)
    exact .ite h (.ite h.tileHalt (.ite h (.ite l.fireBreak l)))

theorem execNop_keepsParts : KeepsParts (execNop tile) :=
  keepsParts_on fun _ h => h.whenAwake fun _ k => k.issueCmd fun _ _ _ _ l => l

protected theorem Dev.partsWf.illOpc (h : d.partsWf) : (illOpc no d).partsWf := by
  unfold illOpc
  split
  · exact h
  · exact .ite h (.ite h.tileHalt (.ite h h.tileHalt))

theorem execIllOpc_keepsParts : KeepsParts (execIllOpc tile) := keepsParts_on fun _ h => h.whenAwake fun _ k => k.illOpc

theorem execMatq_keepsParts : KeepsParts (execMatq tile) :=
  keepsParts_on fun _ h => h.whenAwake fun _ k => k.issueCmd fun _ _ _ _ l => l.modTile

theorem execVecq_keepsParts : KeepsParts (execVecq tile) :=
  keepsParts_on fun _ h => h.whenAwake fun _ k => k.issueCmd fun _ _ _ _ l => l.modTile

theorem execFunq_keepsParts : KeepsParts (execFunq tile) :=
  keepsParts_on fun _ h => h.whenAwake fun _ k => k.issueCmd fun _ _ _ _ l => l.modTile

theorem execCnt_keepsParts : KeepsParts (execCnt tile) :=
  keepsParts_on fun _ h => h.whenAwake fun _ k => k.issueCmd fun _ _ _ _ l => l.onTile

theorem execCmp_keepsParts : KeepsParts (execCmp tile) :=
  keepsParts_on fun _ h => h.whenAwake fun _ k => k.issueCmd fun _ _ _ _ l => l.onTile

theorem execSkip_keepsParts : KeepsParts (execSkip tile) :=
  keepsParts_on fun _ h => h.whenAwake fun _ k => k.issueCmd fun _ _ _ _ l => l.onTile

protected theorem Dev.partsWf.rept (h : d.partsWf) : (rept no d).partsWf :=
  h.issueCmd fun _ _ _ _ k => k.onTile

theorem execRept_keepsParts : KeepsParts (execRept tile) := keepsParts_on fun _ h => h.whenAwake fun _ k => k.rept

protected theorem Dev.partsWf.spldEffect (h : d.partsWf) : (spldEffect c x no d).partsWf := h.modTile

theorem execSpld_keepsParts : KeepsParts (execSpld tile) :=
  keepsParts_on fun _ h => h.whenAwake fun _ k => k.issueCmd fun _ _ _ _ l => l.spldEffect

protected theorem Dev.partsWf.markEffect (h : d.partsWf) : (markEffect c x no d).partsWf :=
  .ite h.modTile h.modTile

theorem execMark_keepsParts : KeepsParts (execMark tile) :=
  keepsParts_on fun _ h => h.whenAwake fun _ k => k.issueCmd fun _ _ _ _ l => l.markEffect

theorem execBrk_keepsParts : KeepsParts (execBrk tile) :=
  keepsParts_on fun _ h => h.whenAwake fun _ k => k.issueCmd fun _ _ _ _ l => .ite l.fireBreak l

theorem execSend_keepsParts : KeepsParts (execSend tile) :=
  keepsParts_on fun _ h => h.whenAwake fun _ k => k.issueCmd fun _ _ _ _ l => l.onTile

theorem execRecv_keepsParts : KeepsParts (execRecv tile) :=
  keepsParts_on fun _ h => h.whenAwake fun _ k => k.issueCmd fun _ _ _ _ l => l.onTile

protected theorem Dev.partsWf.waitEffect (h : d.partsWf) : (waitEffect c x no d).partsWf :=
  h.modTile

theorem execWait_keepsParts : KeepsParts (execWait tile) :=
  keepsParts_on fun _ h => h.whenAwake fun _ k => k.issueCmd fun _ _ _ _ l => l.waitEffect

protected theorem Dev.partsWf.countWait {w : WaitSt} {held : Bool} (h : d.partsWf) : (countWait no w held d).partsWf := h.modSlice

protected theorem Dev.partsWf.waitRelease (h : d.partsWf) : (waitRelease no d).partsWf := by
  unfold waitRelease
  split
  · extract_lets _ held
    have k : held.partsWf := h.setTile
    exact .ite h (.ite h.setTile.countWait (.ite h (.ite k.round2 k)))
  · exact h

theorem execWaitRelease_keepsParts : KeepsParts (execWaitRelease tile) :=
  keepsParts_on fun _ h => h.whenAwake fun _ k => k.waitRelease

protected theorem Dev.partsWf.holdEnd (h : d.partsWf) : (holdEnd no d).partsWf := by
  unfold holdEnd
  split
  · split
    · exact .ite h.endHold.countWait h
    · exact h
  · exact h

theorem execHoldEnd_keepsParts : KeepsParts (execHoldEnd tile) := keepsParts_on fun _ h => h.whenAwake fun _ k => k.holdEnd

protected theorem Dev.partsWf.holdLimitExpiry (h : d.partsWf) : (holdLimitExpiry no d).partsWf := by
  unfold holdLimitExpiry
  split
  · split
    · exact .ite h (h.whenDue fun _ k => (k.endHold.modTile).raise)
    · exact h
  · exact h

theorem execHoldLimitExpiry_keepsParts : KeepsParts (execHoldLimitExpiry tile) :=
  keepsParts_on fun _ h => h.whenAwake fun _ k => k.holdLimitExpiry

protected theorem Dev.partsWf.matqDrain (h : d.partsWf) : (matqDrain no d).partsWf := by
  unfold matqDrain
  split
  · exact h
  · exact .ite (h.settleWork) h

theorem execMatqDrain_keepsParts : KeepsParts (execMatqDrain tile) := keepsParts_on fun _ h => h.whenAwake fun _ k => k.matqDrain

protected theorem Dev.partsWf.breakPark {p : Nat} (h : d.partsWf) : (breakPark p d).partsWf := by
  unfold breakPark
  refine h.withPart fun _ _ k own => ?_
  split
  · exact .ite k ((k.forEach fun _ _ l => l.modTile).setPart own)
  · exact k

theorem execBreakPark_keepsParts {part : Fin 16} : KeepsParts (execBreakPark part) :=
  keepsParts_on fun _ h => h.whenAwake fun _ k => k.breakPark

end Sys2Proof.Machine
end

section
/-!
The numbers of the partitions under the memory path of a tile.
-/

namespace Sys2Proof.Machine

open Sys2Proof

set_option Elab.async false

variable {d : Dev} {t : Tile} {x : Part} {q r no idx : Nat} {ps : List Piece} {c : TileCmd} {tile : Fin 2304} {corrected : Bool}

protected theorem Dev.partsWf.setFence {s : Nat} (h : d.partsWf) : (setFence q s d).partsWf := h.modMm

protected theorem Dev.partsWf.markFenced (h : d.partsWf) : (markFenced x r d).partsWf := h.modPart

protected theorem Dev.partsWf.detectFence {tile cause page pieces : Nat} (h : d.partsWf) :
    (detectFence q tile x r cause page pieces d).partsWf := by
  unfold detectFence
  extract_lets s fenced counted rung _ flagged marked
  have k : rung.partsWf := h.setFence.modMm.forEach fun _ _ k => k.modMm
  have entry : (setCpt page (setBit (cptE rung page) 7 true) rung).partsWf := k.setCpt
  have l : flagged.partsWf := .ite entry.rest k
  have m : marked.partsWf := l.markFenced
  exact .ite m.ephRec m

protected theorem Dev.partsWf.fenceReceive (h : d.partsWf) : (fenceReceive q d).partsWf := by
  unfold fenceReceive
  split
  · exact h
  · exact h.modMm.setFence

theorem execFenceReceive_keepsParts {q : Fin 4} : KeepsParts (execFenceReceive q) :=
  keepsParts_on fun _ h => h.whenAwake fun _ k => k.fenceReceive

protected theorem Dev.partsWf.reqOverflow (h : d.partsWf) : (reqOverflow no idx x d).partsWf := h.modMm.raise

protected theorem Dev.partsWf.noteWaiting (h : d.partsWf) : (noteWaiting ps d).partsWf := h.forEach fun _ _ k => k.modChan

protected theorem Dev.partsWf.takeEntry {r : MemReq} (h : d.partsWf) : (takeEntry no r d).partsWf :=
  .modMm (.ite h.modTile h.modTile.noteWaiting)

protected theorem Dev.partsWf.moveEffect {store : Bool} (h : d.partsWf) : (moveEffect store c x no d).partsWf := by
  unfold moveEffect
  extract_lets _ _ _ _ _ noted
  have k : noted.partsWf := .ite h.modTile h
  split
  · exact h.modTile
  · exact .ite h.reqOverflow h.raise
  · refine .ite (.ite h.modTile h) (.ite h.reqOverflow ?_)
    extract_lets _ taken
    have l : taken.partsWf := k.takeEntry
    split
    · exact l.detectFence
    · exact .ite l l.modMm
    · exact l

theorem execLoad_keepsParts : KeepsParts (execLoad tile) :=
  keepsParts_on fun _ h => h.whenAwake fun _ k => k.issueCmd fun _ _ _ _ l => l.moveEffect

theorem execStore_keepsParts : KeepsParts (execStore tile) :=
  keepsParts_on fun _ h => h.whenAwake fun _ k => k.issueCmd fun _ _ _ _ l => l.moveEffect

protected theorem Dev.partsWf.countMove {write : Bool} (h : d.partsWf) : (countMove q write ps d).partsWf := by
  unfold countMove
  refine h.forEach fun _ _ k => ?_
  split
  · exact .ite k.modChan k.modChan.modMm
  · exact k

protected theorem Dev.partsWf.fenceReq {r : MemReq} (h : d.partsWf) : (fenceReq x no r d).2.partsWf :=
  .iteSnd h h.modTile.modMm

protected theorem Dev.partsWf.passRetries {tries : Tab Nat} (h : d.partsWf) : (passRetries tries d).partsWf :=
  h.forEach fun _ _ k => k.modChan

protected theorem Dev.partsWf.deliver (h : d.partsWf) : (deliver no q d).partsWf := by
  unfold deliver
  split
  · exact h
  · split
    · exact h
    · refine .ite h.fenceReq (.passRetries (.countMove ?_))
      exact h.fenceReq.setTile

theorem execMemoryDelivery_keepsParts {q : Fin 4} : KeepsParts (execMemoryDelivery tile q) :=
  keepsParts_on fun _ h => h.whenAwake fun _ k => k.deliver

protected theorem Dev.partsWf.tieredRead (h : d.partsWf) : (tieredRead no q corrected d).partsWf := by
  unfold tieredRead
  split
  · exact h
  · split
    · exact h
    · dsimp only
      split
      · exact h
      · split
        · exact .storeNote (.modTile (.ite h.countSoft h))
        · split
          · exact h.modTile.detectFence
          · exact h.raise
          · exact h.raise

theorem execTieredRead_keepsParts {q : Fin 4} : KeepsParts (execTieredRead tile q corrected) :=
  keepsParts_on fun _ h => h.whenAwake fun _ k => k.tieredRead

protected theorem Dev.partsWf.bufferStore {req : Nat} {bytes : List Byte} {bad : Bool} (h : d.partsWf) :
    (bufferStore no x req bytes bad d).2.partsWf := by
  unfold bufferStore
  split
  · exact h
  · dsimp only
    split
    · exact h.fenceReq.modTile
    · split
      · exact h.fenceReq.modTile
      · exact (h.fenceReq.modTile).modMm.noteWaiting

protected theorem Dev.partsWf.storeWrite (h : d.partsWf) : (storeWrite q idx d).partsWf := by
  unfold storeWrite
  dsimp only
  split
  · exact h
  · refine .ite h (.releasePins (.ite h.modMm.raise (.passRetries (.countMove ?_))))
    exact h.modMm.rest

theorem execStoreWrite_keepsParts {q : Fin 4} : KeepsParts (execStoreWrite q idx) :=
  keepsParts_on fun _ h => h.whenAwake fun _ k => k.storeWrite

end Sys2Proof.Machine
end

section
/-!
The numbers of the partitions under the tick, tile by tile, and the tick a module takes while no command waits.
-/

namespace Sys2Proof.Machine

open Sys2Proof

set_option Elab.async false

variable {d : Dev} {t : Tile} {w : Work} {x : Part} {no now pid : Nat} {i : MeshIn}

protected theorem Dev.partsWf.addInput (h : d.partsWf) : (addInput no i d).partsWf := h.modTile

protected theorem Dev.partsWf.addArrival (h : d.partsWf) : (addArrival no i d).partsWf := h.modTile

protected theorem Dev.partsWf.routeTile (h : d.partsWf) : (routeTile x no d).partsWf := by
  unfold routeTile
  extract_lets now t due _ taken pick
  have k : taken.partsWf := h.setTile
  split
  · exact k
  · extract_lets sent kept n
    have l : sent.partsWf := k.forEach fun o e l => by
      split
      · exact l.addInput
      · exact l
    have j : kept.partsWf := by
      dsimp only [kept]
      split
      · exact .ite l.addArrival l
      · exact l
    exact .ite j j.modSlice

protected theorem Dev.partsWf.peekTile {next tick : Nat} (h : d.partsWf) : (peekTile next tick no d).partsWf := by
  unfold peekTile
  dsimp only
  split
  · exact h
  · split
    · exact h.addArrival
    · exact h

protected theorem Dev.partsWf.meshPush {w : MeshWord} (h : d.partsWf) : (meshPush no x w d).partsWf := by
  unfold meshPush
  extract_lets t sl bad counted
  have k : counted.partsWf := .ite h.modSlice h
  have overflown : (modTile no (setSeqMesh sqOvf) d).partsWf := h.modTile
  exact .ite h.modTile.modSlice.raise <| .ite h.modSlice <| .ite overflown <|
    .ite k.modTile (.ite h.tileHalt overflown)

protected theorem Dev.partsWf.meshArrival (h : d.partsWf) : (meshArrival no d).partsWf := by
  unfold meshArrival
  split
  · exact h
  · dsimp only
    split
    · exact h
    · exact .ite h h.setTile.meshPush

theorem execMeshArrival_keepsParts {tile : Fin 2304} : KeepsParts (execMeshArrival tile) :=
  keepsParts_on fun _ h => h.whenAwake fun _ k => k.meshArrival

protected theorem Dev.partsWf.tickTile {a : List TickHalt × Dev} (h : a.2.partsWf) : (tickTile x no a).2.partsWf := by
  unfold tickTile
  split
  next o w ticked =>
  extract_lets put sent
  have k : put.partsWf := h.setTile
  have l : sent.partsWf := k.forEach fun _ _ l => l.modPort
  split
  next ok e stored =>
  refine Dev.partsWf.of_eq ?_ stored
  split
  · exact l.bufferStore
  · exact l

protected theorem Dev.partsWf.raiseHalt {v : TickHalt} (h : d.partsWf) : (raiseHalt x v d).partsWf := by
  unfold raiseHalt
  split
  · exact h.tileHalt
  · exact h.raise

protected theorem Dev.partsWf.stallTick (h : d.partsWf) : (stallTick x d).partsWf := by
  unfold stallTick
  refine h.forEach fun _ _ k => ?_
  split
  · exact .ite k k.modPort
  · exact k

protected theorem Dev.partsWf.endTick (h : d.partsWf) : (endTick pid d).partsWf :=
  h.withPart fun _ _ k _ => .ite k.modPart.parkTiles k.modPart

protected theorem Dev.partsWf.partTick (h : d.partsWf) : (partTick x d).partsWf :=
  .endTick (.forEach (.forEach (.forEach (.foldlSnd h fun _ _ k => k.tickTile) fun _ _ k => k.routeTile) fun _ _ k => k.peekTile)
    fun _ _ k => k.raiseHalt)

protected theorem Dev.partsWf.finishStop (h : d.partsWf) : (finishStop pid d).partsWf := h.withPart fun _ _ k _ => .ite k.partTick k

protected theorem Dev.partsWf.moonsTick (h : d.partsWf) : (moonsTick d).partsWf := .ite h.beginTick.freeTicks h.advance

protected theorem Dev.partsWf.latticeTick (h : d.partsWf) : (latticeTick d).partsWf :=
  ((h.forEach fun _ _ k => k.partTick).forEach fun _ _ k => k.stallTick).moonsTick

protected theorem Dev.partsWf.pausedTick (h : d.partsWf) : (pausedTick d).partsWf := (h.forEach fun _ _ k => k.partTick).letPass

protected theorem Dev.partsWf.idle (h : d.partsWf) : (idle d).partsWf := by
  unfold idle
  extract_lets moved
  have k : moved.partsWf := h.forEach fun _ _ l => l.endMove
  exact .ite h (.ite k.pausedTick (.ite k k.latticeTick))

end Sys2Proof.Machine
end

section
/-!
The numbers of the partitions under level reports.
-/

namespace Sys2Proof.Machine

open Sys2Proof

set_option Elab.async false

protected theorem Dev.partsWf.formLevel {pid : Nat} {d : Dev} (h : d.partsWf) : (formLevel pid d).partsWf :=
  h.withPart fun _ _ k own => k.setPart own

theorem execLevelReport_keepsParts {m : Fin 64} : KeepsParts (execLevelReport m) :=
  keepsParts_on fun _ h => h.partCommand fun _ _ _ k => k.answer

end Sys2Proof.Machine
end

section
/-!
The numbers of the partitions under DMA channels.
-/

namespace Sys2Proof.Machine

open Sys2Proof

set_option Elab.async false

variable {d : Dev} {c status ch n : Nat} {v : Bool} {x : DmaXfer}

protected theorem Dev.partsWf.dmaIrq {f : Dma → Dma} (h : d.partsWf) : (dmaIrq c f d).partsWf := h.modDma.raiseVec

protected theorem Dev.partsWf.dmaEn (h : d.partsWf) : (dmaEn c v d).partsWf := .ite (.ite h (.ite h.modDma h.modDma)) h.modDma

theorem execDmaEn_keepsParts {c : Fin 32} : KeepsParts (execDmaEn c v) := keepsParts_on fun _ h => h.whenBell fun _ k => k.dmaEn

protected theorem Dev.partsWf.dmaAbort (h : d.partsWf) : (dmaAbort c d).partsWf := .ite h (.ite h.modDma h.dmaIrq)

theorem execAbort_keepsParts {c : Fin 32} : KeepsParts (execAbort c) := keepsParts_on fun _ h => h.whenBell fun _ k => k.dmaAbort

protected theorem Dev.partsWf.dmaResume (h : d.partsWf) : (dmaResume c d).partsWf := h.modDma

theorem execResume_keepsParts {c : Fin 32} : KeepsParts (execResume c) := keepsParts_on fun _ h => h.whenBell fun _ k => k.dmaResume

protected theorem Dev.partsWf.dmaTail {v : BitVec 16} (h : d.partsWf) : (dmaTail c v d).partsWf := h.modDma

theorem execTail_keepsParts {c : Fin 32} {v : BitVec 16} : KeepsParts (execTail c v) :=
  keepsParts_on fun _ h => h.whenBell fun _ k => k.dmaTail

protected theorem Dev.partsWf.unlockPage (h : d.partsWf) : (unlockPage x d).partsWf := by
  unfold unlockPage
  split
  · exact h.setCpt
  · exact h

protected theorem Dev.partsWf.endXfer (h : d.partsWf) : (endXfer c status d).partsWf := by
  unfold endXfer
  split
  · exact h
  · exact .modDma (.ite h.unlockPage.setCpt h.unlockPage)

protected theorem Dev.partsWf.enterPage (h : d.partsWf) : (enterPage c d).partsWf := by
  unfold enterPage
  split
  · exact .ite h.endXfer (.ite h.endXfer (.ite h.endXfer (.ite h.modDma (.ite h.endXfer (.ite h.endXfer h.setCpt.modDma)))))
  · exact h.endXfer
  · exact h

protected theorem Dev.partsWf.lockWaitEnd (h : d.partsWf) : (lockWaitEnd c d).partsWf := by
  unfold lockWaitEnd
  dsimp only
  split
  · exact .ite h h.modDma.enterPage
  · exact h

theorem execLockWaitEnd_keepsParts {c : Fin 32} : KeepsParts (execLockWaitEnd c) :=
  keepsParts_on fun _ h => h.whenAwake fun _ k => k.lockWaitEnd

protected theorem Dev.partsWf.readFails (h : d.partsWf) : (readFails c status d).partsWf := h.dmaIrq

protected theorem Dev.partsWf.descriptorRead (h : d.partsWf) : (descriptorRead c d).partsWf :=
  .ite h (.ite h.readFails (.ite h.readFails (.ite h.modDma (.ite h.modDma.endXfer h.modDma.enterPage))))

theorem execDescriptorRead_keepsParts {c : Fin 32} : KeepsParts (execDescriptorRead c) :=
  keepsParts_on fun _ h => h.whenAwake fun _ k => k.descriptorRead

theorem execDescriptorReadFail_keepsParts {c : Fin 32} : KeepsParts (execDescriptorReadFail c) :=
  keepsParts_on fun _ h => h.whenAwake fun _ k => .ite k k.rest.readFails

protected theorem Dev.partsWf.countOther (h : d.partsWf) : (countOther ch n d).partsWf := h.modChan.modMm

protected theorem Dev.partsWf.passOther (h : d.partsWf) : (passOther ch d).partsWf := h.passRetries.modChan

protected theorem Dev.partsWf.countBurst {mem : Option (Nat × Nat)} (h : d.partsWf) : (countBurst c n mem d).partsWf := by
  unfold countBurst
  dsimp only
  split
  · exact h.modDma.countOther
  · exact h.modDma

protected theorem Dev.partsWf.leavePage (h : d.partsWf) : (leavePage c x d).partsWf := by
  unfold leavePage
  split
  · exact h
  · exact .modDma (.ite h.unlockPage.setCpt h.unlockPage)

protected theorem Dev.partsWf.burst (h : d.partsWf) : (burst c d).partsWf := by
  unfold burst
  extract_lets k
  split
  · exact h
  · split
    · exact h
    · refine .ite h ?_
      extract_lets n host entry addr data moved
      refine .ite h.endXfer (.ite h (.ite h.endXfer ?_))
      clear_value data
      split
      · exact h.endXfer
      · extract_lets written noted counted
        have w : written.partsWf := .ite h.hostWr (h.rest)
        have l : noted.partsWf := .ite w.storeNote w.passRetries
        have m : counted.partsWf := l.modDma.countBurst
        exact .ite m.leavePage.endXfer (.ite m.leavePage.enterPage m)

theorem execBurst_keepsParts {c : Fin 32} : KeepsParts (execBurst c) := keepsParts_on fun _ h => h.whenAwake fun _ k => k.burst

theorem execHostCompletionTimeout_keepsParts {c : Fin 32} : KeepsParts (execHostCompletionTimeout c) := keepsParts_on fun _ h => by
  refine h.whenAwake fun _ k => ?_
  split
  · exact .ite k k.endXfer
  · exact k

protected theorem Dev.partsWf.writeBack (h : d.partsWf) : (writeBack c status x d).partsWf := by
  unfold writeBack
  extract_lets _ _ written ended
  have k : ended.partsWf := .modDma (.ite h.hostWr h)
  exact .ite (.ite k.dmaIrq k) (.ite k k.dmaIrq)

protected theorem Dev.partsWf.dmaWriteBack (h : d.partsWf) : (dmaWriteBack c d).partsWf := by
  unfold dmaWriteBack
  dsimp only
  split
  · split
    · exact .ite h (.ite h.writeBack.modDma h.writeBack)
    · exact h
  · exact h

theorem execWriteBack_keepsParts {c : Fin 32} : KeepsParts (execWriteBack c) :=
  keepsParts_on fun _ h => h.whenAwake fun _ k => k.dmaWriteBack

protected theorem Dev.partsWf.abortWriteBack (h : d.partsWf) : (abortWriteBack c d).partsWf := by
  unfold abortWriteBack
  dsimp only
  split
  · exact h
  · split
    · exact h
    · split
      · exact .ite h h.endXfer
      · exact .dmaIrq (.writeBack (.ite h h.endXfer))

theorem execAbortWriteBack_keepsParts {c : Fin 32} : KeepsParts (execAbortWriteBack c) :=
  keepsParts_on fun _ h => h.whenAwake fun _ k => k.abortWriteBack

end Sys2Proof.Machine
end

section
/-!
The numbers of the partitions under the GDDR7 channels, the page commands and the CXL.mem window.
-/

namespace Sys2Proof.Machine

open Sys2Proof

set_option Elab.async false

variable {d : Dev} {x : Part} {c p i flags n len : Nat} {ch : Fin 48} {who : Reader} {granule : BitVec 11} {m : Fin 64} {off :
  BitVec 36} {bytes : List Byte}

theorem execRefresh_keepsParts {ns : Nat} : KeepsParts (execRefresh ch ns) :=
  keepsParts_on fun _ h => h.whenAwake fun _ k => .ite k.modChan k

protected theorem Dev.partsWf.startRetrain (h : d.partsWf) : (startRetrain c d).partsWf := h.whenDue fun _ k => k.enterRetrain

protected theorem Dev.partsWf.routineRetrain (h : d.partsWf) : (routineRetrain c d).partsWf :=
  .ite h (.ite (.ite h h.startRetrain) (h.whenDue fun _ k => .ite k.modChan k.startRetrain))

theorem execRoutineRetraining_keepsParts : KeepsParts (execRoutineRetraining ch) :=
  keepsParts_on fun _ h => h.whenAwake fun _ k => k.routineRetrain

theorem execRetrainingDeferralExpiry_keepsParts : KeepsParts (execRetrainingDeferralExpiry ch) :=
  keepsParts_on fun _ h => h.whenAwake fun _ k => .ite (k.whenDue fun _ l => l.startRetrain) k

theorem execCrcRetraining_keepsParts : KeepsParts (execCrcRetraining ch) :=
  keepsParts_on fun _ h => h.whenAwake fun _ k => .ite k.enterRetrain k

protected theorem Dev.partsWf.trainingPass (h : d.partsWf) : (trainingPass c d).partsWf := .ite h h.modChan

theorem execTrainingPass_keepsParts : KeepsParts (execTrainingPass ch) :=
  keepsParts_on fun _ h => h.whenAwake fun _ k => k.trainingPass

protected theorem Dev.partsWf.chanDown (h : d.partsWf) : (chanDown c d).partsWf := by
  have k : Dev.partsWf { d with gddr := d.gddr.filter (fun e => chanOf e.1 ≠ c) } := h.rest
  unfold chanDown
  dsimp only
  split
  · exact k.rest.raise
  · exact k.rest.recordEvent

theorem execTrainingFail_keepsParts : KeepsParts (execTrainingFail ch) :=
  keepsParts_on fun _ h => h.whenAwake fun _ k => .ite k (.ite k.modChan k.chanDown)

protected theorem Dev.partsWf.tryAgain (h : d.partsWf) : (tryAgain c who d).partsWf := by
  unfold tryAgain
  dsimp only
  split
  · split
    · exact h.modChan.modTile
    · exact h.modChan
  · exact h.modChan.modDma
  · exact h.modChan.modMm
  · exact h.modChan.modChan

protected theorem Dev.partsWf.dropAccess (h : d.partsWf) : (dropAccess who d).partsWf := by
  unfold dropAccess
  split
  · exact h.modTile
  · split
    · exact h.setCpt.endXfer
    · exact h
  · exact h.modMm
  · exact h

protected theorem Dev.partsWf.readFail (h : d.partsWf) : (readFail c who granule d).partsWf := by
  unfold readFail
  split
  next v e drawn =>
  have k : e.partsWf := .of_eq h.draw drawn
  dsimp only
  split
  · exact k.modChan.dropAccess.raise.releasePins
  · exact k.modChan.dropAccess.recordEvent

protected theorem Dev.partsWf.readCrcFail {uncorr : Bool} (h : d.partsWf) : (readCrcFail c who granule uncorr d).partsWf :=
  .ite h (.ite h.tryAgain h.readFail)

theorem execReadCrcFail_keepsParts {err : ReadErr} : KeepsParts (execReadCrcFail ch who err) :=
  keepsParts_on fun _ h => h.whenAwake fun _ k => k.readCrcFail

theorem execEccRead_keepsParts {count : Nat} : KeepsParts (execEccRead ch count) :=
  keepsParts_on fun _ h => h.whenAwake fun _ k => k.whenDue fun _ l => .ite l.modChan l.modChan.raise

theorem execDeviceTemperatureRead_keepsParts {temp : BitVec 8} : KeepsParts (execDeviceTemperatureRead ch temp) :=
  keepsParts_on fun _ h => h.whenAwake fun _ k => k.whenDue fun _ l => l.modChan

protected theorem Dev.partsWf.mapPage {unit : Nat} (h : d.partsWf) : (mapPage p i flags unit d).2.2.partsWf := by
  unfold mapPage
  dsimp only
  split
  · exact h
  · split
    · exact h
    · split
      · exact h.rest
      · split
        · exact h
        · split
          · split
            · exact h.rest
            · exact h
          · split
            · exact h
            · next f _ =>
              have k : Dev.partsWf { d with gddr := zeroBs d.gddr (f * 65536) 65536 } := h.rest
              exact k.rest

protected theorem Dev.partsWf.mapPages {u : Nat} {l : List Nat} (h : d.partsWf) : (mapPages p flags n i u l d).2.2.partsWf := by
  induction n generalizing i u l d with
  | zero => exact h
  | succ n ih =>
    unfold mapPages
    dsimp only
    split
    · exact ih h.mapPage
    · exact h.mapPage

theorem execPageMap_keepsParts : KeepsParts (execPageMap m) :=
  keepsParts_on fun _ h => h.partCommand fun _ _ _ k => .ite k.answer k.mapPages.answer

protected theorem Dev.partsWf.unmapPage (h : d.partsWf) : (unmapPage x i d).2.partsWf :=
  .iteSnd h (.iteSnd h (.iteSnd h h.setCpt.rest))

protected theorem Dev.partsWf.unmapPages {k : Nat} (h : d.partsWf) : (unmapPages x n i k d).2.2.partsWf := by
  induction n generalizing i k d with
  | zero => exact h
  | succ n ih =>
    unfold unmapPages
    dsimp only
    split
    · exact ih h.unmapPage
    · exact h.unmapPage

theorem execPageUnmap_keepsParts : KeepsParts (execPageUnmap m) :=
  keepsParts_on fun _ h => h.partCommand fun _ _ _ k => .ite k.answer k.unmapPages.answer

theorem execPageRead_keepsParts : KeepsParts (execPageRead m) :=
  keepsParts_on fun _ h => h.partCommand fun _ _ _ k => .ite k.answer (.ite k.answer k.answer)

protected theorem Dev.partsWf.poisonRead (h : d.partsWf) : (poisonRead d).partsWf := h.rest

protected theorem Dev.partsWf.windowRead (h : d.partsWf) : (windowRead off len d).partsWf :=
  .ite h (.ite h.poisonRead (.ite h h.rest.countOther.passOther))

theorem execWindowRead_keepsParts : KeepsParts (execWindowRead off len) := keepsParts_on fun _ h => h.windowRead

protected theorem Dev.partsWf.windowWrite (h : d.partsWf) : (windowWrite off bytes d).partsWf := by
  refine .ite h (.ite h.rest (.passOther (.countOther ?_)))
  exact h.rest

theorem execWindowWrite_keepsParts : KeepsParts (execWindowWrite off bytes) := keepsParts_on fun _ h => h.windowWrite

theorem execWindowTimeout_keepsParts : KeepsParts (execWindowTimeout off len) :=
  keepsParts_on fun _ h => .ite h.letPass.poisonRead h

end Sys2Proof.Machine
end

section
/-!
The numbers of the partitions under the optical link.
-/

namespace Sys2Proof.Machine

open Sys2Proof

set_option Elab.async false

variable {d : Dev} {x : Part} {p lane : Nat} {v : Bool} {port : Fin 32} {c : List Byte} {pkt : Packet} {e : OutEntry} {segs :
  List (BitVec 16)} {rx : LaneRx} {m : Fin 64}

protected theorem Dev.partsWf.portOff (h : d.partsWf) : (portOff p d).partsWf := h.movePort

protected theorem Dev.partsWf.portEn (h : d.partsWf) : (portEn p v d).partsWf :=
  .ite h.modPort.portOff (.ite h.modPort.enterTraining h.modPort)

theorem execPortEn_keepsParts : KeepsParts (execPortEn port v) := keepsParts_on fun _ h => h.whenAwake fun _ k => k.portEn

protected theorem Dev.partsWf.portRetrain (h : d.partsWf) : (portRetrain p d).partsWf := .ite h h.enterTraining

theorem execRetrain_keepsParts : KeepsParts (execRetrain port) := keepsParts_on fun _ h => h.whenAwake fun _ k => k.portRetrain

theorem execDark_keepsParts : KeepsParts (execDark port v) := keepsParts_on fun _ h => by
  refine h.whenAwake fun _ k => ?_
  split
  · exact k.setDark
  · exact k.clearDark

protected theorem Dev.partsWf.forceDown (h : d.partsWf) : (forceDown p d).partsWf := .ite h.portDown h

theorem execForceDown_keepsParts : KeepsParts (execForceDown port) := keepsParts_on fun _ h => h.whenAwake fun _ k => k.forceDown

theorem execJobIdWrite_keepsParts {v : BitVec 32} : KeepsParts (execJobIdWrite port v) :=
  keepsParts_on fun _ h => h.whenAwake fun _ k => k.writeJobId

protected theorem Dev.partsWf.laneTimeout (h : d.partsWf) : (laneTimeout p lane d).partsWf :=
  .ite h (h.whenDue fun _ k => k.modPort.assignStripes)

theorem execLaneAcquisitionTimeout_keepsParts {lane : Fin 5} : KeepsParts (execLaneAcquisitionTimeout port lane) :=
  keepsParts_on fun _ h => h.whenAwake fun _ k => k.laneTimeout

protected theorem Dev.partsWf.compareCell (h : d.partsWf) : (compareCell p c d).partsWf := .ite h.modPort.portUp h.modPort

protected theorem Dev.partsWf.sendTraining (h : d.partsWf) : (sendTraining p d).partsWf := .ite h.modPort h

protected theorem Dev.partsWf.trainingCell (h : d.partsWf) : (trainingCell p c d).partsWf := by
  unfold trainingCell
  split
  · exact h
  · refine .sendTraining ?_
    split
    · dsimp only
      split
      · exact .ite h.modPort.enterTraining.modJob h.modPort.enterTraining
      · exact h.modPort.enterTraining
    · exact .ite h.modPort h.modPort.compareCell

theorem execTrainingCell_keepsParts {cell : List Byte} : KeepsParts (execTrainingCell port cell) :=
  keepsParts_on fun _ h => h.whenAwake fun _ k => k.trainingCell

protected theorem Dev.partsWf.trainTimeout (h : d.partsWf) : (trainTimeout p d).partsWf := .ite h (h.whenDue fun _ k => k.modPort)

theorem execTrainTimeout_keepsParts : KeepsParts (execTrainTimeout port) :=
  keepsParts_on fun _ h => h.whenAwake fun _ k => k.trainTimeout

protected theorem Dev.partsWf.linkNote {cause : Nat} (h : d.partsWf) : (linkNote p cause lane d).partsWf := h.raise

protected theorem Dev.partsWf.dropPacket {count : Port → Port} (h : d.partsWf) : (dropPacket p count d).partsWf :=
  .ite h.modPort h.modPort.linkNote

protected theorem Dev.partsWf.countRx (h : d.partsWf) : (countRx p pkt d).partsWf := h.modPort

protected theorem Dev.partsWf.relayPacket (h : d.partsWf) : (relayPacket x p pkt d).partsWf :=
  .ite h.countRx.modPort.sendComet h.countRx.modPort

protected theorem Dev.partsWf.dropWaiting (h : d.partsWf) : (dropWaiting x p d).partsWf := by
  unfold dropWaiting
  split
  · exact h
  · exact h.modPort.modPart

protected theorem Dev.partsWf.receiveData {onward : Bool} (h : d.partsWf) : (receiveData x p pkt onward d).partsWf := by
  unfold receiveData
  split
  · exact h.dropPacket
  · exact .ite h.dropPacket (.ite h.dropWaiting.modPart.modPort.relayPacket h.dropWaiting.modPart.modPort.countRx)

protected theorem Dev.partsWf.fabricPacket (h : d.partsWf) : (fabricPacket x p pkt d).partsWf := .ite h.modPart.modPort h.modPart

protected theorem Dev.partsWf.receivePacket {reserved : Bool} (h : d.partsWf) : (receivePacket x p pkt reserved d).partsWf :=
  .ite h.dropPacket (.ite h.dropPacket (.ite h.relayPacket (.ite h.dropPacket (.ite (.fabricPacket (.ite h.relayPacket h))
    h.receiveData))))

protected theorem Dev.partsWf.packetReceived {bytes : List Byte} (h : d.partsWf) : (packetReceived p bytes d).partsWf := by
  unfold packetReceived
  dsimp only
  split
  · exact h
  · split
    · exact h
    · split
      · exact h.modPort
      · exact h.modPort.dropPacket
      · exact h.modPort.dropPacket
      · exact h.modPort.receivePacket

theorem execPacketReceived_keepsParts {cells : List Byte} : KeepsParts (execPacketReceived port cells) :=
  keepsParts_on fun _ h => h.whenAwake fun _ k => k.packetReceived

protected theorem Dev.partsWf.deliveryPush (h : d.partsWf) : (deliveryPush p d).partsWf := by
  unfold deliveryPush
  split
  · exact .ite h (.modPort h.setTile)
  · exact h

theorem execDeliveryPush_keepsParts : KeepsParts (execDeliveryPush port) :=
  keepsParts_on fun _ h => h.whenAwake fun _ k => k.deliveryPush

protected theorem Dev.partsWf.streamAppend (h : d.partsWf) : (streamAppend p d).partsWf := by
  unfold streamAppend
  split
  · exact h
  · exact .ite h.modPort.raise h.modPort.modPort

theorem execStreamAppend_keepsParts : KeepsParts (execStreamAppend port) :=
  keepsParts_on fun _ h => h.whenAwake fun _ k => k.streamAppend

protected theorem Dev.partsWf.transmit (h : d.partsWf) : (transmit p pkt d).partsWf := h.modPort

protected theorem Dev.partsWf.evict {fuel : Nat} (h : d.partsWf) : (evict p fuel d).partsWf := by
  induction fuel generalizing d with
  | zero => exact h
  | succ n ih => exact .ite h.modPort (ih h.modPort.linkNote)

protected theorem Dev.partsWf.holdCopy {c : HeldCopy} (h : d.partsWf) : (holdCopy p c d).partsWf := h.modPort.evict

protected theorem Dev.partsWf.formerSends {bad : List Nat} {n : Nat} (h : d.partsWf) : (formerSends bad n d).2.partsWf :=
  .iteSnd h.rest h

protected theorem Dev.partsWf.sourceSlot {masks : List (BitVec 64)} (h : d.partsWf) : (sourceSlot x p masks e d).partsWf := by
  unfold sourceSlot
  dsimp only
  exact .ite h.modPort (.ite h.modPort.raise (.ite h.modPort.formerSends h.modPort.formerSends.modPart.transmit.holdCopy))

protected theorem Dev.partsWf.forwardSlot (h : d.partsWf) : (forwardSlot x p e d).partsWf := by
  unfold forwardSlot
  split
  · exact h
  · dsimp only
    split
    · exact .ite h.modPort.transmit h.modPort.linkNote
    · exact h.modPort.linkNote

protected theorem Dev.partsWf.slotStart (h : d.partsWf) : (slotStart p d).partsWf := by
  unfold slotStart
  split
  · exact h
  · split
    · exact h
    · dsimp only
      split
      · exact h
      · split
        · exact h.modPort
        · exact .ite h.modPort.forwardSlot h.modPort.sourceSlot

theorem execSlotStart_keepsParts : KeepsParts (execSlotStart port) := keepsParts_on fun _ h => h.whenAwake fun _ k => k.slotStart

protected theorem Dev.partsWf.clearSecond (h : d.partsWf) : (clearSecond p d).partsWf := h.modPort

protected theorem Dev.partsWf.cometSent (h : d.partsWf) : (cometSent x pkt d).partsWf := by
  unfold cometSent
  split
  · exact h
  · split
    · exact h.modPart
    · exact h.modPart
    · exact h

protected theorem Dev.partsWf.sendInComet {c at_ : Nat} (h : d.partsWf) : (sendInComet x p c at_ d).partsWf := by
  unfold sendInComet
  extract_lets numbered pass
  have k : numbered.partsWf := h.modPort
  have l : ∀ e, e.partsWf → (pass e).partsWf := fun e n => by
    dsimp only [pass]
    split
    · exact n.clearSecond
    · exact n
  refine .ite k ?_
  split
  · exact l _ k
  · exact (l _ k.modPort).transmit.cometSent

protected theorem Dev.partsWf.cometSlot (h : d.partsWf) : (cometSlot p d).partsWf := by
  unfold cometSlot
  split
  · exact h
  · exact .ite (h.whenDue fun _ k => k.sendInComet) (.ite h h.modPort.sendInComet)

theorem execCometSlot_keepsParts : KeepsParts (execCometSlot port) := keepsParts_on fun _ h => h.whenAwake fun _ k => k.cometSlot

protected theorem Dev.partsWf.notePower {power : BitVec 16} (h : d.partsWf) : (notePower p lane power d).partsWf := h.modPort

protected theorem Dev.partsWf.lockLoss (h : d.partsWf) : (lockLoss p lane segs d).partsWf := .ite h (.ite h.modPort h.modPort)

theorem execLockLoss_keepsParts : KeepsParts (execLockLoss port rx) :=
  keepsParts_on fun _ h => h.whenAwake fun _ k => k.notePower.lockLoss

protected theorem Dev.partsWf.failLane (h : d.partsWf) : (failLane p lane d).partsWf :=
  .ite h.modPort.portDown (.ite h.modPort.modPort.raise (.ite h.modPort.portDown h.modPort.movePort))

protected theorem Dev.partsWf.laneFailed (h : d.partsWf) : (laneFailed p lane d).partsWf := by
  unfold laneFailed
  dsimp only
  split
  · exact .ite (h.whenDue fun _ k => k.failLane) h
  · exact h

theorem execLaneFailed_keepsParts {lane : Fin 5} : KeepsParts (execLaneFailed port lane) :=
  keepsParts_on fun _ h => h.whenAwake fun _ k => k.laneFailed

protected theorem Dev.partsWf.lockRegain (h : d.partsWf) : (lockRegain p lane segs d).partsWf := by
  unfold lockRegain
  dsimp only
  split
  · exact h
  · split
    · exact .ite h h.modPort.assignStripes
    · split
      · exact h.modPort
      · exact .ite h.portDown.modPort (.ite h.failLane.modPort (.ite h.modPort.modPort.modPort.linkNote h.modPort.modPort))

theorem execLockRegain_keepsParts : KeepsParts (execLockRegain port rx) :=
  keepsParts_on fun _ h => h.whenAwake fun _ k => k.notePower.lockRegain

protected theorem Dev.partsWf.outageExpiry (h : d.partsWf) : (outageExpiry p d).partsWf := by
  unfold outageExpiry
  split
  · exact .ite (h.whenDue fun _ k => k.portDown) h
  · exact h

theorem execPortOutageExpiry_keepsParts : KeepsParts (execPortOutageExpiry port) :=
  keepsParts_on fun _ h => h.whenAwake fun _ k => k.outageExpiry

protected theorem Dev.partsWf.haloReq (h : d.partsWf) : (haloReq p lane d).partsWf := .ite h h.movePort.raise

theorem execHaloReq_keepsParts {lane : Fin 5} : KeepsParts (execHaloReq port lane) :=
  keepsParts_on fun _ h => h.whenAwake fun _ k => k.haloReq

protected theorem Dev.partsWf.haloAck (h : d.partsWf) : (haloAck p lane d).partsWf := .ite h.modPort h

theorem execHaloAck_keepsParts {lane : Fin 5} : KeepsParts (execHaloAck port lane) :=
  keepsParts_on fun _ h => h.whenAwake fun _ k => k.haloAck

protected theorem Dev.partsWf.deskewDone (h : d.partsWf) : (deskewDone p d).partsWf := .ite (.ite h.portDown h.modPort.portUp) h

theorem execDeskewDone_keepsParts : KeepsParts (execDeskewDone port) := keepsParts_on fun _ h => h.whenAwake fun _ k => k.deskewDone

protected theorem Dev.partsWf.substTimeout (h : d.partsWf) : (substTimeout p d).partsWf := by
  unfold substTimeout
  split
  · exact .ite (h.whenDue fun _ k => k.portDown) h
  · exact h

theorem execSubstTimeout_keepsParts : KeepsParts (execSubstTimeout port) :=
  keepsParts_on fun _ h => h.whenAwake fun _ k => k.substTimeout

protected theorem Dev.partsWf.farDown (h : d.partsWf) : (farDown p d).partsWf := .ite h.portDown h

theorem execFarDownSeen_keepsParts : KeepsParts (execFarDownSeen port) := keepsParts_on fun _ h => h.whenAwake fun _ k => k.farDown

protected theorem Dev.partsWf.laserOff (h : d.partsWf) : (laserOff p d).partsWf := by
  unfold laserOff
  split
  · exact .ite (h.whenDue fun _ k => k.modPort) h
  · exact h

theorem execLaserOff_keepsParts : KeepsParts (execLaserOff port) := keepsParts_on fun _ h => h.whenAwake fun _ k => k.laserOff

theorem execPortRead_keepsParts : KeepsParts (execPortRead m) := keepsParts_on fun _ h => by
  refine h.partCommand fun _ _ _ k => ?_
  split
  · exact k.answer
  · exact k.modPort.answer

theorem execPortCtrl_keepsParts : KeepsParts (execPortCtrl m) := keepsParts_on fun _ h => by
  refine h.partCommand fun _ _ _ k => ?_
  split
  · exact k.answer
  · split
    · exact .ite k.portRetrain.answer k.answer
    · exact k.forceDown.answer
    · exact k.answer

end Sys2Proof.Machine
end

section
/-!
The numbers of the partitions under keeping the plan across modules.
-/

namespace Sys2Proof.Machine

open Sys2Proof

set_option Elab.async false

variable {d : Dev} {x : Part} {pid pos req orbit attempt : Nat} {part : Fin 16} {m : Fin 64}

protected theorem Dev.partsWf.takeInbox {f : Packet → Bool} {act : Part → Received → Dev → Dev} (h : d.partsWf)
    (keep : ∀ a b c, c.partsWf → a.pid = pid → (act a b c).partsWf) : (takeInbox pid f act d).partsWf := by
  unfold takeInbox
  refine h.withPart fun _ _ k own => ?_
  split
  · exact k
  · exact keep _ _ _ (k.setPart own) own

protected theorem Dev.partsWf.dueSlotEnd {p : Nat} (h : d.partsWf) : (dueSlotEnd p pos d).partsWf := by
  unfold dueSlotEnd
  split
  · exact h
  · next x _ =>
    split
    · exact h
    · exact .ite h (h.setPart (y := x) rfl).askAgain

theorem execDueSlotEnd_keepsParts {port : Fin 32} : KeepsParts (execDueSlotEnd port pos) :=
  keepsParts_on fun _ h => h.whenAwake fun _ k => k.dueSlotEnd

protected theorem Dev.partsWf.serveKey {k : Nat × Nat × Nat} {a : List (Nat × Nat × Nat) × Dev} (h : a.2.partsWf) :
    (serveKey pid req orbit attempt k a).2.partsWf := by
  unfold serveKey
  split
  · exact h
  · next x there =>
    have own : x.pid = pid := h.pid there
    dsimp only
    refine .iteSnd h ?_
    split
    · exact (h.setPart own).sendComet
    · exact .iteSnd (h.setPart own) (h.setPart own).modPart

protected theorem Dev.partsWf.serveRecord {rec : List Byte} {a : List (List Byte) × Dev} (h : a.2.partsWf) :
    (serveRecord pid req orbit attempt rec a).2.partsWf :=
  .foldlSnd h fun _ _ k => k.serveKey

protected theorem Dev.partsWf.receipt (h : d.partsWf) : (receipt pid d).partsWf :=
  h.takeInbox fun _ _ _ k _ => .ite k.modPart.abandon (.sendReceipts (.foldlSnd k fun _ _ l => l.serveRecord))

theorem execReceipt_keepsParts : KeepsParts (execReceipt part) := keepsParts_on fun _ h => h.whenAwake fun _ k => k.receipt

protected theorem Dev.partsWf.fabSecond (h : d.partsWf) : (fabSecond pid d).partsWf := by
  unfold fabSecond
  refine h.withPart fun _ _ k _ => ?_
  split
  · exact k
  · exact .ite k (k.whenDue fun _ l => l.raise)

theorem execFabSecond_keepsParts : KeepsParts (execFabSecond part) := keepsParts_on fun _ h => h.whenAwake fun _ k => k.fabSecond

protected theorem Dev.partsWf.learnFences {bits : Nat} {all : Bool} (h : d.partsWf) : (learnFences pid orbit bits all d).partsWf :=
  h.withPart fun _ _ k _ => k.forEach fun _ _ l => (l.forEach fun _ _ n => n.setFence).markFenced

protected theorem Dev.partsWf.formRound1 {orbit : BitVec 32} {stale : Bool} {start : BitVec 64} (h : d.partsWf) :
    (formRound1 pid orbit stale start d).partsWf :=
  h.withPart fun _ _ k own => .advanceMarks (.queueMark
    (.ite (k.setPart own (pid_putMark ..)).learnFences (k.setPart own (pid_putMark ..))))

protected theorem Dev.partsWf.orbitMark (h : d.partsWf) : (orbitMark pid d).partsWf :=
  h.takeInbox fun _ _ _ k own => (k.setPart own (pid_putMark ..)).learnFences.advanceMarks

protected theorem Dev.partsWf.markTimeout (h : d.partsWf) : (markTimeout pid d).partsWf := h.withPart fun _ _ k _ => .ite k.raise k

theorem execMarkTimeout_keepsParts : KeepsParts (execMarkTimeout part) :=
  keepsParts_on fun _ h => h.whenAwake fun _ k => k.markTimeout

protected theorem Dev.partsWf.takeParent (h : d.partsWf) : (takeParent d).partsWf := by
  unfold takeParent
  split
  · exact h
  · split
    · exact h.rest
    · exact h.rest

protected theorem Dev.partsWf.time (h : d.partsWf) : (time pid d).partsWf :=
  h.takeInbox fun _ _ _ k _ => .ite k.takeParent k.takeParent.rest

theorem execTime_keepsParts : KeepsParts (execTime part) := keepsParts_on fun _ h => h.whenAwake fun _ k => k.time

protected theorem Dev.partsWf.timeParentLoss (h : d.partsWf) : (timeParentLoss d).partsWf := by
  unfold timeParentLoss
  dsimp only
  split
  · exact .ite h.takeParent (h.takeParent.whenDue fun _ k => k.rest)
  · exact h.takeParent

theorem execTimeParentLoss_keepsParts : KeepsParts execTimeParentLoss :=
  keepsParts_on fun _ h => h.whenAwake fun _ k => k.timeParentLoss

theorem execTimeRoot_keepsParts : KeepsParts (execTimeRoot m) := keepsParts_on fun _ h => by
  refine h.command fun _ _ k => ?_
  split
  · exact k.rest.answer
  · exact .ite k.rest.takeParent.answer k.answer
  · exact k.answer

protected theorem Dev.partsWf.flood {except : Option Nat} {pl : List Byte} (h : d.partsWf) : (flood pid except pl d).partsWf :=
  h.withPart fun _ _ k own => (k.setPart own).forEach fun _ _ l => l.enqueueComet

protected theorem Dev.partsWf.keepPart {orbit : BitVec 32} {part : Nat} {b : List Byte} (h : d.partsWf) :
    (keepPart x orbit part b d).partsWf :=
  h.modSrv

protected theorem Dev.partsWf.keepStale {orbit : BitVec 32} (h : d.partsWf) : (keepStale x orbit d).partsWf := h.modSrv

protected theorem Dev.partsWf.mgmtAct {r : Received} (h : d.partsWf) : (mgmtAct x r d).partsWf := by
  unfold mgmtAct
  dsimp only
  split
  · exact h
  · split
    · exact h.flood.keepPart
    · exact h.flood.keepStale
    · exact h.flood.modPart
    · exact h.flood

theorem execMgmt_keepsParts : KeepsParts (execMgmt part) :=
  keepsParts_on fun _ h => h.whenMp fun _ k => k.takeInbox fun _ _ _ l _ => l.mgmtAct

theorem execRouteSwitch_keepsParts : KeepsParts (execRouteSwitch m) :=
  keepsParts_on fun _ h => h.partCommand fun _ _ _ k => .ite k.answer k.modPart.flood.answer

end Sys2Proof.Machine
end

section
/-!
The numbers of the partitions under the weight pages of copy slots and adapter areas.
-/

namespace Sys2Proof.Machine

open Sys2Proof

set_option Elab.async false

variable {d : Dev} {x : Part} {pid s first n : Nat}

protected theorem Dev.partsWf.modW {f : Weights → Weights} (h : d.partsWf) : (modW pid f d).partsWf := h.modPart

protected theorem Dev.partsWf.setCopy {c : CopySlot} (h : d.partsWf) : (setCopy pid s c d).partsWf := h.modW

protected theorem Dev.partsWf.freePages (h : d.partsWf) : (freePages x first n d).partsWf := h.rest

protected theorem Dev.partsWf.freeCopy (h : d.partsWf) : (freeCopy pid s d).partsWf := h.withPart fun _ _ k _ => k.freePages.setCopy

protected theorem Dev.partsWf.fillPages {resident : Nat} {unit : Nat → Option Nat} {p : Nat} {e : Dev} (h : d.partsWf)
    (filled : fillPages x first resident unit n p d = some e) : e.partsWf := by
  induction n generalizing p d with
  | zero => cases filled; exact h
  | succ n ih =>
    unfold fillPages at filled
    dsimp only at filled
    split at filled
    · refine ih ?_ filled
      split
      · exact h.rest
      · exact h.rest
    · split at filled
      · exact ih h.rest filled
      · cases filled

protected theorem Dev.partsWf.writeWeights {addr : Nat} {bytes : List Byte} (h : d.partsWf) :
    (writeWeights x addr bytes d).partsWf := by
  refine Dev.partsWf.foldlSnd h fun c a k => .ite (.passOther (.countOther ?_)) k
  exact k.rest

end Sys2Proof.Machine
end

section
/-!
The numbers of the partitions under the serving engine.
-/

namespace Sys2Proof.Machine

open Sys2Proof

set_option Elab.async false

variable {d : Dev} {x : Part} {pid slot cause n c : Nat} {id : BitVec 32} {w : Stamp} {r : Req} {pages : List Nat} {part : Fin
  16} {v : Bool} {m : Fin 64} {t : Tab PlaceEntry} {s : Step} {e : PlaceEntry}

protected theorem Dev.partsWf.modReq {f : Req → Req} (h : d.partsWf) : (modReq pid id f d).partsWf := h.modSrv

protected theorem Dev.partsWf.reqRec {kind data : Nat} (h : d.partsWf) : (reqRec x w kind slot id data d).partsWf :=
  .ite h.ephRecAt h

protected theorem Dev.partsWf.endReq {status reason : Nat} (h : d.partsWf) : (endReq pid r slot status reason w d).partsWf := by
  unfold endReq
  refine h.withPart fun _ _ k _ => .reqRec (.modPart ?_)
  split
  · exact .ite k.freeCopy k
  · exact k

protected theorem Dev.partsWf.eclipseReq (h : d.partsWf) : (eclipseReq x r cause d).partsWf := h.modReq.reqRec

protected theorem Dev.partsWf.pageNote {page off : Nat} (h : d.partsWf) : (pageNote page off n d).partsWf := .ite h.storeNote h

protected theorem Dev.partsWf.acceptDesc {b : List Byte} (h : d.partsWf) : (acceptDesc x b pages d).partsWf := by
  unfold acceptDesc
  dsimp only
  split
  · exact h.modSrv.reqRec
  · exact h.modSrv.reqRec

protected theorem Dev.partsWf.submit (h : d.partsWf) : (submit pid d).partsWf := by
  unfold submit
  refine h.withPart fun _ _ k _ => ?_
  split
  · exact k
  · exact .ite k (.modSrv (.ite k.pageNote.acceptDesc k.reqRec))

theorem execSubmit_keepsParts : KeepsParts (execSubmit part) := keepsParts_on fun _ h => h.whenMp fun _ k => k.submit

protected theorem Dev.partsWf.setAdmit (h : d.partsWf) : (setAdmit pid v d).partsWf := .ite h h.modSrv

theorem execAdmitWrite_keepsParts : KeepsParts (execAdmitWrite part v) := keepsParts_on fun _ h => h.whenHost fun _ k => k.setAdmit

protected theorem Dev.partsWf.reqCommand {code m : Nat} {f : Part → Req → List Byte → Dev → Dev} (h : d.partsWf)
    (keep : ∀ a b c e, e.partsWf → (f a b c e).partsWf) : (reqCommand code m f d).partsWf := by
  unfold reqCommand
  refine h.partCommand fun _ _ _ k => ?_
  split
  · exact keep _ _ _ _ k
  · exact k.answer

theorem execReqCancel_keepsParts : KeepsParts (execReqCancel m) :=
  keepsParts_on fun _ h => h.reqCommand fun _ _ _ _ k => k.modReq.answer

theorem execReqEclipse_keepsParts : KeepsParts (execReqEclipse m) :=
  keepsParts_on fun _ h => h.reqCommand fun _ _ _ _ k => k.modReq.answer

theorem execReqResume_keepsParts : KeepsParts (execReqResume m) :=
  keepsParts_on fun _ h => h.reqCommand fun _ _ _ _ k => k.modReq.answer

theorem execReqRemap_keepsParts : KeepsParts (execReqRemap m) := keepsParts_on fun _ h => by
  refine h.reqCommand fun _ _ _ _ k => ?_
  dsimp only
  split
  · exact k.answer
  · split
    · exact k.answer
    · split
      · exact k.answer
      · exact .ite k.modReq.answer k.answer

theorem execBudgetSet_keepsParts : KeepsParts (execBudgetSet m) :=
  keepsParts_on fun _ h => h.partCommand fun _ _ _ k => .ite k.answer ((k.forEach fun _ _ l => l.rest).modSrv).answer

theorem execSelectorLoad_keepsParts : KeepsParts (execSelectorLoad m) := keepsParts_on fun _ h => by
  refine h.partCommand fun _ _ _ k => ?_
  dsimp only
  split
  · exact k.answer
  · exact .ite k.answer (.ite k.answer (.ite k.answer (.ite k.answer k.modSrv.answer)))

protected theorem Dev.partsWf.slotStageWrite (h : d.partsWf) : (slotStageWrite pid d).partsWf :=
  h.withPart fun _ _ k _ => .ite k ((k.forEach fun _ _ l => l.modTile).forEach fun _ _ l => l.modTile).modPart

theorem execSlotStageWrite_keepsParts : KeepsParts (execSlotStageWrite part) :=
  keepsParts_on fun _ h => h.whenAwake fun _ k => k.slotStageWrite

protected theorem Dev.partsWf.settleOne (h : d.partsWf) : (settleOne pid c d).partsWf :=
  h.withPart fun _ _ k _ => .ite k.modSrv k.modSrv.ephRec

protected theorem Dev.partsWf.settle (h : d.partsWf) : (settle pid d).partsWf :=
  h.withPart fun _ _ k _ => .ite k (k.forEach fun _ _ l => l.settleOne).modSrv

protected theorem Dev.partsWf.placeEnds {f : Req → Bool} (h : d.partsWf) : (placeEnds pid f d).partsWf :=
  h.withPart fun _ _ k _ => k.forEach fun _ _ l => .ite l.endReq (.ite l.endReq l)

protected theorem Dev.partsWf.sendPlacement (h : d.partsWf) : (sendPlacement pid t d).partsWf :=
  h.withPart fun _ _ k _ => .ite k (k.forEach fun _ _ l => l.flood)

protected theorem Dev.partsWf.formPlacement (h : d.partsWf) : (formPlacement pid d).partsWf := by
  unfold formPlacement
  refine h.withPart fun _ _ k _ => ?_
  split
  · exact k
  · refine .sendPlacement (.modSrv (k.forEach fun _ _ l => ?_))
    split
    · exact l
    · split
      · exact l.eclipseReq
      · exact l.eclipseReq
      · exact l

protected theorem Dev.partsWf.placement (h : d.partsWf) : (placement pid d).partsWf :=
  h.withPart fun _ _ k _ => .ite k k.settle.placeEnds.formPlacement

theorem execPlacement_keepsParts : KeepsParts (execPlacement part) := keepsParts_on fun _ h => h.whenMp fun _ k => k.placement

protected theorem Dev.partsWf.stale (h : d.partsWf) : (stale pid d).partsWf :=
  h.withPart fun _ _ k _ => .ite k (.flood (.ite k.modSrv k))

theorem execStale_keepsParts : KeepsParts (execStale part) := keepsParts_on fun _ h => h.whenMp fun _ k => k.stale

protected theorem Dev.partsWf.followPlacement (h : d.partsWf) : (followPlacement pid t d).partsWf :=
  h.placeEnds.withPart fun _ _ k _ => k.forEach fun _ _ l => l.eclipseReq

protected theorem Dev.partsWf.holdPlacement (h : d.partsWf) : (holdPlacement pid d).partsWf := by
  unfold holdPlacement
  refine h.withPart fun _ _ k _ => ?_
  split
  · exact .ite k.modSrv.followPlacement k
  · exact k

protected theorem Dev.partsWf.placementReceive (h : d.partsWf) : (placementReceive pid d).partsWf :=
  (h.takeInbox fun _ _ _ k _ => k.mgmtAct).holdPlacement

theorem execPlacementReceive_keepsParts : KeepsParts (execPlacementReceive part) :=
  keepsParts_on fun _ h => h.whenMp fun _ k => k.placementReceive

protected theorem Dev.partsWf.pinPages (h : d.partsWf) : (pinPages pages d).partsWf := h.forEach fun _ _ k => k.setCpt

protected theorem Dev.partsWf.rideSlot {s : Nat} (h : d.partsWf) : (rideSlot x r s e cause d).partsWf := by
  unfold rideSlot
  refine .modReq ?_
  split
  · exact .ite h.reqRec h.reqRec.reqRec
  · exact h.reqRec
  · exact h

protected theorem Dev.partsWf.buildSlot {s : Nat} {a : SlotBank × List Nat × Dev} (h : a.2.2.partsWf) :
    (buildSlot x s e a).2.2.partsWf := by
  unfold buildSlot
  split
  next t f d =>
  replace h : d.partsWf := h
  extract_lets multi
  split
  · split
    · exact h
    · exact h
  · next r _ =>
    have eclipsed : ∀ n, (if r.st = .running then eclipseReq x r n d else d).partsWf := fun _ => .ite h.eclipseReq h
    extract_lets area entry
    split
    · split
      · exact h.rideSlot
      · exact eclipsed _
    · split
      · exact (eclipsed _).modReq
      · split
        · extract_lets noted
          have k : noted.partsWf := h.ephRec
          split
          · exact k.rideSlot
          · exact .ite k.eclipseReq k
        · exact h.pinPages.rideSlot

protected theorem Dev.partsWf.slotTableBuild (h : d.partsWf) : (slotTableBuild pid d).partsWf := by
  unfold slotTableBuild
  refine h.withPart fun x e k _ => ?_
  split
  · refine .ite k (.modSrv ?_)
    exact List.foldlRecOn (motive := fun b : SlotBank × List Nat × Dev => b.2.2.partsWf) _ _ k fun _ l _ _ => l.buildSlot
  · exact k

theorem execSlotTableBuild_keepsParts : KeepsParts (execSlotTableBuild part) :=
  keepsParts_on fun _ h => h.whenMp fun _ k => k.slotTableBuild

protected theorem Dev.partsWf.tokenAt {pos : Nat} (h : d.partsWf) : (tokenAt d pages pos).2.partsWf := by
  unfold tokenAt
  extract_lets off
  split
  · exact h.pageNote
  · split
    next v e drawn => exact .of_eq h.draw drawn

protected theorem Dev.partsWf.charge (h : d.partsWf) : (charge pid c n d).partsWf := h.modSrv

protected theorem Dev.partsWf.loseToken (h : d.partsWf) : (loseToken x s r w d).partsWf := h.modReq.reqRec

protected theorem Dev.partsWf.deliverToken {late : Bool} (h : d.partsWf) : (deliverToken x s r late w d).partsWf := by
  unfold deliverToken
  dsimp only
  exact .ite h.tokenAt.modReq.charge.reqRec.endReq (.ite h.tokenAt.modReq.charge.reqRec.endReq h.tokenAt.modReq.charge.reqRec)

protected theorem Dev.partsWf.deliverStep (h : d.partsWf) : (deliverStep x s d).partsWf := by
  unfold deliverStep
  extract_lets w emit
  split
  · exact .ite h.reqRec h
  · split
    · exact h
    · refine .ite h ?_
      extract_lets late deliver recorded charged
      have delivered : ∀ e, e.partsWf → (deliver e).partsWf := fun _ k => .ite k.loseToken k.deliverToken
      have k : charged.partsWf := h.reqRec.modReq.charge
      exact .ite (.ite k.endReq (.ite (delivered _ k) k)) (delivered _ h)

protected theorem Dev.partsWf.ckptCapture (h : d.partsWf) : (ckptCapture pid d).partsWf := by
  unfold ckptCapture
  refine h.withPart fun _ _ k _ => ?_
  split
  · exact k
  · split
    · exact k
    · exact .ite k (.modPart (.ite k k.hostWr))

theorem execOrbitMark_keepsParts : KeepsParts (execOrbitMark part) :=
  keepsParts_on fun _ h => h.whenAwake fun _ k => k.orbitMark.whenMp fun _ l => l.ckptCapture

protected theorem Dev.partsWf.tokenDelivery (h : d.partsWf) : (tokenDelivery pid d).partsWf := by
  unfold tokenDelivery
  refine h.withPart fun _ _ k _ => ?_
  split
  · exact k
  · split
    · exact k
    · exact .ite k (k.forEach fun _ _ l => .modSrv (.ite l l.deliverStep))

theorem execTokenDelivery_keepsParts : KeepsParts (execTokenDelivery part) :=
  keepsParts_on fun _ h => h.whenMp fun _ k => k.tokenDelivery.ckptCapture

theorem execGap_keepsParts : KeepsParts (execGap part) :=
  keepsParts_on fun _ h => h.whenMp fun _ k => (recordsOnly_ephGap ..).partsWf k

end Sys2Proof.Machine
end

section
/-!
The numbers of the partitions under loading and replacing weights, which writes GDDR7 shard by shard.
-/

namespace Sys2Proof.Machine

open Sys2Proof

set_option Elab.async false

variable {d : Dev} {x : Part} {pid event shard st idx : Nat} {host : Bool} {a : Adapter} {l : Load} {m : Fin 64} {s : Shard}
  {part : Fin 16}

protected theorem Dev.partsWf.weightRec {status : Nat} (h : d.partsWf) : (weightRec pid event shard host status d).partsWf :=
  h.ephRec

protected theorem Dev.partsWf.adapterRec (h : d.partsWf) : (adapterRec pid event a d).partsWf := h.ephRec

protected theorem Dev.partsWf.setLoad (h : d.partsWf) : (setLoad pid l d).partsWf := h.modW

protected theorem Dev.partsWf.dropLoad {m : Nat} (h : d.partsWf) : (dropLoad pid m d).partsWf := h.modW

protected theorem Dev.partsWf.modAdapter {handle gen : BitVec 32} {f : Adapter → Adapter} (h : d.partsWf) :
    (modAdapter pid handle gen f d).partsWf :=
  h.modW

protected theorem Dev.partsWf.freeAdapter (h : d.partsWf) : (freeAdapter pid a d).partsWf :=
  h.withPart fun _ _ k own => (k.setPart own).freePages.adapterRec

protected theorem Dev.partsWf.readyAdapter (h : d.partsWf) : (readyAdapter pid a d).partsWf :=
  h.withPart fun _ _ k _ => k.adapterRec.modAdapter.forEach fun _ _ l => l.modAdapter.adapterRec

protected theorem Dev.partsWf.stepAdapters (h : d.partsWf) : (stepAdapters pid d).partsWf :=
  (h.withPart fun _ _ k _ => k.forEach fun _ _ l => l.readyAdapter).withPart fun _ _ k _ => k.forEach fun _ _ l => l.freeAdapter

protected theorem Dev.partsWf.stepAdaptersNow (h : d.partsWf) : (stepAdaptersNow pid d).partsWf :=
  h.withPart fun _ _ k _ => .ite k k.stepAdapters

protected theorem Dev.partsWf.failLoad (h : d.partsWf) : (failLoad pid l st shard host d).partsWf := by
  unfold failLoad
  refine h.withPart fun _ _ k _ => .answer (.weightRec ?_)
  split
  · exact k.dropLoad.freeCopy
  · split
    · exact k.dropLoad.freeAdapter
    · exact k.dropLoad

protected theorem Dev.partsWf.loadDone (h : d.partsWf) : (loadDone pid l d).partsWf := by
  unfold loadDone
  refine h.withPart fun _ _ k _ => .answer (.stepAdaptersNow (.weightRec ?_))
  split
  · exact k.dropLoad.setCopy
  · split
    · exact k.dropLoad.modAdapter.modW
    · exact k.dropLoad

protected theorem Dev.partsWf.sourceNote {s : Source} {off n : Nat} (h : d.partsWf) : (sourceNote s off n d).partsWf := by
  unfold sourceNote
  split
  · split
    · exact h.imgNote
    · exact h
  · exact h

protected theorem Dev.partsWf.refetch (h : d.partsWf) : (refetch pid l s d).2.partsWf := h.raise.weightRec

protected theorem Dev.partsWf.goOn (h : d.partsWf) : (goOn pid l d).partsWf :=
  .ite h.loadDone (.setLoad (.foldlSnd h fun _ _ k => .iteSnd k.refetch k))

protected theorem Dev.partsWf.shardFails (h : d.partsWf) : (shardFails pid l s d).partsWf :=
  .ite h.failLoad (.ite h.failLoad h.goOn)

protected theorem Dev.partsWf.withShard {m : Nat} {f : Part → Load → Shard → Dev → Dev} (h : d.partsWf)
    (keep : ∀ a b c e, e.partsWf → (f a b c e).partsWf) : (withShard pid m idx f d).partsWf := by
  unfold withShard
  refine h.withPart fun _ _ k _ => ?_
  split
  · exact k
  · split
    · exact k
    · exact keep _ _ _ _ k

protected theorem Dev.partsWf.tierEntries {first resident : Nat} {r : TierRun} (h : d.partsWf) :
    (tierEntries x first resident r d).partsWf :=
  h.forEach fun _ _ k => .ite k k.rest

protected theorem Dev.partsWf.tierShard {src : Source} (h : d.partsWf) : (tierShard pid l s src d).partsWf := by
  unfold tierShard
  refine h.withPart fun _ _ k _ => ?_
  split
  · exact .ite k (k.setCopy.forEach fun _ _ l => l.tierEntries)
  · exact k

protected theorem Dev.partsWf.shardFetchDone {m : Nat} (h : d.partsWf) : (shardFetchDone pid m idx d).partsWf := by
  unfold shardFetchDone
  refine h.withShard fun _ _ _ _ k => ?_
  dsimp only
  split
  · exact k.shardFails
  · exact .ite k.writeWeights.sourceNote.tierShard.goOn k.writeWeights.sourceNote.shardFails

theorem execShardFetchDone_keepsParts : KeepsParts (execShardFetchDone part m shard) :=
  keepsParts_on fun _ h => h.whenMp fun _ k => k.shardFetchDone

theorem execShardTimeout_keepsParts : KeepsParts (execShardTimeout part m shard) :=
  keepsParts_on fun _ h => h.whenMp fun _ k => k.withShard fun _ _ _ _ l => l.whenDue fun _ n => n.failLoad

protected theorem Dev.partsWf.takeManifest {man : ManInfo} {es : List (Nat × Shard)} (h : d.partsWf) :
    (takeManifest pid l man es d).partsWf := by
  unfold takeManifest
  refine h.withPart fun x e k _ => ?_
  split
  · exact k.failLoad
  · extract_lets r
    split
    · exact k.failLoad
    · split
      · split
        · exact k.failLoad
        · next filled => exact (k.fillPages filled).setCopy.weightRec.setLoad.goOn
      · split
        · exact k.failLoad
        · next filled => exact (k.fillPages filled).modW.adapterRec.setLoad.goOn

protected theorem Dev.partsWf.manifestFails (h : d.partsWf) : (manifestFails pid l st d).partsWf := by
  unfold manifestFails
  split
  · dsimp only
    split
    · exact h.failLoad
    · exact h.setLoad
  · exact .ite h.failLoad h.setLoad

protected theorem Dev.partsWf.withManifest {m : Nat} {f : Load → Nat → Dev → Dev} (h : d.partsWf)
    (keep : ∀ a b c, c.partsWf → (f a b c).partsWf) : (withManifest pid m f d).partsWf := by
  unfold withManifest
  refine h.withPart fun _ _ k _ => ?_
  split
  · exact k
  · split
    · exact k
    · exact keep _ _ _ k

protected theorem Dev.partsWf.withoutPrimary (h : d.partsWf) : (withoutPrimary pid l st d).partsWf := .ite h.manifestFails h.setLoad

protected theorem Dev.partsWf.manifestReadDone {m : Nat} (h : d.partsWf) : (manifestReadDone pid m d).partsWf := by
  unfold manifestReadDone
  refine h.withManifest fun _ _ _ k => k.withPart fun _ _ l _ => ?_
  dsimp only
  split
  · exact l.sourceNote.manifestFails
  · split
    · exact .ite l.sourceNote.goOn l.sourceNote.manifestFails
    · exact .ite l.sourceNote.takeManifest (.ite l.sourceNote.manifestFails l.sourceNote.withoutPrimary)

theorem execManifestReadDone_keepsParts : KeepsParts (execManifestReadDone part m) :=
  keepsParts_on fun _ h => h.whenMp fun _ k => k.manifestReadDone

theorem execManifestReadTimeout_keepsParts : KeepsParts (execManifestReadTimeout part m) :=
  keepsParts_on fun _ h => h.whenMp fun _ k => k.withManifest fun _ _ _ l => l.whenDue fun _ n => n.manifestFails

protected theorem Dev.partsWf.beginLoad {m : Nat} {t : LoadTarget} {rank : Nat} {pri alt : Source} (h : d.partsWf) :
    (beginLoad pid m t rank pri alt d).partsWf :=
  h.modW.beginCmd

theorem execWeightLoad_keepsParts : KeepsParts (execWeightLoad m) := keepsParts_on fun _ h => by
  refine h.partCommand fun _ _ _ k => ?_
  split
  · dsimp only
    split
    · exact k.answer
    · exact .ite k.answer (.ite k.answer (.ite k.answer (.ite k.answer k.setCopy.beginLoad)))

theorem execAdapterLoad_keepsParts : KeepsParts (execAdapterLoad m) := keepsParts_on fun _ h => by
  refine h.partCommand fun _ _ _ k => ?_
  split
  · dsimp only
    split
    · exact k.answer
    · exact k.answer
    · split
      · exact k.answer
      · split
        · exact k.answer
        · split
          · exact k.answer
          · exact k.beginLoad

theorem execAdapterDelete_keepsParts : KeepsParts (execAdapterDelete m) :=
  keepsParts_on fun _ h => h.partCommand fun _ _ _ k => .ite k.answer (.ite k.answer k.modW.stepAdaptersNow.answer)

protected theorem Dev.partsWf.restartReq {r : Req} {upTo : BitVec 32} (h : d.partsWf) : (restartReq x r upTo d).partsWf :=
  h.modReq.reqRec

protected theorem Dev.partsWf.flipNow {slot : Nat} (h : d.partsWf) : (flipNow pid slot d).partsWf :=
  h.withPart fun _ _ k _ => k.modW.setCopy.weightRec

protected theorem Dev.partsWf.boundaryFlip {orbit : BitVec 32} (h : d.partsWf) : (boundaryFlip pid orbit d).partsWf := by
  unfold boundaryFlip
  refine h.withPart fun _ _ k _ => ?_
  split
  · exact k
  · exact (k.forEach fun _ _ l => l.restartReq).flipNow

theorem execWeightFlip_keepsParts : KeepsParts (execWeightFlip m) := keepsParts_on fun _ h => by
  refine h.partCommand fun _ _ _ k => ?_
  dsimp only
  split
  · exact k.answer
  · exact .ite k.answer (.ite k.answer (.ite k.answer (.ite k.answer (.ite k.modW.answer k.flipNow.answer))))

theorem execWeightRelease_keepsParts {k : Release} : KeepsParts (execWeightRelease k) :=
  keepsParts_on fun _ h => h.partCommand fun _ _ _ k => .ite k.answer (.ite (.answer (.freeCopy (.modW (.ite (k.forEach fun _ _ l
    => l.restartReq) k)))) k.answer)

end Sys2Proof.Machine
end

section
/-!
The numbers of the partitions under jobs and checkpoints.
-/

namespace Sys2Proof.Machine

open Sys2Proof

set_option Elab.async false

variable {d : Dev} {x : Part} {pid : Nat} {m : Fin 64} {part : Fin 16}

theorem execRankWrite_keepsParts : KeepsParts (execRankWrite m) :=
  keepsParts_on fun _ h => h.partCommand fun _ _ _ k => .ite k.answer (.ite k.answer (.ite k.answer (.ite k.answer ((k.forEach fun
    _ _ l => l.rest).answer))))

protected theorem Dev.partsWf.prepare {i : PlanInfo} {tag epoch rank ms : Nat} (h : d.partsWf) :
    (prepare x i tag epoch rank ms d).partsWf :=
  ((((h.setPart (y := x) rfl).forEach fun _ _ k => k.modPort).forEach fun _ _ k => k.writeJobId).forEach fun _ _ k => k.setDark).allGood

theorem execJobPrepare_keepsParts : KeepsParts (execJobPrepare m) := keepsParts_on fun _ h => by
  refine h.partCommand fun _ _ _ k => ?_
  dsimp only
  split
  · exact k.prepare.answer
  · exact k.answer

protected theorem Dev.partsWf.discTimeout (h : d.partsWf) : (discTimeout pid d).partsWf :=
  h.withPart fun _ _ k _ => .ite k (k.whenDue fun _ l => .ite l.modJob l.modJob.failDiscovery)

theorem execDiscTimeout_keepsParts : KeepsParts (execDiscTimeout part) := keepsParts_on fun _ h => h.whenMp fun _ k => k.discTimeout

theorem execJobGo_keepsParts : KeepsParts (execJobGo m) :=
  keepsParts_on fun _ h => h.partCommand fun _ _ _ k => .ite k.answer (.ite k.answer k.modJob.answer)

protected theorem Dev.partsWf.whenMt {t : BitVec 64} {f : Dev → Dev} (h : d.partsWf) (keep : ∀ a, a.partsWf → (f a).partsWf) :
    (whenMt t f d).partsWf :=
  .ite (keep _ h) (h.whenDue fun _ k => (keep _ (.ite k.rest k)))

protected theorem Dev.partsWf.pinStatic (h : d.partsWf) : (pinStatic x d).partsWf := h.pinPages

protected theorem Dev.partsWf.startPlan (h : d.partsWf) : (startPlan x d).partsWf :=
  ((h.setPart (y := x) rfl).forEach fun _ _ k => k.modPort).rest.pinStatic

protected theorem Dev.partsWf.jobStart (h : d.partsWf) : (jobStart pid d).partsWf :=
  h.withPart fun _ _ k _ => .ite k (k.whenMt fun _ l => l.startPlan)

theorem execJobStart_keepsParts : KeepsParts (execJobStart part) := keepsParts_on fun _ h => h.whenMp fun _ k => k.jobStart

protected theorem Dev.partsWf.entryDone (h : d.partsWf) : (entryDone pid d).partsWf :=
  h.withPart fun _ _ k _ => .ite k ((k.forEach fun _ _ l => l.modTile).forEach fun _ _ l =>
    l.modPort).modPart

theorem execRunningEntryCleanUpDone_keepsParts : KeepsParts (execRunningEntryCleanUpDone part) :=
  keepsParts_on fun _ h => h.whenAwake fun _ k => k.entryDone

protected theorem Dev.partsWf.jobStop (h : d.partsWf) : (jobStop pid d).partsWf :=
  h.leaveRunning.withPart fun _ _ k _ => (k.forEach fun _ _ l => l.writeJobId.modPort.clearDark).modJob

theorem execJobStop_keepsParts : KeepsParts (execJobStop m) :=
  keepsParts_on fun _ h => h.partCommand fun _ _ _ k => .answer (.ite k k.jobStop)

theorem execCkptTake_keepsParts : KeepsParts (execCkptTake m) :=
  keepsParts_on fun _ h => h.partCommand fun _ _ _ k => .ite k.answer (.ite k.answer (.ite k.answer k.modJob.answer))

protected theorem Dev.partsWf.ckptWriteDone (h : d.partsWf) : (ckptWriteDone pid d).partsWf := by
  unfold ckptWriteDone
  refine h.ckptCapture.withPart fun _ _ k _ => ?_
  split
  · exact .jobIrq (.modJob (.ite k.hostWr.hostWr k))
  · exact k

theorem execCheckpointWriteDone_keepsParts : KeepsParts (execCheckpointWriteDone part) :=
  keepsParts_on fun _ h => h.whenMp fun _ k => k.ckptWriteDone

protected theorem Dev.partsWf.restore {header body : List Byte} (h : d.partsWf) : (restore x header body d).partsWf :=
  (h.forEach fun _ _ k => k.rest).modPart

theorem execCkptRestore_keepsParts : KeepsParts (execCkptRestore m) :=
  keepsParts_on fun _ h => h.partCommand fun _ _ _ k => .ite k.answer (.ite k.answer (.ite k.answer (.ite k.answer (.ite k.answer
    (.ite k.answer k.restore.answer)))))

end Sys2Proof.Machine
end

section
/-!
The numbers of the partitions under orbit boundaries and pacing pauses.
-/

namespace Sys2Proof.Machine

open Sys2Proof

set_option Elab.async false

variable {d : Dev} {t : Tile} {old : Part} {pid : Nat} {start : BitVec 64} {part : Fin 16}

protected theorem Dev.partsWf.noteSteps (h : d.partsWf) : (noteSteps pid start d).partsWf :=
  h.withPart fun _ _ k _ => .ite k.modSrv k.modSrv.modSrv

protected theorem Dev.partsWf.clearStatus {x : Part} {no : Nat} (h : d.partsWf) : (clearStatus x no d).partsWf := by
  unfold clearStatus
  extract_lets t a s cleared noted
  have k : cleared.partsWf := h.setTile
  have l : noted.partsWf := .ite k k.ephRec
  exact .ite l l.ephRec

protected theorem Dev.partsWf.tideRecords (h : d.partsWf) : (tideRecords pid d).partsWf := by
  unfold tideRecords
  refine h.forEach fun _ _ k => ?_
  split
  · exact k.modMoon.ephRec
  · exact k

protected theorem Dev.partsWf.boundaryDigest {stale : Bool} {ended : BitVec 32} (h : d.partsWf) :
    (boundaryDigest pid stale ended d).partsWf :=
  h.withPart fun _ _ k own => .ite (k.setPart own).closeDigest (k.setPart own)

protected theorem Dev.partsWf.clearFence {s : Nat} (h : d.partsWf) : (clearFence s d).partsWf := h.forEach fun _ _ k => k.modMm

protected theorem Dev.partsWf.fenceSlot {r : Nat} (h : d.partsWf) : (fenceSlot pid r d).partsWf :=
  h.withPart fun _ _ k _ => (k.forEach fun _ _ l => l.setFence).markFenced

protected theorem Dev.partsWf.carryFences (h : d.partsWf) : (carryFences pid old d).partsWf :=
  h.withPart fun _ _ k _ => (k.forEach fun _ _ l => l.clearFence).modPart

protected theorem Dev.partsWf.switchTable (h : d.partsWf) : (switchTable pid old d).partsWf := by
  unfold switchTable
  refine h.withPart fun x e k own => ?_
  extract_lets go keep _ switched carried held noted
  have l : held.partsWf := (k.setPart own).carryFences.holdPlacement
  have m : noted.partsWf := l.ephRec
  exact .ite (l.forEach fun _ _ n => n.fenceSlot) (.ite m (m.forEach fun _ _ n => n.fenceSlot))

protected theorem Dev.partsWf.pruneGone (h : d.partsWf) : (pruneGone pid d).partsWf := h.withPart fun _ _ k own => k.setPart own

protected theorem Dev.partsWf.unpinPages (h : d.partsWf) : (unpinPages pid d).partsWf := h.withPart fun _ _ k _ => k.rest

protected theorem Dev.partsWf.applyCredits (h : d.partsWf) : (applyCredits pid d).partsWf :=
  h.withPart fun _ _ k _ => (k.forEach fun _ _ l => l.rest).modSrv

protected theorem Dev.partsWf.applyRoutes (h : d.partsWf) : (applyRoutes pid d).partsWf := h.modPart

protected theorem Dev.partsWf.switchEpoch (h : d.partsWf) : (switchEpoch pid d).partsWf :=
  h.modPart fun x => by
    split
    · exact ite_keeps Part.pid rfl
    · rfl

protected theorem Dev.partsWf.boundarySet {orbit : BitVec 32} (h : d.partsWf) : (boundarySet pid orbit d).partsWf :=
  h.boundaryFlip.stepAdapters.applyCredits.applyRoutes.unpinPages

protected theorem Dev.partsWf.deferredRetrain {c : Nat} (h : d.partsWf) : (deferredRetrain c d).partsWf := .ite h.enterRetrain h

protected theorem Dev.partsWf.fabricStart (h : d.partsWf) : (fabricStart pid old d).partsWf := by
  unfold fabricStart
  extract_lets held left kept
  have k : held.partsWf := h.withPart fun _ _ k _ => k.forEach fun _ _ l => l.modPort
  have l : left.partsWf := .ite (k.forEach fun _ _ l => l.modTile) k
  have n : kept.partsWf := l.modPart
  exact n.withPart fun _ _ j _ => j.abandon.modPart

protected theorem Dev.partsWf.nextOrbit (h : d.partsWf) : (nextOrbit pid d).partsWf := h.modPart

protected theorem Dev.partsWf.beginPace (h : d.partsWf) : (beginPace pid start d).partsWf := .ite h.modPart h

protected theorem Dev.partsWf.closeOrbit (h : d.partsWf) : (closeOrbit pid start d).partsWf := by
  unfold closeOrbit
  extract_lets settled formed sent cleared
  have k : settled.partsWf := h.withPart fun _ _ k _ => .ite k.settle k
  have l : sent.partsWf := k.noteSteps.formLevel.withPart fun _ _ l _ => l.formRound1
  have m : cleared.partsWf := l.withPart fun _ _ m _ => m.forEach fun _ _ n => (n.modTile).clearStatus
  exact m.tideRecords

protected theorem Dev.partsWf.orbitBoundary (h : d.partsWf) : (orbitBoundary pid d).partsWf := by
  unfold orbitBoundary
  refine h.withPart fun _ _ k _ => .ite k ?_
  extract_lets start entered
  split
  · exact k.closeOrbit.nextOrbit
  · extract_lets digested switched placed started restarted retrained
    have l : switched.partsWf := k.closeOrbit.nextOrbit.boundaryDigest.switchTable
    have m : placed.partsWf := .ite l.boundarySet l
    have n : started.partsWf := m.switchEpoch.pruneGone.fabricStart
    have o : restarted.partsWf := n.forEach fun _ _ k => k.modTile
    have p : retrained.partsWf := o.forEach fun _ _ k => k.deferredRetrain
    exact p.beginPace.ckptCapture

theorem execOrbitBoundary_keepsParts : KeepsParts (execOrbitBoundary part) :=
  keepsParts_on fun _ h => h.whenMp fun _ k => k.orbitBoundary

protected theorem Dev.partsWf.pacingEnd (h : d.partsWf) : (pacingEnd pid d).partsWf := by
  unfold pacingEnd
  refine h.withPart fun _ _ k _ => ?_
  split
  · exact k.whenMt fun _ l => l.resumeTiles.modPart
  · exact k

theorem execPacingEnd_keepsParts : KeepsParts (execPacingEnd part) := keepsParts_on fun _ h => h.whenAwake fun _ k => k.pacingEnd

end Sys2Proof.Machine
end

section
/-!
The numbers of the partitions under loading and dropping plans, and under making and destroying partitions.
-/

namespace Sys2Proof.Machine

open Sys2Proof

set_option Elab.async false

variable {d : Dev} {t : Tile} {pid : Nat} {img : List Byte} {m : Fin 64}

protected theorem Dev.partsWf.installPlan (h : d.partsWf) : (installPlan pid img d).partsWf :=
  h.withPart fun _ _ k own => (k.forEach fun _ _ l => l.modTile).setPart own

theorem execPlanLoad_keepsParts : KeepsParts (execPlanLoad m) := keepsParts_on fun _ h => by
  refine h.partCommand fun _ _ _ k => ?_
  split
  · split
    · exact k.answer
    · split
      · exact k.answer
      · split
        · exact k.answer
        · exact .ite k.installPlan.settleStep.beginCmd k.installPlan.answer

protected theorem Dev.partsWf.clearHalted (h : d.partsWf) : (clearHalted pid d).partsWf :=
  h.withPart fun _ _ k _ => k.forEach fun _ _ l => l.modTile

protected theorem Dev.partsWf.dropPlan (h : d.partsWf) : (dropPlan pid d).partsWf :=
  ((h.clearHalted.withPart fun _ _ k _ => k.forEach fun _ _ l => l.failLoad).withPart fun _ _ k _ => k.forEach fun _ _ l =>
    l.endReq).modPart.settleStep

theorem execPlanUnload_keepsParts : KeepsParts (execPlanUnload m) :=
  keepsParts_on fun _ h => h.partCommand fun _ _ _ k => .ite k.finishStop.dropPlan.answer k.answer

theorem execPartStop_keepsParts : KeepsParts (execPartStop m) :=
  keepsParts_on fun _ h => h.partCommand fun _ _ _ k => .ite k.leaveRunning.answer k.answer

theorem execPartRestart_keepsParts : KeepsParts (execPartRestart m) :=
  keepsParts_on fun _ h => h.partCommand fun _ _ _ k => .ite k.answer (.ite k.finishStop.dropPlan.answer
    k.finishStop.clearHalted.modPart.answer)

theorem execPartResume_keepsParts : KeepsParts (execPartResume m) :=
  keepsParts_on fun _ h => h.partCommand fun _ _ _ k => .ite k.answer ((k.forEach fun _ _ l => l.modTile).modPart).answer

theorem execHoldLimit_keepsParts : KeepsParts (execHoldLimit m) :=
  keepsParts_on fun _ h => by
    refine h.partCommand fun _ _ _ k => .ite k.answer (.ite k.answer (Dev.partsWf.answer (k.modPart fun _ => ?_)))
    exact ite_keeps Part.pid rfl

theorem execTransitRead_keepsParts : KeepsParts (execTransitRead m) :=
  keepsParts_on fun _ h => h.command fun _ _ k => .ite k.hostWr.answer k.answer

theorem execPartCreate_keepsParts : KeepsParts (execPartCreate m) :=
  keepsParts_on fun _ h => h.command fun _ _ k => by
    extract_lets mask pid x created emptied trained
    have l : emptied.partsWf := (k.rest.setPart (y := x) rfl).forEach fun _ _ l => l.modTile
    have n : trained.partsWf := l.forEach fun _ _ n => .ite n.enterTraining n
    exact .ite k.answer (.ite k.answer n.answer)

/-- A partition is taken out of the table. -/
protected theorem Dev.partsWf.tdelParts {p : Nat} (h : d.partsWf) : Dev.partsWf { d with parts := tdel d.parts p } := by
  intro q x there
  by_cases same : q = p
  · subst same
    rw [getPart, tget_tdel_same] at there
    cases there
  · rw [getPart, tget_tdel_other _ same] at there
    exact h q x there

protected theorem Dev.partsWf.destroyPart {x : Part} (h : d.partsWf) : (destroyPart x d).partsWf :=
  Dev.partsWf.forEach h.tdelParts fun _ _ l => l.portOff

theorem execPartDestroy_keepsParts : KeepsParts (execPartDestroy m) := keepsParts_on fun _ h => by
  refine h.command fun _ _ k => ?_
  split
  · exact k.answer
  · exact .ite k.answer k.destroyPart.answer

end Sys2Proof.Machine
end

section
/-!
The numbers of the partitions under the functions that writes of registers call.
-/

namespace Sys2Proof.Machine

open Sys2Proof

set_option Elab.async false

variable {d : Dev} {mask v m o c p t : Nat} {idx : Option Nat} {f : Fab → Fab} {sp : Space} {off : BitVec 26} {tile : Fin 2304}

protected theorem Dev.partsWf.modGlb {f : Glb → Glb} (h : d.partsWf) : (modGlb f d).partsWf := h.rest

protected theorem Dev.partsWf.modRcv {f : Rcv → Rcv} (h : d.partsWf) : (modRcv f d).partsWf := h.rest

protected theorem Dev.partsWf.writeRcvCtrl (h : d.partsWf) : (writeRcvCtrl mask v d).partsWf := .ite h.modRcv.writeGo h.modRcv

protected theorem Dev.partsWf.setMask {mask : Bool} (h : d.partsWf) : (setMask v mask d).partsWf := .ite h.rest.rest h.rest

protected theorem Dev.partsWf.modVec {f : MsixVec → MsixVec} (h : d.partsWf) : (modVec v f d).partsWf := h.rest

protected theorem Dev.partsWf.dmaCtrl (h : d.partsWf) : (dmaCtrl c v d).partsWf := by
  unfold dmaCtrl
  extract_lets stops enabled aborted
  have k : enabled.partsWf := .ite h.modDma.dmaEn h.modDma
  have l : aborted.partsWf := .ite k.dmaAbort k
  exact .ite l.dmaResume l

protected theorem Dev.partsWf.histTail (h : d.partsWf) : (histTail v d).partsWf := .ite h h.rest

protected theorem Dev.partsWf.modEph {f : Eph → Eph} (h : d.partsWf) : (modEph p f d).partsWf := h.modPart

protected theorem Dev.partsWf.writeDigTail (h : d.partsWf) : (writeDigTail p v d).partsWf :=
  h.modEph.whenMp fun _ k => k.writeDigest

protected theorem Dev.partsWf.readData (h : d.partsWf) : (readData v d).partsWf := h.rest

protected theorem Dev.partsWf.cmemDiscardEvent (h : d.partsWf) : (cmemDiscardEvent t idx d).partsWf :=
  h.modTile.raise

protected theorem Dev.partsWf.whenParked {f : Tile → Tile} (h : d.partsWf) : (whenParked t idx f d).partsWf :=
  .ite h.modTile h.cmemDiscardEvent

protected theorem Dev.partsWf.writeBrkCtrl (h : d.partsWf) : (writeBrkCtrl t v d).partsWf := h.modTile

protected theorem Dev.partsWf.writeDroop (h : d.partsWf) : (writeDroop m v d).partsWf := .ite h h.modMoon

protected theorem Dev.partsWf.portCtrl (h : d.partsWf) : (portCtrl p v d).partsWf := by
  unfold portCtrl
  extract_lets enabled darkened retrained
  have k : enabled.partsWf := .ite h.portEn h
  have l : darkened.partsWf := .ite (.ite k.setDark k.clearDark) k
  have m : retrained.partsWf := .ite l.portRetrain l
  exact .ite m.forceDown m

protected theorem Dev.partsWf.writeClkCtrl (h : d.partsWf) : (writeClkCtrl mask v d).partsWf := by
  unfold writeClkCtrl
  extract_lets _ cleared auto pref tgt
  have k : cleared.partsWf := .ite h.rest h
  have l : auto.partsWf := .ite k.setRefAuto k
  have n : pref.partsWf := .ite l.selectRef l
  exact .ite n.goStep (.ite n n.rest)

protected theorem Dev.partsWf.whileStill (h : d.partsWf) : (whileStill p f d).partsWf :=
  h.modPart fun _ => ite_keeps Part.pid rfl

protected theorem Dev.partsWf.writeTiming (h : d.partsWf) : (writeTiming p v d).partsWf := .ite h h.whileStill

protected theorem Dev.partsWf.writeMode (h : d.partsWf) : (writeMode p v d).partsWf := .ite h h.whileStill

protected theorem Dev.partsWf.modFabReg (h : d.partsWf) : (modFabReg p f d).partsWf := h.modPart

protected theorem Dev.partsWf.cmemWrite {v : BitVec 64} (h : d.partsWf) : (cmemWrite t o v d).partsWf :=
  .ite h (.ite h h.whenParked)

protected theorem Dev.partsWf.spadWrite {v : BitVec 64} (h : d.partsWf) : (spadWrite t o v d).partsWf :=
  .ite h h.whenParked

protected theorem Dev.partsWf.writeDbgEn {v : Bool} (h : d.partsWf) : (writeDbgEn t v d).partsWf := h.modTile

end Sys2Proof.Machine
end

section
/-!
Accesses to registers. What a read clears and what a write does are fields of each register, so what every access to a space keeps
is gone through register by register, along the tables of registers; for the host's registers, from what they do to a module.
-/

namespace Sys2Proof.Machine

open Sys2Proof

set_option Elab.async false

/-- What holds of a module holds after a read that clears a register, and after a write to it. -/
def Reg.Keeps (P : Dev → Prop) (r : Reg) : Prop := (∀ d, P d → P (r.clr d)) ∧ ∀ mask v d, P d → P (r.wr mask v d)

section
variable {P : Dev → Prop} {off size v : Nat}

@[simp] theorem keeps_ro : (ro off size v).Keeps P := ⟨fun _ h => h, fun _ _ _ h => h⟩

theorem keeps_rc {clr : Dev → Dev} (keep : ∀ d, P d → P (clr d)) : (rc off size v clr).Keeps P :=
  ⟨keep, fun _ _ _ h => h⟩

theorem keeps_rw {wr : Nat → Dev → Dev} (keep : ∀ v d, P d → P (wr v d)) : (rw off size v wr).Keeps P :=
  ⟨fun _ h => h, fun _ _ => keep _⟩

theorem keeps_w1 {wr : Nat → Dev → Dev} (keep : ∀ v d, P d → P (wr v d)) : (w1 off size v wr).Keeps P :=
  ⟨fun _ h => h, fun _ _ => keep _⟩

theorem keeps_noClear {wr : Nat → Nat → Dev → Dev} (keep : ∀ mask v d, P d → P (wr mask v d)) :
    (Reg.mk off size v id wr).Keeps P := ⟨fun _ h => h, keep⟩

end

/-- So it does after accesses to any register of a list. -/
def RegsKeep (P : Dev → Prop) (l : List Reg) : Prop := ∀ r ∈ l, r.Keeps P

section
variable {P : Dev → Prop} {l k : List Reg} {r : Reg}

@[simp] theorem regsKeep_nil : RegsKeep P [] := List.forall_mem_nil _
@[simp] theorem regsKeep_cons : RegsKeep P (r :: l) ↔ r.Keeps P ∧ RegsKeep P l := List.forall_mem_cons
@[simp] theorem regsKeep_append : RegsKeep P (l ++ k) ↔ RegsKeep P l ∧ RegsKeep P k := List.forall_mem_append

theorem regsKeep_one (h : r.Keeps P) : RegsKeep P [r] := regsKeep_cons.2 ⟨h, regsKeep_nil⟩

theorem regsKeep_map {α : Type} {l : List α} {f : α → Reg} (keep : ∀ a, (f a).Keeps P) : RegsKeep P (l.map f) :=
  List.forall_mem_map.2 fun a _ => keep a

theorem regsKeep_flatMap {α : Type} {l : List α} {f : α → List Reg} (keep : ∀ a, RegsKeep P (f a)) :
    RegsKeep P (l.flatMap f) := fun r there => by
  obtain ⟨a, -, member⟩ := List.mem_flatMap.1 there
  exact keep a r member

theorem regsKeep_ite {c : Prop} [Decidable c] (h : RegsKeep P l) (g : RegsKeep P k) : RegsKeep P (if c then l else k) := by
  split
  · exact h
  · exact g

theorem RegsKeep.clear {o n : Nat} {d : Dev} (keep : RegsKeep P l) (h : P d) : P (regsClear l o n d) :=
  List.foldlRecOn (motive := P) _ _ h fun _ k r there => (keep r (List.mem_of_mem_filter there)).1 _ k

theorem RegsKeep.write {o n v : Nat} {d : Dev} (keep : RegsKeep P l) (h : P d) : P (regsWrite l o n v d) :=
  List.foldlRecOn (motive := P) _ _ h fun _ k r there => (keep r (List.mem_of_mem_filter there)).2 _ _ _ k
end

/-- What register accesses of the host over BAR 0 and its configuration spaces do to a module, operation by operation. -/
structure HostKeeps (P : Dev → Prop) : Prop where
  glb : ∀ f d, P d → P (modGlb f d)
  rcv : ∀ f d, P d → P (modRcv f d)
  rcvCtrl : ∀ mask v d, P d → P (writeRcvCtrl mask v d)
  pwr : ∀ (f : Pwr → Pwr) d, P d → P { d with pwr := f d.pwr }
  vec : ∀ v f d, P d → P (modVec v f d)
  mask : ∀ v mask d, P d → P (setMask v mask d)
  mbx : ∀ m f d, P d → P (modMbx m f d)
  post : ∀ m d, P d → P (post m d)
  dma : ∀ c f d, P d → P (modDma c f d)
  dmaCtrl : ∀ c v d, P d → P (dmaCtrl c v d)
  histTail : ∀ v d, P d → P (histTail v d)
  lost : ∀ n d, P d → P { d with flt := { d.flt with lost := n } }
  part : ∀ p f d, (∀ x, (f x).pid = x.pid) → P d → P (modPart p f d)
  admission : ∀ p v d, P d → P (setAdmit p v d)
  digTail : ∀ p v d, P d → P (writeDigTail p v d)
  cfg : ∀ c d, P d → P { d with cfg := c }
  data : ∀ v d, P d → P (readData v d)

section
variable {P : Dev → Prop} (k : HostKeeps P) (d : Dev)
include k

omit k in
theorem identRegs_keep : RegsKeep P (identRegs d) := by simp [identRegs]

theorem glbRegs_keep : RegsKeep P (glbRegs d) := by
  simp only [glbRegs, regsKeep_cons, keeps_ro, true_and, regsKeep_nil, and_true]
  exact ⟨keeps_rc (k.glb _), keeps_rc (k.glb _), keeps_rc (k.glb _)⟩

theorem rcvRegs_keep : RegsKeep P (rcvRegs d) := by
  simp only [rcvRegs, regsKeep_cons, keeps_ro, true_and, regsKeep_nil, and_true]
  exact ⟨keeps_rw fun _ => k.rcv _, keeps_rw fun _ => k.rcv _, keeps_noClear k.rcvCtrl⟩

theorem pwrRegs_keep : RegsKeep P (pwrRegs d) := by
  simp only [pwrRegs, regsKeep_cons, keeps_ro, true_and, regsKeep_nil, and_true]
  exact keeps_rc (k.pwr fun p => { p with hostResets := 0 })

theorem msixRegs_keep (o : Nat) : RegsKeep P (msixRegs d o) := by
  unfold msixRegs
  refine regsKeep_ite regsKeep_nil ?_
  simp only [regsKeep_cons, regsKeep_nil, and_true]
  exact ⟨keeps_rw fun _ => k.vec _ _, keeps_rw fun _ => k.vec _ _, keeps_rw fun _ => k.mask _ _⟩

omit k in
theorem pbaRegs_keep : RegsKeep P (pbaRegs d) := regsKeep_map fun _ => keeps_ro

theorem mbxRegs_keep (m o : Nat) : RegsKeep P (mbxRegs d m o) := by
  simp only [mbxRegs, regsKeep_append, regsKeep_cons, keeps_ro, true_and, regsKeep_nil, and_true]
  refine ⟨⟨keeps_w1 fun v e h => ?_, keeps_rc (k.mbx _ _)⟩, regsKeep_ite ?_ (regsKeep_ite ?_ regsKeep_nil)⟩
  · split
    · exact k.post _ _ h
    · exact h
  · exact regsKeep_one (keeps_noClear fun _ _ => k.mbx _ _)
  · exact regsKeep_one keeps_ro

theorem dmaRegs_keep (c : Nat) : RegsKeep P (dmaRegs d c) := by
  simp only [dmaRegs, regsKeep_cons, keeps_ro, regsKeep_nil, and_true]
  exact ⟨keeps_rw fun _ => k.dma _ _, keeps_rw fun _ => k.dma _ _, keeps_rw fun _ => k.dma _ _, keeps_rw fun _ => k.dma _ _,
    keeps_rw fun _ => k.dmaCtrl _ _, keeps_w1 fun _ => k.dma _ _⟩

theorem fltRegs_keep (o : Nat) : RegsKeep P (fltRegs d o) := by
  simp only [fltRegs, regsKeep_append, regsKeep_cons, keeps_ro, true_and, regsKeep_nil, and_true]
  exact ⟨⟨keeps_rw k.histTail, keeps_rc (k.lost 0)⟩, regsKeep_ite (regsKeep_one keeps_ro) regsKeep_nil⟩

theorem srvRegs_keep (x : Part) : RegsKeep P (srvRegs x) := by
  have srv (f : Serving → Serving) (e : Dev) (h : P e) : P (modSrv x.pid f e) := k.part _ _ _ (fun _ => rfl) h
  simp only [srvRegs, regsKeep_cons, keeps_ro, true_and, regsKeep_nil, and_true]
  exact ⟨keeps_rw fun _ => srv _, keeps_rw fun _ => srv _, keeps_rw fun _ => srv _, keeps_rw fun _ => k.admission _ _, keeps_rc (srv _)⟩

theorem ephRegs_keep (x : Part) : RegsKeep P (ephRegs x) := by
  have eph (f : Eph → Eph) (e : Dev) (h : P e) : P (modEph x.pid f e) := k.part _ _ _ (fun _ => rfl) h
  simp only [ephRegs, regsKeep_cons, keeps_ro, true_and, regsKeep_nil, and_true]
  exact ⟨keeps_rw fun _ _ => k.part _ _ _ fun _ => ite_keeps Part.pid rfl, keeps_rw fun _ => eph _, keeps_rc (eph _),
    keeps_rw fun _ _ => k.part _ _ _ fun _ => ite_keeps Part.pid rfl, keeps_rw fun _ => k.digTail _ _⟩

omit k in
theorem partRegs_keep {f : Part → List Reg} (h : ∀ x, RegsKeep P (f x)) (x : Option Part) : RegsKeep P ((x.map f).getD []) := by
  cases x with
  | none => exact regsKeep_nil
  | some x => exact h x

omit k in
theorem regsKeep_iteSnd {c : Prop} [Decidable c] {a b : Nat × List Reg} (h : RegsKeep P a.2) (g : RegsKeep P b.2) :
    RegsKeep P (if c then a else b).2 := by
  split
  · exact h
  · exact g

theorem bar0Regs_keep (o : Nat) : RegsKeep P (bar0Regs d o).2 := by
  unfold bar0Regs
  exact regsKeep_iteSnd (identRegs_keep d) <| regsKeep_iteSnd (glbRegs_keep k d) <| regsKeep_iteSnd (rcvRegs_keep k d) <|
    regsKeep_iteSnd (pwrRegs_keep k d) <| regsKeep_iteSnd regsKeep_nil <| regsKeep_iteSnd (msixRegs_keep k d _) <|
    regsKeep_iteSnd (pbaRegs_keep d) <| regsKeep_iteSnd regsKeep_nil <| regsKeep_iteSnd (mbxRegs_keep k d _ _) <|
    regsKeep_iteSnd regsKeep_nil <| regsKeep_iteSnd (dmaRegs_keep k d _) <| regsKeep_iteSnd regsKeep_nil <|
    regsKeep_iteSnd (fltRegs_keep k d _) <| regsKeep_iteSnd (partRegs_keep (srvRegs_keep k) _) <|
    regsKeep_iteSnd (partRegs_keep (ephRegs_keep k) _) regsKeep_nil

theorem configRegs_keep : RegsKeep P (configRegs d) := by
  simp only [configRegs, regsKeep_cons, keeps_ro, true_and, regsKeep_nil, and_true]
  exact ⟨keeps_rw fun _ _ => k.cfg _ _, keeps_rw fun _ e h => by
    split
    · exact k.cfg _ _ h
    · exact h⟩

theorem configNear_keep (o : Nat) : RegsKeep P (configNear d o) :=
  regsKeep_ite (regsKeep_one keeps_ro) fun r there => configRegs_keep k d r (List.mem_of_mem_filter there)

theorem hdmRegs_keep : RegsKeep P (hdmRegs d) := by
  simp only [hdmRegs, regsKeep_cons, regsKeep_nil, and_true]
  have put {f : Nat → Dev → HostCfg} (v : Nat) (e : Dev) (h : P e) : P (if hdmLocked e.cfg then e else { e with cfg := f v e }) := by
    split
    · exact h
    · exact k.cfg _ _ h
  exact ⟨keeps_rw put, keeps_rw put, keeps_rw put⟩

theorem hostRegs_keep (sp : Space) (o : Nat) : RegsKeep P (hostRegs d sp o) := by
  unfold hostRegs
  split
  · exact configNear_keep k d o
  · exact regsKeep_ite (hdmRegs_keep k d) regsKeep_nil
  · exact regsKeep_nil

theorem bar0Read_keeps {o n : Nat} {e : Dev} (h : P e) : P (bar0Read o n e) := by
  unfold bar0Read
  split
  · exact k.glb _ _ (k.data _ _ h)
  · exact (bar0Regs_keep k e o).clear (k.data _ _ h)

theorem bar0Write_keeps {o n v : Nat} {e : Dev} (h : P e) : P (bar0Write o n v e) := by
  unfold bar0Write
  split
  · exact k.glb _ _ h
  · split
    · exact h
    · exact (bar0Regs_keep k e o).write h

theorem hostRead_keeps {sp : Space} {o n : Nat} {e : Dev} (h : P e) :
    P (hostReg sp o n (fun l => readData (regsRead l o n)) e) := by
  unfold hostReg
  split
  · exact k.data _ _ h
  · exact h

theorem hostWrite_keeps {sp : Space} {o n v : Nat} {e : Dev} (h : P e) : P (hostReg sp o n (fun l => regsWrite l o n v) e) := by
  unfold hostReg
  split
  · exact (hostRegs_keep k e sp o).write h
  · exact h

end

end Sys2Proof.Machine
end

section
/-!
The numbers of the partitions under accesses to registers.
-/

namespace Sys2Proof.Machine

open Sys2Proof

set_option Elab.async false

/-- The host's accesses write partitions through `modPart` alone. -/
theorem partsWf_hostKeeps : HostKeeps Dev.partsWf where
  glb _ _ h := h.modGlb
  rcv _ _ h := h.modRcv
  rcvCtrl _ _ _ h := h.writeRcvCtrl
  pwr _ _ h := h.rest
  vec _ _ _ h := h.modVec
  mask _ _ _ h := h.setMask
  mbx _ _ _ h := h.modMbx
  post _ _ h := h.post
  dma _ _ _ h := h.modDma
  dmaCtrl _ _ _ h := h.dmaCtrl
  histTail _ _ h := h.histTail
  lost _ _ h := h.rest
  part _ _ _ own h := h.modPart own
  admission _ _ _ h := h.setAdmit
  digTail _ _ _ h := h.writeDigTail
  cfg _ _ h := h.rest
  data _ _ h := h.readData

section
variable (d : Dev)

theorem tileRegs_keepParts (t : Nat) : RegsKeep Dev.partsWf (tileRegs d t) := by
  simp only [tileRegs, regsKeep_append, regsKeep_cons, keeps_ro, true_and, regsKeep_nil, and_true]
  have parked {off size v : Nat} {f : Nat → Tile → Tile} : (rw off size v fun v => whenParked t none (f v)).Keeps Dev.partsWf :=
    keeps_rw fun _ _ h => h.whenParked
  refine ⟨⟨keeps_w1 fun v e h => ?_, keeps_rw fun _ _ h => h.writeBrkCtrl,
    keeps_rw fun _ _ h => h.modTile, parked, parked,
    parked, parked, parked, parked,
    keeps_w1 fun _ _ h => h.modTile, keeps_rc fun _ h => h.modTile,
    keeps_w1 fun _ _ h => h.modTile⟩,
    regsKeep_map fun _ => keeps_ro⟩
  split
  · exact h.modTile
  · exact h

theorem clockRegs_keepParts (m : Nat) : RegsKeep Dev.partsWf (clockRegs d m) := by
  simp only [clockRegs, regsKeep_append, regsKeep_cons, keeps_ro, true_and, regsKeep_nil, and_true]
  refine ⟨⟨keeps_rw fun _ _ h => h.writeDroop, keeps_rc fun _ h => h.modMoon⟩, regsKeep_ite ?_ regsKeep_nil⟩
  simp only [regsKeep_append, regsKeep_cons, keeps_ro, true_and, regsKeep_nil, and_true]
  exact ⟨⟨keeps_rc fun _ h => h.modMoon, keeps_rc fun _ h => h.modMoon⟩, regsKeep_map fun _ => keeps_ro⟩

theorem sliceRegs_keepParts (m : Nat) : RegsKeep Dev.partsWf (sliceRegs d m) := by
  refine regsKeep_cons.2 ⟨keeps_ro, regsKeep_flatMap fun s => ?_⟩
  simp only [regsKeep_cons, keeps_ro, true_and, regsKeep_nil, and_true]
  exact ⟨keeps_rc fun _ h => h.modSlice, keeps_rc fun _ h => h.modSlice, keeps_rc fun _ h => h.modSlice,
    keeps_rc fun _ h => h.modSlice, keeps_rc fun _ h => h.modSlice, keeps_rc fun _ h => h.modSlice⟩

theorem chanRegs_keepParts (c : Nat) : RegsKeep Dev.partsWf (chanRegs d c) := by
  simp only [chanRegs, regsKeep_cons, keeps_ro, true_and, regsKeep_nil, and_true]
  exact ⟨keeps_rc fun _ h => h.modChan, keeps_rc fun _ h => h.modChan, keeps_rc fun _ h => h.modChan,
    keeps_rc fun _ h => h.modChan, keeps_rc fun _ h => h.modChan⟩

theorem memMoonRegs_keepParts (q : Nat) : RegsKeep Dev.partsWf (memMoonRegs d q) := by
  simp only [memMoonRegs, regsKeep_append, regsKeep_cons, keeps_ro, true_and, regsKeep_nil, and_true]
  exact ⟨⟨keeps_rc fun _ h => h.modMm, keeps_rc fun _ h => h.modMm, keeps_rc fun _ h => h.modMm,
    keeps_rc fun _ h => h.modMm⟩, regsKeep_map fun _ => keeps_w1 fun _ _ h => h.forEach fun _ _ k => k.clearFence⟩

theorem portRegs_keepParts (q o : Nat) : RegsKeep Dev.partsWf (portRegs d q o) := by
  refine regsKeep_ite regsKeep_nil (regsKeep_map fun i => ?_)
  dsimp only
  split
  · exact keeps_rw fun _ _ h => h.portCtrl
  · split
    · exact keeps_rw fun _ _ h => h.writeJobId
    · split
      · exact keeps_rc fun _ h => h.modPort
      · exact keeps_ro

theorem clkRegs_keepParts : RegsKeep Dev.partsWf (clkRegs d) := by
  simp only [clkRegs, regsKeep_cons, regsKeep_nil, and_true]
  exact ⟨keeps_noClear fun _ _ _ h => h.writeClkCtrl, keeps_w1 fun _ _ h => h.rest⟩

theorem mtRegs_keepParts : RegsKeep Dev.partsWf (mtRegs d) := by simp [mtRegs]

theorem fabRegs_keepParts (x : Part) : RegsKeep Dev.partsWf (fabRegs d x) := by
  simp only [fabRegs, regsKeep_append, regsKeep_cons, keeps_ro, regsKeep_nil, and_true]
  exact ⟨⟨keeps_rw fun _ _ h => h.writeTiming, keeps_rw fun _ _ h => h.writeMode, keeps_rc fun _ h => h.modFabReg,
    keeps_rc fun _ h => h.modFabReg, keeps_rc fun _ h => h.modFabReg, keeps_rc fun _ h => h.modFabReg,
    keeps_rc fun _ h => h.modFabReg, keeps_rc fun _ h => h.modFabReg, keeps_rc fun _ h => h.modFabReg⟩,
    regsKeep_map fun _ => keeps_ro⟩

theorem moonRegs_keepParts (m o : Nat) : RegsKeep Dev.partsWf (moonRegs d m o) :=
  regsKeep_append.2 ⟨clockRegs_keepParts d m, regsKeep_ite (sliceRegs_keepParts d m) <|
    regsKeep_ite (regsKeep_append.2 ⟨regsKeep_flatMap fun _ => chanRegs_keepParts d _, memMoonRegs_keepParts d _⟩) <|
    regsKeep_ite (portRegs_keepParts d _ _) <| regsKeep_append.2 ⟨regsKeep_append.2 ⟨clkRegs_keepParts d, mtRegs_keepParts d⟩,
      regsKeep_flatMap fun _ => fabRegs_keepParts d _⟩⟩

theorem wordRegs_keepParts (sp : Space) (o : Nat) : RegsKeep Dev.partsWf (wordRegs d sp o) := by
  cases sp with
  | commandMemory t => exact regsKeep_ite regsKeep_nil (regsKeep_one (keeps_rw fun _ _ h => h.cmemWrite))
  | scratchpad t => exact regsKeep_ite regsKeep_nil (regsKeep_one (keeps_rw fun _ _ h => h.spadWrite))
  | contextTable =>
    refine regsKeep_ite regsKeep_nil (regsKeep_one (keeps_rw fun v e h => ?_))
    have k : (setCpt (o / 8 * 8 / 8) (cptStored (cptE e (o / 8 * 8 / 8)) v) e).partsWf := h.setCpt
    exact k.rest
  | weightTable => exact regsKeep_ite regsKeep_nil (regsKeep_one (keeps_rw fun _ _ h => h.rest))
  | _ => exact regsKeep_nil

theorem mpRegs_keepParts (sp : Space) (o : Nat) : RegsKeep Dev.partsWf (mpRegs d sp o) := by
  unfold mpRegs
  split
  · exact regsKeep_nil
  · exact tileRegs_keepParts d _
  · exact moonRegs_keepParts d _ o
  · exact wordRegs_keepParts d _ o
end

section
variable {sp : Space} {o n v : Nat} {d : Dev}

protected theorem Dev.partsWf.mpRead (h : d.partsWf) : (mpRead sp o n d).partsWf :=
  .ite h ((mpRegs_keepParts _ sp o).clear h.freeTicks.readData.rest)

protected theorem Dev.partsWf.regRead (h : d.partsWf) : (regRead sp o n d).partsWf := by
  unfold regRead
  split
  · exact h.whenHost fun _ k => bar0Read_keeps partsWf_hostKeeps k
  · exact h.whenHost fun _ k => hostRead_keeps partsWf_hostKeeps k
  · exact h.whenHost fun _ k => hostRead_keeps partsWf_hostKeeps k
  · exact h.whenMp fun _ k => k.mpRead

protected theorem Dev.partsWf.regWrite (h : d.partsWf) : (regWrite sp o n v d).partsWf := by
  unfold regWrite
  split
  · exact h.whenHost fun _ k => bar0Write_keeps partsWf_hostKeeps k
  · exact h.whenHost fun _ k => hostWrite_keeps partsWf_hostKeeps k
  · exact h.whenHost fun _ k => hostWrite_keeps partsWf_hostKeeps k
  · exact h.whenMp fun e k => .ite k ((mpRegs_keepParts e _ o).write k)
end

end Sys2Proof.Machine
end

section
/-!
The numbers of the partitions under the commands that read and write registers.
-/

namespace Sys2Proof.Machine

open Sys2Proof

set_option Elab.async false

variable {sp : Space} {off : BitVec 26} {v : BitVec 64} {tile : Fin 2304}

theorem execReadClear_keepsParts {wide : Bool} : KeepsParts (execReadClear sp off wide) := by
  intro s t h stepped
  unfold execReadClear at stepped
  extract_lets n at stepped
  split at stepped
  · cases stepped
  · exact keepsParts_on (fun _ k => k.regRead) s t h stepped

theorem execRegisterWrite_keepsParts {bytes : Nat} : KeepsParts (execRegisterWrite sp off bytes v) := by
  intro s t h stepped
  unfold execRegisterWrite at stepped
  split at stepped
  · cases stepped
  · exact keepsParts_on (fun _ k => k.regWrite) s t h stepped

theorem execCommandMemoryWrite_keepsParts {off : BitVec 16} : KeepsParts (execCommandMemoryWrite tile off v) :=
  keepsParts_on fun _ h => h.whenMp fun _ k => k.cmemWrite

theorem execScratchpadWrite_keepsParts {off : BitVec 18} : KeepsParts (execScratchpadWrite tile off v) :=
  keepsParts_on fun _ h => h.whenMp fun _ k => k.spadWrite

theorem execClear_keepsParts : KeepsParts (execClear tile) :=
  keepsParts_on fun _ h => h.whenMp fun _ k => k.modTile

theorem execDbgEn_keepsParts {v : Bool} : KeepsParts (execDbgEn tile v) := keepsParts_on fun _ h => h.whenMp fun _ k => k.writeDbgEn

end Sys2Proof.Machine
end

section
/-!
Every command leaves every partition under its number, and so does every step.
-/

namespace Sys2Proof.Machine

open Sys2Proof

set_option Elab.async false

theorem exec_keepsParts : (c : Instr) → KeepsParts (exec c)
  | .nop _ => execNop_keepsParts
  | .illOpc _ => execIllOpc_keepsParts
  | .matq _ => execMatq_keepsParts
  | .matqDrain _ => execMatqDrain_keepsParts
  | .vecq _ => execVecq_keepsParts
  | .funq _ => execFunq_keepsParts
  | .send _ => execSend_keepsParts
  | .recv _ => execRecv_keepsParts
  | .load _ => execLoad_keepsParts
  | .store _ => execStore_keepsParts
  | .wait _ => execWait_keepsParts
  | .waitRelease _ => execWaitRelease_keepsParts
  | .holdEnd _ => execHoldEnd_keepsParts
  | .holdLimitExpiry _ => execHoldLimitExpiry_keepsParts
  | .cnt _ => execCnt_keepsParts
  | .cmp _ => execCmp_keepsParts
  | .skip _ => execSkip_keepsParts
  | .rept _ => execRept_keepsParts
  | .spld _ => execSpld_keepsParts
  | .mark _ => execMark_keepsParts
  | .brk _ => execBrk_keepsParts
  | .breakPark _ => execBreakPark_keepsParts
  | .orbitBoundary _ => execOrbitBoundary_keepsParts
  | .pacingEnd _ => execPacingEnd_keepsParts
  | .slotStageWrite _ => execSlotStageWrite_keepsParts
  | .meshArrival _ => execMeshArrival_keepsParts
  | .memoryDelivery _ _ => execMemoryDelivery_keepsParts
  | .fenceReceive _ => execFenceReceive_keepsParts
  | .storeWrite _ _ => execStoreWrite_keepsParts
  | .refresh _ _ => execRefresh_keepsParts
  | .routineRetraining _ => execRoutineRetraining_keepsParts
  | .crcRetraining _ => execCrcRetraining_keepsParts
  | .trainingPass _ => execTrainingPass_keepsParts
  | .trainingFail _ => execTrainingFail_keepsParts
  | .readCrcFail _ _ _ => execReadCrcFail_keepsParts
  | .eccRead _ _ => execEccRead_keepsParts
  | .deviceTemperatureRead _ _ => execDeviceTemperatureRead_keepsParts
  | .tieredRead _ _ _ => execTieredRead_keepsParts
  | .pageMap _ => execPageMap_keepsParts
  | .pageUnmap _ => execPageUnmap_keepsParts
  | .pageRead _ => execPageRead_keepsParts
  | .dmaEn _ _ => execDmaEn_keepsParts
  | .abort _ => execAbort_keepsParts
  | .resume _ => execResume_keepsParts
  | .tail _ _ => execTail_keepsParts
  | .descriptorRead _ => execDescriptorRead_keepsParts
  | .descriptorReadFail _ => execDescriptorReadFail_keepsParts
  | .lockWaitEnd _ => execLockWaitEnd_keepsParts
  | .burst _ => execBurst_keepsParts
  | .hostCompletionTimeout _ => execHostCompletionTimeout_keepsParts
  | .writeBack _ => execWriteBack_keepsParts
  | .abortWriteBack _ => execAbortWriteBack_keepsParts
  | .submit _ => execSubmit_keepsParts
  | .admitWrite _ _ => execAdmitWrite_keepsParts
  | .placement _ => execPlacement_keepsParts
  | .stale _ => execStale_keepsParts
  | .placementReceive _ => execPlacementReceive_keepsParts
  | .slotTableBuild _ => execSlotTableBuild_keepsParts
  | .tokenDelivery _ => execTokenDelivery_keepsParts
  | .gap _ => execGap_keepsParts
  | .weightLoad _ => execWeightLoad_keepsParts
  | .shardFetchDone _ _ _ => execShardFetchDone_keepsParts
  | .shardTimeout _ _ _ => execShardTimeout_keepsParts
  | .weightFlip _ => execWeightFlip_keepsParts
  | .weightRelease _ => execWeightRelease_keepsParts
  | .adapterLoad _ => execAdapterLoad_keepsParts
  | .adapterDelete _ => execAdapterDelete_keepsParts
  | .installOpen _ => execInstallOpen_keepsParts
  | .imageBegin _ => execImageBegin_keepsParts
  | .blockWrite _ => execBlockWrite_keepsParts
  | .imageCommit _ => execImageCommit_keepsParts
  | .imageDelete _ => execImageDelete_keepsParts
  | .installClose _ => execInstallClose_keepsParts
  | .journalReplay => execJournalReplay_keepsParts
  | .storeReady => execStoreReady_keepsParts
  | .post _ => execPost_keepsParts
  | .mpAccept _ => execMpAccept_keepsParts
  | .auto _ => execAuto_keepsParts
  | .shed => execShed_keepsParts
  | .shedClear => execShedClear_keepsParts
  | .partCreate _ => execPartCreate_keepsParts
  | .partDestroy _ => execPartDestroy_keepsParts
  | .timeRoot _ => execTimeRoot_keepsParts
  | .stepLimit _ => execStepLimit_keepsParts
  | .transitRead _ => execTransitRead_keepsParts
  | .dirRead _ => execDirRead_keepsParts
  | .planLoad _ => execPlanLoad_keepsParts
  | .planUnload _ => execPlanUnload_keepsParts
  | .partStop _ => execPartStop_keepsParts
  | .partRestart _ => execPartRestart_keepsParts
  | .partResume _ => execPartResume_keepsParts
  | .levelReport _ => execLevelReport_keepsParts
  | .holdLimit _ => execHoldLimit_keepsParts
  | .selectorLoad _ => execSelectorLoad_keepsParts
  | .reqCancel _ => execReqCancel_keepsParts
  | .reqEclipse _ => execReqEclipse_keepsParts
  | .reqResume _ => execReqResume_keepsParts
  | .reqRemap _ => execReqRemap_keepsParts
  | .budgetSet _ => execBudgetSet_keepsParts
  | .rankWrite _ => execRankWrite_keepsParts
  | .jobPrepare _ => execJobPrepare_keepsParts
  | .jobGo _ => execJobGo_keepsParts
  | .jobStop _ => execJobStop_keepsParts
  | .ckptTake _ => execCkptTake_keepsParts
  | .ckptRestore _ => execCkptRestore_keepsParts
  | .routeSwitch _ => execRouteSwitch_keepsParts
  | .portRead _ => execPortRead_keepsParts
  | .portCtrl _ => execPortCtrl_keepsParts
  | .bistRun _ => execBistRun_keepsParts
  | .bistRunEnd _ => execBistRunEnd_keepsParts
  | .craterRead _ => execCraterRead_keepsParts
  | .escalationSet _ => execEscalationSet_keepsParts
  | .faultHoldClear _ => execFaultHoldClear_keepsParts
  | .tokenApply _ => execTokenApply_keepsParts
  | .go _ => execGo_keepsParts
  | .stepChangeResume _ => execStepChangeResume_keepsParts
  | .refPref _ => execRefPref_keepsParts
  | .droop _ _ => execDroop_keepsParts
  | .tideExcursion _ => execTideExcursion_keepsParts
  | .tideCeilingRaise => execTideCeilingRaise_keepsParts
  | .couplingPause _ _ => execCouplingPause_keepsParts
  | .referenceBad _ => execReferenceBad_keepsParts
  | .referenceGood _ => execReferenceGood_keepsParts
  | .holdoverExpiry => execHoldoverExpiry_keepsParts
  | .pllLockLoss _ => execPllLockLoss_keepsParts
  | .pllRelock _ => execPllRelock_keepsParts
  | .pllFail _ => execPllFail_keepsParts
  | .seamPhaseError _ => execSeamPhaseError_keepsParts
  | .seamRealign _ => execSeamRealign_keepsParts
  | .seamFail _ => execSeamFail_keepsParts
  | .portEn _ _ => execPortEn_keepsParts
  | .retrain _ => execRetrain_keepsParts
  | .dark _ _ => execDark_keepsParts
  | .forceDown _ => execForceDown_keepsParts
  | .jobIdWrite _ _ => execJobIdWrite_keepsParts
  | .laneAcquisitionTimeout _ _ => execLaneAcquisitionTimeout_keepsParts
  | .trainingCell _ _ => execTrainingCell_keepsParts
  | .trainTimeout _ => execTrainTimeout_keepsParts
  | .packetReceived _ _ => execPacketReceived_keepsParts
  | .deliveryPush _ => execDeliveryPush_keepsParts
  | .streamAppend _ => execStreamAppend_keepsParts
  | .slotStart _ => execSlotStart_keepsParts
  | .cometSlot _ => execCometSlot_keepsParts
  | .lockLoss _ _ => execLockLoss_keepsParts
  | .lockRegain _ _ => execLockRegain_keepsParts
  | .laneFailed _ _ => execLaneFailed_keepsParts
  | .portOutageExpiry _ => execPortOutageExpiry_keepsParts
  | .haloReq _ _ => execHaloReq_keepsParts
  | .haloAck _ _ => execHaloAck_keepsParts
  | .deskewDone _ => execDeskewDone_keepsParts
  | .substTimeout _ => execSubstTimeout_keepsParts
  | .farDownSeen _ => execFarDownSeen_keepsParts
  | .laserOff _ => execLaserOff_keepsParts
  | .dueSlotEnd _ _ => execDueSlotEnd_keepsParts
  | .receipt _ => execReceipt_keepsParts
  | .fabSecond _ => execFabSecond_keepsParts
  | .orbitMark _ => execOrbitMark_keepsParts
  | .checkpointWriteDone _ => execCheckpointWriteDone_keepsParts
  | .markTimeout _ => execMarkTimeout_keepsParts
  | .time _ => execTime_keepsParts
  | .timeParentLoss => execTimeParentLoss_keepsParts
  | .mgmt _ => execMgmt_keepsParts
  | .discTimeout _ => execDiscTimeout_keepsParts
  | .jobStart _ => execJobStart_keepsParts
  | .faultEvent _ _ _ _ _ => execFaultEvent_keepsParts
  | .pulseEnd => execPulseEnd_keepsParts
  | .watchdog => execWatchdog_keepsParts
  | .seFail => execSeFail_keepsParts
  | .aliveToggle => execAliveToggle_keepsParts
  | .recoveryGo _ => execRecoveryGo_keepsParts
  | .ideIntegrity _ => execIdeIntegrity_keepsParts
  | .getVersion => execGetVersion_keepsParts
  | .getCapabilities => execGetCapabilities_keepsParts
  | .negotiateAlgorithms _ _ _ _ => execNegotiateAlgorithms_keepsParts
  | .getDigests => execGetDigests_keepsParts
  | .getCertificate _ _ _ => execGetCertificate_keepsParts
  | .challenge _ _ => execChallenge_keepsParts
  | .getMeasurements _ _ _ => execGetMeasurements_keepsParts
  | .keyExchange _ _ _ => execKeyExchange_keepsParts
  | .finish _ _ => execFinish_keepsParts
  | .keyUpdate _ => execKeyUpdate_keepsParts
  | .heartbeat _ => execHeartbeat_keepsParts
  | .endSession _ => execEndSession_keepsParts
  | .setEndpointId _ => execSetEndpointId_keepsParts
  | .getEndpointId => execGetEndpointId_keepsParts
  | .getMctpVersionSupport _ => execGetMctpVersionSupport_keepsParts
  | .getMessageTypeSupport => execGetMessageTypeSupport_keepsParts
  | .identRead => execIdentRead_keepsParts
  | .sensorRead => execSensorRead_keepsParts
  | .powerLimit _ => execPowerLimit_keepsParts
  | .faultSummary => execFaultSummary_keepsParts
  | .quiesce => execQuiesce_keepsParts
  | .inputRise => execInputRise_keepsParts
  | .internalResetRelease _ => execInternalResetRelease_keepsParts
  | .inputRange _ => execInputRange_keepsParts
  | .inputFall => execInputFall_keepsParts
  | .holdUpEnd => execHoldUpEnd_keepsParts
  | .overvoltage => execOvervoltage_keepsParts
  | .railFail _ => execRailFail_keepsParts
  | .powerMeasurement _ _ _ _ => execPowerMeasurement_keepsParts
  | .powerCeilingRaise => execPowerCeilingRaise_keepsParts
  | .thermalRead _ _ => execThermalRead_keepsParts
  | .sensorFail _ => execSensorFail_keepsParts
  | .vcoreUv => execVcoreUv_keepsParts
  | .vcoreOv => execVcoreOv_keepsParts
  | .vcoreOcp => execVcoreOcp_keepsParts
  | .phaseFail => execPhaseFail_keepsParts
  | .rstN _ => execRstN_keepsParts
  | .perstN => execPerstN_keepsParts
  | .windowRead _ _ => execWindowRead_keepsParts
  | .windowWrite _ _ => execWindowWrite_keepsParts
  | .windowTimeout _ _ => execWindowTimeout_keepsParts
  | .snoop => execSnoop_keepsParts
  | .biasFlip => execBiasFlip_keepsParts
  | .commandMemoryWrite _ _ _ => execCommandMemoryWrite_keepsParts
  | .scratchpadWrite _ _ _ => execScratchpadWrite_keepsParts
  | .clear _ => execClear_keepsParts
  | .dbgEn _ _ => execDbgEn_keepsParts
  | .readClear _ _ _ => execReadClear_keepsParts
  | .registerWrite _ _ _ _ => execRegisterWrite_keepsParts
  | .hostLinkTrained _ _ _ => execHostLinkTrained_keepsParts
  | .manifestReadDone _ _ => execManifestReadDone_keepsParts
  | .manifestReadTimeout _ _ => execManifestReadTimeout_keepsParts
  | .retrainingDeferralExpiry _ => execRetrainingDeferralExpiry_keepsParts
  | .runningEntryCleanUpDone _ => execRunningEntryCleanUpDone_keepsParts
  | .ideKeyManagement _ _ => execIdeKeyManagement_keepsParts
  | .doeDiscovery _ => execDoeDiscovery_keepsParts
  | .ieee11491Instruction _ => execIeee11491Instruction_keepsParts
  | .bar0ErrRead _ _ => execBar0ErrRead_keepsParts
  | .heartbeatIncrement _ => execHeartbeatIncrement_keepsParts

/-- What the step relation keeps, whether a command waits or none does. -/
theorem step_keepsParts : KeepsParts step := fun s t h stepped => by
  unfold step at stepped
  split at stepped
  · exact keepsParts_on (fun _ k => k.idle) s t h stepped
  · next c rest _ => exact exec_keepsParts c { s with pending := rest } t h stepped

/-- Settles O58: a partition is written by `setPart` alone, from a record that was read under the number it is written to, and the
updates of the whole table leave each its number; `exec_keepsParts` takes the commands one by one and `Dev.partsWf.idle` the tick that
passes with none. -/
theorem everyStepKeepsThePartitions : Obligations.EveryStepKeepsThePartitions := step_keepsParts

end Sys2Proof.Machine
end

section
/-!
A SEALED module (R424): what its units hold, and that what goes on while it stands still leaves them. One lemma for each function of
the model that can run while SEALED is set says that it keeps what the units hold and the latch; it has the function's name under
`SealedAs`.
-/

namespace Sys2Proof.Machine

open Sys2Proof

set_option Elab.async false

/-! ### What a SEALED module holds -/

/-- What the units hold that stand still while the module is SEALED: host memory, OTP, the boot ROM and flash, GDDR7, the weight page
table, the rank and budget tables, the channels, the memory moons and the weight store. -/
def holdings (d : Dev) : Dev :=
  { host := d.host, otp := d.otp, rom := d.rom, flash := d.flash, gddr := d.gddr, wpt := d.wpt, ranks := d.ranks, budgets := d.budgets
    chans := d.chans, mm := d.mm, store := { d.store with stopping := false } }

/-- A module is SEALED and holds what another holds. -/
structure SealedAs (d e : Dev) : Prop where
  holds : holdings e = holdings d
  sealed : e.flt.sealed = true

section
variable {c d e : Dev} {q : Prop} [Decidable q]

protected theorem SealedAs.refl (h : d.flt.sealed = true) : SealedAs d d := ⟨rfl, h⟩

protected theorem SealedAs.awake (h : SealedAs c d) : awake d = false := by simp [Machine.awake, h.sealed]

protected theorem SealedAs.mpUp (h : SealedAs c d) : mpUp d = false := by simp [Machine.mpUp, h.awake]

section
variable {tiles : Tab Tile} {clk : Clk} {mt : Mt} {dma : Tab Dma} {ports : Tab Port} {parts : Tab Part} {mbx : Tab Mailbox}
  {glb : Glb} {ident : Ident} {rcv : Rcv} {pwr : Pwr} {crater : Crater} {sec : Sec} {jtag : JtagOp} {cfg : HostCfg}
  {msix : Tab MsixVec} {hostBad : List (Nat × Nat)} {cpt : Tab (BitVec 64)} {cptBad wptBad : List Nat} {rot : Tab Nat}
  {bist : Option BistRun} {out : Out} {free : Nat}

/-- Whatever an update writes beside these units and the fault logic. -/
protected theorem SealedAs.rest (h : SealedAs c d) : SealedAs c { d with
    tiles, clk, mt, dma, ports, parts, mbx, glb, ident, rcv, pwr, crater, sec, jtag, cfg, msix, hostBad, cpt, cptBad, wptBad, rot
    bist, out, free } := ⟨h.holds, h.sealed⟩
end

/-- An update of the fault logic that leaves the latch set. -/
protected theorem SealedAs.setFlt {f : Flt} (h : SealedAs c d) (sealed : f.sealed = true) : SealedAs c { d with flt := f } :=
  ⟨h.holds, sealed⟩

protected theorem SealedAs.ite (h : SealedAs c d) (k : SealedAs c e) : SealedAs c (if q then d else e) :=
  iteInduction (motive := SealedAs c) (fun _ => h) fun _ => k

/-- The MP does nothing while the module is SEALED. -/
protected theorem SealedAs.unlessMp {w : Bool} (h : SealedAs c d) : SealedAs c (if w && Machine.mpUp d then e else d) := by
  rwa [h.mpUp, Bool.and_false, if_neg Bool.false_ne_true]

protected theorem SealedAs.forEach {α : Type} {l : List α} {f : α → Dev → Dev} (h : SealedAs c d)
    (keep : ∀ a e, SealedAs c e → SealedAs c (f a e)) : SealedAs c (forEach l f d) := forEach_keeps _ f keep l d h

/-- Modules that differ in their clocks and machine time alone. -/
protected theorem SealedAs.of_untimed (h : SealedAs c d) (timed : untimed e = untimed d) : SealedAs c e :=
  ⟨(congrArg holdings timed :).trans h.holds, (congrArg (·.flt.sealed) timed :).trans h.sealed⟩

protected theorem SealedAs.passTo {w : Nat} (h : SealedAs c d) : SealedAs c (passTo w d) := h.of_untimed (untimed_passTo w d)

protected theorem SealedAs.letPass {g : Nat} (h : SealedAs c d) : SealedAs c (letPass g d) := .ite h.passTo h

protected theorem SealedAs.whenDue {w : Nat} {f : Dev → Dev} (h : SealedAs c d) (keep : ∀ e, SealedAs c e → SealedAs c (f e)) :
    SealedAs c (whenDue w f d) := .ite (keep _ h) (.ite (keep _ h.passTo) h)

protected theorem SealedAs.modPart {p : Nat} {f : Part → Part} (h : SealedAs c d) : SealedAs c (modPart p f d) := by
  unfold Machine.modPart
  split
  · exact h.rest
  · exact h

protected theorem SealedAs.withPart {p : Nat} {f : Part → Dev → Dev} (h : SealedAs c d)
    (keep : ∀ x e, SealedAs c e → SealedAs c (f x e)) : SealedAs c (withPart p f d) := by
  unfold Machine.withPart
  split
  · exact keep _ _ h
  · exact h

end

/-! ### Fault events -/

section
variable {c d : Dev} {p v m cls src cause part detail : Nat} {x : Part}

protected theorem SealedAs.raiseVec (h : SealedAs c d) : SealedAs c (raiseVec v d) := .ite h.rest h.rest

protected theorem SealedAs.answer {st reason : Nat} {pl : List Byte} (h : SealedAs c d) : SealedAs c (answer m st reason pl d) := by
  unfold answer
  exact SealedAs.raiseVec h.rest

protected theorem SealedAs.endHold {no start : Nat} {w : WaitSt} (h : SealedAs c d) : SealedAs c (endHold no w start d) := by
  unfold endHold
  extract_lets _ _ _ ended
  have k : SealedAs c ended := h.rest
  rwa [k.mpUp, if_neg Bool.false_ne_true]

protected theorem SealedAs.endHolds (h : SealedAs c d) : SealedAs c (endHolds x d) := by
  unfold endHolds
  refine h.forEach fun _ _ k => ?_
  split
  · split
    · exact k.endHold
    · exact k
  · exact k

protected theorem SealedAs.releasePins (h : SealedAs c d) : SealedAs c (releasePins p d) := h.withPart fun _ _ k => .ite k k.rest

protected theorem SealedAs.parkTiles (h : SealedAs c d) : SealedAs c (parkTiles p d) :=
  h.withPart fun _ _ k => .releasePins (.modPart (k.forEach fun _ _ l => l.rest))

protected theorem SealedAs.leaveRunning (h : SealedAs c d) : SealedAs c (leaveRunning p d) := by
  unfold leaveRunning
  refine h.withPart fun x e k => ?_
  extract_lets ticks stopped parked
  have l : SealedAs c stopped := k.endHolds.modPart
  have m : SealedAs c parked := .ite l l.parkTiles
  rw [m.mpUp, if_neg Bool.false_ne_true]
  exact .ite k m

protected theorem SealedAs.haltParts (h : SealedAs c d) : SealedAs c (haltParts part d) :=
  .ite (h.forEach fun _ _ k => k.leaveRunning) h.leaveRunning

protected theorem SealedAs.sealModule (h : SealedAs c d) : SealedAs c (sealModule d) := ⟨h.holds, rfl⟩

protected theorem SealedAs.history (h : SealedAs c d) : SealedAs c (history cls src cause part detail d) :=
  .ite (.raiseVec (h.setFlt h.sealed)) (h.setFlt h.sealed)

protected theorem SealedAs.recordEvent (h : SealedAs c d) : SealedAs c (recordEvent cls src cause part detail d) := by
  unfold recordEvent
  extract_lets entered raised data noted
  have k : SealedAs c raised := .ite h.history.raiseVec h.history
  have l : SealedAs c noted := k.unlessMp
  exact .ite (l.setFlt l.sealed) l

protected theorem SealedAs.enterEvent (h : SealedAs c d) : SealedAs c (enterEvent cls src cause part detail d) :=
  .ite (.sealModule (.ite h.recordEvent.haltParts h.recordEvent)) (.ite h.recordEvent.haltParts h.recordEvent)

protected theorem SealedAs.setEsc {x : Esc} (h : SealedAs c d) : SealedAs c (setEsc src x d) := h.setFlt h.sealed

protected theorem SealedAs.raiseDegrade {u : Option (Nat × Nat × Nat)} (h : SealedAs c d) :
    SealedAs c (raiseDegrade src cause part detail u d) :=
  .ite h.enterEvent.setEsc.enterEvent h.enterEvent.setEsc

protected theorem SealedAs.settleStep {throttle : Bool} (h : SealedAs c d) : SealedAs c (settleStep throttle d) :=
  .ite h.rest (.ite h.rest h)

protected theorem SealedAs.raise (h : SealedAs c d) : SealedAs c (raise cls src cause part detail d) := by
  unfold raise
  split
  · extract_lets _ _ noted u degraded queued
    have k : SealedAs c degraded := h.enterEvent.setEsc.raiseDegrade
    have l : SealedAs c queued := by
      unfold queued
      clear_value u
      split
      · exact k.rest
      · exact k
    exact .ite (.ite (SealedAs.settleStep l.rest) l) h.enterEvent.setEsc
  · exact h.raiseDegrade
  · exact h.enterEvent

end

/-! ### What the host reaches -/

section
variable {c d : Dev}

protected theorem SealedAs.writeGo (h : SealedAs c d) : SealedAs c (writeGo d) := .ite h h.rest

protected theorem SealedAs.post {m : Nat} (h : SealedAs c d) : SealedAs c (post m d) := by
  unfold post
  dsimp only
  split
  · exact h.rest
  · exact h.rest
  · exact .ite (SealedAs.answer h.rest) h.rest

protected theorem SealedAs.dmaEn {k : Nat} {v : Bool} (h : SealedAs c d) : SealedAs c (dmaEn k v d) :=
  .ite (.ite h (.ite h.rest h.rest)) h.rest

protected theorem SealedAs.dmaAbort {k : Nat} (h : SealedAs c d) : SealedAs c (dmaAbort k d) :=
  .ite h (.ite h.rest (SealedAs.raiseVec h.rest))

protected theorem SealedAs.dmaCtrl {k v : Nat} (h : SealedAs c d) : SealedAs c (dmaCtrl k v d) := by
  unfold dmaCtrl
  extract_lets stops enabled aborted
  have l : SealedAs c stops := h.rest
  have m : SealedAs c enabled := .ite l.dmaEn l
  have n : SealedAs c aborted := .ite m.dmaAbort m
  exact .ite n.rest n

protected theorem SealedAs.setAdmit {p : Nat} {v : Bool} (h : SealedAs c d) : SealedAs c (setAdmit p v d) := .ite h h.modPart

end

theorem sealedAs_hostKeeps (c : Dev) : HostKeeps (SealedAs c) where
  glb _ _ h := h.rest
  rcv _ _ h := h.rest
  rcvCtrl _ _ _ h := .ite (SealedAs.writeGo h.rest) h.rest
  pwr _ _ h := h.rest
  vec _ _ _ h := h.rest
  mask _ _ _ h := .ite h.rest h.rest
  mbx _ _ _ h := h.rest
  post _ _ h := h.post
  dma _ _ _ h := h.rest
  dmaCtrl _ _ _ h := h.dmaCtrl
  histTail _ _ h := .ite h (h.setFlt h.sealed)
  lost _ _ h := h.setFlt h.sealed
  part _ _ _ _ h := h.modPart
  admission _ _ _ h := h.setAdmit
  digTail p v _ h := by
    have k := SealedAs.modPart (p := p) (f := fun y => { y with eph := { y.eph with digTail := BitVec.ofNat 64 v } }) h
    unfold writeDigTail modEph
    rwa [whenMp_still k.mpUp]
  cfg _ _ h := h.rest
  data _ _ h := h.rest

/-! ### The commands -/

/-- A command of a power cycle, or RST_N. -/
def Restarts (c : Instr) : Prop := c = .inputRise ∨ c = .holdUpEnd ∨ c = .overvoltage ∨ ∃ ns, c = .rstN ns

/-- A command leaves a SEALED module SEALED, with what its units hold, unless it is one of a power cycle or RST_N. -/
def KeepsSealed (c : Instr) : Prop :=
  ∀ s t, s.dev.flt.sealed = true → exec c s = .next t → Restarts c ∨ SealedAs s.dev t.dev

section
variable {c : Instr}

theorem sealed_of (keep : ∀ s t, s.dev.flt.sealed = true → exec c s = .next t → SealedAs s.dev t.dev) : KeepsSealed c :=
  fun s t sealed stepped => .inr (keep s t sealed stepped)

theorem sealed_on {f : Dev → Dev} (h : ∀ s, exec c s = on f s) (keep : ∀ d, d.flt.sealed = true → SealedAs d (f d)) : KeepsSealed c := by
  intro s t sealed stepped
  rw [h, on_eq] at stepped
  cases stepped
  exact .inr (keep _ sealed)

theorem sealed_whenAwake {f : Dev → Dev} (h : ∀ s, exec c s = on (whenAwake f) s) : KeepsSealed c := sealed_on h fun d sealed => by
  have here := SealedAs.refl sealed
  rwa [whenAwake_still here.awake]

theorem sealed_whenMp {f : Dev → Dev} (h : ∀ s, exec c s = on (whenMp f) s) : KeepsSealed c := sealed_on h fun d sealed => by
  have here := SealedAs.refl sealed
  rwa [whenMp_still here.mpUp]

theorem sealed_whenBell {f : Dev → Dev} (h : ∀ s, exec c s = on (whenBell f) s) : KeepsSealed c := sealed_on h fun d sealed => by
  have here := SealedAs.refl sealed
  rwa [whenBell_still (.inl here.awake)]

/-- The host's accesses, and the hardware's own events. -/
theorem sealed_whenHost {f : Dev → Dev} (h : ∀ s, exec c s = on (whenHost f) s) (keep : ∀ d e, SealedAs d e → SealedAs d (f e)) :
    KeepsSealed c := sealed_on h fun _ sealed => .ite (keep _ _ (.refl sealed)) (.refl sealed)

theorem sealed_whenHw {f : Dev → Dev} (h : ∀ s, exec c s = on (whenHw f) s) (keep : ∀ d e, SealedAs d e → SealedAs d (f e)) :
    KeepsSealed c := sealed_on h fun _ sealed => .ite (keep _ _ (.refl sealed)) (.refl sealed)

theorem sealed_command {code m : Nat} {f : List Byte → Dev → Dev} (h : ∀ s, exec c s = on (command code m f) s) : KeepsSealed c :=
  sealed_on h fun d sealed => by
    have here := SealedAs.refl sealed
    have noTurn : isTurn d code m = false := by simp [isTurn, here.mpUp]
    rwa [command_idle noTurn]

theorem sealed_reqCommand {code m : Nat} {f : Part → Req → List Byte → Dev → Dev} (h : ∀ s, exec c s = on (reqCommand code m f) s) :
    KeepsSealed c := sealed_command (code := code) (m := m) fun s => by rw [h, reqCommand, partCommand]

theorem sealed_spdm {need : Nat} {f : Dev → Dev} (h : ∀ s, exec c s = on (spdm need f) s) : KeepsSealed c :=
  sealed_on h fun d sealed => by
    have here := SealedAs.refl sealed
    unfold spdm
    rw [here.mpUp, Bool.not_false, Bool.true_or, Bool.true_or, if_pos rfl]
    exact here.rest

theorem sealed_sideband {f : Dev → Dev} (h : ∀ s, exec c s = on (sideband f) s) : KeepsSealed c := sealed_on h fun d sealed => by
  have here := SealedAs.refl sealed
  unfold sideband
  rw [here.mpUp, Bool.not_false, if_pos rfl]
  exact here.rest

theorem sealed_mctp {f : Dev → Dev} (h : ∀ s, exec c s = on (mctp f) s) : KeepsSealed c := sealed_on h fun d sealed => by
  have here := SealedAs.refl sealed
  unfold mctp
  rw [here.mpUp, if_neg Bool.false_ne_true]
  exact here.rest

end

section
variable {m : Fin 64} {d : Dev}

theorem execPost_sealed : KeepsSealed (.post m) := sealed_whenHost (fun _ => rfl) fun _ _ h => h.post

theorem execAuto_sealed : KeepsSealed (.auto m) :=
  sealed_whenHw (fun _ => rfl) fun _ _ h => .ite (h.whenDue fun _ k => k.answer) h

theorem execAdmitWrite_sealed {p : Fin 16} {v : Bool} : KeepsSealed (.admitWrite p v) :=
  sealed_whenHost (fun _ => rfl) fun _ _ h => h.setAdmit

theorem execMpAccept_sealed : KeepsSealed (.mpAccept m) := sealed_on (f := mpAccept m) (fun _ => rfl) fun d sealed => by
  have here := SealedAs.refl sealed
  unfold mpAccept
  dsimp only
  rw [here.mpUp, Bool.and_false, Bool.false_and, if_neg Bool.false_ne_true]
  exact here

theorem execFaultEvent_sealed {cls : BitVec 2} {src : BitVec 12} {cause : BitVec 16} {part : BitVec 8} {detail : BitVec 64} :
    KeepsSealed (.faultEvent cls src cause part detail) := sealed_whenHw (fun _ => rfl) fun _ _ h => h.raise

theorem execPulseEnd_sealed : KeepsSealed .pulseEnd := by
  refine sealed_of fun s t sealed stepped => ?_
  cases stepped
  dsimp only
  split
  · exact SealedAs.whenDue (.refl sealed) fun _ k => k.setFlt k.sealed
  · exact .refl sealed

theorem execAliveToggle_sealed : KeepsSealed .aliveToggle := by
  refine sealed_of fun s t sealed stepped => ?_
  cases stepped
  refine .ite (.refl sealed) (SealedAs.whenDue (.refl sealed) fun _ k => ?_)
  exact .ite (SealedAs.setFlt k.rest k.sealed) (SealedAs.setFlt k.rest k.sealed)

theorem execFaultHoldClear_sealed : KeepsSealed (.faultHoldClear m) := by
  refine sealed_of fun s t sealed stepped => ?_
  cases stepped
  have here := SealedAs.refl sealed
  refine .ite here.answer ?_
  have noTurn : isTurn s.dev 0x0704 m = false := by simp [isTurn, here.mpUp]
  rwa [command_idle noTurn]

theorem execGetVersion_sealed : KeepsSealed .getVersion := by
  refine sealed_of fun s t sealed stepped => ?_
  cases stepped
  exact .ite (SealedAs.rest (.refl sealed)) (SealedAs.rest (SealedAs.rest (.refl sealed)))

theorem execInternalResetRelease_sealed {find : Findings} : KeepsSealed (.internalResetRelease find) := by
  refine sealed_of fun s t sealed stepped => ?_
  cases stepped
  dsimp only
  rw [sealed, Bool.or_true, if_pos rfl]
  exact .refl sealed

theorem execInputFall_sealed : KeepsSealed .inputFall := by
  refine sealed_of fun s t sealed stepped => ?_
  cases stepped
  exact .ite ⟨rfl, sealed⟩ (.refl sealed)

theorem execRailFail_sealed {k : Fin 8} : KeepsSealed (.railFail k) := by
  refine sealed_of fun s t sealed stepped => ?_
  cases stepped
  exact .ite (.refl sealed) (.ite (SealedAs.rest (.refl sealed)) (SealedAs.raise (SealedAs.rest (.refl sealed))))

theorem execPerstN_sealed : KeepsSealed .perstN := by
  refine sealed_of fun s t sealed stepped => ?_
  cases stepped
  exact .ite (.refl sealed) (SealedAs.rest (.refl sealed))

theorem windowUp_sealed (sealed : d.flt.sealed = true) : windowUp d = false := by simp [windowUp, (SealedAs.refl sealed).awake]

theorem execWindowRead_sealed {off : BitVec 36} {len : Nat} : KeepsSealed (.windowRead off len) := by
  refine sealed_of fun s t sealed stepped => ?_
  cases stepped
  unfold windowRead
  rw [windowUp_sealed sealed]
  exact .refl sealed

theorem execWindowWrite_sealed {off : BitVec 36} {bytes : List Byte} : KeepsSealed (.windowWrite off bytes) := by
  refine sealed_of fun s t sealed stepped => ?_
  cases stepped
  unfold windowWrite
  rw [windowUp_sealed sealed]
  exact .refl sealed

theorem execWindowTimeout_sealed {off : BitVec 36} {len : Nat} : KeepsSealed (.windowTimeout off len) := by
  refine sealed_of fun s t sealed stepped => ?_
  cases stepped
  dsimp only
  rw [windowUp_sealed sealed]
  exact .refl sealed

theorem execDoeDiscovery_sealed {index : BitVec 8} : KeepsSealed (.doeDiscovery index) := by
  refine sealed_of fun s t sealed stepped => ?_
  cases stepped
  exact .ite (SealedAs.rest (.refl sealed)) (.ite (SealedAs.rest (.refl sealed)) (SealedAs.rest (.refl sealed)))

theorem execIeee11491Instruction_sealed {ins : JtagOp} : KeepsSealed (.ieee11491Instruction ins) := by
  refine sealed_of fun s t sealed stepped => ?_
  cases stepped
  exact .ite (.refl sealed) (SealedAs.rest (.refl sealed))

theorem execBar0ErrRead_sealed {off : BitVec 26} {bytes : Nat} : KeepsSealed (.bar0ErrRead off bytes) := by
  refine sealed_of fun s t sealed stepped => ?_
  cases stepped
  exact .ite (.refl sealed) (SealedAs.rest (.refl sealed))

/-- What an access of the host gives, where the module answers at all. -/
theorem SealedAs.whenHost {c : Dev} {f : Dev → Dev} (h : SealedAs c d) (keep : SealedAs c (f d)) : SealedAs c (Machine.whenHost f d) :=
  .ite keep h

theorem SealedAs.whenMp {c : Dev} {f : Dev → Dev} (h : SealedAs c d) : SealedAs c (Machine.whenMp f d) := by
  rwa [whenMp_still h.mpUp]

theorem SealedAs.regRead {sp : Space} {o n : Nat} (h : d.flt.sealed = true) : SealedAs d (regRead sp o n d) := by
  have here := SealedAs.refl h
  have k := sealedAs_hostKeeps d
  unfold Machine.regRead
  split
  · exact here.whenHost (bar0Read_keeps k here)
  · exact here.whenHost (hostRead_keeps k here)
  · exact here.whenHost (hostRead_keeps k here)
  · exact here.whenMp

theorem SealedAs.regWrite {sp : Space} {o n v : Nat} (h : d.flt.sealed = true) : SealedAs d (regWrite sp o n v d) := by
  have here := SealedAs.refl h
  have k := sealedAs_hostKeeps d
  unfold Machine.regWrite
  split
  · exact here.whenHost (bar0Write_keeps k here)
  · exact here.whenHost (hostWrite_keeps k here)
  · exact here.whenHost (hostWrite_keeps k here)
  · exact here.whenMp

theorem execReadClear_sealed {sp : Space} {off : BitVec 26} {wide : Bool} : KeepsSealed (.readClear sp off wide) := by
  intro s t sealed stepped
  change execReadClear sp off wide s = _ at stepped
  unfold execReadClear at stepped
  extract_lets n at stepped
  split at stepped
  · cases stepped
  · rw [on_eq] at stepped
    cases stepped
    exact .inr (SealedAs.regRead sealed)

theorem execRegisterWrite_sealed {sp : Space} {off : BitVec 26} {bytes : Nat} {v : BitVec 64} :
    KeepsSealed (.registerWrite sp off bytes v) := by
  intro s t sealed stepped
  change execRegisterWrite sp off bytes v s = _ at stepped
  unfold execRegisterWrite at stepped
  split at stepped
  · cases stepped
  · rw [on_eq] at stepped
    cases stepped
    exact .inr (SealedAs.regWrite sealed)

end

theorem exec_keepsSealed : (c : Instr) → KeepsSealed c
  | .nop _ => sealed_whenAwake fun _ => rfl
  | .illOpc _ => sealed_whenAwake fun _ => rfl
  | .matq _ => sealed_whenAwake fun _ => rfl
  | .matqDrain _ => sealed_whenAwake fun _ => rfl
  | .vecq _ => sealed_whenAwake fun _ => rfl
  | .funq _ => sealed_whenAwake fun _ => rfl
  | .send _ => sealed_whenAwake fun _ => rfl
  | .recv _ => sealed_whenAwake fun _ => rfl
  | .load _ => sealed_whenAwake fun _ => rfl
  | .store _ => sealed_whenAwake fun _ => rfl
  | .wait _ => sealed_whenAwake fun _ => rfl
  | .waitRelease _ => sealed_whenAwake fun _ => rfl
  | .holdEnd _ => sealed_whenAwake fun _ => rfl
  | .holdLimitExpiry _ => sealed_whenAwake fun _ => rfl
  | .cnt _ => sealed_whenAwake fun _ => rfl
  | .cmp _ => sealed_whenAwake fun _ => rfl
  | .skip _ => sealed_whenAwake fun _ => rfl
  | .rept _ => sealed_whenAwake fun _ => rfl
  | .spld _ => sealed_whenAwake fun _ => rfl
  | .mark _ => sealed_whenAwake fun _ => rfl
  | .brk _ => sealed_whenAwake fun _ => rfl
  | .breakPark _ => sealed_whenAwake fun _ => rfl
  | .orbitBoundary _ => sealed_whenMp fun _ => rfl
  | .pacingEnd _ => sealed_whenAwake fun _ => rfl
  | .slotStageWrite _ => sealed_whenAwake fun _ => rfl
  | .meshArrival _ => sealed_whenAwake fun _ => rfl
  | .memoryDelivery _ _ => sealed_whenAwake fun _ => rfl
  | .fenceReceive _ => sealed_whenAwake fun _ => rfl
  | .storeWrite _ _ => sealed_whenAwake fun _ => rfl
  | .refresh _ _ => sealed_whenAwake fun _ => rfl
  | .routineRetraining _ => sealed_whenAwake fun _ => rfl
  | .crcRetraining _ => sealed_whenAwake fun _ => rfl
  | .trainingPass _ => sealed_whenAwake fun _ => rfl
  | .trainingFail _ => sealed_whenAwake fun _ => rfl
  | .readCrcFail _ _ _ => sealed_whenAwake fun _ => rfl
  | .eccRead _ _ => sealed_whenAwake fun _ => rfl
  | .deviceTemperatureRead _ _ => sealed_whenAwake fun _ => rfl
  | .tieredRead _ _ _ => sealed_whenAwake fun _ => rfl
  | .pageMap _ => sealed_command fun _ => rfl
  | .pageUnmap _ => sealed_command fun _ => rfl
  | .pageRead _ => sealed_command fun _ => rfl
  | .dmaEn _ _ => sealed_whenBell fun _ => rfl
  | .abort _ => sealed_whenBell fun _ => rfl
  | .resume _ => sealed_whenBell fun _ => rfl
  | .tail _ _ => sealed_whenBell fun _ => rfl
  | .descriptorRead _ => sealed_whenAwake fun _ => rfl
  | .descriptorReadFail _ => sealed_whenAwake fun _ => rfl
  | .lockWaitEnd _ => sealed_whenAwake fun _ => rfl
  | .burst _ => sealed_whenAwake fun _ => rfl
  | .hostCompletionTimeout _ => sealed_whenAwake fun _ => rfl
  | .writeBack _ => sealed_whenAwake fun _ => rfl
  | .abortWriteBack _ => sealed_whenAwake fun _ => rfl
  | .submit _ => sealed_whenMp fun _ => rfl
  | .admitWrite _ _ => execAdmitWrite_sealed
  | .placement _ => sealed_whenMp fun _ => rfl
  | .stale _ => sealed_whenMp fun _ => rfl
  | .placementReceive _ => sealed_whenMp fun _ => rfl
  | .slotTableBuild _ => sealed_whenMp fun _ => rfl
  | .tokenDelivery _ => sealed_whenMp fun _ => rfl
  | .gap _ => sealed_whenMp fun _ => rfl
  | .weightLoad _ => sealed_command fun _ => rfl
  | .shardFetchDone _ _ _ => sealed_whenMp fun _ => rfl
  | .shardTimeout _ _ _ => sealed_whenMp fun _ => rfl
  | .weightFlip _ => sealed_command fun _ => rfl
  | .weightRelease _ => sealed_command fun _ => rfl
  | .adapterLoad _ => sealed_command fun _ => rfl
  | .adapterDelete _ => sealed_command fun _ => rfl
  | .installOpen _ => sealed_command fun _ => rfl
  | .imageBegin _ => sealed_command fun _ => rfl
  | .blockWrite _ => sealed_command fun _ => rfl
  | .imageCommit _ => sealed_command fun _ => rfl
  | .imageDelete _ => sealed_command fun _ => rfl
  | .installClose _ => sealed_command fun _ => rfl
  | .journalReplay => sealed_whenAwake fun _ => rfl
  | .storeReady => sealed_whenAwake fun _ => rfl
  | .post _ => execPost_sealed
  | .mpAccept _ => execMpAccept_sealed
  | .auto _ => execAuto_sealed
  | .shed => sealed_whenMp fun _ => rfl
  | .shedClear => sealed_whenMp fun _ => rfl
  | .partCreate _ => sealed_command fun _ => rfl
  | .partDestroy _ => sealed_command fun _ => rfl
  | .timeRoot _ => sealed_command fun _ => rfl
  | .stepLimit _ => sealed_command fun _ => rfl
  | .transitRead _ => sealed_command fun _ => rfl
  | .dirRead _ => sealed_command fun _ => rfl
  | .planLoad _ => sealed_command fun _ => rfl
  | .planUnload _ => sealed_command fun _ => rfl
  | .partStop _ => sealed_command fun _ => rfl
  | .partRestart _ => sealed_command fun _ => rfl
  | .partResume _ => sealed_command fun _ => rfl
  | .levelReport _ => sealed_command fun _ => rfl
  | .holdLimit _ => sealed_command fun _ => rfl
  | .selectorLoad _ => sealed_command fun _ => rfl
  | .reqCancel _ => sealed_reqCommand fun _ => rfl
  | .reqEclipse _ => sealed_reqCommand fun _ => rfl
  | .reqResume _ => sealed_reqCommand fun _ => rfl
  | .reqRemap _ => sealed_reqCommand fun _ => rfl
  | .budgetSet _ => sealed_command fun _ => rfl
  | .rankWrite _ => sealed_command fun _ => rfl
  | .jobPrepare _ => sealed_command fun _ => rfl
  | .jobGo _ => sealed_command fun _ => rfl
  | .jobStop _ => sealed_command fun _ => rfl
  | .ckptTake _ => sealed_command fun _ => rfl
  | .ckptRestore _ => sealed_command fun _ => rfl
  | .routeSwitch _ => sealed_command fun _ => rfl
  | .portRead _ => sealed_command fun _ => rfl
  | .portCtrl _ => sealed_command fun _ => rfl
  | .bistRun _ => sealed_command fun _ => rfl
  | .bistRunEnd _ => sealed_whenMp fun _ => rfl
  | .craterRead _ => sealed_command fun _ => rfl
  | .escalationSet _ => sealed_command fun _ => rfl
  | .faultHoldClear _ => execFaultHoldClear_sealed
  | .tokenApply _ => sealed_command fun _ => rfl
  | .go _ => sealed_whenAwake fun _ => rfl
  | .stepChangeResume _ => sealed_whenAwake fun _ => rfl
  | .refPref _ => sealed_whenAwake fun _ => rfl
  | .droop _ _ => sealed_whenAwake fun _ => rfl
  | .tideExcursion _ => sealed_whenAwake fun _ => rfl
  | .tideCeilingRaise => sealed_whenMp fun _ => rfl
  | .couplingPause _ _ => sealed_whenAwake fun _ => rfl
  | .referenceBad _ => sealed_whenAwake fun _ => rfl
  | .referenceGood _ => sealed_whenAwake fun _ => rfl
  | .holdoverExpiry => sealed_whenAwake fun _ => rfl
  | .pllLockLoss _ => sealed_whenAwake fun _ => rfl
  | .pllRelock _ => sealed_whenAwake fun _ => rfl
  | .pllFail _ => sealed_whenAwake fun _ => rfl
  | .seamPhaseError _ => sealed_whenAwake fun _ => rfl
  | .seamRealign _ => sealed_whenAwake fun _ => rfl
  | .seamFail _ => sealed_whenAwake fun _ => rfl
  | .portEn _ _ => sealed_whenAwake fun _ => rfl
  | .retrain _ => sealed_whenAwake fun _ => rfl
  | .dark _ _ => sealed_whenAwake fun _ => rfl
  | .forceDown _ => sealed_whenAwake fun _ => rfl
  | .jobIdWrite _ _ => sealed_whenAwake fun _ => rfl
  | .laneAcquisitionTimeout _ _ => sealed_whenAwake fun _ => rfl
  | .trainingCell _ _ => sealed_whenAwake fun _ => rfl
  | .trainTimeout _ => sealed_whenAwake fun _ => rfl
  | .packetReceived _ _ => sealed_whenAwake fun _ => rfl
  | .deliveryPush _ => sealed_whenAwake fun _ => rfl
  | .streamAppend _ => sealed_whenAwake fun _ => rfl
  | .slotStart _ => sealed_whenAwake fun _ => rfl
  | .cometSlot _ => sealed_whenAwake fun _ => rfl
  | .lockLoss _ _ => sealed_whenAwake fun _ => rfl
  | .lockRegain _ _ => sealed_whenAwake fun _ => rfl
  | .laneFailed _ _ => sealed_whenAwake fun _ => rfl
  | .portOutageExpiry _ => sealed_whenAwake fun _ => rfl
  | .haloReq _ _ => sealed_whenAwake fun _ => rfl
  | .haloAck _ _ => sealed_whenAwake fun _ => rfl
  | .deskewDone _ => sealed_whenAwake fun _ => rfl
  | .substTimeout _ => sealed_whenAwake fun _ => rfl
  | .farDownSeen _ => sealed_whenAwake fun _ => rfl
  | .laserOff _ => sealed_whenAwake fun _ => rfl
  | .dueSlotEnd _ _ => sealed_whenAwake fun _ => rfl
  | .receipt _ => sealed_whenAwake fun _ => rfl
  | .fabSecond _ => sealed_whenAwake fun _ => rfl
  | .orbitMark _ => sealed_whenAwake fun _ => rfl
  | .checkpointWriteDone _ => sealed_whenMp fun _ => rfl
  | .markTimeout _ => sealed_whenAwake fun _ => rfl
  | .time _ => sealed_whenAwake fun _ => rfl
  | .timeParentLoss => sealed_whenAwake fun _ => rfl
  | .mgmt _ => sealed_whenMp fun _ => rfl
  | .discTimeout _ => sealed_whenMp fun _ => rfl
  | .jobStart _ => sealed_whenMp fun _ => rfl
  | .faultEvent _ _ _ _ _ => execFaultEvent_sealed
  | .pulseEnd => execPulseEnd_sealed
  | .watchdog => sealed_whenAwake fun _ => rfl
  | .seFail => sealed_whenAwake fun _ => rfl
  | .aliveToggle => execAliveToggle_sealed
  | .recoveryGo _ => sealed_whenAwake fun _ => rfl
  | .ideIntegrity _ => sealed_whenAwake fun _ => rfl
  | .getVersion => execGetVersion_sealed
  | .getCapabilities => sealed_spdm fun _ => rfl
  | .negotiateAlgorithms _ _ _ _ => sealed_spdm fun _ => rfl
  | .getDigests => sealed_spdm fun _ => rfl
  | .getCertificate _ _ _ => sealed_spdm fun _ => rfl
  | .challenge _ _ => sealed_spdm fun _ => rfl
  | .getMeasurements _ _ _ => sealed_spdm fun _ => rfl
  | .keyExchange _ _ _ => sealed_spdm fun _ => rfl
  | .finish _ _ => sealed_spdm fun _ => rfl
  | .keyUpdate _ => sealed_spdm fun _ => rfl
  | .heartbeat _ => sealed_spdm fun _ => rfl
  | .endSession _ => sealed_spdm fun _ => rfl
  | .setEndpointId _ => sealed_mctp fun _ => rfl
  | .getEndpointId => sealed_mctp fun _ => rfl
  | .getMctpVersionSupport _ => sealed_mctp fun _ => rfl
  | .getMessageTypeSupport => sealed_mctp fun _ => rfl
  | .identRead => sealed_sideband fun _ => rfl
  | .sensorRead => sealed_sideband fun _ => rfl
  | .powerLimit _ => sealed_sideband fun _ => rfl
  | .faultSummary => sealed_sideband fun _ => rfl
  | .quiesce => sealed_sideband fun _ => rfl
  | .inputRise => fun _ _ _ _ => .inl (.inl rfl)
  | .internalResetRelease _ => execInternalResetRelease_sealed
  | .inputRange _ => sealed_whenAwake fun _ => rfl
  | .inputFall => execInputFall_sealed
  | .holdUpEnd => fun _ _ _ _ => .inl (.inr (.inl rfl))
  | .overvoltage => fun _ _ _ _ => .inl (.inr (.inr (.inl rfl)))
  | .railFail _ => execRailFail_sealed
  | .powerMeasurement _ _ _ _ => sealed_whenAwake fun _ => rfl
  | .powerCeilingRaise => sealed_whenMp fun _ => rfl
  | .thermalRead _ _ => sealed_whenMp fun _ => rfl
  | .sensorFail _ => sealed_whenMp fun _ => rfl
  | .vcoreUv => sealed_whenAwake fun _ => rfl
  | .vcoreOv => sealed_whenAwake fun _ => rfl
  | .vcoreOcp => sealed_whenAwake fun _ => rfl
  | .phaseFail => sealed_whenAwake fun _ => rfl
  | .rstN _ => fun _ _ _ _ => .inl (.inr (.inr (.inr ⟨_, rfl⟩)))
  | .perstN => execPerstN_sealed
  | .windowRead _ _ => execWindowRead_sealed
  | .windowWrite _ _ => execWindowWrite_sealed
  | .windowTimeout _ _ => execWindowTimeout_sealed
  | .snoop => sealed_whenAwake fun _ => rfl
  | .biasFlip => sealed_whenAwake fun _ => rfl
  | .commandMemoryWrite _ _ _ => sealed_whenMp fun _ => rfl
  | .scratchpadWrite _ _ _ => sealed_whenMp fun _ => rfl
  | .clear _ => sealed_whenMp fun _ => rfl
  | .dbgEn _ _ => sealed_whenMp fun _ => rfl
  | .readClear _ _ _ => execReadClear_sealed
  | .registerWrite _ _ _ _ => execRegisterWrite_sealed
  | .hostLinkTrained _ _ _ => sealed_whenAwake fun _ => rfl
  | .manifestReadDone _ _ => sealed_whenMp fun _ => rfl
  | .manifestReadTimeout _ _ => sealed_whenMp fun _ => rfl
  | .retrainingDeferralExpiry _ => sealed_whenAwake fun _ => rfl
  | .runningEntryCleanUpDone _ => sealed_whenAwake fun _ => rfl
  | .ideKeyManagement _ _ => sealed_spdm fun _ => rfl
  | .doeDiscovery _ => execDoeDiscovery_sealed
  | .ieee11491Instruction _ => execIeee11491Instruction_sealed
  | .bar0ErrRead _ _ => execBar0ErrRead_sealed
  | .heartbeatIncrement _ => sealed_whenMp fun _ => rfl
/-! ### RST_N -/

/-- A reset of a SEALED module loses what is volatile alone, and leaves the latch set. -/
theorem moduleReset_sealed {d : Dev} (sealed : d.flt.sealed = true) : let e := moduleReset d
    e.flt.sealed = true ∧ e.host = d.host ∧ e.otp = d.otp ∧ e.rom = d.rom ∧ e.flash = d.flash ∧ e.store.bytes = d.store.bytes := by
  have whole : cutShort d = d := by simp [cutShort, sealed]
  simp only [moduleReset, whole]
  exact ⟨sealed, rfl, rfl, rfl, rfl, rfl⟩

/-- What of a SEALED module outlasts RST_N too. -/
def outlasts (c d : Dev) : Prop :=
  d.flt.sealed = true ∧ d.host = c.host ∧ d.otp = c.otp ∧ d.rom = c.rom ∧ d.flash = c.flash ∧ d.store.bytes = c.store.bytes

theorem outlasts_of_sealedAs {c d : Dev} (h : SealedAs c d) : outlasts c d :=
  ⟨h.sealed, (congrArg Dev.host h.holds :), (congrArg Dev.otp h.holds :), (congrArg Dev.rom h.holds :), (congrArg Dev.flash h.holds :),
    (congrArg (·.store.bytes) h.holds :)⟩

theorem outlasts_moduleReset {c d : Dev} (h : outlasts c d) : outlasts c (moduleReset d) := by
  obtain ⟨sealed, host, otp, rom, flash, bytes⟩ := h
  obtain ⟨sealed', host', otp', rom', flash', bytes'⟩ := moduleReset_sealed sealed
  exact ⟨sealed', host'.trans host, otp'.trans otp, rom'.trans rom, flash'.trans flash, bytes'.trans bytes⟩

theorem rstN_outlasts {ns : Nat} {s t : State} (sealed : s.dev.flt.sealed = true) (stepped : exec (.rstN ns) s = .next t) :
    outlasts s.dev t.dev := by
  have passed : SealedAs s.dev (letPass (nsG ns) s.dev) := SealedAs.letPass (.refl sealed)
  cases stepped
  dsimp only
  split
  · exact outlasts_of_sealedAs passed
  · split
    · exact outlasts_moduleReset (outlasts_of_sealedAs passed)
    · have drawn : SealedAs s.dev (draw 1 (letPass (nsG ns) s.dev)).2 := passed.rest
      split
      · exact outlasts_moduleReset (outlasts_of_sealedAs drawn)
      · exact outlasts_of_sealedAs drawn

/-- Settles O59: a SEALED module is not awake and its MP does not run, so all but the hardware's own events, the host's accesses and
power find it standing still, and those leave what its units hold; a reset takes the volatile part of it alone. -/
theorem aSealedModuleStandsStill : Obligations.ASealedModuleStandsStill := by
  unfold Obligations.ASealedModuleStandsStill
  intro c s t sealed stepped notRise notEnd notOver d e
  obtain restarts | held := exec_keepsSealed c s t sealed stepped
  · obtain rise | ended | surged | ⟨ns, rfl⟩ := restarts
    · exact absurd rise notRise
    · exact absurd ended notEnd
    · exact absurd surged notOver
    · obtain ⟨sealed', host, otp, rom, flash, bytes⟩ := rstN_outlasts sealed stepped
      exact ⟨sealed', host, otp, rom, flash, bytes, fun notReset => absurd rfl (notReset ns)⟩
  · obtain ⟨sealed', host, otp, rom, flash, bytes⟩ := outlasts_of_sealedAs held
    have holds := held.holds
    refine ⟨sealed', host, otp, rom, flash, bytes, fun _ => ⟨(congrArg Dev.gddr holds :), (congrArg Dev.wpt holds :),
      (congrArg Dev.ranks holds :), (congrArg Dev.budgets holds :), (congrArg Dev.chans holds :), (congrArg Dev.mm holds :), ?_⟩⟩
    exact congrArg (fun x : Dev => { x.store with stopping := d.store.stopping }) holds

end Sys2Proof.Machine
end

section
/-!
O30, HostLinkAndTimeRoot: the root of machine time, the host link and its reset, the heartbeat, and what BAR 0 does not accept
(R330, R331, R372 to R376, R449).
-/

namespace Sys2Proof.Machine

open Sys2Proof

/-! ### The root of machine time (R330, R331) -/

/-- The machine time that TIME_ROOT leaves where the module becomes the root with this time. -/
def rootMt (t : Nat) (d : Dev) : Mt :=
  { d.mt with
    mt := if t ≠ 0 && d.parts.all (fun e => e.2.job.st = .none_) then BitVec.ofNat 64 t else d.mt.mt
    slew := 0, stratum := 0, root := true, parent := none, lostAt := none
    since := if d.mt.root then d.mt.since else some d.clk.wall }

theorem rootMt_given {t : Nat} {d : Dev} (given : t ≠ 0) (free : ∀ e ∈ d.parts, e.2.job.st = .none_) :
    (rootMt t d).mt = BitVec.ofNat 64 t := by
  simp only [rootMt]
  rw [if_pos (by simpa [given] using free)]

theorem rootMt_kept {t : Nat} {d : Dev} (h : t = 0 ∨ ∃ e ∈ d.parts, e.2.job.st ≠ .none_) : (rootMt t d).mt = d.mt.mt := by
  simp only [rootMt]
  refine if_neg ?_
  obtain rfl | ⟨e, mem, job⟩ := h
  · simp
  · simp only [Bool.and_eq_true, List.all_eq_true, decide_eq_true_eq]
    exact fun ⟨_, free⟩ => job (free e mem)

/-- Taking a time parent changes what the module knows of its parent alone. -/
theorem takeParent_mt (d : Dev) :
    ∃ mt, takeParent d = { d with mt := mt } ∧ mt.root = d.mt.root ∧ mt.mt = d.mt.mt := by
  unfold takeParent
  split
  · exact ⟨_, rfl, rfl, rfl⟩
  · split
    · exact ⟨_, rfl, rfl, rfl⟩
    · exact ⟨_, rfl, rfl, rfl⟩

section
variable {s : State} {m : Fin 64}

theorem gives_timeRoot_on (turn : Turn 0x0103 m.val s.dev) (op : lf (payload s.dev m.val) 0 1 = 1) :
    Gives (.timeRoot m) s (answer m.val stOk 0 [] { s.dev with mt := rootMt (lf (payload s.dev m.val) 8 8) s.dev }) :=
  gives_turn rfl turn (by dsimp only; rw [op]; rfl)

theorem gives_timeRoot_off (turn : Turn 0x0103 m.val s.dev) (op : lf (payload s.dev m.val) 0 1 = 0) :
    ∃ mt, Gives (.timeRoot m) s (answer m.val stOk 0 [] { s.dev with mt := mt }) ∧ mt.root = false ∧ mt.mt = s.dev.mt.mt := by
  cases root : s.dev.mt.root with
  | true =>
    obtain ⟨mt, taken, root', mt'⟩ := takeParent_mt { s.dev with mt := { s.dev.mt with root := false, since := none, started := true } }
    refine ⟨mt, gives_turn rfl turn ?_, root', mt'⟩
    dsimp only
    rw [op]
    exact (if_pos root).trans (congrArg (answer m.val stOk 0 []) taken)
  | false =>
    refine ⟨s.dev.mt, gives_turn rfl turn ?_, root, rfl⟩
    dsimp only
    rw [op]
    exact if_neg (root ▸ Bool.false_ne_true)

theorem gives_timeRoot_bad (turn : Turn 0x0103 m.val s.dev) (op : 1 < lf (payload s.dev m.val) 0 1) :
    Gives (.timeRoot m) s (answer m.val stBadArg 0 [] s.dev) := by
  refine gives_turn rfl turn ?_
  dsimp only
  split
  · omega
  · omega
  · rfl

end

/-! ### The host link (R370, R372, R449) -/

theorem unraised_raiseVec (v : Nat) (d : Dev) : unraised (raiseVec v d) = unraised d := unraised_of_unstopped (unstopped_raiseVec v d)

theorem glb_of_unraised {d e : Dev} (h : unraised e = unraised d) : e.glb = d.glb := (congrArg Dev.glb h :)

section
variable {s : State} {cxl : Bool} {width rate : BitVec 3}

theorem gives_hostLinkTrained_full (up : awake s.dev = true) (w : width = 4) (r : rate = 3) :
    Gives (.hostLinkTrained cxl width rate) s { s.dev with glb := { s.dev.glb with cxl := cxl, width := width, rate := rate } } := by
  subst w r
  exact gives_whenAwake rfl up rfl

theorem gives_hostLinkTrained_reduced (up : awake s.dev = true) (w : linkWidth width = true) (r : linkRate rate = true)
    (reduced : width ≠ 4 ∨ rate ≠ 3) : ∃ e, Gives (.hostLinkTrained cxl width rate) s e ∧ Entered 0 0x720 0x0702 s.dev e ∧
      e.glb = { s.dev.glb with cxl := cxl, width := width, rate := rate } := by
  have narrow : ¬ (decide (width = 4) && decide (rate = 3)) = true := by
    simpa only [Bool.and_eq_true, decide_eq_true_eq, not_and_or] using reduced
  have noted := raise_entered 0 0x720 0x0702 0xFF 0 { s.dev with glb := { s.dev.glb with cxl := cxl, width := width, rate := rate } }
  have same := unraised_raise (cls := 0) (src := 0x720) (by decide) (by decide) 0x0702 0xFF 0
    { s.dev with glb := { s.dev.glb with cxl := cxl, width := width, rate := rate } }
  refine ⟨raiseVec 1 (raise 0 0x720 0x0702 0xFF 0 { s.dev with glb := { s.dev.glb with cxl := cxl, width := width, rate := rate } }),
    gives_whenAwake rfl up ?_, ?_⟩
  · dsimp only
    rw [w, r, if_neg (by decide), if_neg narrow]
  · generalize raise 0 0x720 0x0702 0xFF 0 _ = e at noted same ⊢
    refine ⟨(noted.of_flt rfl).of_tget (by rw [flt_raiseVec]), ?_⟩
    exact glb_of_unraised ((unraised_raiseVec 1 e).trans same)

theorem gives_perstN (on : s.dev.pwr.inputOn = true) (held : s.dev.pwr.resetHeld = false) : Gives .perstN s { s.dev with
    glb := { s.dev.glb with cxl := false, width := 0, rate := 0 }
    cfg := {}, msix := [], sec := { s.dev.sec with sessions := [], ide := [], spdm := 0 }
    pwr := { s.dev.pwr with hostResets := satAdd s.dev.pwr.hostResets 1 } } := by
  change execPerstN s = _
  unfold execPerstN
  rw [on_eq, if_neg (by simp [on, held])]

/-- A read of BAR 0 that is neither an aligned 32-bit nor an aligned 64-bit access (R375). -/
theorem gives_bar0ErrRead {off : BitVec 26} {bytes : Nat} (on : s.dev.pwr.inputOn = true) (held : s.dev.pwr.resetHeld = false)
    (secure : ioSecure s.dev = true) (odd : ¬ ((bytes = 4 ∨ bytes = 8) ∧ off.toNat % bytes = 0)) :
    Gives (.bar0ErrRead off bytes) s { s.dev with
      out := { s.dev.out with data := 0xFFFFFFFFFFFFFFFF#64 }, glb := { s.dev.glb with bar0Err := satAdd s.dev.glb.bar0Err 1 } } := by
  change execBar0ErrRead off bytes s = _
  unfold execBar0ErrRead
  rw [on_eq, if_neg (by simpa [on, held, secure] using odd)]

/-- The heartbeat is due 1 ms after the last one. -/
theorem gives_heartbeat {busy : BitVec 10} (mp : mpUp s.dev = true) : Gives (.heartbeatIncrement busy) s
    (whenDue (s.dev.glb.beatAt + msG 1) (fun e => { e with glb := { e.glb with
      heartbeat := e.glb.heartbeat + 1, mpBusy := busy, beatAt := s.dev.glb.beatAt + msG 1 } }) s.dev) := gives_whenMp rfl mp rfl

end

/-- Settles O30: each command's own equation, with the NOTE of a reduced link shown to leave what the host reads of the link. -/
theorem hostLinkAndTimeRoot : Obligations.HostLinkAndTimeRoot := by
  unfold Obligations.HostLinkAndTimeRoot
  intro s m cxl width rate busy off bytes d pl
  refine ⟨fun turn op => ⟨_, gives_timeRoot_on turn op, rfl, rfl, rfl, rfl, rootMt_given, rootMt_kept⟩,
    gives_timeRoot_off, gives_timeRoot_bad, gives_hostLinkTrained_full, gives_hostLinkTrained_reduced,
    fun on held => ⟨_, gives_perstN on held, rfl, rfl, rfl, rfl, rfl, rfl, rfl, rfl, rfl⟩,
    fun up => gives_whenAwake rfl up rfl, fun up => gives_whenAwake rfl up rfl,
    fun mp => atDue_gives_made (gives_heartbeat mp), fun mp early => notYet_gives (gives_heartbeat mp) early, gives_bar0ErrRead⟩

end Sys2Proof.Machine
end

section
/-!
O16, WindowReadsAndWrites: the CXL.mem window (R376 to R378, R407).
-/

namespace Sys2Proof.Machine

open Sys2Proof

/-! ### What a window access counts -/

/-- A module but for its channels, the memory moons' counters and the output: what the passing of an access leaves as it is. -/
def unpassed (d : Dev) : Dev := { d with chans := [], mm := [] }

theorem unpassed_passRetries (tries : Tab Nat) (d : Dev) : unpassed (passRetries tries d) = unpassed d := by
  unfold passRetries
  exact forEach_same unpassed _ (by exact fun _ _ => rfl) tries d

/-- An access that passes changes counters of its channel and its memory moon alone. -/
theorem unpassed_pass (ch n : Nat) (d : Dev) : unpassed (passOther ch (countOther ch n d)) = unpassed d :=
  (unpassed_passRetries ..).trans rfl

/-- So it leaves any other unit. -/
theorem eq_of_unpassed {d e : Dev} (h : unpassed e = unpassed d) : { e with chans := d.chans, mm := d.mm } = d :=
  congrArg (fun x : Dev => { x with chans := d.chans, mm := d.mm }) h

section
variable {s : State} {off : BitVec 36} {len : Nat} {bs : List Byte}

/-- The page of the window that an offset is in. -/
def winPage (off : BitVec 36) : Nat := off.toNat / 65536

/-- The GDDR7 address that an offset of the window means. -/
def winAddr (off : BitVec 36) (d : Dev) : Nat := eLocator (cptE d (winPage off)) * 65536 + off.toNat % 65536

theorem exec_windowRead : exec (.windowRead off len) s = on (windowRead off len) s := rfl

theorem gives_windowRead (up : windowUp s.dev = true) (good : windowBad s.dev (winPage off) = false) (secure : memSecure s.dev = true)
    (serves : chanServes s.dev (chanOf (winAddr off s.dev)) = true) (within : off.toNat % 65536 + len ≤ 65536) :
    Gives (.windowRead off len) s (passOther (chanOf (winAddr off s.dev)) (countOther (chanOf (winAddr off s.dev)) len
      { s.dev with out := { s.dev.out with poison := false, bytes := rdBs s.dev.gddr (winAddr off s.dev) len } })) := by
  have whole : min len (65536 - off.toNat % 65536) = len := by omega
  unfold winAddr winPage at *
  rw [Gives, exec_windowRead, on_eq]
  unfold windowRead
  simp only [up, good, secure, serves, whole, Bool.not_true, Bool.or_self, Bool.false_eq_true, if_false]

/-- A read whose channel serves no requests waits. -/
theorem gives_windowRead_waits (up : windowUp s.dev = true) (good : windowBad s.dev (winPage off) = false)
    (secure : memSecure s.dev = true) (idle : chanServes s.dev (chanOf (winAddr off s.dev)) = false) :
    Gives (.windowRead off len) s s.dev := by
  unfold winAddr winPage at *
  rw [Gives, exec_windowRead, on_eq]
  unfold windowRead
  simp only [up, good, secure, idle, Bool.not_true, Bool.not_false, Bool.or_self, Bool.false_eq_true, if_false, if_true]

theorem gives_windowRead_poisoned (up : windowUp s.dev = true) (bad : windowBad s.dev (winPage off) = true ∨ memSecure s.dev = false) :
    Gives (.windowRead off len) s (poisonRead s.dev) := by
  have refused : (windowBad s.dev (winPage off) || !memSecure s.dev) = true := by simpa using bad
  unfold winPage at refused
  rw [Gives, exec_windowRead, on_eq]
  unfold windowRead
  simp only [up, refused, Bool.not_true, Bool.false_eq_true, if_false, if_true]

/-- A write is taken: its page is good, and neither pinned, locked nor of a ring, its stream carries traffic and its channel is not
DOWN. -/
def Written (off : BitVec 36) (d : Dev) : Prop :=
  windowBad d (winPage off) = false ∧ ePinned (cptE d (winPage off)) = false ∧ eLock (cptE d (winPage off)) = false ∧
    ringPage d (winPage off) = false ∧ memSecure d = true ∧ (getChan d (chanOf (winAddr off d))).st ≠ .down

theorem gives_windowWrite (up : windowUp s.dev = true) (taken : Written off s.dev) (within : off.toNat % 65536 + bs.length ≤ 65536) :
    Gives (.windowWrite off bs) s (passOther (chanOf (winAddr off s.dev)) (countOther (chanOf (winAddr off s.dev)) bs.length
      { s.dev with gddr := wrBs s.dev.gddr (winAddr off s.dev) bs })) := by
  obtain ⟨good, unpinned, unlocked, noRing, secure, chan⟩ := taken
  have whole : bs.take (65536 - off.toNat % 65536) = bs := List.take_of_length_le (by omega)
  unfold winAddr winPage at *
  change execWindowWrite off bs s = _
  unfold execWindowWrite windowWrite
  rw [on_eq]
  simp only [up, good, unpinned, unlocked, noRing, secure, chan, whole, Bool.not_true, Bool.or_self, decide_false, Bool.false_eq_true,
    if_false]

theorem gives_windowWrite_discarded (up : windowUp s.dev = true) (refused : ¬ Written off s.dev) :
    Gives (.windowWrite off bs) s { s.dev with glb := { s.dev.glb with cxlmWdrop := s.dev.glb.cxlmWdrop + 1 } } := by
  have discards : (windowBad s.dev (winPage off) || ePinned (cptE s.dev (winPage off)) || eLock (cptE s.dev (winPage off)) ||
      ringPage s.dev (winPage off) || !memSecure s.dev ||
      decide ((getChan s.dev (chanOf (winAddr off s.dev))).st = .down)) = true := by
    by_contra none
    simp only [Bool.or_eq_true, not_or, Bool.not_eq_true, Bool.not_eq_false', decide_eq_true_eq] at none
    obtain ⟨⟨⟨⟨⟨good, unpinned⟩, unlocked⟩, noRing⟩, secure⟩, chan⟩ := none
    exact refused ⟨good, unpinned, unlocked, noRing, secure, chan⟩
  unfold winAddr winPage at discards
  change execWindowWrite off bs s = _
  unfold execWindowWrite windowWrite
  rw [on_eq]
  simp only [up, discards, Bool.not_true, Bool.false_eq_true, if_false, if_true]

theorem gives_windowTimeout (up : windowUp s.dev = true) (some : len ≠ 0) (good : windowBad s.dev (winPage off) = false)
    (idle : chanServes s.dev (chanOf (winAddr off s.dev)) = false) :
    Gives (.windowTimeout off len) s (poisonRead (letPass (usG 20) s.dev)) := by
  unfold winAddr winPage at *
  change execWindowTimeout off len s = _
  unfold execWindowTimeout
  rw [on_eq]
  simp only [up, some, good, idle, ne_eq, not_false_eq_true, decide_true, Bool.not_false, Bool.and_self, if_true]

end

/-! ### Wall time does not run backwards -/

theorem wall_le_advanceTo (w : Nat) (d : Dev) : d.clk.wall ≤ (advanceTo w d).clk.wall := by
  rw [advanceTo_wall]
  exact le_max_right ..

theorem wall_le_beginTick (d : Dev) : d.clk.wall ≤ (beginTick d).clk.wall := by
  unfold beginTick
  dsimp only
  refine le_trans (le_of_eq ?_) (wall_le_advanceTo ..)
  rw [forEach_same (fun e : Dev => e.clk.wall) (fun m e => modMoon m (noteLead e m) e) (fun _ _ => rfl),
    forEach_same (fun e : Dev => e.clk.wall)
      (fun e : Nat × Nat => modMoon e.1 (moonTick (period d.clk.step) (tickPeriods d) e.2)) (fun _ _ => rfl)]

theorem wall_le_stepTicks (w fuel : Nat) (d : Dev) : d.clk.wall ≤ (stepTicks w fuel d).clk.wall := by
  induction fuel generalizing d with
  | zero => exact le_rfl
  | succ n ih =>
    unfold stepTicks
    split
    · exact (wall_le_beginTick d).trans (ih _)
    · exact le_rfl

theorem wall_modMoons (l : List Nat) (f : Moon → Moon) (d : Dev) : (modMoons l f d).clk.wall = d.clk.wall :=
  forEach_same (fun e : Dev => e.clk.wall) (fun m => modMoon m f) (fun _ _ => rfl) l d

theorem wall_le_coast (w : Nat) (d : Dev) : d.clk.wall ≤ (coast w d).clk.wall := by
  unfold coast
  split
  · exact le_rfl
  · dsimp only
    split
    · exact wall_le_stepTicks ..
    · rw [wall_modMoons]
      exact wall_le_stepTicks ..

theorem wall_le_passTo (w : Nat) (d : Dev) : d.clk.wall ≤ (passTo w d).clk.wall := by
  unfold passTo
  rw [freeTicks_wall]
  exact (wall_le_coast w d).trans (wall_le_advanceTo ..)

theorem wall_le_letPass (g : Nat) (d : Dev) : d.clk.wall ≤ (letPass g d).clk.wall := by
  unfold letPass
  split
  · exact wall_le_passTo ..
  · exact le_rfl

theorem poisonRead_letPass_frame (g : Nat) (d : Dev) :
    { poisonRead (letPass g d) with out := d.out, glb := d.glb, clk := d.clk, mt := d.mt } = d :=
  (congrArg (fun e : Dev => { e with out := d.out, glb := d.glb }) (letPass_frame g d) :)

/-- Settles O16: what each window access gives, by the condition of the first row of Table 15.5 that it meets. -/
theorem windowReadsAndWrites : Obligations.WindowReadsAndWrites := by
  unfold Obligations.WindowReadsAndWrites
  intro s off up i o a
  refine ⟨fun len good secure serves within => ?_, fun len => gives_windowRead_waits up,
    fun len bad => ⟨_, gives_windowRead_poisoned up bad, rfl, rfl, rfl, rfl⟩,
    fun bs good unpinned unlocked noRing secure chan within => ?_, fun bs refused => gives_windowWrite_discarded up ?_,
    fun len some good idle => ⟨_, gives_windowTimeout up some good idle, rfl, rfl, wall_le_letPass .., ?_, poisonRead_letPass_frame ..⟩⟩
  · have passes := unpassed_pass (chanOf a) len { s.dev with out := { s.dev.out with poison := false, bytes := rdBs s.dev.gddr a len } }
    exact ⟨_, gives_windowRead up good secure serves within, (congrArg (·.out.poison) passes :), (congrArg (·.out.bytes) passes :),
      (congrArg (fun e : Dev => { e with out := s.dev.out }) (eq_of_unpassed passes) :)⟩
  · have passes := unpassed_pass (chanOf a) bs.length { s.dev with gddr := wrBs s.dev.gddr a bs }
    have gddr := congrArg Dev.gddr passes
    refine ⟨_, gives_windowWrite up ⟨good, unpinned, unlocked, noRing, secure, chan⟩ within, ?_, fun b out => ?_,
      (congrArg (fun e : Dev => { e with gddr := s.dev.gddr }) (eq_of_unpassed passes) :)⟩
    · exact (congrArg (rdBs · a bs.length) gddr).trans (rdBs_wrBs_same ..)
    · exact (congrArg (rdB · b) gddr).trans (rdB_wrBs_out _ _ _ _ out)
  · rintro ⟨good, unpinned, unlocked, noRing, secure, chan⟩
    obtain h | h | h | h | h | h := refused
    · exact absurd (good.symm.trans h) Bool.false_ne_true
    · exact absurd (unpinned.symm.trans h) Bool.false_ne_true
    · exact absurd (unlocked.symm.trans h) Bool.false_ne_true
    · exact absurd (noRing.symm.trans h) Bool.false_ne_true
    · exact absurd (h.symm.trans secure) Bool.false_ne_true
    · exact chan h
  · exact (congrArg (fun e : Dev => e.glb.cxlmPoison + 1) (letPass_frame (usG 20) s.dev) :)

end Sys2Proof.Machine
end

section
/-!
SUPPORT. The start-up sequence (R394 to R399, R450, Table 18.7): what steps 6 to 11 leave as they are, whatever they find, and what
they leave where nothing keeps the module from starting.
-/

namespace Sys2Proof.Machine

open Sys2Proof

/-! ### What a start-up leaves as it is -/

/-- What steps 6 to 11 leave as it is: the fuses, recovery, the identity, the boot image, host memory, the reset, ALIVE and wall time. -/
def booted (d : Dev) : Otp × Rcv × Ident × List Byte × Mem × Bool × Bool × Nat :=
  (d.otp, d.rcv, d.ident, d.flash.image, d.host, d.pwr.resetHeld, d.flt.aliveRun, d.clk.wall)

section
variable {cls src : Nat} (cause part detail : Nat) (d : Dev)

theorem booted_of_unraised {d e : Dev} (h : unraised e = unraised d) (alive : e.flt.aliveRun = d.flt.aliveRun) : booted e = booted d :=
  (congrArg₂ (fun (x : Dev) a => (x.otp, x.rcv, x.ident, x.flash.image, x.host, x.pwr.resetHeld, a, x.clk.wall)) h alive :)

theorem aliveRun_of_driven {f g : Flt} {cls wall : Nat} (h : tally g = driven cls wall (tallied cls (tally f))) :
    g.aliveRun = f.aliveRun := by
  have alive := congrArg Flt.aliveRun h
  refine alive.trans ?_
  unfold driven
  split <;> rfl

theorem booted_enterEvent {cls : Nat} (low : cls ≤ 2) (src cause part detail : Nat) (d : Dev) :
    booted (enterEvent cls src cause part detail d) = booted d :=
  booted_of_unraised (unraised_enterEvent low ..) (aliveRun_of_driven (tally_enterEvent low ..))

theorem booted_raiseDegrade (src cause part detail : Nat) (u : Option (Nat × Nat × Nat)) (d : Dev) :
    booted (raiseDegrade src cause part detail u d) = booted d :=
  raiseDegrade_same booted (fun _ _ _ _ _ _ low => booted_enterEvent low ..) (fun _ _ _ => rfl) ..

theorem booted_degrade (src cause part detail : Nat) (d : Dev) : booted (raise 1 src cause part detail d) = booted d :=
  raise_same booted (fun _ _ _ _ _ _ low => booted_enterEvent low ..) (fun _ _ _ => rfl) (fun _ _ _ _ => rfl) (by decide)
    (fun note => absurd note (by decide)) ..

theorem booted_seal (src cause part detail : Nat) (d : Dev) : booted (raise 3 src cause part detail d) = booted d := by
  have sealed (e : Dev) : booted (sealModule e) = booted e := rfl
  rw [raise_seal, sealed]
  exact booted_of_unraised (unraised_recordEvent ..) (aliveRun_of_driven (tally_recordEvent ..))

end

section
variable (find : Findings) (d : Dev)

theorem booted_stepEnded (n : Nat) : booted (stepEnded n d) = booted d := rfl

theorem booted_raiseVec (v : Nat) : booted (raiseVec v d) = booted d :=
  booted_of_unraised (unraised_raiseVec v d) (congrArg Flt.aliveRun (flt_raiseVec d v))

theorem booted_startClocks : booted (startClocks find d) = booted d := by
  have crossings (e : Dev) : booted (forEach find.crossings (fun k d => raise 1 (0x200 + crossingMoon k) 0x0207 0xFF k d) e) = booted e :=
    forEach_same booted _ (by exact fun _ _ => booted_degrade ..) _ _
  unfold startClocks
  dsimp only
  rw [booted_stepEnded, crossings]
  exact (ite_keeps booted (booted_degrade ..)).trans rfl

theorem booted_reportFind (groups : BitVec 8) : booted (reportFind find groups d) = booted d := by
  have units (e : Dev) : booted (forEach (failUnits find groups) (fun u =>
      raiseDegrade u.2.2 2 0xFF u.2.1 (some (u.2.1 / 2 ^ 28, u.2.1 % 2 ^ 28, 0))) e) = booted e :=
    forEach_same booted _ (by exact fun _ _ => booted_raiseDegrade ..) _ _
  unfold reportFind
  exact (ite_keeps booted (booted_seal ..)).trans (units d)

theorem booted_trainChannels (marked : List Nat) : booted (trainChannels find marked d) = booted d := by
  have failures (l : List Nat) (e : Dev) : booted (forEach l (fun c d =>
      if find.untrained.contains c || marked.contains c then raise 1 (0x300 + c) 0x0305 0xFF 0 d else d) e) = booted e :=
    forEach_same booted _ (by exact fun _ _ => ite_keeps booted (booted_degrade ..)) _ _
  unfold trainChannels
  dsimp only
  rw [booted_stepEnded, failures]
  rfl

theorem booted_of_image {f : Flash} {c : Crater} (h : f.image = d.flash.image) : booted { d with flash := f, crater := c } = booted d :=
  congrArg (fun i => (d.otp, d.rcv, d.ident, i, d.host, d.pwr.resetHeld, d.flt.aliveRun, d.clk.wall)) h

theorem booted_writeSlot : booted (writeSlot d) = booted d := booted_of_image d (ite_keeps Flash.image rfl)

theorem booted_mergeCrater : booted (mergeCrater find d) = booted d := by
  unfold mergeCrater
  dsimp only
  rw [booted_stepEnded]
  refine (ite_keeps booted (booted_writeSlot _)).trans ?_
  exact (booted_of_image _ rfl).trans (ite_keeps booted (booted_degrade ..))

theorem booted_mpReady : booted (mpReady d) = booted d := booted_raiseVec ..

/-- Steps 6 to 11, whatever they find. -/
theorem booted_startUp : booted (startUp find d) = booted d := by
  have begun : booted (reportFind find 0xFF#8 (startClocks find d)) = booted d :=
    (booted_reportFind ..).trans (booted_startClocks ..)
  unfold startUp
  dsimp only
  generalize reportFind find 0xFF#8 (startClocks find d) = e at begun ⊢
  split
  · exact begun
  · split
    · exact (booted_seal ..).trans begun
    · have merged : booted (mergeCrater find (trainChannels find (markedChannels find (stepEnded 8 (zeroSpads (stepEnded 7 e))))
          (stepEnded 8 (zeroSpads (stepEnded 7 e))))) = booted e :=
        (booted_mergeCrater ..).trans ((booted_trainChannels ..).trans rfl)
      generalize mergeCrater find _ = c at merged ⊢
      rw [booted_mpReady]
      split
      · exact merged.trans begun
      · exact (booted_degrade ..).trans (merged.trans begun)

end

/-! ### A start-up that nothing stops -/

/-- The SEAL latch and START_STATUS. -/
def startProgress (d : Dev) : Bool × BitVec 32 := (d.flt.sealed, d.pwr.startStatus)

/-- So many bits are set in START_STATUS. -/
def advanced (bits : BitVec 32) (p : Bool × BitVec 32) : Bool × BitVec 32 := (p.1, p.2 ||| bits)

theorem startProgress_of_unraised {d e : Dev} (h : unraised e = unraised d) : startProgress e = startProgress d := (congrArg startProgress h :)

theorem startProgress_degrade (src cause part detail : Nat) (d : Dev) : startProgress (raise 1 src cause part detail d) = startProgress d :=
  startProgress_of_unraised (unraised_raise (by decide) (fun note => absurd note (by decide)) ..)

theorem startProgress_raiseDegrade (src cause part detail : Nat) (u : Option (Nat × Nat × Nat)) (d : Dev) :
    startProgress (raiseDegrade src cause part detail u d) = startProgress d :=
  raiseDegrade_same startProgress (fun _ _ _ _ _ _ low => startProgress_of_unraised (unraised_enterEvent low ..)) (fun _ _ _ => rfl) ..

section
variable (find : Findings) (d : Dev)

theorem startProgress_stepEnded (n : Nat) : startProgress (stepEnded n d) = advanced (BitVec.ofNat 32 (2 ^ (n - 1))) (startProgress d) := rfl

theorem startProgress_startClocks : startProgress (startClocks find d) = advanced 0x20#32 (startProgress d) := by
  have crossings (e : Dev) : startProgress (forEach find.crossings (fun k d => raise 1 (0x200 + crossingMoon k) 0x0207 0xFF k d) e) = startProgress e :=
    forEach_same startProgress _ (by exact fun _ _ => startProgress_degrade ..) _ _
  unfold startClocks
  dsimp only
  rw [startProgress_stepEnded, crossings]
  exact congrArg (advanced _) ((ite_keeps startProgress (startProgress_degrade ..)).trans rfl)

theorem startProgress_reportFind (sound : find.faultLogic = false) (groups : BitVec 8) : startProgress (reportFind find groups d) = startProgress d := by
  have units (e : Dev) : startProgress (forEach (failUnits find groups) (fun u =>
      raiseDegrade u.2.2 2 0xFF u.2.1 (some (u.2.1 / 2 ^ 28, u.2.1 % 2 ^ 28, 0))) e) = startProgress e :=
    forEach_same startProgress _ (by exact fun _ _ => startProgress_raiseDegrade ..) _ _
  unfold reportFind
  rw [sound, Bool.false_and, if_neg Bool.false_ne_true]
  exact units d

theorem startProgress_trainChannels (marked : List Nat) : startProgress (trainChannels find marked d) = advanced 0x100#32 (startProgress d) := by
  have failures (l : List Nat) (e : Dev) : startProgress (forEach l (fun c d =>
      if find.untrained.contains c || marked.contains c then raise 1 (0x300 + c) 0x0305 0xFF 0 d else d) e) = startProgress e :=
    forEach_same startProgress _ (by exact fun _ _ => ite_keeps startProgress (startProgress_degrade ..)) _ _
  unfold trainChannels
  dsimp only
  rw [startProgress_stepEnded, failures]
  rfl

theorem startProgress_writeSlot : startProgress (writeSlot d) = startProgress d := rfl

theorem startProgress_mergeCrater : startProgress (mergeCrater find d) = advanced 0x200#32 (startProgress d) := by
  have mapped (c : Crater) (e : Dev) : startProgress { e with crater := c } = startProgress e := rfl
  unfold mergeCrater
  dsimp only
  rw [startProgress_stepEnded]
  refine congrArg (advanced _) ((ite_keeps startProgress (startProgress_writeSlot _)).trans ?_)
  exact (mapped ..).trans (ite_keeps startProgress (startProgress_degrade ..))

theorem startProgress_mpReady : startProgress (mpReady d) = advanced 0x400#32 (startProgress d) :=
  (startProgress_of_unraised (unraised_raiseVec ..)).trans rfl

theorem mpReady_mpReady : (mpReady d).glb.mpReady = true := congrArg Glb.mpReady (glb_of_unraised (unraised_raiseVec 1 _))

variable {find d} (sound : find.faultLogic = false) (unsealed : d.flt.sealed = false)
include sound unsealed

/-- Steps 6 and 7 find the fault logic sound. -/
theorem startUp_of_sound : ∃ e, startProgress e = advanced 0x40#32 (advanced 0x20#32 (startProgress d)) ∧ startUp find d =
    if find.zeroFail then
      raise 3 0x900 0x0903 0xFF 0 { e with pwr := { e.pwr with startStatus := e.pwr.startStatus ||| 0x800000#32 } }
    else
      let c := stepEnded 8 (zeroSpads e)
      let b := mergeCrater find (trainChannels find (markedChannels find c) c)
      mpReady (if b.flash.macOk then b else raise 1 0x802 0x0802 0xFF 0 b) := by
  have begun : startProgress (reportFind find 0xFF#8 (startClocks find d)) = advanced 0x20#32 (startProgress d) :=
    (startProgress_reportFind _ _ sound _).trans (startProgress_startClocks ..)
  refine ⟨stepEnded 7 (reportFind find 0xFF#8 (startClocks find d)), congrArg (advanced 0x40#32) begun, ?_⟩
  unfold startUp
  dsimp only
  generalize reportFind find 0xFF#8 (startClocks find d) = e at begun ⊢
  have clear : e.flt.sealed = false := (congrArg Prod.fst begun).trans unsealed
  rw [clear, if_neg Bool.false_ne_true]

/-- A scratchpad that does not take its zeros seals the module. -/
theorem startUp_zeroFail (fails : find.zeroFail = true) : let e := startUp find d
    e.flt.sealed = true ∧ e.glb.mpReady = false := by
  obtain ⟨e, -, started⟩ := startUp_of_sound sound unsealed
  rw [started, fails, if_pos rfl, raise_seal]
  exact ⟨rfl, rfl⟩

/-- With neither of these failures the MP is ready, and every step has ended. -/
theorem startUp_ready (fills : find.zeroFail = false) : let e := startUp find d
    e.glb.mpReady = true ∧ e.flt.sealed = false ∧ e.pwr.startStatus = d.pwr.startStatus ||| 0x7E0#32 := by
  obtain ⟨e, begun, started⟩ := startUp_of_sound sound unsealed
  rw [started, fills, if_neg Bool.false_ne_true]
  dsimp only
  have merged : startProgress (mergeCrater find (trainChannels find (markedChannels find (stepEnded 8 (zeroSpads e))) (stepEnded 8 (zeroSpads e)))) =
      advanced 0x200#32 (advanced 0x100#32 (advanced 0x80#32 (startProgress e))) :=
    (startProgress_mergeCrater ..).trans (congrArg (advanced _) (startProgress_trainChannels ..))
  generalize mergeCrater find _ = b at merged ⊢
  have ready : startProgress (mpReady (if b.flash.macOk then b else raise 1 0x802 0x0802 0xFF 0 b)) = advanced 0x400#32 (startProgress b) := by
    rw [startProgress_mpReady]
    split
    · rfl
    · rw [startProgress_degrade]
  rw [merged, begun] at ready
  refine ⟨mpReady_mpReady _, (congrArg Prod.fst ready).trans unsealed, (congrArg Prod.snd ready).trans ?_⟩
  simp only [advanced, startProgress, BitVec.or_assoc]
  rfl

end

end Sys2Proof.Machine
end

section
/-!
O29, RecoveryStartsAnImage: GO in recovery wait, and what becomes of the image that lies in host memory (R394, R396 to R398).
-/

namespace Sys2Proof.Machine

open Sys2Proof

section
variable {d : Dev} {find : Findings} {r : Nat}

/-- The image that lies in host memory. -/
def hostImage (d : Dev) : List Byte := hostRd d d.rcv.addr.toNat d.rcv.len.toNat

/-- The module back in recovery wait, with a reason. -/
def waitsAgain (r : Nat) (d : Dev) : Dev := { d with rcv := { d.rcv with st := 1#3, go := false, reason := BitVec.ofNat 8 r } }

/-- The image of GO with COMMIT stands in the boot flash, and its SVN is burnt where it rises (R397). -/
def committed (d : Dev) : Dev := { d with
  flash := { d.flash with image := hostImage d }
  otp := if svnRises d (hostImage d) then { d.otp with svn := lf (hostImage d) 0x14 4 } else d.otp }

/-- What becomes of the image once GO has been taken. -/
def carryOut (find : Findings) (d : Dev) : Dev :=
  if !hostOk d d.rcv.addr.toNat d.rcv.len.toNat then waitsAgain 0x0A d else
  match checkImage d (hostImage d) with
  | some r => waitsAgain r d
  | none =>
    if d.rcv.commit then
      if d.flash.bad then waitsAgain 0x0B d else startUp find (startImage 0#3 true (hostImage d) (committed d))
    else startUp find (startImage 4#3 true (hostImage d) d)

/-- GO is written, or has been. -/
def goTaken (d : Dev) : Prop := awake d = true ∧ (d.rcv.go = true ∨ (d.rcv.st = 1#3 ∧ d.otp.lc ≠ 4#3))

/-- The image is being carried out: GO has been taken. -/
def taken (st : BitVec 3) (d : Dev) : Dev := { d with rcv := { d.rcv with st := st, go := false } }

theorem writeGo_of_goTaken (h : goTaken d) : ∃ st, writeGo d = { d with rcv := { d.rcv with st := st, go := true } } := by
  obtain ⟨up, there⟩ := h
  have unsealed := sealed_of_awake up
  unfold writeGo
  split
  · next refused =>
    obtain go | ⟨wait, live⟩ := there
    · refine ⟨d.rcv.st, ?_⟩
      rw [← go]
    · simp [wait, live, unsealed] at refused
  · exact ⟨2#3, rfl⟩

theorem recoveryGo_of_goTaken (h : goTaken d) : ∃ st, recoveryGo find d = carryOut find (taken st d) := by
  obtain ⟨st, written⟩ := writeGo_of_goTaken h
  refine ⟨st, ?_⟩
  unfold recoveryGo
  rw [written]
  rfl

section
variable {s : State} (h : goTaken s.dev)
include h

/-- RECOVERY_GO, once what becomes of the image is the same whatever GO found. -/
theorem gives_recoveryGo {e : Dev} (outcome : ∀ st, carryOut find (taken st s.dev) = e) : Gives (.recoveryGo find) s e := by
  obtain ⟨st, carried⟩ := recoveryGo_of_goTaken (find := find) h
  exact gives_whenAwake rfl h.1 (carried.trans (outcome st))

theorem gives_recoveryGo_unread (bad : hostOk s.dev s.dev.rcv.addr.toNat s.dev.rcv.len.toNat = false) :
    Gives (.recoveryGo find) s (waitsAgain 0x0A s.dev) :=
  gives_recoveryGo h fun st => if_pos (show (!hostOk (taken st s.dev) _ _) = true from congrArg not bad)

variable (read : hostOk s.dev s.dev.rcv.addr.toNat s.dev.rcv.len.toNat = true)
include read

omit h in
theorem carryOut_read (st : BitVec 3) : carryOut find (taken st s.dev) = match checkImage s.dev (hostImage s.dev) with
    | some r => waitsAgain r s.dev
    | none =>
      if s.dev.rcv.commit then
        if s.dev.flash.bad then waitsAgain 0x0B s.dev
        else startUp find (startImage 0#3 true (hostImage s.dev) (committed (taken st s.dev)))
      else startUp find (startImage 4#3 true (hostImage s.dev) (taken st s.dev)) :=
  if_neg (show ¬ (!hostOk (taken st s.dev) _ _) = true from (congrArg not read : _ = false) ▸ Bool.false_ne_true)

theorem gives_recoveryGo_unsound (fails : checkImage s.dev (hostImage s.dev) = some r) :
    Gives (.recoveryGo find) s (waitsAgain r s.dev) := gives_recoveryGo h fun st => by rw [carryOut_read read, fails]

theorem gives_recoveryGo_noFlash (passes : checkImage s.dev (hostImage s.dev) = none) (commit : s.dev.rcv.commit = true)
    (bad : s.dev.flash.bad = true) : Gives (.recoveryGo find) s (waitsAgain 0x0B s.dev) := gives_recoveryGo h fun st => by
  rw [carryOut_read read, passes]
  dsimp only
  rw [if_pos commit, if_pos bad]

/-- The image starts, from the boot flash where COMMIT is set. -/
theorem gives_recoveryGo_starts (passes : checkImage s.dev (hostImage s.dev) = none)
    (flash : s.dev.rcv.commit = true → s.dev.flash.bad = false) : ∃ st, Gives (.recoveryGo find) s (startUp find
      (startImage (if s.dev.rcv.commit then 0#3 else 4#3) true (hostImage s.dev)
        (if s.dev.rcv.commit then committed (taken st s.dev) else taken st s.dev))) := by
  obtain ⟨st, carried⟩ := recoveryGo_of_goTaken (find := find) h
  refine ⟨st, gives_whenAwake rfl h.1 (carried.trans ?_)⟩
  rw [carryOut_read read, passes]
  dsimp only
  cases commit : s.dev.rcv.commit with
  | true => rw [if_pos rfl, flash commit, if_neg Bool.false_ne_true]; rfl
  | false => rw [if_neg Bool.false_ne_true]; rfl

end

theorem svn_committed (d : Dev) : (committed d).otp.svn =
    if d.otp.svn < lf (hostImage d) 0x14 4 ∧ (d.otp.lc = 1#3 ∨ d.otp.lc = 2#3) then lf (hostImage d) 0x14 4 else d.otp.svn := by
  have rises : svnRises d (hostImage d) = true ↔ d.otp.svn < lf (hostImage d) 0x14 4 ∧ (d.otp.lc = 1#3 ∨ d.otp.lc = 2#3) := by
    simp [svnRises]
  unfold committed
  dsimp only
  split
  · next h => rw [if_pos (rises.mp h)]
  · next h => rw [if_neg fun k => h (rises.mpr k)]

/-- What is in the module when the image starts. -/
structure Starting (d e : Dev) : Prop where
  st : e.rcv.st = if d.rcv.commit then 0#3 else 4#3
  reason : e.rcv.reason = 0
  go : e.rcv.go = false
  running : e.rcv.running = some ((hostImage d).take 0x50, true)
  image : e.flash.image = if d.rcv.commit then hostImage d else d.flash.image
  svn : e.otp.svn = if d.rcv.commit = true ∧ d.otp.svn < lf (hostImage d) 0x14 4 ∧ (d.otp.lc = 1#3 ∨ d.otp.lc = 2#3) then
    lf (hostImage d) 0x14 4 else d.otp.svn
  lc : e.otp.lc = d.otp.lc
  host : e.host = d.host

theorem hostImage_taken (st : BitVec 3) (d : Dev) : hostImage (taken st d) = hostImage d := rfl

section
variable (st : BitVec 3) (host : Bool) (img : List Byte) (d : Dev)

/-- An image's start writes the identity and power's START_STATUS beside recovery's registers. -/
theorem startImage_shape : ∃ ident pwr, startImage st host img d = { d with
    ident := ident, pwr := pwr, rcv := { d.rcv with st := st, reason := 0, running := some (img.take 0x50, host) } } := ⟨_, _, rfl⟩

theorem startImage_rcv :
    (startImage st host img d).rcv = { d.rcv with st := st, reason := 0, running := some (img.take 0x50, host) } := by
  obtain ⟨ident, pwr, shape⟩ := startImage_shape st host img d
  rw [shape]

theorem startImage_flash : (startImage st host img d).flash = d.flash := by
  obtain ⟨ident, pwr, shape⟩ := startImage_shape st host img d
  rw [shape]

theorem startImage_otp : (startImage st host img d).otp = d.otp := by
  obtain ⟨ident, pwr, shape⟩ := startImage_shape st host img d
  rw [shape]

theorem startImage_host : (startImage st host img d).host = d.host := by
  obtain ⟨ident, pwr, shape⟩ := startImage_shape st host img d
  rw [shape]

theorem startImage_flt : (startImage st host img d).flt = d.flt := by
  obtain ⟨ident, pwr, shape⟩ := startImage_shape st host img d
  rw [shape]

end

theorem committed_rcv (d : Dev) : (committed d).rcv = d.rcv := rfl

theorem committed_image (d : Dev) : (committed d).flash.image = hostImage d := rfl

theorem committed_host (d : Dev) : (committed d).host = d.host := rfl

theorem committed_lc (d : Dev) : (committed d).otp.lc = d.otp.lc := ite_keeps Otp.lc rfl

theorem starting (st : BitVec 3) (d : Dev) : Starting d (startImage (if d.rcv.commit then 0#3 else 4#3) true (hostImage d)
    (if d.rcv.commit then committed (taken st d) else taken st d)) := by
  cases commit : d.rcv.commit with
  | true =>
    rw [if_pos rfl, if_pos rfl]
    constructor
    case st => rw [startImage_rcv, commit, if_pos rfl]
    case reason => rw [startImage_rcv]
    case go => rw [startImage_rcv, committed_rcv]; rfl
    case running => rw [startImage_rcv]
    case image => rw [startImage_flash, committed_image, hostImage_taken, commit, if_pos rfl]
    case svn =>
      rw [startImage_otp, svn_committed, hostImage_taken]
      exact if_congr ⟨fun rises => ⟨commit, rises⟩, fun rises => rises.2⟩ rfl rfl
    case lc => rw [startImage_otp, committed_lc]; rfl
    case host => rw [startImage_host, committed_host]; rfl
  | false =>
    rw [if_neg Bool.false_ne_true, if_neg Bool.false_ne_true]
    constructor
    case st => rw [startImage_rcv, commit, if_neg Bool.false_ne_true]
    case reason => rw [startImage_rcv]
    case go => rw [startImage_rcv]; rfl
    case running => rw [startImage_rcv]
    case image => rw [startImage_flash, commit, if_neg Bool.false_ne_true]; rfl
    case svn =>
      rw [startImage_otp, if_neg fun rises => Bool.false_ne_true (commit.symm.trans rises.1)]
      rfl
    case lc => rw [startImage_otp]; rfl
    case host => rw [startImage_host]; rfl

/-- Steps 6 to 11 leave all that alone. -/
theorem Starting.of_booted {d e e' : Dev} (h : Starting d e) (same : booted e' = booted e) : Starting d e' := by
  have otp : e'.otp = e.otp := congrArg (·.1) same
  have rcv : e'.rcv = e.rcv := congrArg (·.2.1) same
  have image : e'.flash.image = e.flash.image := congrArg (·.2.2.2.1) same
  have host : e'.host = e.host := congrArg (·.2.2.2.2.1) same
  exact ⟨(congrArg Rcv.st rcv).trans h.st, (congrArg Rcv.reason rcv).trans h.reason, (congrArg Rcv.go rcv).trans h.go,
    (congrArg Rcv.running rcv).trans h.running, image.trans h.image, (congrArg Otp.svn otp).trans h.svn,
    (congrArg Otp.lc otp).trans h.lc, host.trans h.host⟩

end

/-- Settles O29: what becomes of the image, by the first check that it fails; steps 6 to 11 then leave what the image's start has written. -/
theorem recoveryStartsAnImage : Obligations.RecoveryStartsAnImage := by
  unfold Obligations.RecoveryStartsAnImage
  intro s find up there d a n img wait
  have h : goTaken d := ⟨up, there⟩
  refine ⟨gives_recoveryGo_unread h, fun read r => gives_recoveryGo_unsound h read, gives_recoveryGo_noFlash h, fun read passes flash => ?_⟩
  obtain ⟨st, gives⟩ := gives_recoveryGo_starts (find := find) h read passes flash
  have begun := starting st d
  have unsealed := sealed_of_awake up
  generalize hc : startImage _ true (hostImage s.dev) _ = c at gives
  obtain ⟨st', reason, go, running, image, svn, lc, host⟩ := (hc ▸ begun).of_booted (booted_startUp find c)
  refine ⟨_, gives, st', reason, go, running, image, svn, lc, host, fun fills sound => ?_⟩
  have clear : c.flt.sealed = false := by
    rw [← hc]
    unfold startImage
    dsimp only
    split
    · exact unsealed
    · exact unsealed
  obtain ⟨ready, sealed, -⟩ := startUp_ready sound clear fills
  exact ⟨ready, sealed⟩

end Sys2Proof.Machine
end

section
/-!
SUPPORT. What survives a reset and the loss of the input (R438, R448), and how the life cycle is completed (R399).
-/

namespace Sys2Proof.Machine

open Sys2Proof

/-! ### What survives -/

/-- What no reset and no loss of the input takes away: the fuses and the flash where no image is being carried out, the boot ROM, the
weight store and host memory. -/
structure Survives (d e : Dev) : Prop where
  fuses : d.rcv.go = false → e.otp = d.otp ∧ e.flash = d.flash
  rom : e.rom = d.rom
  bytes : e.store.bytes = d.store.bytes
  jrnA : e.store.jrnA = d.store.jrnA
  jrnB : e.store.jrnB = d.store.jrnB
  retired : e.store.retired = d.store.retired
  host : e.host = d.host

/-- Nothing volatile is left but the tiles, the pins, the fault logic, recovery and power. -/
structure Cleared (e : Dev) : Prop where
  parts : e.parts = []
  gddr : e.gddr = []
  cpt : e.cpt = []
  wpt : e.wpt = []
  ports : e.ports = []
  chans : e.chans = []
  mbx : e.mbx = []
  dma : e.dma = []
  ranks : e.ranks = []
  sec : e.sec = {}
  glb : e.glb = {}
  imgs : e.store.imgs = []
  replayed : e.store.replayed = false

section
variable {d e : Dev}

theorem survives_of_untimed {d' : Dev} (h : untimed d' = untimed d) (survives : Survives d' e) : Survives d e := by
  have here : Survives (untimed d') e := { survives with }
  rw [h] at here
  exact { here with }

/-- A reset cuts short what carries an image out, and that alone. -/
theorem cutShort_shape (d : Dev) : ∃ flash otp free, cutShort d = { d with flash := flash, otp := otp, free := free } ∧
    (d.rcv.go = false → flash = d.flash ∧ otp = d.otp) := by
  cases go : d.rcv.go with
  | false =>
    refine ⟨d.flash, d.otp, d.free, ?_, fun _ => ⟨rfl, rfl⟩⟩
    unfold cutShort
    dsimp only
    rw [if_pos (by simp [go])]
  | true =>
    unfold cutShort
    dsimp only
    split
    · exact ⟨_, _, _, rfl, fun idle => absurd idle (by decide)⟩
    · split
      · exact ⟨_, _, _, rfl, fun idle => absurd idle (by decide)⟩
      · exact ⟨_, _, _, rfl, fun idle => absurd idle (by decide)⟩

theorem survives_cutShort (d : Dev) : Survives d (keepStored (cutShort d)) := by
  obtain ⟨flash, otp, free, cut, same⟩ := cutShort_shape d
  rw [cut]
  exact ⟨fun idle => ⟨(same idle).2, (same idle).1⟩, rfl, rfl, rfl, rfl, rfl, rfl⟩

theorem cleared_keepStored (d : Dev) : Cleared (keepStored d) := ⟨rfl, rfl, rfl, rfl, rfl, rfl, rfl, rfl, rfl, rfl, rfl, rfl, rfl⟩

theorem survives_keepStored (d : Dev) : Survives d (keepStored d) := ⟨fun _ => ⟨rfl, rfl⟩, rfl, rfl, rfl, rfl, rfl, rfl⟩

theorem wall_cutShort (d : Dev) : (cutShort d).clk.wall = d.clk.wall := by
  obtain ⟨flash, otp, free, cut, -⟩ := cutShort_shape d
  rw [cut]

/-! ### Without the input -/

theorem survives_unpowered (d : Dev) : Survives d (unpowered d) := { survives_cutShort d with }

theorem cleared_unpowered (d : Dev) : Cleared (unpowered d) := { cleared_keepStored (cutShort d) with }

theorem wall_unpowered (d : Dev) : (unpowered d).clk.wall = d.clk.wall := wall_cutShort d

/-! ### Module reset -/

theorem survives_moduleReset (d : Dev) : Survives d (moduleReset d) := { survives_cutShort d with }

theorem cleared_moduleReset (d : Dev) : Cleared (moduleReset d) := { cleared_keepStored (cutShort d) with }

/-- The scratchpads outlast a module reset (R142). -/
theorem getTile_moduleReset (d : Dev) (t : Nat) :
    getTile (moduleReset d) t = { spad := (getTile d t).spad, spadBad := (getTile d t).spadBad } := by
  have tiles : (moduleReset d).tiles =
      d.tiles.map (fun e => (e.1, (fun x : Tile => ({ spad := x.spad, spadBad := x.spadBad } : Tile)) e.2)) := rfl
  unfold getTile
  rw [tiles, tget_map (fun x : Tile => ({ spad := x.spad, spadBad := x.spadBad } : Tile))]
  cases tget d.tiles t with
  | none => rfl
  | some x => rfl

/-- RST_CAUSE after a reset: RST_N, ARM and SEALED. -/
theorem rstCause_moduleReset (d : Dev) : (moduleReset d).pwr.rstCause.getLsbD 1 = true ∧
    (moduleReset d).pwr.rstCause.getLsbD 2 = d.rcv.arm ∧ (moduleReset d).pwr.rstCause.getLsbD 3 = d.flt.sealed := by
  have cause : (moduleReset d).pwr.rstCause =
      BitVec.ofNat 32 (2 + (if d.rcv.arm then 4 else 0) + (if d.flt.sealed then 8 else 0)) := rfl
  rw [cause]
  cases d.rcv.arm <;> cases d.flt.sealed <;> decide

end

/-! ### The life cycle (R399) -/

/-- A module but for its weight store, its boot flash and its fuses. -/
def unfused (d : Dev) : Dev := { d with store := {}, flash := {}, otp := {} }

section
variable (d : Dev)

/-- The deletion of an image changes the weight store alone. -/
theorem storeless_deleteImage (slot : Nat) : { deleteImage slot d with store := {} } = { d with store := {} } := by
  unfold deleteImage
  split
  · rfl
  · next i _ =>
    exact (forEach_same (fun e : Dev => { e with store := {} }) (fun b e => journal 0x07 slot b.2 b.1 (eraseBlock b.2 e)) (fun _ _ => rfl)
      i.blocks (journal 0x05 slot 0 0 d)).trans rfl

theorem storeless_eraseImages : { eraseImages d with store := {} } = { d with store := {} } := by
  have emptied (l : Tab ImgSlot) (e : Dev) :
      { forEach l (fun e d => deleteImage e.1 d) e with store := {} } = { e with store := {} } :=
    forEach_same (fun e : Dev => { e with store := {} }) (fun i e => deleteImage i.1 e) (fun i e => storeless_deleteImage e i.1) l e
  unfold eraseImages
  dsimp only
  rw [emptied]
  split
  · rfl
  · rfl

theorem unfused_eraseImages : unfused (eraseImages d) = unfused d :=
  (congrArg (fun e : Dev => { e with flash := {}, otp := {} }) (storeless_eraseImages d) :)

theorem unfused_lcErase (target : BitVec 3) : unfused (lcErase target d) = unfused d := by
  unfold lcErase
  dsimp only
  split
  · rfl
  · exact (unfused_eraseImages _).trans rfl
  · exact ite_keeps unfused ((unfused_eraseImages _).trans rfl)
  · rfl

theorem unfused_lcMove (target : BitVec 3) : unfused (lcMove target d) = unfused d := (unfused_lcErase _ target).trans rfl

theorem otp_lcMove (target : BitVec 3) : (lcMove target d).otp.lc = target ∧ (lcMove target d).otp.pending = none := ⟨rfl, rfl⟩

end

end Sys2Proof.Machine
end

section
/-!
O53, PowerOnResetAndStartUp: the input, the rails, RST_N and the release of internal reset (R438 to R440, R447 to R452).
-/

namespace Sys2Proof.Machine

open Sys2Proof

/-! ### The input -/

section
variable {s : State}

/-- The moment an input that was off until then is taken. -/
def riseOf (d : Dev) : Dev :=
  match d.pwr.offAt with
  | some t => advanceTo (t + msG 1000) d
  | none => d

theorem untimed_riseOf (d : Dev) : untimed (riseOf d) = untimed d := by
  unfold riseOf
  split
  · exact untimed_advanceTo ..
  · rfl

theorem wall_riseOf {d : Dev} {t : Nat} (off : d.pwr.offAt = some t) : t + msG 1000 ≤ (riseOf d).clk.wall := by
  unfold riseOf
  rw [off]
  dsimp only
  rw [advanceTo_wall]
  exact le_max_left ..

theorem gives_inputRise (off : s.dev.pwr.inputOn = false) : Gives .inputRise s (keepStored (riseOf s.dev)) := by
  change execInputRise s = _
  unfold execInputRise
  rw [on_eq, off, if_neg Bool.false_ne_true]
  rfl

theorem gives_inputRise_on (on_ : s.dev.pwr.inputOn = true) : Gives .inputRise s s.dev := by
  change execInputRise s = _
  unfold execInputRise
  rw [on_eq, if_pos on_]

theorem gives_inputFall (on_ : s.dev.pwr.inputOn = true) (noFall : s.dev.pwr.holdUp = false) : Gives .inputFall s { s.dev with
    pwr := { s.dev.pwr with holdUp := true, fallAt := s.dev.clk.wall }, store := { s.dev.store with stopping := true } } := by
  change execInputFall s = _
  unfold execInputFall
  rw [on_eq, if_pos (by simp [on_, noFall])]

theorem gives_inputFall_still (still : s.dev.pwr.inputOn = false ∨ s.dev.pwr.holdUp = true) : Gives .inputFall s s.dev := by
  change execInputFall s = _
  unfold execInputFall
  rw [on_eq, if_neg]
  obtain off | falling := still
  · simp [off]
  · simp [falling]

/-- The end of the hold-up, from 1.0 ms to 2.0 ms after the fall. -/
def holdUpEnds (d : Dev) : Nat := (Config.freeBits 20 d.free).toNat % 1000001

theorem gives_holdUpEnd (falling : s.dev.pwr.holdUp = true) :
    Gives .holdUpEnd s (whenDue (s.dev.pwr.fallAt + usG 1000 + nsG (holdUpEnds s.dev))
      (fun d => unpowered { d with free := d.free + 1 }) s.dev) := by
  change execHoldUpEnd s = _
  unfold execHoldUpEnd
  rw [on_eq, if_pos falling]
  rfl

theorem gives_holdUpEnd_still (noFall : s.dev.pwr.holdUp = false) : Gives .holdUpEnd s s.dev := by
  change execHoldUpEnd s = _
  unfold execHoldUpEnd
  rw [on_eq, noFall, if_neg Bool.false_ne_true]

theorem gives_overvoltage (on_ : s.dev.pwr.inputOn = true) : Gives .overvoltage s (unpowered s.dev) := by
  change execOvervoltage s = _
  unfold execOvervoltage
  rw [on_eq, if_pos on_]

theorem gives_overvoltage_off (off : s.dev.pwr.inputOn = false) : Gives .overvoltage s s.dev := by
  change execOvervoltage s = _
  unfold execOvervoltage
  rw [on_eq, off, if_neg Bool.false_ne_true]

end

/-! ### Rails -/

/-- Internal reset is held with every rail up. -/
def ResetHeld (d : Dev) : Prop := d.pwr.inputOn = true ∧ d.pwr.resetHeld = true ∧ d.pwr.rails = 0xFF#8

/-- START_STATUS where a rail does not come up. -/
def railStatus (k : Nat) : BitVec 32 := BitVec.ofNat 32 (2 ^ (railStep k - 1) - 1 + railStep k * 2 ^ 20)

/-- The rails before the one that does not come up, which is before VFIX's successors. -/
def railsUpTo (k : Nat) (d : Dev) : Dev :=
  { d with pwr := { d.pwr with rails := BitVec.ofNat 8 (2 ^ k - 1), startStatus := railStatus k } }

/-- The rails as far as VFIX. -/
def railsToFix (k : Nat) (d : Dev) : Dev := { d with pwr := { d.pwr with rails := 7#8, startStatus := railStatus k } }

section
variable {s : State} {k : Fin 8}

theorem gives_railFail (h : ResetHeld s.dev) (first : s.dev.pwr.rstCause.getLsbD 0 = true) : Gives (.railFail k) s
    (if k.val < 3 then railsUpTo k.val s.dev
      else raise 3 (if k.val = 6 then 0x901 else 0x900) 0x0903 0xFF k.val (railsToFix k.val s.dev)) := by
  obtain ⟨on_, held, rails⟩ := h
  change execRailFail k s = _
  unfold execRailFail
  rw [on_eq, if_neg (by simp [on_, held, rails, first])]
  rfl

theorem gives_railFail_still (h : ¬ (ResetHeld s.dev ∧ s.dev.pwr.rstCause.getLsbD 0 = true)) : Gives (.railFail k) s s.dev := by
  have still : (!s.dev.pwr.inputOn || !s.dev.pwr.resetHeld || !s.dev.pwr.rstCause.getLsbD 0 ||
      decide (s.dev.pwr.rails ≠ 0xFF#8)) = true := by
    by_contra goes
    simp only [Bool.or_eq_true, Bool.not_eq_true', decide_eq_true_eq, not_or, Bool.not_eq_false, not_not] at goes
    obtain ⟨⟨⟨on_, held⟩, first⟩, rails⟩ := goes
    exact h ⟨⟨on_, held, rails⟩, first⟩
  change execRailFail k s = _
  unfold execRailFail
  rw [on_eq, if_pos still]

theorem rails_railsUpTo {k : Nat} (low : k < 3) (d : Dev) : (railsUpTo k d).pwr.rails.toNat = 2 ^ k - 1 := by
  have cases_ : k = 0 ∨ k = 1 ∨ k = 2 := by omega
  obtain rfl | rfl | rfl := cases_ <;> rfl

theorem status_railsUpTo {k : Nat} (low : k < 3) (d : Dev) :
    ((railsUpTo k d).pwr.startStatus >>> 20).toNat = if k = 0 then 1 else 2 := by
  have status : (railsUpTo k d).pwr.startStatus = railStatus k := rfl
  have cases_ : k = 0 ∨ k = 1 ∨ k = 2 := by omega
  rw [status]
  obtain rfl | rfl | rfl := cases_ <;> decide

/-- A rail after VFIX: the step that fails is step 3. -/
theorem status_railsToFix {k : Nat} (late : 3 ≤ k) (d : Dev) : ((railsToFix k d).pwr.startStatus >>> 20).toNat = 3 := by
  have step : railStep k = 3 := by
    unfold railStep
    rw [if_neg (by omega), if_neg (by omega)]
  have status : (railsToFix k d).pwr.startStatus = railStatus k := rfl
  rw [status, railStatus, step]
  rfl

/-- A SEAL as the rails stop at VFIX. -/
theorem railsToFix_sealed {k src : Nat} (late : 3 ≤ k) (d : Dev) : let e := raise 3 src 0x0903 0xFF k (railsToFix k d)
    e.pwr.rails = 7#8 ∧ e.flt.sealed = true ∧ (e.pwr.startStatus >>> 20).toNat = 3 ∧ Entered 3 src 0x0903 d e := by
  have entered := (raise_entered 3 src 0x0903 0xFF k (railsToFix k d)).of_flt (d := d) rfl
  have pwr := raise_seal_pwr src 0x0903 0xFF k (railsToFix k d)
  have sealed := raise_seal_seals src 0x0903 0xFF k (railsToFix k d)
  have status := status_railsToFix late d
  generalize raise 3 src 0x0903 0xFF k (railsToFix k d) = e at *
  refine ⟨(congrArg Pwr.rails pwr).trans (show 7#8 &&& 7#8 = 7#8 by decide), sealed, ?_, entered⟩
  rw [pwr]
  exact status

end

/-! ### RST_N -/

section
variable {s : State} {ns : Nat}

theorem gives_rstN (on_ : s.dev.pwr.inputOn = true) (long : 10000 ≤ ns) : Gives (.rstN ns) s (moduleReset (letPass (nsG ns) s.dev)) := by
  change execRstN ns s = _
  unfold execRstN
  rw [on_eq, if_neg (by simp [on_]; omega)]
  dsimp only
  rw [if_pos long]

theorem gives_rstN_ignored (h : s.dev.pwr.inputOn = false ∨ ns < 1000) : Gives (.rstN ns) s (letPass (nsG ns) s.dev) := by
  change execRstN ns s = _
  unfold execRstN
  rw [on_eq, if_pos (by simpa using h)]

/-- Between them the module takes RST_N, or ignores it. -/
theorem gives_rstN_either (on_ : s.dev.pwr.inputOn = true) (notShort : 1000 ≤ ns) (notLong : ns < 10000) :
    Gives (.rstN ns) s (if (draw 1 (letPass (nsG ns) s.dev)).1 = 1#1 then moduleReset (draw 1 (letPass (nsG ns) s.dev)).2
      else (draw 1 (letPass (nsG ns) s.dev)).2) := by
  change execRstN ns s = _
  unfold execRstN
  rw [on_eq, if_neg (by simp [on_]; omega)]
  dsimp only
  rw [if_neg (by omega)]

end

/-! ### The release of internal reset -/

/-- Internal reset is released: 1 ms has passed, and ALIVE begins. -/
def released (d : Dev) : Dev :=
  let d := advance (msG 1) d
  { d with
    pwr := { d.pwr with resetHeld := false, startStatus := d.pwr.startStatus ||| 0x8#32 }
    flt := { d.flt with aliveRun := true, alive := false, aliveAt := d.clk.wall } }

/-- A transition of the life cycle that was begun is completed (R399). -/
def lifeCompleted (d : Dev) : Dev :=
  match d.otp.pending with
  | some t => lcMove t d
  | none => d

/-- Recovery wait, or the boot image (R394). -/
def bootFrom (find : Findings) (d : Dev) : Dev :=
  if d.rcv.arm then recoveryWait 0 d else
  match bootReason d with
  | some r => recoveryWait r d
  | none => if find.bootLate then recoveryWait 0 d else startUp find (startImage 0#3 false (flashImage d) d)

section
variable {s : State} {find : Findings} {d : Dev}

theorem gives_internalResetRelease (h : ResetHeld s.dev) (unsealed : s.dev.flt.sealed = false) :
    Gives (.internalResetRelease find) s (bootFrom find (lifeCompleted (released s.dev))) := by
  obtain ⟨on_, held, rails⟩ := h
  change execInternalResetRelease find s = _
  unfold execInternalResetRelease
  rw [on_eq, if_neg (by simp [on_, held, rails, unsealed])]
  rfl

theorem gives_internalResetRelease_still (h : ¬ ResetHeld s.dev ∨ s.dev.flt.sealed = true) :
    Gives (.internalResetRelease find) s s.dev := by
  have still : (!s.dev.pwr.inputOn || !s.dev.pwr.resetHeld || decide (s.dev.pwr.rails ≠ 0xFF#8) || s.dev.flt.sealed) = true := by
    by_contra goes
    simp only [Bool.or_eq_true, Bool.not_eq_true', decide_eq_true_eq, not_or, Bool.not_eq_false, not_not] at goes
    obtain ⟨⟨⟨on_, held⟩, rails⟩, sealed⟩ := goes
    obtain free | latched := h
    · exact free ⟨on_, held, rails⟩
    · exact sealed latched
  change execInternalResetRelease find s = _
  unfold execInternalResetRelease
  rw [on_eq, if_pos still]

/-- What the boot leaves as it is, wherever it ends: the fuses, the reset, ALIVE and wall time. -/
def unbooted (d : Dev) : Otp × Bool × Bool × Nat := (d.otp, d.pwr.resetHeld, d.flt.aliveRun, d.clk.wall)

theorem unbooted_of_booted {e : Dev} (h : booted e = booted d) : unbooted e = unbooted d :=
  (congrArg (fun x : Otp × Rcv × Ident × List Byte × Mem × Bool × Bool × Nat =>
    (x.1, x.2.2.2.2.2.1, x.2.2.2.2.2.2.1, x.2.2.2.2.2.2.2)) h :)

theorem unbooted_startImage (st : BitVec 3) (host : Bool) (img : List Byte) (d : Dev) :
    unbooted (startImage st host img d) = unbooted d := by
  unfold startImage unbooted
  rfl

theorem unbooted_bootFrom (find : Findings) (d : Dev) : unbooted (bootFrom find d) = unbooted d := by
  have waits (r : Nat) : unbooted (recoveryWait r d) = unbooted d := rfl
  unfold bootFrom
  split
  · exact waits 0
  · split
    · exact waits _
    · split
      · exact waits 0
      · exact (unbooted_of_booted (booted_startUp ..)).trans (unbooted_startImage ..)

theorem unfused_lifeCompleted (d : Dev) : unfused (lifeCompleted d) = unfused d := by
  unfold lifeCompleted
  split
  · exact unfused_lcMove ..
  · rfl

theorem lifeCompleted_none (none_ : d.otp.pending = none) : lifeCompleted d = d := by
  unfold lifeCompleted
  rw [none_]

theorem otp_lifeCompleted {t : BitVec 3} (begun : d.otp.pending = some t) :
    (lifeCompleted d).otp.lc = t ∧ (lifeCompleted d).otp.pending = none := by
  unfold lifeCompleted
  rw [begun]
  exact otp_lcMove d t

/-- The checks of an image look at the fuses and the boot ROM alone. -/
theorem checkImage_congr {e : Dev} (otp : e.otp = d.otp) (rom : e.rom = d.rom) (img : List Byte) : checkImage e img = checkImage d img := by
  unfold checkImage
  rw [otp, rom]

theorem bootReason_released (d : Dev) : bootReason (released d) = bootReason d := by
  have image : flashImage (released d) = flashImage d := rfl
  unfold bootReason
  rw [image, checkImage_congr (d := d) rfl rfl]
  rfl

/-- The boot image is started where it passes, in time. -/
theorem bootFrom_image {find : Findings} (unarmed : d.rcv.arm = false) (passes : bootReason d = none) (inTime : find.bootLate = false) :
    bootFrom find d = startUp find (startImage 0#3 false (flashImage d) d) := by
  unfold bootFrom
  rw [unarmed, if_neg Bool.false_ne_true, passes]
  dsimp only
  rw [inTime, if_neg Bool.false_ne_true]

theorem bootFrom_armed (armed : d.rcv.arm = true) : bootFrom find d = recoveryWait 0 d := if_pos armed

theorem bootFrom_fails {r : Nat} (unarmed : d.rcv.arm = false) (fails : bootReason d = some r) : bootFrom find d = recoveryWait r d := by
  unfold bootFrom
  rw [unarmed, if_neg Bool.false_ne_true, fails]

theorem bootFrom_late (unarmed : d.rcv.arm = false) (passes : bootReason d = none) (late : find.bootLate = true) :
    bootFrom find d = recoveryWait 0 d := by
  unfold bootFrom
  rw [unarmed, if_neg Bool.false_ne_true, passes]
  dsimp only
  rw [late, if_pos rfl]

/-- Recovery wait, as a release of internal reset reaches it. -/
theorem rcv_recoveryWait (unarmed : d.rcv.arm = false) (r : Nat) :
    (recoveryWait r d).rcv = { d.rcv with st := 1#3, reason := BitVec.ofNat 8 r } := by
  show ({ d.rcv with st := 1#3, reason := BitVec.ofNat 8 r, arm := false } : Rcv) = _
  rw [← unarmed]

theorem startImage_ident (st : BitVec 3) (host : Bool) (img : List Byte) (d : Dev) :
    (startImage st host img d).ident.fw = BitVec.ofNat 32 (lf img 0x0C 3 + 2 ^ 31) := by
  unfold startImage
  rfl

/-- START_STATUS once every step has ended: bits 3 to 10 are set. -/
theorem startStatus_ended (v : BitVec 32) (i : Nat) (low : 3 ≤ i) (high : i ≤ 10) :
    ((((v ||| 0x8#32) &&& 0x000FFFFF#32) ||| 0x10#32) ||| 0x7E0#32).getLsbD i = true := by
  interval_cases i <;> simp

theorem startStatus_startImage (st : BitVec 3) (host : Bool) (img : List Byte) (d : Dev) :
    (startImage st host img d).pwr.startStatus = (d.pwr.startStatus &&& 0x000FFFFF#32) ||| 0x10#32 := by
  unfold startImage
  rfl

end

/-! ### The obligation -/

section
variable {s : State} {find : Findings} {d : Dev}

theorem untimed_letPass (g : Nat) (d : Dev) : untimed (letPass g d) = untimed d := by
  unfold letPass
  split
  · exact untimed_passTo ..
  · rfl

/-- The input's rise leaves what survives, and nothing volatile. -/
theorem inputRise_survives (off : s.dev.pwr.inputOn = false) : ∃ e, Gives .inputRise s e ∧ Survives s.dev e ∧ Cleared e ∧
    e.tiles = [] ∧ e.pwr = {} ∧ e.flt = {} ∧ e.rcv = {} ∧ ∀ t, s.dev.pwr.offAt = some t → t + msG 1000 ≤ e.clk.wall :=
  ⟨_, gives_inputRise off, survives_of_untimed (untimed_riseOf _) (survives_keepStored _), cleared_keepStored _, rfl, rfl, rfl, rfl,
    fun _ => wall_riseOf⟩

/-- The end of the hold-up leaves what survives, and nothing volatile. -/
theorem holdUpEnd_survives (w : Nat)
    (due : Gives .holdUpEnd s (whenDue w (fun d => unpowered { d with free := d.free + 1 }) s.dev)) :
    AtDue w s.dev fun d => ∃ e, Gives .holdUpEnd s e ∧ Survives s.dev e ∧ Cleared e ∧ e.tiles = [] ∧ e.pwr.inputOn = false ∧
      e.pwr.rails = 0 ∧ e.flt = {} ∧ e.clk.wall = d.clk.wall ∧ e.pwr.offAt = some d.clk.wall :=
  atDue_gives due fun d same => by
    have survives := survives_unpowered { d with free := d.free + 1 }
    have here : Survives d (unpowered { d with free := d.free + 1 }) := { survives with }
    exact ⟨survives_of_untimed same here, cleared_unpowered _, rfl, rfl, rfl, rfl, wall_unpowered _, rfl⟩

/-- A module reset leaves what survives, the fault history and the scratchpads. -/
theorem rstN_survives {ns : Nat} (on_ : s.dev.pwr.inputOn = true) (long : 10000 ≤ ns) : ∃ e, Gives (.rstN ns) s e ∧
    Survives s.dev e ∧ Cleared e ∧ e.pwr.resetHeld = true ∧ e.pwr.rails = s.dev.pwr.rails ∧ e.pwr.rstCause.getLsbD 1 = true ∧
    e.pwr.rstCause.getLsbD 2 = s.dev.rcv.arm ∧ e.pwr.rstCause.getLsbD 3 = s.dev.flt.sealed ∧ e.rcv = { arm := s.dev.rcv.arm } ∧
    e.flt.hist = s.dev.flt.hist ∧ e.flt.head = s.dev.flt.head ∧ e.flt.sealed = s.dev.flt.sealed ∧
    e.flt.hold = (s.dev.flt.sealed && s.dev.flt.hold) ∧ e.flt.mpFailed = false ∧
    ∀ t, getTile e t = { spad := (getTile s.dev t).spad, spadBad := (getTile s.dev t).spadBad } := by
  have same : untimed (letPass (nsG ns) s.dev) = untimed s.dev := untimed_letPass ..
  have arm : (letPass (nsG ns) s.dev).rcv.arm = s.dev.rcv.arm := (congrArg (·.rcv.arm) same :)
  have flt : (letPass (nsG ns) s.dev).flt = s.dev.flt := (congrArg Dev.flt same :)
  have pwr : (letPass (nsG ns) s.dev).pwr = s.dev.pwr := pwr_of_untimed same
  have tiles (t : Nat) : getTile (letPass (nsG ns) s.dev) t = getTile s.dev t := (congrArg (getTile · t) same :)
  obtain ⟨rst, armed, latched⟩ := rstCause_moduleReset (letPass (nsG ns) s.dev)
  refine ⟨_, gives_rstN on_ long, survives_of_untimed same (survives_moduleReset _), cleared_moduleReset _, rfl,
    (congrArg Pwr.rails pwr :), rst, armed.trans arm, latched.trans (congrArg Flt.sealed flt), ?_, (congrArg Flt.hist flt :),
    (congrArg Flt.head flt :), (congrArg Flt.sealed flt :), (congrArg (fun f : Flt => f.sealed && f.hold) flt :), rfl, fun t => ?_⟩
  · exact congrArg (fun a => ({ arm := a } : Rcv)) arm
  · rw [getTile_moduleReset, tiles]

/-- In between, the module is reset or stays. -/
theorem rstN_either {ns : Nat} (on_ : s.dev.pwr.inputOn = true) (notShort : 1000 ≤ ns) (notLong : ns < 10000) :
    ∃ e, Gives (.rstN ns) s e ∧ ((e.parts = s.dev.parts ∧ e.flt = s.dev.flt ∧ e.pwr = s.dev.pwr) ∨
      (Cleared e ∧ e.pwr.resetHeld = true)) := by
  have same : untimed (letPass (nsG ns) s.dev) = untimed s.dev := untimed_letPass ..
  refine ⟨_, gives_rstN_either on_ notShort notLong, ?_⟩
  split
  · exact .inr ⟨cleared_moduleReset _, rfl⟩
  · exact .inl ⟨(congrArg Dev.parts same :), (congrArg Dev.flt same :), (congrArg Dev.pwr same :)⟩

/-- What the release of internal reset leaves, wherever it ends. -/
theorem released_unbooted (find : Findings) (d : Dev) : let e := bootFrom find (lifeCompleted (released d))
    e.pwr.resetHeld = false ∧ e.flt.aliveRun = true ∧ d.clk.wall + msG 1 ≤ e.clk.wall := by
  have same := unbooted_bootFrom find (lifeCompleted (released d))
  have life := unfused_lifeCompleted (released d)
  generalize bootFrom find (lifeCompleted (released d)) = e at same
  generalize lifeCompleted (released d) = c at same life
  have held : c.pwr.resetHeld = false := (congrArg (·.pwr.resetHeld) life :)
  have alive : c.flt.aliveRun = true := (congrArg (·.flt.aliveRun) life :)
  have wall : c.clk.wall = d.clk.wall + msG 1 := (congrArg (·.clk.wall) life :)
  exact ⟨(congrArg (·.2.1) same).trans held, (congrArg (·.2.2.1) same).trans alive,
    le_of_eq ((congrArg (·.2.2.2) same).trans wall).symm⟩

/-- The boot image is started: it passed, in time, and no transition of the life cycle was under way. -/
theorem released_starts (unsealed : d.flt.sealed = false) (img : List Byte) :
    let e := startUp find (startImage 0#3 false img (released d))
    e.rcv.st = 0 ∧ e.rcv.running = some (img.take 0x50, false) ∧ e.ident.fw = BitVec.ofNat 32 (lf img 0x0C 3 + 2 ^ 31) ∧
    (find.faultLogic = false → find.zeroFail = true → e.flt.sealed = true ∧ e.glb.mpReady = false) ∧
    (find.faultLogic = false → find.zeroFail = false → e.glb.mpReady = true ∧ e.flt.sealed = false ∧
      ∀ i, 3 ≤ i → i ≤ 10 → e.pwr.startStatus.getLsbD i = true) := by
  have rcv := startImage_rcv 0#3 false img (released d)
  have ident := startImage_ident 0#3 false img (released d)
  have status := startStatus_startImage 0#3 false img (released d)
  have clear : (startImage 0#3 false img (released d)).flt.sealed = false :=
    (congrArg Flt.sealed (startImage_flt ..)).trans unsealed
  generalize startImage 0#3 false img (released d) = c at *
  have same := booted_startUp find c
  refine ⟨(congrArg (·.2.1.st) same).trans (congrArg Rcv.st rcv), (congrArg (·.2.1.running) same).trans (congrArg Rcv.running rcv),
    (congrArg (·.2.2.1.fw) same).trans ident, fun sound fails => startUp_zeroFail sound clear fails, fun sound fills => ?_⟩
  obtain ⟨ready, sealed, ended⟩ := startUp_ready sound clear fills
  refine ⟨ready, sealed, fun i low high => ?_⟩
  rw [ended, status]
  exact startStatus_ended _ i low high

end

/-- Settles O53: what each event of the input, the rails and the resets gives, and where the boot ends. -/
theorem powerOnResetAndStartUp : Obligations.PowerOnResetAndStartUp := by
  unfold Obligations.PowerOnResetAndStartUp
  intro s k ns find d kept gone held falls
  have keeps {e : Dev} (h : Survives d e) : kept e := ⟨h.fuses, h.rom, h.bytes, h.jrnA, h.jrnB, h.retired, h.host⟩
  have clears {e : Dev} (h : Cleared e) : gone e :=
    ⟨h.parts, h.gddr, h.cpt, h.wpt, h.ports, h.chans, h.mbx, h.dma, h.ranks, h.sec, h.glb, h.imgs, h.replayed⟩
  refine ⟨fun off => ?rise, gives_inputRise_on, gives_inputFall, gives_inputFall_still, fun falling => ?ends, gives_holdUpEnd_still,
    fun on_ => ?surge, gives_overvoltage_off, fun h first => ⟨fun low => ?early, fun late => ?late⟩, gives_railFail_still,
    fun on_ long => ?reset, gives_rstN_ignored, fun on_ notShort notLong => ?either, fun h unsealed => ?released,
    gives_internalResetRelease_still⟩
  case rise =>
    obtain ⟨e, gives, survives, cleared, rest⟩ := inputRise_survives off
    exact ⟨e, gives, keeps survives, clears cleared, rest⟩
  case ends =>
    have due := gives_holdUpEnd falling
    refine ⟨holdUpEnds d, Nat.le_of_lt_succ (Nat.mod_lt _ (by decide)), fun early => notYet_gives due early, ?_⟩
    refine (holdUpEnd_survives _ due).imp fun c _ => ?_
    rintro ⟨e, gives, survives, cleared, rest⟩
    exact ⟨e, gives, keeps survives, clears cleared, rest⟩
  case surge =>
    exact ⟨_, gives_overvoltage on_, keeps (survives_unpowered _), clears (cleared_unpowered _), rfl, rfl, rfl, rfl, wall_unpowered _⟩
  case early =>
    refine ⟨railsUpTo k.val d, ?_, rails_railsUpTo low d, rfl, rfl, status_railsUpTo low d⟩
    have gives := gives_railFail (k := k) h first
    rwa [if_pos low] at gives
  case late =>
    have gives := gives_railFail (k := k) h first
    rw [if_neg (Nat.not_lt.mpr late)] at gives
    exact ⟨_, gives, railsToFix_sealed late d⟩
  case reset =>
    obtain ⟨e, gives, survives, cleared, rest⟩ := rstN_survives on_ long
    exact ⟨e, gives, keeps survives, clears cleared, rest⟩
  case either =>
    obtain ⟨e, gives, stays | ⟨cleared, resets⟩⟩ := rstN_either on_ notShort notLong
    · exact ⟨e, gives, .inl stays⟩
    · exact ⟨e, gives, .inr ⟨clears cleared, resets⟩⟩
  case released =>
    have otp := congrArg (·.1) (unbooted_bootFrom find (lifeCompleted (released d)))
    obtain ⟨free, alive, wall⟩ := released_unbooted find d
    refine ⟨_, gives_internalResetRelease h unsealed, free, alive, wall, fun t begun => ?_, fun idle => ?_⟩
    · obtain ⟨lc, pending⟩ := otp_lifeCompleted (d := released d) begun
      exact ⟨(congrArg Otp.lc otp).trans lc, (congrArg Otp.pending otp).trans pending⟩
    · have reason := bootReason_released d
      rw [lifeCompleted_none (d := released d) idle] at otp ⊢
      refine ⟨otp, fun armed => ?_, fun unarmed r fails => ?_, fun unarmed passes late => ?_, fun unarmed passes inTime => ?_⟩
      · rw [bootFrom_armed (d := released d) armed]
        exact ⟨rfl, rfl⟩
      · rw [bootFrom_fails (d := released d) unarmed (reason.trans fails)]
        exact ⟨rcv_recoveryWait (d := released d) unarmed r, rfl⟩
      · rw [bootFrom_late (d := released d) unarmed (reason.trans passes) late]
        exact ⟨rcv_recoveryWait (d := released d) unarmed 0, rfl⟩
      · rw [bootFrom_image (d := released d) unarmed (reason.trans passes) inTime]
        exact released_starts unsealed (flashImage d)

end Sys2Proof.Machine
end

section
/-!
O52, OutOfBandAnswers: the sideband, MCTP control, DOE discovery, IDE integrity and the IEEE 1149.1 port (R370, R388, R389, R407,
R443, R457).
-/

namespace Sys2Proof.Machine

open Sys2Proof

/-! ### The sideband and MCTP control -/

section
variable {s : State} {c : Instr} {f : Dev → Dev} {e : Dev}

theorem gives_sideband (h : exec c s = on (sideband f) s) (mp : mpUp s.dev = true) (free : s.dev.glb.shed = false) (he : f s.dev = e) :
    Gives c s (fromVendor e) := by
  rw [Gives, h, on_eq, sideband, mp, free, if_neg (by decide), if_neg Bool.false_ne_true, he]

theorem gives_sideband_busy (h : exec c s = on (sideband f) s) (mp : mpUp s.dev = true) (shed : s.dev.glb.shed = true) :
    Gives c s (fromVendor (respond [1] s.dev)) := by
  rw [Gives, h, on_eq, sideband, mp, shed, if_neg (by decide), if_pos rfl]
  rfl

theorem gives_sideband_silent (h : exec c s = on (sideband f) s) (down : mpUp s.dev = false) : Gives c s (respond [] s.dev) := by
  rw [Gives, h, on_eq, sideband, down, if_pos (by decide)]

theorem gives_mctp (h : exec c s = on (mctp f) s) (mp : mpUp s.dev = true) (he : f s.dev = e) : Gives c s e := by
  rw [Gives, h, on_eq, mctp, if_pos mp, he]

theorem gives_mctp_silent (h : exec c s = on (mctp f) s) (down : mpUp s.dev = false) : Gives c s (respond [] s.dev) := by
  rw [Gives, h, on_eq, mctp, down, if_neg Bool.false_ne_true]

theorem gives_doeDiscovery_silent {index : BitVec 8} (down : mpUp s.dev = false) : Gives (.doeDiscovery index) s (respond [] s.dev) := by
  change execDoeDiscovery index s = _
  unfold execDoeDiscovery
  rw [on_eq, down, if_pos (by decide)]

theorem gives_doeDiscovery {index : BitVec 8} (mp : mpUp s.dev = true) (listed : index.toNat < 3) :
    Gives (.doeDiscovery index) s (respond [1, 0, index, if index = 2 then 0 else index + 1] s.dev) := by
  have bytes : toLe 2 1 ++ toLe 1 index.toNat ++ toLe 1 (if index = 2 then 0 else index.toNat + 1) =
      [1, 0, index, if index = 2 then 0 else index + 1] := by
    have cases_ : index = 0#8 ∨ index = 1#8 ∨ index = 2#8 := by bv_omega
    obtain rfl | rfl | rfl := cases_ <;> decide
  change execDoeDiscovery index s = _
  unfold execDoeDiscovery
  rw [on_eq, mp, if_neg (by decide), if_pos listed, bytes]

theorem gives_doeDiscovery_none {index : BitVec 8} (mp : mpUp s.dev = true) (unlisted : 3 ≤ index.toNat) :
    Gives (.doeDiscovery index) s (respond [0xFF, 0xFF, 0xFF, 0] s.dev) := by
  change execDoeDiscovery index s = _
  unfold execDoeDiscovery
  rw [on_eq, mp, if_neg (by decide), if_neg (Nat.not_lt.mpr unlisted)]

end

/-! ### The sideband's rows -/

section
variable {s : State} {watts : BitVec 16}

/-- The hottest of five temperatures, however they are paired. -/
theorem max_of_five (t : Nat → Nat) :
    max (max (max (t 0) (t 1)) (max (t 2) (t 3))) (t 4) = ((List.range 5).map t).foldl max 0 := by
  simp [List.range, List.range.loop, max_assoc]

theorem gives_powerLimit (mp : mpUp s.dev = true) (free : s.dev.glb.shed = false) (low : 500 ≤ watts.toNat) (high : watts.toNat ≤ 2800) :
    Gives (.powerLimit watts) s (fromVendor (respond (toLe 1 stOk) { s.dev with pwr := { s.dev.pwr with
      limit := BitVec.ofNat 12 watts.toNat, overRun := 0, belowAt := none, exceeded := 0, limitFault := false } })) :=
  gives_sideband rfl mp free (if_neg (by simp; omega))

theorem gives_powerLimit_bad (mp : mpUp s.dev = true) (free : s.dev.glb.shed = false) (bad : watts.toNat < 500 ∨ 2800 < watts.toNat) :
    Gives (.powerLimit watts) s (fromVendor (respond [2] s.dev)) :=
  gives_sideband rfl mp free (if_pos (by simpa using bad))

/-- QUIESCE stops what a HALT in every partition stops. -/
theorem gives_quiesce (mp : mpUp s.dev = true) (free : s.dev.glb.shed = false) : Gives .quiesce s (fromVendor (respond
    [if s.dev.pwr.startStatus.getLsbD 16 then 0 else 4] (haltParts 0xFF s.dev))) := by
  have status : (haltParts 0xFF s.dev).pwr = s.dev.pwr := (congrArg (·.1.pwr) (unstopped_haltParts 0xFF s.dev) :)
  refine gives_sideband rfl mp free ?_
  show respond (toLe 1 (if (haltParts 0xFF s.dev).pwr.startStatus.getLsbD 16 then stOk else stNotReady)) (haltParts 0xFF s.dev) = _
  rw [status]
  cases s.dev.pwr.startStatus.getLsbD 16 with
  | true => rfl
  | false => rfl

end

/-! ### IDE integrity and the IEEE 1149.1 port -/

section
variable {s : State} {st : Fin 3} {ins : JtagOp}

theorem sec_of_unraised {d e : Dev} (h : unraised e = unraised d) : e.sec = d.sec := (congrArg Dev.sec h :)

/-- A stream that fails is insecure. -/
def insecured (k : Nat) (d : Dev) : Dev :=
  { d with sec := { d.sec with ide := tput d.sec.ide k { (tget d.sec.ide k).getD {} with secure := false, insecure := true } } }

theorem gives_ideIntegrity (up : awake s.dev = true) (secure : ((tget s.dev.sec.ide st.val).getD {}).secure = true) :
    Gives (.ideIntegrity st) s (raise 1 0x804 0x0803 0xFF 0 (insecured st.val s.dev)) := by
  refine gives_whenAwake rfl up ?_
  dsimp only
  rw [secure, if_neg (by decide)]
  rfl

theorem insecured_degrade (k : Nat) (d : Dev) : let e := raise 1 0x804 0x0803 0xFF 0 (insecured k d)
    tget e.sec.ide k = some ⟨false, true, ((tget d.sec.ide k).getD {}).keys⟩ ∧ Entered 1 0x804 0x0803 d e := by
  have entered := (raise_entered 1 0x804 0x0803 0xFF 0 (insecured k d)).of_flt (d := d) rfl
  have sec := sec_of_unraised (unraised_raise (cls := 1) (src := 0x804) (by decide) (by decide) 0x0803 0xFF 0 (insecured k d))
  generalize raise 1 0x804 0x0803 0xFF 0 (insecured k d) = e at entered sec ⊢
  refine ⟨?_, entered⟩
  rw [sec]
  exact tget_tput_same ..

theorem gives_ideIntegrity_plain (up : awake s.dev = true) (plain : ((tget s.dev.sec.ide st.val).getD {}).secure = false) :
    Gives (.ideIntegrity st) s s.dev := by
  refine gives_whenAwake rfl up ?_
  dsimp only
  rw [plain, if_pos (by decide)]

/-- The instruction that acts: EXTEST acts as BYPASS while any partition exists. -/
def jtagActs (ins : JtagOp) (d : Dev) : JtagOp := if ins = .extest ∧ d.parts ≠ [] then .bypass else ins

/-- The word of IDCODE. -/
def idcode : BitVec 32 := 0x1#4 ++ 0x9216#16 ++ Config.manufacturer ++ 1#1

theorem gives_ieee11491 (powered : s.dev.pwr.rails.getLsbD 1 = true) : Gives (.ieee11491Instruction ins) s { s.dev with
    jtag := jtagActs ins s.dev
    out := { s.dev.out with jtag := if jtagActs ins s.dev = .idcode then idcode else s.dev.out.jtag } } := by
  have acts : (if decide (ins = .extest) && !s.dev.parts.isEmpty then JtagOp.bypass else ins) = jtagActs ins s.dev :=
    if_congr (by simp) rfl rfl
  change execIeee11491Instruction ins s = _
  unfold execIeee11491Instruction
  rw [on_eq, powered, if_neg (by decide)]
  dsimp only
  rw [acts]
  rfl

theorem gives_ieee11491_off (off : s.dev.pwr.rails.getLsbD 1 = false) : Gives (.ieee11491Instruction ins) s s.dev := by
  change execIeee11491Instruction ins s = _
  unfold execIeee11491Instruction
  rw [on_eq, off, if_pos (by decide)]

/-- Its version, part number and last bit, whatever the manufacturer's code. -/
theorem idcode_fields : idcode >>> 28 = 0x1#32 ∧ (idcode >>> 12).setWidth 16 = 0x9216#16 ∧ idcode.getLsbD 0 = true := by
  have word : idcode.toNat = 2 ^ 28 + 0x9216 * 2 ^ 12 + 2 * Config.manufacturer.toNat + 1 := by
    unfold idcode
    have maker := Config.manufacturer.isLt
    simp only [BitVec.toNat_append]
    rw [← Nat.shiftLeft_add_eq_or_of_lt (by decide), ← Nat.shiftLeft_add_eq_or_of_lt maker, ← Nat.shiftLeft_add_eq_or_of_lt (by decide)]
    simp only [Nat.shiftLeft_eq, BitVec.toNat_ofNat]
    omega
  have maker := Config.manufacturer.isLt
  refine ⟨?_, ?_, ?_⟩
  · apply BitVec.eq_of_toNat_eq
    rw [BitVec.toNat_ushiftRight, word, Nat.shiftRight_eq_div_pow]
    simp only [BitVec.toNat_ofNat]
    omega
  · apply BitVec.eq_of_toNat_eq
    rw [BitVec.toNat_setWidth, BitVec.toNat_ushiftRight, word, Nat.shiftRight_eq_div_pow]
    simp only [BitVec.toNat_ofNat]
    omega
  · rw [BitVec.getLsbD, word, Nat.testBit_zero]
    simp only [decide_eq_true_eq]
    omega

end

/-- Settles O52: the answer of each row, from its own equation. -/
theorem outOfBandAnswers : Obligations.OutOfBandAnswers := by
  unfold Obligations.OutOfBandAnswers
  intro s watts eid ty index st ins d open_ side mctpRows temp x
  refine ⟨fun c hc down => ?silent, fun c hc mp shed => ?busy, fun ⟨mp, free⟩ => ?ident, fun ⟨mp, free⟩ => ?sensor,
    fun ⟨mp, free⟩ low high => ?limit, fun ⟨mp, free⟩ => gives_powerLimit_bad mp free, fun ⟨mp, free⟩ cls src mt last => ?summary,
    fun ⟨mp, free⟩ wf => ?quiesce, fun mp zero ones => ?eid, fun mp bad => ?badEid, fun mp => gives_mctp rfl mp rfl,
    fun mp known => ?version, fun mp c0 c5 c7E cFF => ?noVersion, fun mp => gives_mctp rfl mp rfl, gives_doeDiscovery,
    gives_doeDiscovery_none, fun up secure => ⟨_, gives_ideIntegrity up secure, insecured_degrade _ _⟩, gives_ideIntegrity_plain,
    fun powered => ⟨_, gives_ieee11491 powered, rfl, rfl, ?idcode⟩, gives_ieee11491_off⟩
  case silent =>
    simp only [side, mctpRows, List.cons_append, List.nil_append, List.mem_cons, List.not_mem_nil, or_false] at hc
    obtain rfl | rfl | rfl | rfl | rfl | rfl | rfl | rfl | rfl | rfl := hc
    iterate 5 exact gives_sideband_silent rfl down
    iterate 4 exact gives_mctp_silent rfl down
    exact gives_doeDiscovery_silent down
  case busy =>
    simp only [side, List.mem_cons, List.not_mem_nil, or_false] at hc
    obtain rfl | rfl | rfl | rfl | rfl := hc
    all_goals exact gives_sideband_busy rfl mp shed
  case ident =>
    refine gives_sideband rfl mp free (congrArg (respond · d) ?_)
    simp only [identBytes, ← List.append_assoc]
    rfl
  case sensor =>
    refine gives_sideband rfl mp free ?_
    dsimp only
    rw [max_of_five temp]
    rfl
  case limit =>
    refine ⟨_, gives_powerLimit mp free low high, rfl, ?_, rfl⟩
    show watts.toNat % 2 ^ 12 = watts.toNat
    omega
  case summary =>
    refine gives_sideband rfl mp free ?_
    dsimp only
    rw [last]
    rfl
  case quiesce =>
    refine ⟨_, gives_quiesce mp free, fun p y here => ?_, rfl, rfl⟩
    obtain ⟨-, z, there, plan⟩ := HasPlan.haltParts_all (q := p) (pl := y.plan) ⟨wf, y, here, rfl⟩
    exact ⟨z, there, plan⟩
  case eid => exact gives_mctp rfl mp (if_neg (by simpa using ⟨zero, ones⟩))
  case badEid => exact gives_mctp rfl mp (if_pos (by simpa using bad))
  case version => exact ⟨_, gives_mctp rfl mp (if_pos (by simpa [or_assoc] using known))⟩
  case noVersion => exact gives_mctp rfl mp (if_neg (by simpa using ⟨⟨⟨c0, c5⟩, c7E⟩, cFF⟩))
  case idcode =>
    rintro rfl
    exact idcode_fields

end Sys2Proof.Machine
end

section
/-!
O51, AttestationFollowsItsExchange: the SPDM requests, their order and their sessions (R404 to R406, Tables 16.5 and 16.9).
-/

namespace Sys2Proof.Machine

open Sys2Proof

/-! ### The order of the exchange -/

/-- The responder answers: the MP runs, and the module is in neither BLANK nor VOID. -/
def Responds (d : Dev) : Prop := mpUp d = true ∧ d.otp.lc ≠ 0#3 ∧ d.otp.lc ≠ 4#3

section
variable {s : State} {c : Instr} {need : Nat} {f : Dev → Dev} {e : Dev}

theorem silent_iff {d : Dev} : (!mpUp d || decide (d.otp.lc = 0) || decide (d.otp.lc = 4)) = true ↔ ¬ Responds d := by
  simp only [Bool.or_eq_true, Bool.not_eq_true', decide_eq_true_eq, Responds, ne_eq, not_and_or, Bool.not_eq_true, not_not, or_assoc]
  rfl

theorem gives_spdm (h : exec c s = on (spdm need f) s) (responds : Responds s.dev) (due : need ≤ s.dev.sec.spdm.toNat)
    (he : f s.dev = e) : Gives c s e := by
  rw [Gives, h, on_eq, spdm, if_neg fun silent => silent_iff.mp silent responds, if_neg (Nat.not_lt.mpr due), he]

theorem gives_spdm_silent (h : exec c s = on (spdm need f) s) (silent : ¬ Responds s.dev) : Gives c s (respond [] s.dev) := by
  rw [Gives, h, on_eq, spdm, if_pos (silent_iff.mpr silent)]

theorem gives_spdm_early (h : exec c s = on (spdm need f) s) (responds : Responds s.dev) (early : s.dev.sec.spdm.toNat < need) :
    Gives c s (respond (spdmError 4) s.dev) := by
  rw [Gives, h, on_eq, spdm, if_neg fun silent => silent_iff.mp silent responds, if_pos early]

/-- A row of the exchange is silent where the responder does not run, and an unexpected request out of its order. -/
theorem gives_spdm_order (h : exec c s = on (spdm need f) s) : (¬ Responds s.dev → Gives c s (respond [] s.dev)) ∧
    (Responds s.dev → s.dev.sec.spdm.toNat < need → Gives c s (respond (spdmError 4) s.dev)) :=
  ⟨gives_spdm_silent h, gives_spdm_early h⟩

theorem gives_getVersion (mp : mpUp s.dev = true) (live : s.dev.otp.lc ≠ 4#3) : Gives .getVersion s
    (respond [0x10, 0x04, 0, 0, 0, 1, 0x00, 0x12] { s.dev with sec := { s.dev.sec with spdm := 1#2 } }) := by
  change execGetVersion s = _
  unfold execGetVersion
  rw [on_eq, if_neg (by simpa [mp] using live)]
  rfl

theorem gives_getVersion_silent (h : mpUp s.dev = false ∨ s.dev.otp.lc = 4#3) : Gives .getVersion s (respond [] s.dev) := by
  change execGetVersion s = _
  unfold execGetVersion
  rw [on_eq, if_pos (by simpa using h)]

end

/-! ### Certificates and measurements -/

/-- The negotiation has completed. -/
def Negotiated (d : Dev) : Prop := Responds d ∧ d.sec.spdm = 3#2

section
variable {s : State} {c : Instr} {f : Dev → Dev} {e : Dev} {slot index : BitVec 8} {off len : BitVec 16} {nonce : BitVec 256}
  {half : BitVec 16} {share : BitVec 768} {sign : Bool}

theorem gives_negotiated (h : exec c s = on (spdm 3 f) s) (ready : Negotiated s.dev) (he : f s.dev = e) : Gives c s e :=
  gives_spdm h ready.1 (by rw [ready.2]; decide) he

theorem gives_getCertificate (ready : Negotiated s.dev) (zero : slot = 0) (within : off.toNat ≤ s.dev.flash.cert.length) :
    Gives (.getCertificate slot off len) s (respond ([0x12, 0x02, 0, 0] ++
      toLe 2 (min len.toNat (s.dev.flash.cert.length - off.toNat)) ++
      toLe 2 (s.dev.flash.cert.length - off.toNat - min len.toNat (s.dev.flash.cert.length - off.toNat)) ++
      (s.dev.flash.cert.drop off.toNat).take len.toNat) s.dev) := by
  have part : (sl s.dev.flash.cert off.toNat len.toNat).length = min len.toNat (s.dev.flash.cert.length - off.toNat) := by
    rw [sl, List.length_take, List.length_drop]
  refine gives_negotiated rfl ready ?_
  dsimp only
  rw [if_neg (by simp [zero]; omega), part]
  rfl

theorem gives_getCertificate_slot (ready : Negotiated s.dev) (other : slot ≠ 0) :
    Gives (.getCertificate slot off len) s (respond (spdmError 1) s.dev) :=
  gives_negotiated rfl ready (if_pos (by rw [decide_eq_true other, Bool.true_or]))

theorem gives_challenge_slot (ready : Negotiated s.dev) (other : slot ≠ 0) :
    Gives (.challenge slot nonce) s (respond (spdmError 1) s.dev) := gives_negotiated rfl ready (if_pos other)

theorem gives_challenge (ready : Negotiated s.dev) (zero : slot = 0) : ∃ (v : BitVec 256) (sig : BitVec 768),
    Gives (.challenge slot nonce) s (respond ([0x12, 0x03, 0, 1] ++ hashBytes (sha384 s.dev.flash.cert) ++ toLe 32 v.toNat ++
      sigBytes sig) { s.dev with free := s.dev.free + 2 }) :=
  ⟨_, _, gives_negotiated rfl ready (if_neg (not_not.mpr zero))⟩

/-- Where there is a measurement block of an index, the index is listed, and only there. -/
theorem mem_measIndexes {d : Dev} {i : Nat} : i ∈ measIndexes d ↔ i < 32 ∧ (measBlock d i).isSome = true := by
  simp [measIndexes]

theorem length_measRaw {d : Dev} {i : Nat} {b : List Byte} (h : measBlock d i = some b) : (measRaw d i).length = b.length + 7 := by
  simp [measRaw, h, length_toLe]
  omega

/-- What GET_MEASUREMENTS answers with for one index. -/
def measBody (d : Dev) (i : Nat) : List Byte := [0x12, 0x60, 0, 0, 1] ++ toLe 3 (measRaw d i).length ++ measRaw d i

theorem gives_getMeasurements (ready : Negotiated s.dev) (low : 1 ≤ index.toNat) (high : index.toNat < 32)
    (there : (measBlock s.dev index.toNat).isSome = true) : Gives (.getMeasurements index sign nonce) s
      (if sign then signed (measBody s.dev index.toNat) nonce.toNat s.dev else respond (measBody s.dev index.toNat) s.dev) := by
  have listed : (measIndexes s.dev).contains index.toNat = true := List.contains_iff_mem.mpr (mem_measIndexes.mpr ⟨high, there⟩)
  refine gives_negotiated rfl ready ?_
  dsimp only
  rw [if_neg (by bv_omega), if_neg (by bv_omega), if_pos listed]
  rfl

theorem gives_getMeasurements_none (ready : Negotiated s.dev) (low : 1 ≤ index.toNat) (high : index.toNat < 255)
    (none_ : measBlock s.dev index.toNat = none) : Gives (.getMeasurements index sign nonce) s (respond (spdmError 1) s.dev) := by
  have unlisted : ¬ (measIndexes s.dev).contains index.toNat = true := fun listed => by
    obtain ⟨-, there⟩ := mem_measIndexes.mp (List.contains_iff_mem.mp listed)
    rw [none_] at there
    cases there
  refine gives_negotiated rfl ready ?_
  dsimp only
  rw [if_neg (by bv_omega), if_neg (by bv_omega), if_neg unlisted]

/-! ### Sessions -/

theorem gives_keyExchange_slot (ready : Negotiated s.dev) (other : slot ≠ 0) :
    Gives (.keyExchange slot half share) s (respond (spdmError 1) s.dev) := gives_negotiated rfl ready (if_pos other)

theorem gives_keyExchange_full (ready : Negotiated s.dev) (zero : slot = 0) (full : 4 ≤ s.dev.sec.sessions.length) :
    Gives (.keyExchange slot half share) s (respond (spdmError 3) s.dev) :=
  gives_negotiated rfl ready ((if_neg (not_not.mpr zero)).trans (if_pos full))

/-- A fifth session apart, KEY_EXCHANGE opens one whose identifier ends in the requester's half. -/
theorem gives_keyExchange (ready : Negotiated s.dev) (zero : slot = 0) (room : s.dev.sec.sessions.length < 4) :
    ∃ (e : Dev) (v : BitVec 16), Gives (.keyExchange slot half share) s e ∧
      e.sec = { s.dev.sec with sessions := s.dev.sec.sessions ++ [⟨v ++ half, false, 0⟩] } ∧
      e.out.resp.take 6 = [0x12, 0x64, 0, 0] ++ toLe 2 v.toNat ∧ { e with sec := s.dev.sec, out := s.dev.out, free := s.dev.free } = s.dev :=
  ⟨_, (draw 16 s.dev).1, gives_negotiated rfl ready ((if_neg (not_not.mpr zero)).trans (if_neg (Nat.not_le.mpr room))), rfl, rfl, rfl⟩

end

section
variable {s : State} {c : Instr} {id : BitVec 32} {f : Session → Dev → Dev} {e : Dev} {x : Session}

theorem gives_inSession (h : exec c s = on (inSession id f) s) (ready : Negotiated s.dev)
    (there : s.dev.sec.sessions.find? (fun x => x.id = id) = some x) (he : f x s.dev = e) : Gives c s e :=
  gives_negotiated h ready (by rw [there]; exact he)

theorem gives_inSession_none (h : exec c s = on (inSession id f) s) (ready : Negotiated s.dev)
    (none_ : s.dev.sec.sessions.find? (fun x => x.id = id) = none) : Gives c s (respond (spdmError 2) s.dev) :=
  gives_negotiated h ready (by rw [none_])

end

/-- Settles O51: the order by `gives_spdm_order`, the answers by each request's own equation. -/
theorem attestationFollowsItsExchange : Obligations.AttestationFollowsItsExchange := by
  unfold Obligations.AttestationFollowsItsExchange
  intro s asym hash dhe aead off len slot index nonce id half share sign ok st d answered inside rows ready fails hello
  refine ⟨?order, gives_getVersion, gives_getVersion_silent, fun responds due => ⟨_, gives_spdm rfl responds due rfl⟩,
    fun responds due => ⟨fun good => ?algorithms, fun bad => ?noAlgorithms⟩, fun ready => gives_negotiated rfl ready rfl,
    fun ready zero within => ⟨_, gives_getCertificate ready zero within, rfl⟩,
    fun ready other => ⟨gives_getCertificate_slot ready other, gives_challenge_slot ready other, gives_keyExchange_slot ready other⟩,
    gives_challenge, fun ready low high b there => ?measured, gives_getMeasurements_none, gives_keyExchange_full, gives_keyExchange,
    fun ready none_ c hc => ?noSession, fun ready x there opening => ⟨fun c hc => ?unfinished, fun good => ?finish, fun bad => ?spoilt⟩,
    fun ready x there open_ => ?established⟩
  case order =>
    intro c hc
    simp only [rows, inside, List.map_cons, List.map_nil, List.cons_append, List.nil_append, List.mem_cons, List.not_mem_nil, or_false] at hc
    obtain rfl | rfl | rfl | rfl | rfl | rfl | rfl | rfl | rfl | rfl | rfl | rfl := hc
    all_goals exact gives_spdm_order rfl
  case algorithms => exact gives_spdm rfl responds due (if_pos good)
  case noAlgorithms => exact gives_spdm rfl responds due (if_neg (bad ▸ Bool.false_ne_true))
  case measured =>
    have gives (sign : Bool) := gives_getMeasurements (sign := sign) (nonce := nonce) ready low high (there ▸ rfl)
    have body : measBody d index.toNat = [0x12, 0x60, 0, 0, 1] ++ toLe 3 (b.length + 7) ++ measRaw d index.toNat := by
      rw [measBody, length_measRaw there]
    rw [body] at gives
    constructor
    · rintro rfl
      exact gives false
    · rintro rfl
      exact ⟨_, gives true⟩
  case noSession =>
    simp only [inside, List.mem_cons, List.not_mem_nil, or_false] at hc
    obtain rfl | rfl | rfl | rfl | rfl := hc
    all_goals exact gives_inSession_none rfl ready none_
  case unfinished =>
    simp only [inside, List.drop_succ_cons, List.drop_zero, List.mem_cons, List.not_mem_nil, or_false] at hc
    obtain rfl | rfl | rfl | rfl := hc
    all_goals refine gives_inSession rfl ready there ?_
    · exact if_neg (opening ▸ Bool.false_ne_true)
    · rw [opening, if_neg Bool.false_ne_true]
    · exact if_neg (opening ▸ Bool.false_ne_true)
    · exact if_pos (opening ▸ rfl)
  case finish => exact gives_inSession rfl ready there ((if_neg (opening ▸ Bool.false_ne_true)).trans (if_pos good))
  case spoilt =>
    exact gives_inSession rfl ready there ((if_neg (opening ▸ Bool.false_ne_true)).trans (if_neg (bad ▸ Bool.false_ne_true)))
  case established =>
    refine ⟨gives_inSession rfl ready there (if_pos open_), gives_inSession rfl ready there ?_,
      gives_inSession rfl ready there (if_pos open_), gives_inSession rfl ready there (if_pos open_),
      _, gives_inSession rfl ready there (if_neg (by rw [open_]; decide)), rfl, fun k other => tget_tput_other _ _ other, _, tget_tput_same ..⟩
    rw [open_, if_pos rfl]

end Sys2Proof.Machine
end

section
/-!
O50, TokensMoveTheLifeCycle: nonces, the checks of a token, and what an accepted one does by its KIND (R399 to R403, Tables 16.6
to 16.8).
-/

namespace Sys2Proof.Machine

open Sys2Proof

/-! ### The erasure of the store's images -/

section
variable (d : Dev)

theorem imgs_deleteImage (slot : Nat) : (deleteImage slot d).store.imgs = tdel d.store.imgs slot ∨
    ((deleteImage slot d).store.imgs = d.store.imgs ∧ tget d.store.imgs slot = none) := by
  unfold deleteImage
  split
  · next none_ => exact .inr ⟨rfl, none_⟩
  · next i _ =>
    have erased (b : Nat × Nat) (e : Dev) : (journal 0x07 slot b.2 b.1 (eraseBlock b.2 e)).store.imgs = e.store.imgs := by
      unfold journal eraseBlock
      rfl
    have blocks := forEach_same (fun e : Dev => e.store.imgs) _ erased i.blocks (journal 0x05 slot 0 0 d)
    have opened : (journal 0x05 slot 0 0 d).store.imgs = d.store.imgs := rfl
    dsimp only at blocks ⊢
    rw [blocks, opened]
    exact .inl rfl

/-- An image that stands in no slot has no entry of its slot. -/
theorem not_mem_of_tget_none {α : Type} {t : Tab α} {k : Nat} (none_ : tget t k = none) : ∀ e ∈ t, e.1 ≠ k := by
  induction t with
  | nil => exact fun e he => absurd he List.not_mem_nil
  | cons b r ih =>
    rw [tget] at none_
    split at none_
    · cases none_
    · next other =>
      intro e he
      obtain rfl | he := List.mem_cons.mp he
      · exact other
      · exact ih none_ e he

/-- The deletion of an image leaves the images of the other slots alone. -/
theorem mem_imgs_deleteImage {slot : Nat} {e : Nat × ImgSlot} (he : e ∈ (deleteImage slot d).store.imgs) :
    e ∈ d.store.imgs ∧ e.1 ≠ slot := by
  obtain deleted | ⟨same, none_⟩ := imgs_deleteImage d slot
  · rw [deleted, tdel, List.mem_filter] at he
    exact ⟨he.1, by simpa using he.2⟩
  · rw [same] at he
    exact ⟨he, not_mem_of_tget_none none_ e he⟩

theorem mem_imgs_deleteImages (l : Tab ImgSlot) {e : Nat × ImgSlot} :
    e ∈ (forEach l (fun i d => deleteImage i.1 d) d).store.imgs → e ∈ d.store.imgs ∧ ∀ i ∈ l, e.1 ≠ i.1 := by
  induction l generalizing d with
  | nil => exact fun he => ⟨he, fun i hi => absurd hi List.not_mem_nil⟩
  | cons i r ih =>
    intro he
    obtain ⟨before, others⟩ := ih (deleteImage i.1 d) he
    obtain ⟨here, first⟩ := mem_imgs_deleteImage d before
    exact ⟨here, List.forall_mem_cons.mpr ⟨first, others⟩⟩

/-- Every image is gone, whatever the directory was. -/
theorem imgs_eraseImages : (eraseImages d).store.imgs = [] := by
  unfold eraseImages
  dsimp only
  generalize (if d.store.replayed then d else _) = c
  refine List.eq_nil_iff_forall_not_mem.mpr fun e he => ?_
  obtain ⟨here, others⟩ := mem_imgs_deleteImages c c.store.imgs he
  exact others e here rfl

theorem otp_eraseImages : (eraseImages d).otp = d.otp := (congrArg Dev.otp (storeless_eraseImages d) :)

theorem flash_eraseImages : (eraseImages d).flash = d.flash := (congrArg Dev.flash (storeless_eraseImages d) :)

end

/-! ### Transitions of the life cycle -/

/-- The owner and the model signing keys are gone, and every image with them. -/
structure Released (d e : Dev) : Prop where
  owner : e.otp.owner = none
  msk : e.flash.msk = []
  imgs : e.store.imgs = []

theorem lcMove_released {d e : Dev} (h : e = eraseImages { d with
    otp := { d.otp with owner := none }, flash := { d.flash with msk := [] } }) : Released d e := by
  subst h
  refine ⟨?_, ?_, imgs_eraseImages _⟩
  · rw [otp_eraseImages]
  · rw [flash_eraseImages]

theorem lcMove_owned (d : Dev) : lcMove 2 d = { d with otp := { d.otp with lc := 2, pending := none } } := rfl

theorem lcMove_fromField {d : Dev} (field : d.otp.lc = 2#3) : Released d (lcMove 1 d) := by
  have erased : lcErase 1 { d with otp := { d.otp with pending := some 1 } } = eraseImages { d with
      otp := { d.otp with pending := some 1, owner := none }, flash := { d.flash with msk := [] } } := if_pos field
  obtain ⟨owner, msk, imgs⟩ := lcMove_released (d := { d with otp := { d.otp with pending := some 1 } }) erased
  exact ⟨owner, msk, imgs⟩

theorem lcMove_provision {d : Dev} (blank : d.otp.lc = 0#3) : lcMove 1 d = { d with otp := { d.otp with lc := 1, pending := none } } := by
  have kept : lcErase 1 { d with otp := { d.otp with pending := some 1 } } = { d with otp := { d.otp with pending := some 1 } } :=
    if_neg (show ¬ d.otp.lc = 2#3 by rw [blank]; decide)
  unfold lcMove
  dsimp only
  rw [kept]

theorem cert_lcMove {d : Dev} (blank : d.otp.lc = 0#3) : (lcMove 1 d).flash.cert = d.flash.cert := by rw [lcMove_provision blank]

theorem lcMove_retired (d : Dev) : Released d (lcMove 3 d) := by
  obtain ⟨owner, msk, imgs⟩ := lcMove_released (d := { d with otp := { d.otp with pending := some 3 } }) (e := lcErase 3 _) rfl
  exact ⟨owner, msk, imgs⟩

theorem lcMove_void (d : Dev) : Released d (lcMove 4 d) := ⟨rfl, rfl, rfl⟩

/-! ### The effect of a token -/

section
variable {d : Dev} {a : Nat} {t : List Byte}

/-- What the effect of no token reaches: the nonce, host memory and the fault logic. -/
def untokened (d : Dev) : Option (BitVec 128) × Mem × Flt := (d.sec.nonce, d.host, d.flt)

theorem untokened_lcMove (target : BitVec 3) (d : Dev) : untokened (lcMove target d) = untokened d :=
  (congrArg untokened (unfused_lcMove d target) :)

theorem untokened_applyToken (a : Nat) (t : List Byte) (d : Dev) : untokened (applyToken a t d) = untokened d := by
  unfold applyToken
  split
  · rfl
  · rfl
  · rfl
  · exact (untokened_lcMove ..).trans rfl
  · exact untokened_lcMove ..
  · exact untokened_lcMove ..
  · exact untokened_lcMove ..
  · exact (untokened_lcMove ..).trans rfl
  · rfl

/-- KINDs below 5 leave the fuses, the weight store and the certificate alone. -/
theorem applyToken_low (low : lf t 6 1 < 5) : (applyToken a t d).otp = d.otp ∧ (applyToken a t d).store = d.store ∧
    (applyToken a t d).flash.cert = d.flash.cert := by
  unfold applyToken
  split
  case h_1 => exact ⟨rfl, rfl, rfl⟩
  case h_2 => exact ⟨rfl, rfl, rfl⟩
  case h_3 => exact ⟨rfl, rfl, rfl⟩
  case h_9 => exact ⟨rfl, rfl, rfl⟩
  all_goals omega

/-- No transition is left under way. -/
theorem applyToken_pending (low : 5 ≤ lf t 6 1) (high : lf t 6 1 ≤ 9) : (applyToken a t d).otp.pending = none := by
  have cases_ : lf t 6 1 = 5 ∨ lf t 6 1 = 6 ∨ lf t 6 1 = 7 ∨ lf t 6 1 = 8 ∨ lf t 6 1 = 9 := by omega
  obtain kind | kind | kind | kind | kind := cases_
  all_goals
    simp only [applyToken, kind]
    rfl

theorem applyToken_diag (kind : lf t 6 1 = 2) : (applyToken a t d).sec.diag = true := by simp only [applyToken, kind]

theorem applyToken_scope (kind : lf t 6 1 = 3) : (applyToken a t d).sec.bistScope = some (BitVec.ofNat 8 (lf t 0x20 1)) := by
  simp only [applyToken, kind]

theorem applyToken_msk (kind : lf t 6 1 = 4) (mac : d.flash.macOk = true) : (applyToken a t d).flash.msk =
    if lf t 0x31 1 = 0 then tput d.flash.msk (lf t 0x30 1) (keyOf (sl t 0x50 96)) else tdel d.flash.msk (lf t 0x30 1) := by
  simp only [applyToken, kind, mac, if_true]

/-- KIND 5 makes the key's owner the owner. -/
theorem applyToken_owner (kind : lf t 6 1 = 5) : let e := applyToken a t d
    e.otp.lc = 2#3 ∧ e.otp.owner = some d.otp.owners.length ∧ e.store = d.store ∧
      tget e.otp.owners d.otp.owners.length = some (keyHash (keyOf (sl t 0x50 96))) := by
  simp only [applyToken, kind, lcMove_owned, true_and]
  exact ⟨rfl, tget_tput_same ..⟩

theorem applyToken_release (kind : lf t 6 1 = 6) (field : d.otp.lc = 2#3) : let e := applyToken a t d
    e.otp.lc = 1#3 ∧ e.otp.owner = none ∧ e.flash.msk = [] ∧ e.store.imgs = [] := by
  obtain ⟨owner, msk, imgs⟩ := lcMove_fromField field
  simp only [applyToken, kind]
  exact ⟨rfl, owner, msk, imgs⟩

theorem applyToken_retire (kind : lf t 6 1 = 7) : let e := applyToken a t d
    e.otp.lc = 3#3 ∧ e.otp.owner = none ∧ e.flash.msk = [] ∧ e.store.imgs = [] := by
  obtain ⟨owner, msk, imgs⟩ := lcMove_retired d
  simp only [applyToken, kind]
  exact ⟨rfl, owner, msk, imgs⟩

theorem applyToken_void (kind : lf t 6 1 = 8) : let e := applyToken a t d
    e.otp.lc = 4#3 ∧ e.otp.owner = none ∧ e.flash.msk = [] ∧ e.flash.cert = [] ∧ e.store.imgs = [] ∧ e.store.bytes = [] ∧
      e.otp.seed = BitVec.allOnes 384 := by
  simp only [applyToken, kind]
  exact ⟨rfl, rfl, rfl, rfl, rfl, rfl, rfl⟩

theorem applyToken_provision (kind : lf t 6 1 = 9) (blank : d.otp.lc = 0#3) : let e := applyToken a t d
    e.otp.lc = 1#3 ∧ e.flash.cert = hostRd d (a + 272) 4096 := by
  simp only [applyToken, kind]
  refine ⟨rfl, (cert_lcMove ?_).trans rfl⟩
  exact blank

/-! ### The checks -/

/-- A token that passes has used the nonce, and its KIND fits the life-cycle state (Table 16.6). -/
theorem checkToken_passes {len : Nat} {install : Bool} (passes : (checkToken d len install t).1 = none) :
    (checkToken d len install t).2 = true ∧ tokenState (lf t 6 1) d.otp.lc.toNat = true := by
  unfold checkToken at passes ⊢
  dsimp only at passes ⊢
  split at passes
  · cases passes
  split at passes
  · cases passes
  split at passes
  · cases passes
  split at passes
  · cases passes
  next fields serial nonce state =>
  rw [if_neg fields, if_neg serial, if_neg nonce, if_neg state]
  split at passes
  · cases passes
  split at passes
  · cases passes
  split at passes
  · cases passes
  next empty owners signed =>
  rw [if_neg empty, if_neg owners, if_neg signed]
  simp only [Bool.or_eq_true, not_or, Bool.not_eq_true', Bool.not_eq_false] at state
  exact ⟨rfl, state.1⟩

theorem lc_of_tokenState_release (kind : lf t 6 1 = 6) (state : tokenState (lf t 6 1) d.otp.lc.toNat = true) : d.otp.lc = 2#3 := by
  rw [kind] at state
  exact BitVec.eq_of_toNat_eq (of_decide_eq_true state)

theorem lc_of_tokenState_provision (kind : lf t 6 1 = 9) (state : tokenState (lf t 6 1) d.otp.lc.toNat = true) : d.otp.lc = 0#3 := by
  rw [kind] at state
  exact BitVec.eq_of_toNat_eq (of_decide_eq_true state)

end

/-! ### TOKEN_APPLY -/

/-- The nonce is used up. -/
def nonceSpent (d : Dev) : Dev := { d with sec := { d.sec with nonce := none } }

/-- An accepted token is noted in the fault history and the ephemerides. -/
def tokenNoted (kind : Nat) (d : Dev) : Dev :=
  ephAll false 0x22 (0x700 + 0x0703 * 2 ^ 14 + kind * 2 ^ 30) (raise 0 0x700 0x0703 0xFF kind d)

/-- The answer to an accepted token: the life-cycle state. -/
def tokenAnswered (m : Nat) (d : Dev) : Dev := answer m stOk 0 (toLe 1 d.otp.lc.toNat) d

section
variable {s : State} {m : Fin 64} {d : Dev}

theorem unraised_tokenNoted (kind : Nat) (d : Dev) : unraised (tokenNoted kind d) = unraised d :=
  (unraised_of_records (recordsOnly_ephAll ..)).trans (unraised_raise (by decide) (by decide) ..)

theorem entered_tokenNoted (kind : Nat) (d : Dev) : Entered 0 0x700 0x0703 d (tokenNoted kind d) := by
  refine (raise_entered 0 0x700 0x0703 0xFF kind d).of_tget ?_
  rw [tokenNoted, (recordsOnly_ephAll ..).flt]

/-- The units a token may change. -/
def tokenUnits (d : Dev) : Sec × Otp × Flash × Store × Mem := (d.sec, d.otp, d.flash, d.store, d.host)

theorem tokenUnits_of_unraised {c d : Dev} (h : unraised c = unraised d) : tokenUnits c = tokenUnits d := (congrArg tokenUnits h :)

theorem tokenUnits_answer (m st reason : Nat) (pl : List Byte) (d : Dev) : tokenUnits (answer m st reason pl d) = tokenUnits d :=
  (congrArg tokenUnits (answer_frame m st reason pl d) :)

/-- They stand in the answered module as the token left them. -/
theorem tokenUnits_answered (m kind : Nat) (d : Dev) : tokenUnits (tokenAnswered m (tokenNoted kind d)) = tokenUnits d :=
  (tokenUnits_answer ..).trans (tokenUnits_of_unraised (unraised_tokenNoted kind d))

theorem Entered.answer {cls src cause : Nat} {d c : Dev} (h : Entered cls src cause d c) (m st reason : Nat) (pl : List Byte) :
    Entered cls src cause d (answer m st reason pl c) := by
  have flt : (Machine.answer m st reason pl c).flt = c.flt := (congrArg Dev.flt (answer_frame m st reason pl c) :)
  exact h.of_tget (by rw [flt])

theorem entered_tokenAnswered (m kind : Nat) (d : Dev) : Entered 0 0x700 0x0703 d (tokenAnswered m (tokenNoted kind d)) :=
  (entered_tokenNoted kind d).answer ..

/-- The answer holds the life-cycle state that the module is left in. -/
theorem lc_tokenAnswered (m : Nat) (d : Dev) :
    rdN (getMbx (tokenAnswered m d) m).reply 16 1 = (tokenAnswered m d).otp.lc.toNat := by
  have otp : (tokenAnswered m d).otp = d.otp := (congrArg Dev.otp (answer_frame ..) :)
  rw [otp, tokenAnswered, rdN_answer]
  have small := d.otp.lc.isLt
  omega

theorem gives_tokenApply_nonce (turn : Turn 0x0705 m.val s.dev) (op : lf (payload s.dev m.val) 0 1 = 0) :
    ∃ v : BitVec 128, Gives (.tokenApply m) s (answer m.val stOk 0 (toLe 16 v.toNat)
      { s.dev with free := s.dev.free + 1, sec := { s.dev.sec with nonce := some v } }) :=
  ⟨(draw 128 s.dev).1, gives_turn rfl turn (by dsimp only; rw [op]; rfl)⟩

theorem gives_tokenApply_bad (turn : Turn 0x0705 m.val s.dev) (op : 1 < lf (payload s.dev m.val) 0 1) :
    Gives (.tokenApply m) s (answer m.val stBadArg 0 [] s.dev) := by
  refine gives_turn rfl turn ?_
  dsimp only
  split
  · omega
  · omega
  · rfl

theorem gives_tokenApply_unread (turn : Turn 0x0705 m.val s.dev) (op : lf (payload s.dev m.val) 0 1 = 1)
    (bad : hostOk s.dev (lf (payload s.dev m.val) 8 8) 272 = false) :
    Gives (.tokenApply m) s (answer m.val stIntegrity 0 [] s.dev) := by
  refine gives_turn rfl turn ?_
  dsimp only
  rw [op]
  exact if_pos (by rw [bad]; rfl)

section
variable (turn : Turn 0x0705 m.val s.dev) (op : lf (payload s.dev m.val) 0 1 = 1)
  (read : hostOk s.dev (lf (payload s.dev m.val) 8 8) 272 = true)
include turn op read

/-- A token that fails a check is answered with the first that it fails. -/
theorem gives_tokenApply_refused {st r : Nat} {used : Bool}
    (fails : checkToken s.dev 272 false (hostRd s.dev (lf (payload s.dev m.val) 8 8) 272) = (some (st, r), used)) :
    Gives (.tokenApply m) s (answer m.val st r [] (if used then nonceSpent s.dev else s.dev)) := by
  refine gives_turn rfl turn ?_
  dsimp only
  rw [op]
  refine (if_neg (by rw [read]; decide)).trans ?_
  rw [fails]
  rfl

/-- A token that passes has its effect, is noted and answered. -/
theorem gives_tokenApply (passes : (checkToken s.dev 272 false (hostRd s.dev (lf (payload s.dev m.val) 8 8) 272)).1 = none) :
    Gives (.tokenApply m) s (tokenAnswered m.val (tokenNoted (lf (hostRd s.dev (lf (payload s.dev m.val) 8 8) 272) 6 1)
      (applyToken (lf (payload s.dev m.val) 8 8) (hostRd s.dev (lf (payload s.dev m.val) 8 8) 272) (nonceSpent s.dev)))) := by
  obtain ⟨used, -⟩ := checkToken_passes passes
  refine gives_turn rfl turn ?_
  dsimp only
  rw [op]
  refine (if_neg (by rw [read]; decide)).trans ?_
  rw [passes, used]
  dsimp only
  rw [if_pos rfl]
  unfold tokenAnswered tokenNoted nonceSpent
  dsimp only

/-- What a token that passes leaves: the units as its effect left them, the NOTE and the answer. -/
theorem tokenApply_leaves (passes : (checkToken s.dev 272 false (hostRd s.dev (lf (payload s.dev m.val) 8 8) 272)).1 = none) :
    ∃ e, Gives (.tokenApply m) s e ∧ Answered m.val stOk e ∧ tokenUnits e = tokenUnits
      (applyToken (lf (payload s.dev m.val) 8 8) (hostRd s.dev (lf (payload s.dev m.val) 8 8) 272) (nonceSpent s.dev)) ∧
      Entered 0 0x700 0x0703 s.dev e ∧ rdN (getMbx e m.val).reply 16 1 = e.otp.lc.toNat := by
  have gives := gives_tokenApply turn op read passes
  have same := untokened_applyToken (lf (payload s.dev m.val) 8 8) (hostRd s.dev (lf (payload s.dev m.val) 8 8) 272) (nonceSpent s.dev)
  generalize applyToken _ _ (nonceSpent s.dev) = c at gives same ⊢
  exact ⟨_, gives, answered_answer (by decide), tokenUnits_answered .., (entered_tokenAnswered ..).of_flt (congrArg (·.2.2) same),
    lc_tokenAnswered ..⟩

end
end

/-- Settles O50: the refusals from the command's equation, and the effect of each KIND from `applyToken`'s, which the NOTE and the
answer leave as it is. -/
theorem tokensMoveTheLifeCycle : Obligations.TokensMoveTheLifeCycle := by
  unfold Obligations.TokensMoveTheLifeCycle
  intro s m turn d pl a t kind spent
  refine ⟨gives_tokenApply_nonce turn, gives_tokenApply_bad turn, gives_tokenApply_unread turn, fun op read =>
    ⟨fun st r used => gives_tokenApply_refused turn op read, fun passes => ?_⟩⟩
  obtain ⟨-, state⟩ := checkToken_passes passes
  have same := untokened_applyToken a t (nonceSpent d)
  obtain ⟨e, gives, done, units, entered, lc⟩ := tokenApply_leaves turn op read passes
  have sec : e.sec = (applyToken a t (nonceSpent d)).sec := congrArg (·.1) units
  have otp : e.otp = (applyToken a t (nonceSpent d)).otp := congrArg (·.2.1) units
  have flash : e.flash = (applyToken a t (nonceSpent d)).flash := congrArg (·.2.2.1) units
  have store : e.store = (applyToken a t (nonceSpent d)).store := congrArg (·.2.2.2.1) units
  have host : e.host = (applyToken a t (nonceSpent d)).host := congrArg (·.2.2.2.2) units
  refine ⟨e, gives, done, ?nonce, lc, entered, host.trans (congrArg (·.2.1) same), ?_⟩
  case nonce =>
    rw [sec]
    exact congrArg (·.1) same
  rw [sec, otp, flash, store]
  refine ⟨applyToken_diag, applyToken_scope, fun k4 mac put => ?put, fun k4 mac gone => ?gone, applyToken_low, applyToken_owner,
    fun k6 => applyToken_release k6 (lc_of_tokenState_release k6 state), applyToken_retire, applyToken_void,
    fun k9 => applyToken_provision k9 (lc_of_tokenState_provision k9 state), applyToken_pending⟩
  case put =>
    rw [applyToken_msk (d := nonceSpent d) k4 mac, if_pos put]
    exact ⟨tget_tput_same .., fun k other => tget_tput_other _ _ other⟩
  case gone =>
    rw [applyToken_msk (d := nonceSpent d) k4 mac, if_neg gone]
    exact tget_tdel_same ..

end Sys2Proof.Machine
end

section
/-!
O49, FabricKeepsThePlan, refuted: in a module whose table of partitions holds a record of partition 0 under number 1 (`Dev.partsWf`
excludes it, R385; the statement asks of the table only that partition 0 carries its own number), a GONE answer whose abandonment
escalates to a HALT ends a hold, and the hold's record (R36) puts the record under number 1 under the number it carries.
-/

namespace Sys2Proof.Machine

open Sys2Proof

/-- A GONE answer (R324, Table 12.2) of one record, which lists position 0 of port 0 in orbit 0. -/
def goneAnswer : Received where
  lport := 0
  pkt := { hdr := [0, 0, 0, 0, 2], payload := toLe 4 0 ++ [0, 2] ++ toLe 2 1 ++ toLe 4 0 ++ toLe 8 1 ++ toLe 192 0 }
  rx := 0

/-- The entry that it lists. -/
def listedEntry : Inbound where
  lport := 0
  pos := 0
  orbit := 0
  src := 0
  transfer := 0
  due := 0
  missing := true
  round2 := true
  round2At := none

/-- Partition 0, which runs and holds the answer. -/
def answeredPart : Part where
  pid := 0
  mask := 1
  plan := .running
  fab := { inbox := [goneAnswer], open_ := [listedEntry] }

/-- A tile of partition 0 whose WAIT holds. -/
def holdingTile : Tile := { wait := some { q := 28, n := 1, issue := 0, release := 0, met := none, hold := some 0, idx := 0 } }

/-- The module: the NOTE of an abandoned transfer escalates to a DEGRADE and that to a HALT at once. -/
def abandoningTable : Dev where
  parts := [(0, answeredPart), (1, misnumbered)]
  tiles := [(0, holdingTile)]
  flt := { esc := [(0x560, { noteLimit := 1, degLimit := 1 })] }
  glb := { mpReady := true }
  pwr := { resetHeld := false }

/-- The HALT ends the hold, whose record is written to both ephemerides: the record under number 1 now stands under number 0, and no GONE
answer has been counted there. -/
theorem goneRx_receipt_abandoning : (getPart (receipt 0 abandoningTable) 0).map (·.fab.goneRx) = some 0 := by decide +kernel

/-- The answer is the first receipt that partition 0 holds. -/
theorem first_receipt_answeredPart : answeredPart.fab.inbox.find? (fun e => pType e.pkt = 2) = some goneAnswer := by decide +kernel

/-- Refutes O49: a GONE answer need not be counted in its partition. In `abandoningTable` partition 0's record is overwritten by the one
under number 1 while the answer is carried out. -/
theorem not_fabricKeepsThePlan : ¬ Obligations.FabricKeepsThePlan := by
  unfold Obligations.FabricKeepsThePlan
  intro h
  have up : awake abandoningTable = true := by decide
  obtain ⟨-, -, received, -⟩ := h { dev := abandoningTable } 0 answeredPart rfl rfl
  obtain ⟨gone, -⟩ := received goneAnswer up first_receipt_answeredPart
  obtain ⟨e, y, gives, there, -, counted, -⟩ := gone (by decide)
  have stepped : Gives (.receipt 0) { dev := abandoningTable } (receipt 0 abandoningTable) := gives_whenAwake rfl up rfl
  have left : (getPart e (0 : Fin 16).val).map (·.fab.goneRx) = some 0 := stepped.unique gives ▸ goneRx_receipt_abandoning
  rw [there, Option.map_some, Option.some.injEq, counted] at left
  exact absurd left (by decide)

end Sys2Proof.Machine
end

section
/-!
SUPPORT. What a job is prepared with (R349) while its partition does not run: the fault events, the ports and the rounds of marks
leave it as it is, whatever they do to the partitions that run.
-/

namespace Sys2Proof.Machine

open Sys2Proof

set_option Elab.async false

/-- What no port and no fault event changes of a partition that does not run: its number, its plan's state and the job's preparation. -/
def jobKept (x : Part) : Nat × PlanSt × BitVec 16 × BitVec 16 × Nat × Nat × Nat :=
  (x.pid, x.plan, x.job.tag, x.job.epoch, x.job.rank, x.job.modules, x.job.discMs)

/-- A partition does not run, and stands with what `jobKept` says. -/
structure JobStands (q : Nat) (x : Part) (d : Dev) : Prop where
  numbered : d.partsWf
  still : x.plan ≠ .running
  there : ∃ y, getPart d q = some y ∧ jobKept y = jobKept x

variable {α : Type} {c : Prop} [Decidable c] {d e : Dev} {q p : Nat} {x : Part}

/-! ### Updates of the table of partitions -/

theorem JobStands.of_records (h : JobStands q x d) (r : RecordsOnly d e) : JobStands q x e := by
  obtain ⟨wf, still, y, hy, kept⟩ := h
  obtain ⟨z, hz, same⟩ := r.getPart_some wf hy
  exact ⟨r.partsWf wf, still, z, hz, (congrArg jobKept same :).trans kept⟩

theorem JobStands.of_parts (h : JobStands q x d) (same : e.parts = d.parts) : JobStands q x e := by
  have get (k : Nat) : getPart e k = getPart d k := congrArg (tget · k) same
  obtain ⟨wf, still, y, hy, kept⟩ := h
  exact ⟨fun k z hz => wf k z ((get k).symm.trans hz), still, y, (get q).trans hy, kept⟩

theorem JobStands.ite (h : JobStands q x d) (k : JobStands q x e) : JobStands q x (if c then d else e) :=
  iteInduction (motive := JobStands q x) (fun _ => h) fun _ => k

theorem JobStands.forEach {l : List α} {f : α → Dev → Dev} (h : JobStands q x d)
    (keep : ∀ a e, JobStands q x e → JobStands q x (f a e)) : JobStands q x (forEach l f d) := forEach_keeps _ f keep l d h

theorem JobStands.withPart {f : Part → Dev → Dev} (h : JobStands q x d)
    (keep : ∀ y, getPart d p = some y → JobStands q x (f y d)) : JobStands q x (withPart p f d) := by
  cases there : getPart d p with
  | none => rwa [withPart_none _ there]
  | some y =>
    rw [withPart_some _ there]
    exact keep y there

theorem pid_of_jobKept {y z : Part} (same : jobKept y = jobKept z) : y.pid = z.pid := (congrArg Prod.fst same :)

/-- A partition is written in place of one with the same preparation. -/
theorem JobStands.setPart {y z : Part} (h : JobStands q x d) (there : getPart d p = some y) (same : jobKept z = jobKept y := by exact rfl) :
    JobStands q x (setPart p z d) := by
  refine ⟨h.numbered.setPart (h.numbered.pid there) (pid_of_jobKept same), h.still, ?_⟩
  obtain ⟨w, hw, kept⟩ := h.there
  by_cases here : q = p
  · subst here
    rw [there] at hw
    cases hw
    exact ⟨z, getPart_setPart_same .., same.trans kept⟩
  · exact ⟨w, (getPart_setPart_other d z here).trans hw, kept⟩

theorem JobStands.modPart {f : Part → Part} (h : JobStands q x d) (same : ∀ y, jobKept (f y) = jobKept y := by exact fun _ => rfl) :
    JobStands q x (modPart p f d) := by
  cases there : getPart d p with
  | none =>
    have none_ : Machine.modPart p f d = d := by
      simp only [getPart] at there
      simp only [Machine.modPart, there]
    rwa [none_]
  | some y => exact modPart_some there f ▸ h.setPart there (same y)

theorem JobStands.modPart_other {f : Part → Part} (h : JobStands q x d) (pid : ∀ y, (f y).pid = y.pid) (other : q ≠ p) :
    JobStands q x (Machine.modPart p f d) := by
  obtain ⟨wf, still, y, hy, kept⟩ := h
  exact ⟨wf.modPart pid, still, y, (getPart_modPart_other d f other).trans hy, kept⟩

theorem JobStands.mapParts (f : Part → Part) (h : JobStands q x d) (same : ∀ y, jobKept (f y) = jobKept y) :
    JobStands q x { d with parts := d.parts.map (fun e => (e.1, f e.2)) } := by
  obtain ⟨wf, still, y, hy, kept⟩ := h
  refine ⟨wf.mapParts f fun y => pid_of_jobKept (same y), still, f y, ?_, (same y).trans kept⟩
  simp only [getPart] at hy
  simp only [getPart, tget_map, hy, Option.map_some]

theorem JobStands.modPort {f : Port → Port} (h : JobStands q x d) : JobStands q x (modPort p f d) := h.of_parts rfl

theorem JobStands.modJob {f : Job → Job} (h : JobStands q x d)
    (same : ∀ y, jobKept { y with job := f y.job } = jobKept y := by exact fun _ => rfl) : JobStands q x (modJob p f d) := h.modPart same

theorem parts_raiseVec (v : Nat) (d : Dev) : (raiseVec v d).parts = d.parts := ite_keeps Dev.parts rfl

theorem JobStands.raiseVec {v : Nat} (h : JobStands q x d) : JobStands q x (raiseVec v d) := h.of_parts (parts_raiseVec v d)

theorem JobStands.jobIrq (h : JobStands q x d) : JobStands q x (jobIrq p d) := h.raiseVec

theorem JobStands.answer {m st reason : Nat} {pl : List Byte} (h : JobStands q x d) : JobStands q x (answer m st reason pl d) :=
  h.of_parts (answer_parts ..)

/-! ### Fault events -/

theorem JobStands.endHolds (h : JobStands q x d) (y : Part) : JobStands q x (endHolds y d) := by
  obtain ⟨wf, still, z, hz, kept⟩ := h
  obtain ⟨wf', w, hw, same⟩ := Stands.endHolds (p := q) (x := z) ⟨wf, z, hz, rfl⟩ y
  exact ⟨wf', still, w, hw, (congrArg jobKept same :).trans kept⟩

theorem JobStands.eclipseAll (h : JobStands q x d) : JobStands q x (eclipseAll p d) :=
  h.withPart fun _ _ => .modPart (.ite (h.forEach fun _ _ k => k.of_records (recordsOnly_ephRec ..)) h)

theorem JobStands.parkTiles (h : JobStands q x d) : JobStands q x (parkTiles p d) := by
  refine h.withPart fun y _ => .of_parts (.modPart ?_) (parts_releasePins ..)
  exact h.forEach fun _ _ k => k.of_parts rfl

theorem JobStands.closed (h : JobStands q x d) (orbit : BitVec 32) : JobStands q x (closed p orbit d) :=
  .ite (h.eclipseAll.of_records (recordsOnly_closeDigest ..)) h

/-- Only what runs leaves RUNNING. -/
theorem JobStands.leaveRunning (h : JobStands q x d) (p : Nat) : JobStands q x (leaveRunning p d) := by
  cases here : getPart d p with
  | none => rwa [Machine.leaveRunning, withPart_none _ here]
  | some y =>
    by_cases runs : y.plan = .running
    · have other : q ≠ p := by
        rintro rfl
        obtain ⟨z, hz, kept⟩ := h.there
        rw [here] at hz
        cases hz
        exact h.still ((congrArg (·.2.1) kept).symm.trans runs)
      rw [leaveRunning_running here runs]
      have left := (h.endHolds y).modPart_other
        (f := leaving (active y && decide (y.tick < (y.info.map (·.orbitLen)).getD 0))) (fun _ => rfl) other
      exact JobStands.closed (.ite left left.parkTiles) _
    · rwa [leaveRunning_stands here runs]

theorem JobStands.haltParts {part : Nat} (h : JobStands q x d) : JobStands q x (haltParts part d) :=
  .ite (h.forEach fun e _ k => k.leaveRunning e.1) (h.leaveRunning part)

theorem JobStands.sealModule (h : JobStands q x d) : JobStands q x (sealModule d) :=
  (h.mapParts (fun y => { y with job := { y.job with st := .none_ } }) fun _ => rfl).of_parts rfl

variable {cls src cause part detail : Nat}

theorem JobStands.recordEvent (h : JobStands q x d) : JobStands q x (recordEvent cls src cause part detail d) := by
  obtain ⟨f, -, recorded⟩ := recordEvent_records cls src cause part detail d
  have entered : JobStands q x { d with flt := f } := h.of_parts rfl
  exact entered.of_records recorded

theorem JobStands.enterEvent (h : JobStands q x d) : JobStands q x (enterEvent cls src cause part detail d) :=
  .ite (.sealModule (.ite h.recordEvent.haltParts h.recordEvent)) (.ite h.recordEvent.haltParts h.recordEvent)

theorem JobStands.setEsc {t : Esc} (h : JobStands q x d) : JobStands q x (setEsc src t d) := h.of_parts rfl

theorem JobStands.raiseDegrade {u : Option (Nat × Nat × Nat)} (h : JobStands q x d) :
    JobStands q x (raiseDegrade src cause part detail u d) :=
  .ite h.enterEvent.setEsc.enterEvent h.enterEvent.setEsc

theorem JobStands.addPending {sub unit block : Nat} (h : JobStands q x d) : JobStands q x (addPending sub unit block d) :=
  h.of_parts rfl

theorem JobStands.settleStep {throttle : Bool} (h : JobStands q x d) : JobStands q x (settleStep throttle d) :=
  .ite (h.of_parts rfl) (.ite (h.of_parts rfl) h)

theorem JobStands.setPwr {pwr : Pwr} (h : JobStands q x d) : JobStands q x { d with pwr } := h.of_parts rfl

theorem JobStands.lowerTide (h : JobStands q x d) : JobStands q x (lowerTide d) := h.setPwr.settleStep

theorem JobStands.raise (h : JobStands q x d) : JobStands q x (raise cls src cause part detail d) := by
  unfold Machine.raise
  split
  · extract_lets _ _ noted u degraded queued
    have k : JobStands q x degraded := h.enterEvent.setEsc.raiseDegrade
    have l : JobStands q x queued := by
      unfold queued
      clear_value u
      split
      · exact k.addPending
      · exact k
    exact .ite (.ite l.lowerTide l) h.enterEvent.setEsc
  · exact h.raiseDegrade
  · exact h.enterEvent

/-! ### The fabric -/

variable {pid : Nat}

theorem JobStands.enqueueComet {kind : CometKind} {pkt : Packet} {second : Bool} (h : JobStands q x d) :
    JobStands q x (enqueueComet pid p kind pkt second d) :=
  .ite h.modPart h.modPort

theorem JobStands.abandon {f : Inbound → Bool} (h : JobStands q x d) : JobStands q x (abandon pid f d) := by
  unfold Machine.abandon
  refine h.withPart fun y there => ?_
  dsimp only
  split
  · exact h
  · have written := h.setPart there (z := { y with fab := { y.fab with
      open_ := y.fab.open_.filter (fun e => !f e), abandoned := satAdd y.fab.abandoned (y.fab.open_.filter f).length
      abandonNow := true, allFence := true } })
    exact .ite written (.ite (written.raise.of_records (recordsOnly_ephRec ..)) written.raise)

theorem JobStands.queueMark {m : MarkSet} {y : Part} (h : JobStands q x d) : JobStands q x (queueMark y m d) :=
  h.forEach fun _ _ k => k.enqueueComet

theorem jobKept_putMark (m : MarkSet) (y : Part) : jobKept (putMark m y) = jobKept y := ite_keeps jobKept rfl

theorem jobKept_completeMark (m : MarkSet) (mt : BitVec 64) (y : Part) : jobKept (completeMark m mt y) = jobKept y := jobKept_putMark ..

theorem JobStands.advanceMarks {orbit : BitVec 32} {fuel : Nat} (h : JobStands q x d) :
    JobStands q x (advanceMarks pid orbit fuel d) := by
  induction fuel generalizing d with
  | zero => exact h
  | succ n ih =>
    unfold Machine.advanceMarks
    split
    · exact h
    · next y there =>
      split
      · exact h
      · refine .ite h (.ite (h.setPart there (jobKept_completeMark ..)) ?_)
        split
        · exact h
        · exact ih (h.setPart there (jobKept_putMark ..)).queueMark

theorem JobStands.fabricLoses {y : Part} (h : JobStands q x d) : JobStands q x (fabricLoses y p d) :=
  h.modPort.modPart.abandon.forEach fun _ _ k => k.advanceMarks

/-! ### The ports -/

theorem JobStands.portLeft (h : JobStands q x d) : JobStands q x (portLeft p d) := by
  unfold Machine.portLeft
  split
  · exact h
  · next y _ =>
    have lost : JobStands q x (if y.plan = .running then Machine.fabricLoses y p d else d) := .ite h.fabricLoses h
    dsimp only
    split
    · exact lost
    · split
      · exact lost.modJob.modJob
      · exact lost.modJob.modJob.jobIrq
      · exact lost.modJob

theorem JobStands.movePort {st : PortSt} {f : Port → Port} (h : JobStands q x d) : JobStands q x (movePort p st f d) :=
  .ite h.modPort.portLeft h.modPort

theorem JobStands.portDown {lane : Nat} (h : JobStands q x d) : JobStands q x (portDown p cause lane d) := by
  unfold Machine.portDown
  exact h.movePort.raise

theorem JobStands.setDark (h : JobStands q x d) : JobStands q x (setDark p d) := .ite h.modPort.movePort h.modPort

theorem JobStands.assignStripes (h : JobStands q x d) : JobStands q x (assignStripes p d) := by
  unfold Machine.assignStripes
  dsimp only
  split
  · exact h
  · split
    · exact h.modPort
    · exact .ite h.modPort h.modPort
    · exact h.portDown

theorem JobStands.enterTraining (h : JobStands q x d) : JobStands q x (enterTraining p d) :=
  .ite h.movePort.setDark h.movePort.assignStripes

theorem JobStands.clearDark (h : JobStands q x d) : JobStands q x (clearDark p d) := .ite h.modPort.enterTraining h.modPort

theorem JobStands.writeJobId {v : BitVec 32} (h : JobStands q x d) : JobStands q x (writeJobId p v d) :=
  .ite h.modPort h.modPort.enterTraining

theorem JobStands.allGood (h : JobStands q x d) : JobStands q x (allGood p d) :=
  h.withPart fun _ there => .ite (h.setPart there).jobIrq h

end Sys2Proof.Machine
end

section
/-! The obligation of the job commands (R334, R345, R348 to R353, R355, R359). -/

namespace Sys2Proof.Machine

open Sys2Proof

set_option Elab.async false

theorem exec_rankWrite (m : Fin 64) (s : State) : exec (.rankWrite m) s = execRankWrite m s := rfl
theorem exec_jobPrepare (m : Fin 64) (s : State) : exec (.jobPrepare m) s = execJobPrepare m s := rfl
theorem exec_jobGo (m : Fin 64) (s : State) : exec (.jobGo m) s = execJobGo m s := rfl
theorem exec_jobStop (m : Fin 64) (s : State) : exec (.jobStop m) s = execJobStop m s := rfl
theorem exec_ckptTake (m : Fin 64) (s : State) : exec (.ckptTake m) s = execCkptTake m s := rfl
theorem exec_ckptRestore (m : Fin 64) (s : State) : exec (.ckptRestore m) s = execCkptRestore m s := rfl
theorem exec_routeSwitch (m : Fin 64) (s : State) : exec (.routeSwitch m) s = execRouteSwitch m s := rfl

theorem answer_ranks (m st reason : Nat) (pl : List Byte) (d : Dev) : (answer m st reason pl d).ranks = d.ranks :=
  (congrArg Dev.ranks (answer_frame m st reason pl d) :)

section
variable {m : Fin 64} {s : State} {x : Part}

theorem leNat_lt : ∀ l : List Byte, leNat l < 256 ^ l.length
  | [] => by decide
  | b :: r => by
    have rest := leNat_lt r
    have low := b.isLt
    simp only [leNat, List.length_cons, Nat.pow_succ]
    omega

/-- A field of eight bytes is less than 2^64. -/
theorem lf_lt (l : List Byte) (o : Nat) : lf l o 8 < 2 ^ 64 := by
  refine (leNat_lt _).trans_le ?_
  have short : ((l.drop o).take 8).length ≤ 8 := List.length_take_le ..
  exact (Nat.pow_le_pow_right (by decide) short).trans_eq (by decide)

/-! ### RANK_WRITE (R345) -/

/-- The entry of the host's list in a place. -/
def rankEntry (d : Dev) (a i : Nat) : Nat := leNat (hostRd d (a + 4 * i) 4)

/-- A module whose rank table has the host's list from an entry on. -/
def writeRanks (first n a : Nat) (d : Dev) : Dev :=
  forEach (List.range n) (fun i e => { e with ranks := tput e.ranks (first + i) (BitVec.ofNat 32 (leNat (hostRd e (a + 4 * i) 4))) }) d

/-- The list lies in the host's memory, which the writes leave as it is. -/
theorem writeRanks_eq (first n a : Nat) (d : Dev) : writeRanks first n a d =
    { d with ranks := putAll (first + ·) (fun i => BitVec.ofNat 32 (rankEntry d a i)) (List.range n) d.ranks } := by
  unfold writeRanks putAll
  generalize List.range n = l
  induction l generalizing d with
  | nil => rfl
  | cons i l ih => exact ih { d with ranks := tput d.ranks (first + i) (BitVec.ofNat 32 (rankEntry d a i)) }

/-- The entries that RANK_WRITE names are some, and lie in one half of the table. -/
def RanksNamed (pl : List Byte) : Prop := lf pl 0 1 ≤ 1 ∧ 1 ≤ lf pl 4 2 ∧ lf pl 4 2 ≤ 1024 ∧ lf pl 2 2 + lf pl 4 2 ≤ 16384

theorem not_badRanks {pl : List Byte} (named : RanksNamed pl) :
    ¬ (decide (1 < lf pl 0 1) || decide (lf pl 4 2 = 0) || decide (1024 < lf pl 4 2) || decide (16384 < lf pl 2 2 + lf pl 4 2)) = true := by
  obtain ⟨half, some_, room, inside⟩ := named
  simp only [Bool.or_eq_true, decide_eq_true_eq]
  omega

theorem gives_rankWrite_denied (t : PartTurn 0x0601 m x s.dev) (named : RanksNamed (payload s.dev m))
    (denied : rankDenied s.dev (lf (payload s.dev m) 0 1) = true) : Gives (.rankWrite m) s (answer m stDenied 0 [] s.dev) := by
  refine gives_partTurn (exec_rankWrite m s) t ?_
  exact (if_neg (not_badRanks named)).trans (if_pos denied)

theorem gives_rankWrite (t : PartTurn 0x0601 m x s.dev) (named : RanksNamed (payload s.dev m)) :
    let pl := payload s.dev m
    rankDenied s.dev (lf pl 0 1) = false → hostOk s.dev (lf pl 8 8) (4 * lf pl 4 2) = true →
    (∀ i, i < lf pl 4 2 → rankBad x (rankEntry s.dev (lf pl 8 8) i) = false) →
    Gives (.rankWrite m) s (answer m stOk 0 [] (writeRanks (lf pl 0 1 * 16384 + lf pl 2 2) (lf pl 4 2) (lf pl 8 8) s.dev)) := by
  intro pl allowed host good
  refine gives_partTurn (exec_rankWrite m s) t ?_
  have none_bad : ¬ ((List.range (lf pl 4 2)).map (rankEntry s.dev (lf pl 8 8))).any (rankBad x) = true := by
    simpa using good
  exact (if_neg (not_badRanks named)).trans <| (if_neg (by simp [allowed, pl])).trans <| (if_neg (by simp [host, pl])).trans <|
    if_neg none_bad

/-! ### JOB_PREPARE (R348, R349) -/

/-- The reply of JOB_PREPARE, with every status. -/
def prepareReply (pl : List Byte) : List Byte := toLe 2 (lf pl 4 2) ++ toLe 2 0x9216 ++ toLe 1 0x42 ++ toLe 3 0

theorem gives_jobPrepare_refused {st : Nat} (t : PartTurn 0x0602 m x s.dev)
    (refused : prepareRefusal s.dev x (payload s.dev m) = some st) :
    Gives (.jobPrepare m) s (answer m st 0 (prepareReply (payload s.dev m)) s.dev) := by
  refine gives_partTurn (exec_jobPrepare m s) t ?_
  rw [refused]
  rfl

theorem gives_jobPrepare {i : PlanInfo} (t : PartTurn 0x0602 m x s.dev) (info : x.info = some i) :
    let pl := payload s.dev m
    prepareRefusal s.dev x pl = none → Gives (.jobPrepare m) s
      (answer m stOk 0 (prepareReply pl) (prepare x i (lf pl 0 2) (lf pl 2 2) (lf pl 4 2) (lf pl 6 2) s.dev)) := by
  intro pl passed
  refine gives_partTurn (exec_jobPrepare m s) t ?_
  rw [passed, info]
  rfl

/-- A plan that passes the checks is LOADED. -/
theorem loaded_of_prepareRefusal {d : Dev} {pl : List Byte} (passed : prepareRefusal d x pl = none) :
    ∃ i, x.info = some i ∧ x.plan = .loaded := by
  unfold prepareRefusal at passed
  split at passed
  · cases passed
  · next i info =>
    refine ⟨i, info, ?_⟩
    by_contra unloaded
    simp [unloaded] at passed

/-- A partition as JOB_PREPARE writes it first. -/
def preparedPart (x : Part) (i : PlanInfo) (tag epoch rank ms wall : Nat) : Part :=
  { x with
    job := { x.job with
      st := .preparing, lastFail := 0, tag := BitVec.ofNat 16 tag, epoch := BitVec.ofNat 16 epoch, rank := rank
      modules := i.topo.modules, discOk := 0, discMissing := 0, discMiswired := 0, discForeign := 0, discExtra := 0
      discAt := wall, discMs := if ms = 0 then 500 else ms }
    fab := setFabric i.topo (startEpoch x i.topo) x.fab }

/-- What the job is prepared with stands once its ports are set to train or held dark. -/
theorem jobStands_prepare {d : Dev} {i : PlanInfo} {tag epoch rank ms : Nat} (wf : d.partsWf) (here : getPart d x.pid = some x)
    (loaded : x.plan = .loaded) :
    JobStands x.pid (preparedPart x i tag epoch rank ms d.clk.wall) (prepare x i tag epoch rank ms d) := by
  unfold prepare
  extract_lets job _ y written ranked trained dark
  have first : JobStands x.pid (preparedPart x i tag epoch rank ms d.clk.wall) written :=
    ⟨wf.setPart (wf.pid here), by simp [preparedPart, loaded], y, getPart_setPart_same .., rfl⟩
  have second : JobStands x.pid (preparedPart x i tag epoch rank ms d.clk.wall) ranked := first.forEach fun _ _ k => k.modPort
  have third : JobStands x.pid (preparedPart x i tag epoch rank ms d.clk.wall) trained := second.forEach fun _ _ k => k.writeJobId
  exact JobStands.allGood (third.forEach fun _ _ k => k.setDark)

/-! ### JOB_GO (R351) -/

theorem gives_jobGo_unready (t : PartTurn 0x0603 m x s.dev) (unready : x.job.st ≠ .ready ∨ s.dev.mt.stratum = 0xFF#8) :
    Gives (.jobGo m) s (answer m stNotReady 0 [] s.dev) := by
  refine gives_partTurn (exec_jobGo m s) t ?_
  refine if_pos ?_
  obtain state | time := unready
  · simp [state]
  · simp [time]

/-- What lets JOB_GO pass: the job is READY, and the module has had machine time for 100 ms. -/
def GoReady (x : Part) (d : Dev) : Prop :=
  x.job.st = .ready ∧ d.mt.stratum ≠ 0xFF#8 ∧ ∃ t, d.mt.since = some t ∧ t + msG 100 ≤ d.clk.wall

theorem jobGo_ready {d : Dev} (ready : GoReady x d) : ¬ (decide (x.job.st ≠ .ready) || decide (d.mt.stratum = 0xFF#8) ||
    (match d.mt.since with
      | some t => decide (d.clk.wall < t + msG 100)
      | none => true)) = true := by
  obtain ⟨state, time, t, since, old⟩ := ready
  simp [state, time, since, old]

theorem gives_jobGo_late (t : PartTurn 0x0603 m x s.dev) (ready : GoReady x s.dev)
    (late : lf (payload s.dev m) 8 8 < s.dev.mt.mt.toNat + 1000000) : Gives (.jobGo m) s (answer m stLate 0 [] s.dev) := by
  refine gives_partTurn (exec_jobGo m s) t ?_
  exact (if_neg (jobGo_ready ready)).trans (if_pos late)

theorem gives_jobGo (t : PartTurn 0x0603 m x s.dev) (ready : GoReady x s.dev) (here : getPart s.dev x.pid = some x) :
    let pl := payload s.dev m
    s.dev.mt.mt.toNat + 1000000 ≤ lf pl 8 8 → Gives (.jobGo m) s (answer m stOk 0 [] (setPart x.pid { x with
      job := { x.job with st := .armed, startOrbit := BitVec.ofNat 32 (lf pl 0 4), startMt := BitVec.ofNat 64 (lf pl 8 8) } } s.dev)) := by
  intro pl time
  refine gives_partTurn (exec_jobGo m s) t ?_
  exact (if_neg (jobGo_ready ready)).trans <| (if_neg (Nat.not_lt.mpr time)).trans <|
    congrArg (answer m stOk 0 []) (modPart_some here _)

/-! ### JOB_STOP (R353) -/

theorem gives_jobStop (t : PartTurn 0x0604 m x s.dev) :
    Gives (.jobStop m) s (answer m stOk 0 [] (if x.job.st = .none_ then s.dev else jobStop x.pid s.dev)) :=
  gives_partTurn (exec_jobStop m s) t rfl

/-- What leaves RUNNING does not run. -/
theorem leaveRunning_still {d : Dev} (wf : d.partsWf) (here : getPart d x.pid = some x) :
    ∃ y, JobStands x.pid y (leaveRunning x.pid d) := by
  have has : HasPlan x.pid x.plan d := ⟨wf, x, here, rfl⟩
  by_cases runs : x.plan = .running
  · obtain ⟨wf', y, hy, stopped⟩ := (runs ▸ has).leaveRunning_stops
    exact ⟨y, wf', by simp [stopped], y, hy, rfl⟩
  · rw [leaveRunning_stands here runs]
    exact ⟨x, wf, runs, x, here, rfl⟩

/-- A job without its state, as JOB_STOP leaves it: a checkpoint that has not been captured ends ABORTED. -/
def stoppedJob (j : Job) : Job :=
  { j with
    st := .none_
    ckpt := j.ckpt.bind (fun c => if c.image.isSome then some c else none)
    ckptStatus := if j.ckpt.any (fun c => c.image.isNone) then BitVec.ofNat 8 stAborted else j.ckptStatus }

theorem getPart_jobStop {d : Dev} (wf : d.partsWf) (here : getPart d x.pid = some x) :
    ∃ y, getPart (jobStop x.pid d) x.pid = some y ∧ y.job.st = .none_ ∧ y.plan ≠ .running := by
  obtain ⟨y, stands⟩ := leaveRunning_still wf here
  obtain ⟨z, there, -⟩ := stands.there
  rw [jobStop, withPart_some _ there]
  obtain ⟨-, still, w, hw, kept⟩ := stands.forEach (l := partPorts z)
    (f := fun p e => clearDark p (modPort p (fun y => { y with hold := [], fabDown := false }) (writeJobId p 0 e)))
    fun _ _ k => k.writeJobId.modPort.clearDark
  have same : w.plan = y.plan := (congrArg (·.2.1) kept :)
  refine ⟨{ w with job := stoppedJob w.job }, ?_, rfl, fun runs => still (same.symm.trans runs)⟩
  exact (getPart_modPart_same ..).trans (congrArg (Option.map _) hw)

/-! ### CKPT_TAKE (R355) -/

theorem gives_ckptTake_unready (t : PartTurn 0x0605 m x s.dev) (idle : x.job.st ≠ .running) :
    Gives (.ckptTake m) s (answer m stNotReady 0 [] s.dev) :=
  gives_partTurn (exec_ckptTake m s) t (if_pos idle)

theorem gives_ckptTake_busy (t : PartTurn 0x0605 m x s.dev) (runs : x.job.st = .running) (busy : x.job.ckpt.isSome = true) :
    Gives (.ckptTake m) s (answer m stBusy 0 [] s.dev) :=
  gives_partTurn (exec_ckptTake m s) t ((if_neg (not_not.mpr runs)).trans (if_pos busy))

theorem gives_ckptTake (t : PartTurn 0x0605 m x s.dev) (here : getPart s.dev x.pid = some x) :
    let pl := payload s.dev m
    let k := BitVec.ofNat 32 (lf pl 0 4)
    x.job.st = .running → x.job.ckpt = none → orbitBefore x.orbit k = true → lf pl 16 8 % 4096 = 0 →
    x.job.ckptMax.toNat < lf pl 8 8 → 256 ≤ lf pl 24 8 → Gives (.ckptTake m) s (answer m stOk 0 [] (setPart x.pid { x with
      job := { x.job with ckpt := some ⟨k, BitVec.ofNat 64 (lf pl 8 8), lf pl 16 8, lf pl 24 8, none, none⟩ } } s.dev)) := by
  intro pl k runs free ahead aligned later room
  refine gives_partTurn (exec_ckptTake m s) t ?_
  have seq : (BitVec.ofNat 64 (lf pl 8 8)).toNat = lf pl 8 8 := by
    rw [BitVec.toNat_ofNat]
    exact Nat.mod_eq_of_lt (lf_lt pl 8)
  have good : ¬ (!orbitBefore x.orbit k || decide (lf pl 16 8 % 4096 ≠ 0) ||
      decide ((BitVec.ofNat 64 (lf pl 8 8)).toNat ≤ x.job.ckptMax.toNat) || decide (lf pl 24 8 < 256)) = true := by
    rw [seq]
    simp [ahead, aligned, later, room]
  exact (if_neg (not_not.mpr runs)).trans <| (if_neg (by simp [free])).trans <| (if_neg good).trans <|
    congrArg (answer m stOk 0 []) (modPart_some here _)

/-! ### CKPT_RESTORE (R357, R359) -/

/-- The checkpoint that CKPT_RESTORE names lies in the host's memory with its whole body, and the partition may take one. -/
def RestoreNamed (x : Part) (pl : List Byte) (d : Dev) : Prop :=
  let h := hostRd d (lf pl 0 8) 256
  x.plan = .loaded ∧ x.job.st = .none_ ∧ 256 + ckptBodyLen h ≤ lf pl 8 8 ∧ hostOk d (lf pl 0 8) 256 = true ∧
    hostOk d (lf pl 0 8 + 256) (ckptBodyLen h) = true

theorem gives_ckptRestore (t : PartTurn 0x0606 m x s.dev) :
    let pl := payload s.dev m
    let h := hostRd s.dev (lf pl 0 8) 256
    let body := hostRd s.dev (lf pl 0 8 + 256) (ckptBodyLen h)
    RestoreNamed x pl s.dev →
    (ckptValid h body = false → Gives (.ckptRestore m) s (answer m stIntegrity 0 [] s.dev)) ∧
    (ckptValid h body = true → some (hashOf (sl h 0x30 48)) = x.info.map (·.hash) →
      hashOf (sl h 0x60 48) = ((activeMan x).map (·.hash)).getD 0 → lf h 0x24 4 = 0 →
      Gives (.ckptRestore m) s (answer m stOk 0 [] (restore x h body s.dev))) := by
  intro pl h body named
  obtain ⟨loaded, idle, room, head, rest⟩ := named
  have free : ¬ (decide (x.plan ≠ .loaded) || decide (x.job.st ≠ .none_)) = true := by simp [loaded, idle]
  have header : ¬ (decide (lf pl 8 8 < 256) || !hostOk s.dev (lf pl 0 8) 256) = true := by
    simp only [head, Bool.not_true, Bool.or_false, decide_eq_true_eq]
    omega
  have whole : ¬ (decide (lf pl 8 8 < 256 + ckptBodyLen h) || !hostOk s.dev (lf pl 0 8 + 256) (ckptBodyLen h)) = true := by
    simp only [h, rest, Bool.not_true, Bool.or_false, decide_eq_true_eq]
    omega
  constructor
  · intro invalid
    refine gives_partTurn (exec_ckptRestore m s) t ?_
    exact (if_neg free).trans <| (if_neg header).trans <| (if_neg whole).trans <| if_pos (by simp [invalid, h, body, pl])
  · intro valid plan weights adapterless
    refine gives_partTurn (exec_ckptRestore m s) t ?_
    have same : ¬ (decide (some (hashOf (sl h 0x30 48)) ≠ x.info.map (·.hash)) ||
        decide (hashOf (sl h 0x60 48) ≠ ((activeMan x).map (·.hash)).getD 0)) = true := by simp [plan, weights]
    have adapters (r : Nat → Bool) : ¬ (List.range (lf h 0x24 4)).any r = true := by simp [adapterless]
    exact (if_neg free).trans <| (if_neg header).trans <| (if_neg whole).trans <| (if_neg (by simp [valid, h, body, pl])).trans <|
      (if_neg same).trans <| if_neg (adapters _)

/-- A partition with what a checkpoint brings back. -/
def restoredPart (h body : List Byte) (y : Part) : Part :=
  { y with
    srv := { y.srv with restarts := (List.range (lf h 0x20 4)).map (fun i => restartOf (sl body (64 * i) 64)), settled := [] }
    eph := { y.eph with prevHash := hashOf (sl h 0x90 48) }
    job := { y.job with restoredRank := some (lf h 6 2 % 16384) } }

theorem getPart_restore {d : Dev} (h body : List Byte) (here : getPart d x.pid = some x) :
    getPart (restore x h body d) x.pid = some (restoredPart h body x) := by
  unfold restore
  dsimp -zeta only
  extract_lets budgeted
  have same : budgeted.parts = d.parts := forEach_same Dev.parts _ (by exact fun _ _ => rfl) _ d
  have there : getPart budgeted x.pid = some x := (congrArg (tget · x.pid) same).trans here
  exact (getPart_modPart_same ..).trans (congrArg (Option.map _) there)

/-! ### ROUTE_SWITCH (R334) -/

theorem gives_routeSwitch_denied (t : PartTurn 0x0607 m x s.dev)
    (denied : x.job.rank ≠ 0 ∨ x.fab.mode.getLsbD 8 = false ∨
      orbitBefore (BitVec.ofNat 32 (lf (payload s.dev m) 0 4)) (x.orbit + 2) = true) :
    Gives (.routeSwitch m) s (answer m stDenied 0 [] s.dev) := by
  refine gives_partTurn (exec_routeSwitch m s) t (if_pos ?_)
  obtain rank | mode | late := denied
  · simp [rank]
  · simp only [mode, Bool.not_false, Bool.or_true, Bool.true_or]
  · simp only [late, Bool.or_true]

/-- The message that floods an epoch switch. -/
def switchMessage (k : BitVec 32) : List Byte := mgmtHeader 3 0 1 k.toNat ++ toLe 4 k.toNat

/-- A partition with its epoch switch set. -/
def switching (k : BitVec 32) (x : Part) : Part := { x with fab := { x.fab with switchAt := some k } }

theorem gives_routeSwitch (t : PartTurn 0x0607 m x s.dev) (here : getPart s.dev x.pid = some x) :
    let k := BitVec.ofNat 32 (lf (payload s.dev m) 0 4)
    x.job.rank = 0 → x.fab.mode.getLsbD 8 = true → orbitBefore k (x.orbit + 2) = false → Gives (.routeSwitch m) s
      (answer m stOk 0 [] (flood x.pid none (switchMessage k) (setPart x.pid (switching k x) s.dev))) := by
  intro k rank mode ahead
  refine gives_partTurn (exec_routeSwitch m s) t ?_
  have allowed : ¬ (decide (x.job.rank ≠ 0) || !x.fab.mode.getLsbD 8 || orbitBefore k (x.orbit + 2)) = true := by
    rw [ahead, mode, rank]
    decide
  refine (if_neg allowed).trans ?_
  exact congrArg (fun d => answer m stOk 0 [] (flood x.pid none (switchMessage k) d)) (modPart_some here _)

/-- A partition stands with this epoch switch. -/
def SwitchesAt (p : Nat) (k : Option (BitVec 32)) (d : Dev) : Prop := ∃ y, getPart d p = some y ∧ y.fab.switchAt = k

theorem SwitchesAt.enqueueComet {p q port : Nat} {k : Option (BitVec 32)} {kind : CometKind} {pkt : Packet} {second : Bool} {d : Dev}
    (h : SwitchesAt p k d) : SwitchesAt p k (enqueueComet q port kind pkt second d) := by
  obtain ⟨y, hy, at_⟩ := h
  unfold Machine.enqueueComet
  split
  · by_cases same : p = q
    · subst same
      exact ⟨_, (getPart_modPart_same ..).trans (congrArg (Option.map _) hy), at_⟩
    · exact ⟨y, (getPart_modPart_other d _ same).trans hy, at_⟩
  · exact ⟨y, hy, at_⟩

theorem SwitchesAt.flood {p : Nat} {k : Option (BitVec 32)} {except : Option Nat} {pl : List Byte} {d : Dev} (h : SwitchesAt p k d) :
    SwitchesAt p k (flood p except pl d) := by
  obtain ⟨y, hy, at_⟩ := h
  rw [Machine.flood, withPart_some _ hy]
  exact forEach_keeps (SwitchesAt p k) _ (fun _ _ h => h.enqueueComet) _ _ ⟨_, getPart_setPart_same .., at_⟩

end

/-- Settles O39: each command by its turn, the rank table entry by entry, and what job preparation and the end of a job leave of the
partition past what they do to its ports, which may raise fault events. -/
theorem jobCommands : Obligations.JobCommands := by
  unfold Obligations.JobCommands
  intro s m x wf here d pl entry rankKey n reply k
  refine ⟨fun t half some_ room inside => ?_, fun t => ?_, fun t time state known since old => ?_, fun t => gives_jobGo_unready t,
    fun t => ?_, fun t => ?_, fun t => ?_, fun t => ?_⟩
  · have named : RanksNamed pl := ⟨half, some_, room, inside⟩
    refine ⟨gives_rankWrite_denied t named, fun allowed host good =>
      ⟨_, gives_rankWrite t named allowed host good, answered_answer (by decide), ?_, ?_⟩⟩
    · intro i hi
      rw [answer_ranks, writeRanks_eq]
      exact tget_putAll_mem (f := (lf pl 0 1 * 16384 + lf pl 2 2 + ·))
        (List.nodup_range.imp fun apart same => apart (Nat.add_left_cancel same)) (List.mem_range.mpr hi)
    · intro j other
      rw [answer_ranks, writeRanks_eq]
      exact tget_putAll_other fun i hi => other i (List.mem_range.mp hi)
  · refine ⟨fun st refused => gives_jobPrepare_refused t refused, fun passed => ?_⟩
    obtain ⟨i, info, loaded⟩ := loaded_of_prepareRefusal passed
    obtain ⟨-, -, y, hy, kept⟩ := jobStands_prepare (i := i) (tag := lf pl 0 2) (epoch := lf pl 2 2) (rank := lf pl 4 2)
      (ms := lf pl 6 2) wf here loaded
    refine ⟨_, y, i, gives_jobPrepare t info passed, answered_answer (by decide), (getPart_answer ..).trans hy, info, ?_⟩
    simp only [jobKept, Prod.mk.injEq] at kept
    obtain ⟨-, -, tag, epoch, rank, modules, ms⟩ := kept
    exact ⟨tag, epoch, rank, modules, ms⟩
  · have ready : GoReady x s.dev := ⟨state, known, time, since, old⟩
    exact ⟨gives_jobGo_late t ready, gives_jobGo t ready here⟩
  · refine ⟨fun idle => ?_, fun busy => ?_⟩
    · have stopped := gives_jobStop t
      rwa [if_pos idle] at stopped
    · have stopped := gives_jobStop t
      rw [if_neg busy] at stopped
      obtain ⟨y, hy, gone, still⟩ := getPart_jobStop wf here
      exact ⟨_, y, stopped, answered_answer (by decide), (getPart_answer ..).trans hy, gone, still⟩
  · exact ⟨gives_ckptTake_unready t, gives_ckptTake_busy t, gives_ckptTake t here⟩
  · intro loaded idle room head rest
    obtain ⟨invalid, valid⟩ := gives_ckptRestore t ⟨loaded, idle, room, head, rest⟩
    refine ⟨invalid, fun good plan weights adapterless => ⟨_, _, valid good plan weights adapterless, answered_answer (by decide),
      (getPart_answer ..).trans (getPart_restore _ _ here), ?_, rfl, rfl, rfl⟩⟩
    exact (List.length_map ..).trans List.length_range
  · refine ⟨fun rank mode ahead => ?_, fun denied => gives_routeSwitch_denied t denied⟩
    have set : SwitchesAt x.pid (some k) (setPart x.pid (switching k x) d) := ⟨_, getPart_setPart_same .., rfl⟩
    obtain ⟨y, hy, at_⟩ := set.flood (except := none) (pl := switchMessage k)
    exact ⟨_, y, gives_routeSwitch t here rank mode ahead, answered_answer (by decide), (getPart_answer ..).trans hy, at_⟩

end Sys2Proof.Machine
end
